-- ==== Sys2Proof/Word.lean ====
section
/-! DEFINITION. The word types of the ZY9672 and nothing more (spec chapters 00 and 01). -/

namespace Sys2Proof

/-- A byte, the unit of every address space of the device. -/
abbrev Byte := BitVec 8

/-- A 64-bit word: a unit register, a record word, a data word without its tag. -/
abbrev W64 := BitVec 64

/-- A 72-bit word: 64 data bits below and the 8 tag bits above (Table 0-5, R245). -/
abbrev W72 := BitVec 72

/-- A sequence of bytes: a frame, a message, a record on the wire. -/
abbrev Bytes := List Byte

end Sys2Proof
end

