-- ==== Sys2Proof/Syntax.lean ====
section
/-! DEFINITION. The commands of the ZY9672: one constructor for each row of the table of operations and events. -/

namespace Sys2Proof

/-- What a dictionary request carries beside its kind and body (Table 17-4): the transport it arrived on (0 I3C,
1 SMBus, 2 HP0 VDM, 3 HP1 VDM, 4 fabric, 5 steward), the header fields as sent, and the 32-byte MAC
(absent outside a session). -/
structure DHdr where
  xport : Nat
  /-- the requester's endpoint id when the transport is the fabric, else 0 -/
  peer : BitVec 32
  dver : BitVec 8
  tag : BitVec 16
  sid : BitVec 32
  seq : BitVec 32
  blen : BitVec 16
  flags : BitVec 8
  status : BitVec 8
  mac : Bytes
  deriving DecidableEq, Repr

/-- A member's local result of a cascaded operation (R417): HIT, MULT, a second local match with the winner's D, the
winner's D, index and payload, for a READ the entry's key and V, and whether the member could insert. -/
structure CRes where
  hit : Bool := false
  mult : Bool := false
  dup : Bool := false
  d : BitVec 32 := 0
  index : Nat := 0
  pay : BitVec 64 := 0
  key : BitVec 128 := 0
  v : Bool := false
  room : Nat := 0
  deriving DecidableEq, Repr

/-- A request to the lock unit: OP (R378: 0 ACQUIRE try, 1 ACQUIRE queue, 2 RELEASE, 3 QUERY), lock, master, PRIO. -/
structure LockReq where
  op : Fin 4
  lock : Fin 4096
  master : BitVec 16
  prio : Fin 16
  deriving DecidableEq, Repr

/-- An ACQUIRE that queues: its PRIO, and the other requests that reach the unit in the same CCLK (R391). -/
structure LockCome where
  prio : Fin 16
  same : List LockReq
  deriving DecidableEq, Repr

/-- What a line brings with a frame: preamble bytes 1 to 6 (LLR), and the FEC codewords that the PCS corrected and could not
correct since the last frame (R120). -/
structure RxLine where
  pre : Bytes
  fecOk : Nat
  fecBad : Nat
  deriving DecidableEq, Repr

/-- What the comparator of a port sees: a differential peak amplitude in mV on lane 0 (R115). -/
structure RxLevel where
  port : Fin 8
  mv : Nat
  deriving DecidableEq, Repr

/-- Where LD64 reads, and what the SRAM word there proves to be: 0 sound, 1 corrected, 2 uncorrectable (R481). -/
structure Ld64At where
  disp : BitVec 18
  ecc : Fin 3
  deriving DecidableEq, Repr

/-- An operation record a cascade frame carries. -/
structure CRec where
  op : Nat
  wc : Nat
  auto : Bool
  consume : Bool
  hreq : Bool
  cls : Nat
  key : BitVec 128
  mask : BitVec 128
  pay : BitVec 64
  prio : BitVec 32
  index : Nat
  tcpos : Nat
  handle : Nat
  deriving DecidableEq, Repr

/-- What a member of the cascade tells in training (R414): CPOS, member mask, block classes, context selector value and
mask, OSEQ, BASE, RGEN. -/
structure CMember where
  pos : Nat
  mask : Nat
  classes : BitVec 48
  value : BitVec 32
  sel : BitVec 32
  oseq : BitVec 32
  base : BitVec 32
  rgen : BitVec 32
  deriving DecidableEq, Repr


/-- What a PCIe configuration request does: an access of no other effect here, a write that enables ATS, a write that enables
PRI and gives its Outstanding Page Request Allocation, or a request that needs a feature outside the subset (R517). -/
inductive CfgReq where
  | access
  | ats (on : Bool)
  | pri (on : Bool) (alloc : BitVec 32)
  | unsupported
  deriving DecidableEq, Repr

/-- How a debug command comes in (R643): a write of D100h.01 in an installer session, or the JTAG instruction DBG_CMD. -/
inductive DbgVia where
  | session (h : DHdr)
  | jtag
  deriving DecidableEq, Repr

/-- How a read-out is started (R651): a write of D010h.04 with its value, or the JTAG instruction DUMP. -/
inductive DumpVia where
  | session (h : DHdr) (v : Bytes)
  | jtag
  deriving DecidableEq, Repr

/-- The commands of the device. -/
inductive Instr where
  /-- PWR_GOOD_RISE (R629). Operands: BOOT_SEL and CPOS as sampled when RESET_N deasserts. -/
  | pwrGoodRise (bootSel cpos : BitVec 2)
  /-- PWR_GOOD_FALL (R662). -/
  | pwrGoodFall 
  /-- RESET_N_ASSERT (R629). Operands: BOOT_SEL and CPOS as sampled when RESET_N deasserts. -/
  | resetNAssert (bootSel cpos : BitVec 2)
  /-- DAWN_PHASE_END (R634). Operands: stacks whose training succeeded, when Dawn-2 ends (R490). -/
  | dawnPhaseEnd (trained : BitVec 4)
  /-- DAWN4_TIMEOUT (R636). -/
  | dawn4Timeout 
  /-- TIME_REQ_SEND (R46). Operands: sub-port. -/
  | timeReqSend (sp : Fin 16)
  /-- TIME_REQ_RECEIVE (R46). Operands: sub-port, sender's endpoint id, TIME payload. -/
  | timeReqReceive (sp : Fin 16) (srcEp : BitVec 32) (payload : Bytes)
  /-- TIME_RESP_RECEIVE (R48). Operands: sub-port, TIME payload. -/
  | timeRespReceive (sp : Fin 16) (payload : Bytes)
  /-- EXCHANGE_INTERVAL_END (R50). -/
  | exchangeIntervalEnd 
  /-- TIME_SET (R58). Operands: request header, value of 2002h.05. -/
  | timeSet (h : DHdr) (v : Bytes)
  /-- TIMEIN_EDGE (R56). -/
  | timeinEdge 
  /-- TIMEOUT_PULSE_START (R59). -/
  | timeoutPulseStart 
  /-- TIMEOUT_PULSE_END (R59). -/
  | timeoutPulseEnd 
  /-- PTP_MESSAGE_RECEIVE (R60). Operands: sub-port, transport 0 Ethernet 1 UDP/IPv4 2 UDP/IPv6 (others: none of them), message. -/
  | ptpMessageReceive (sp : Fin 16) (transport : Nat) (msg : Bytes)
  /-- FRAME_RECEIVE (R86). Operands: sub-port, preamble and FEC codewords, frame from the destination address through the FCS as it arrived. -/
  | frameReceive (sp : Fin 16) (rx : RxLine) (frame : Bytes)
  /-- PFC_REFRESH (R89). Operands: sub-port. -/
  | pfcRefresh (sp : Fin 16)
  /-- PFC_FRAME_RECEIVE (R90). Operands: sub-port, priority-enable vector, eight timers. -/
  | pfcFrameReceive (sp : Fin 16) (vector : BitVec 8) (timers : List (BitVec 16))
  /-- PAUSE_EXPIRY (R90). Operands: sub-port, priority. -/
  | pauseExpiry (sp : Fin 16) (prio : Fin 8)
  /-- CREDIT_LCF_SEND (R92). Operands: sub-port. -/
  | creditLcfSend (sp : Fin 16)
  /-- CREDIT_LCF_RECEIVE (R93). Operands: sub-port, eight cumulative grants. -/
  | creditLcfReceive (sp : Fin 16) (grants : List (BitVec 32))
  /-- EGRESS_DEQUEUE (R192). Operands: sub-port. -/
  | egressDequeue (sp : Fin 16)
  /-- LLR_FRAME_SEND (R98). Operands: sub-port. -/
  | llrFrameSend (sp : Fin 16)
  /-- LLR_ACK_RECEIVE (R98). Operands: sub-port, acknowledgement. -/
  | llrAckReceive (sp : Fin 16) (ack : BitVec 16)
  /-- LLR_NACK_RECEIVE (R98). Operands: sub-port, first SEQ to replay. -/
  | llrNackReceive (sp : Fin 16) (n : BitVec 16)
  /-- LLR_ACK_TIMEOUT (R98). Operands: sub-port. -/
  | llrAckTimeout (sp : Fin 16)
  /-- ACK_LCF_SEND (R99). Operands: sub-port. -/
  | ackLcfSend (sp : Fin 16)
  /-- LINK_TRAINING_END (R85). Operands: sub-port, lanes trained (0: training failed), peer's OUI and capability word. -/
  | linkTrainingEnd (sp : Fin 16) (lanes : BitVec 4) (oui : BitVec 24) (caps : BitVec 11)
  /-- SYNC_RECEIVE (R103). Operands: sub-port, LSEQ, STATE_LOST. -/
  | syncReceive (sp : Fin 16) (lseq : BitVec 16) (lost : Bool)
  /-- LLR_HOLD_EXPIRY (R104). Operands: sub-port. -/
  | llrHoldExpiry (sp : Fin 16)
  /-- LANE_FAILURE_DECLARE (R105). Operands: port, lane, whether CDR lock is lost. -/
  | laneFailureDeclare (port : Fin 8) (lane : Fin 4) (lol : Bool)
  /-- SHED (R107). Operands: sub-port, LANES. -/
  | shed (sp : Fin 16) (lanes : BitVec 4)
  /-- RECEIVER_LOCK (R107). Operands: sub-port. -/
  | receiverLock (sp : Fin 16)
  /-- SHED_ACK (R107). Operands: sub-port, LSEQ. -/
  | shedAck (sp : Fin 16) (lseq : BitVec 16)
  /-- RESTORE_HOLD_EXPIRY (R109). Operands: port, lane. -/
  | restoreHoldExpiry (port : Fin 8) (lane : Fin 4)
  /-- RESTORE (R109). Operands: sub-port, LANES. -/
  | restore (sp : Fin 16) (lanes : BitVec 4)
  /-- PORT_ADMIN_WRITE (R112). Operands: header, port, value. -/
  | portAdminWrite (h : DHdr) (port : Fin 8) (v : Bytes)
  /-- PORT_MODE_WRITE (R83). Operands: header, port, value. -/
  | portModeWrite (h : DHdr) (port : Fin 8) (v : Bytes)
  /-- LINK_LOSS (R114). Operands: sub-port. -/
  | linkLoss (sp : Fin 16)
  /-- SIGNAL_DETECT_WAKE (R116). Operands: port, peak amplitude on lane 0 that has stood for 1 µs, mV. -/
  | signalDetectWake (rx : RxLevel)
  /-- FRAME_ENTER_PIPELINE (R121). Operands: sub-port, first bytes of a frame still arriving (empty: the oldest frame in the ingress FIFO). -/
  | frameEnterPipeline (sp : Fin 16) (head : Bytes)
  /-- PARSE_END (R123). Operands: pipeline, engine. -/
  | parseEnd (pl : Fin 8) (engine : Fin 24)
  /-- PARSE_BUDGET_EXPIRY (R124). Operands: pipeline, engine. -/
  | parseBudgetExpiry (pl : Fin 8) (engine : Fin 24)
  /-- CLASSIFIER_SEARCH (R131). Operands: pipeline. -/
  | classifierSearch (pl : Fin 8)
  /-- METER_LENGTH_RELEASE (R138). Operands: pipeline. -/
  | meterLengthRelease (pl : Fin 8)
  /-- FENCE_RELEASE (R157). -/
  | fenceRelease 
  /-- CLASSIFIER_ENTRY_WRITE (R143). Operands: instance, index, word, value. -/
  | classifierEntryWrite (inst : Fin 4) (index : Fin 8192) (word : Fin 32) (v : W64)
  /-- COUNTER_PKTS_READ (R158). Operands: reading master, counter pair. -/
  | counterPktsRead (master : Nat) (pair : Fin 262144)
  /-- COUNTER_WRITE (R159). Operands: counter pair, BYTES (else PKTS), value. -/
  | counterWrite (pair : Fin 262144) (bytes : Bool) (v : W64)
  /-- STAGE_ADD (R149). Operands: header of a write of 5200h.05 = 1. -/
  | stageAdd (h : DHdr)
  /-- STAGE_KILL (R149). Operands: header of a write of 5200h.05 = 2. -/
  | stageKill (h : DHdr)
  /-- PROGRAM_LOAD (R149). Operands: header, image. -/
  | programLoad (h : DHdr) (v : Bytes)
  /-- METER_STAGE (R149). Operands: header, value. -/
  | meterStage (h : DHdr) (v : Bytes)
  /-- COURSE_ENTRY_STAGE (R152). Operands: header, index, subindex, value. -/
  | courseEntryStage (h : DHdr) (idx : BitVec 16) (sub : BitVec 8) (v : Bytes)
  /-- COMMIT (R151). Operands: header, value. -/
  | commit (h : DHdr) (v : Bytes)
  /-- COMMIT_TIME (R151). Operands: header, TIME. -/
  | commitTime (h : DHdr) (v : Bytes)
  /-- ABORT (R150). Operands: header, value. -/
  | abort (h : DHdr) (v : Bytes)
  /-- COURSE_COMMIT_FIRE (R151). -/
  | courseCommitFire 
  /-- SLOT_COPY_END (R152). -/
  | slotCopyEnd 
  /-- COURSE_SWEEP_END (R155). -/
  | courseSweepEnd 
  /-- WAITED_COMMIT_FIRE (R156). -/
  | waitedCommitFire 
  /-- COUNTER_READ (R161). Operands: header. -/
  | counterRead (h : DHdr)
  /-- FORWARD_DECISION (R163). Operands: pipeline. -/
  | forwardDecision (pl : Fin 8)
  /-- ET_MISS_COMPLETE (R168). Operands: pipeline, bucket. -/
  | etMissComplete (pl : Fin 8) (bucket : Nat)
  /-- PACKET_LAST_BYTE_SENT (R135). Operands: sub-port. -/
  | packetLastByteSent (sp : Fin 16)
  /-- LEARN_INSERT (R173). -/
  | learnInsert 
  /-- ET_INSERT (R174). Operands: header of a write of 6100h.05 = 1. -/
  | etInsert (h : DHdr)
  /-- ET_DELETE (R179). Operands: header of a write of 6100h.05 = 2. -/
  | etDelete (h : DHdr)
  /-- FWD_LOOKUP (R193). Operands: M interface (else S), LT (else ET). -/
  | fwdLookup (levelM lt : Bool)
  /-- FWD_INSERT (R174). Operands: M interface (else S), LT (else ET). -/
  | fwdInsert (levelM lt : Bool)
  /-- FWD_DELETE (R193). Operands: M interface (else S), LT (else ET). -/
  | fwdDelete (levelM lt : Bool)
  /-- READ_WAY (R193). Operands: M interface (else S), LT (else ET), way, bucket. -/
  | readWay (levelM lt : Bool) (way : Fin 4) (bucket : Nat)
  /-- AGING_SWEEP_START (R177). -/
  | agingSweepStart 
  /-- AGING_SWEEP_END (R178). Operands: LT (else ET). -/
  | agingSweepEnd (lt : Bool)
  /-- LNQ_POP (R193). Operands: reading master. -/
  | lnqPop (master : Nat)
  /-- LNQ_READ (R195). Operands: header. -/
  | lnqRead (h : DHdr)
  /-- LPM_ADD (R185). Operands: header of a write of 6200h.05 = 1. -/
  | lpmAdd (h : DHdr)
  /-- LPM_DELETE (R185). Operands: header of a write of 6200h.05 = 2. -/
  | lpmDelete (h : DHdr)
  /-- LPM_LEN_CFG (R181). Operands: header, LCFG. -/
  | lpmLenCfg (h : DHdr) (v : Bytes)
  /-- NHG_WRITE (R194). Operands: header, value. -/
  | nhgWrite (h : DHdr) (v : Bytes)
  /-- ZMT_PACKET_RECEIVE (R200). Operands: slice. -/
  | zmtPacketReceive (ts : Fin 8)
  /-- PUT (R219). Operands: slice. -/
  | put (ts : Fin 8)
  /-- GET (R220). Operands: slice, bytes a host read of the source returned. -/
  | get (ts : Fin 8) (host : Bytes)
  /-- GETR (R220). Operands: slice. -/
  | getr (ts : Fin 8)
  /-- ATOMIC (R221). Operands: slice, old value a host AtomicOp returned. -/
  | atomic (ts : Fin 8) (host : Bytes)
  /-- ATOMR (R222). Operands: slice. -/
  | atomr (ts : Fin 8)
  /-- SEND (R223). Operands: slice, a receive descriptor that lies in host memory. -/
  | send (ts : Fin 8) (host : Bytes)
  /-- REDUCE (R224). Operands: slice, old words a host read of the target returned. -/
  | reduce (ts : Fin 8) (host : Bytes)
  /-- ACK (R230). Operands: slice. -/
  | ack (ts : Fin 8)
  /-- NACK (R232). Operands: slice. -/
  | nack (ts : Fin 8)
  /-- CREDIT (R225). Operands: slice. -/
  | credit (ts : Fin 8)
  /-- MGMT (R226). Operands: slice. -/
  | mgmt (ts : Fin 8)
  /-- FIN (R223). Operands: slice. -/
  | fin (ts : Fin 8)
  /-- ZMT_ACK_SEND (R230). Operands: peer endpoint id. -/
  | zmtAckSend (ep : BitVec 32)
  /-- ZMT_CREDIT_SEND (R225). Operands: peer endpoint id. -/
  | zmtCreditSend (ep : BitVec 32)
  /-- OUTBOUND_PACKET_SEND (R236). Operands: peer endpoint id, bytes a host read of the source returned. -/
  | outboundPacketSend (ep : BitVec 32) (host : Bytes)
  /-- RETRANSMIT_TIMER_EXPIRY (R234). Operands: peer endpoint id, PSN, bytes a host read of the source returned. -/
  | retransmitTimerExpiry (ep psn : BitVec 32) (host : Bytes)
  /-- CC_RATE_UPDATE (R237). Operands: peer endpoint id. -/
  | ccRateUpdate (ep : BitVec 32)
  /-- COUNTER_DEADLINE (R217). Operands: counter. -/
  | counterDeadline (ccid : Nat)
  /-- REDUCE_FALLBACK_BRICK (R207). Operands: message. -/
  | reduceFallbackBrick (msg : Nat)
  /-- MATCH_RESOLVE (R223). Operands: slice, a receive descriptor that lies in host memory. -/
  | matchResolve (ts : Fin 8) (host : Bytes)
  /-- TS_WRITE (R241). Operands: table, index. -/
  | tsWrite (tbl : Fin 4) (idx : Fin 1048576)
  /-- TS_READ (R241). Operands: table, index. -/
  | tsRead (tbl : Fin 4) (idx : Fin 1048576)
  /-- ARM (R214). Operands: table, index. -/
  | arm (tbl : Fin 4) (idx : Fin 1048576)
  /-- DISARM (R241). Operands: table, index. -/
  | disarm (tbl : Fin 4) (idx : Fin 1048576)
  /-- TS_ABORT (R241). Operands: table, index. -/
  | tsAbort (tbl : Fin 4) (idx : Fin 1048576)
  /-- PEER_STATE_READ (R242). Operands: header. -/
  | peerStateRead (h : DHdr)
  /-- TRACE_RING_READ (R199). Operands: header. -/
  | traceRingRead (h : DHdr)
  /-- ADD (R260). Operands: thread, RD, RA, RB. -/
  | add (t : Fin 776) (rd ra rb : Fin 32)
  /-- SUB (R260). Operands: thread, RD, RA, RB. -/
  | sub (t : Fin 776) (rd ra rb : Fin 32)
  /-- AND (R260). Operands: thread, RD, RA, RB. -/
  | andR (t : Fin 776) (rd ra rb : Fin 32)
  /-- OR (R260). Operands: thread, RD, RA, RB. -/
  | orR (t : Fin 776) (rd ra rb : Fin 32)
  /-- XOR (R260). Operands: thread, RD, RA, RB. -/
  | xorR (t : Fin 776) (rd ra rb : Fin 32)
  /-- ANDN (R260). Operands: thread, RD, RA, RB. -/
  | andn (t : Fin 776) (rd ra rb : Fin 32)
  /-- SHL (R261). Operands: thread, RD, RA, RB. -/
  | shl (t : Fin 776) (rd ra rb : Fin 32)
  /-- SHR (R261). Operands: thread, RD, RA, RB. -/
  | shr (t : Fin 776) (rd ra rb : Fin 32)
  /-- SAR (R261). Operands: thread, RD, RA, RB. -/
  | sar (t : Fin 776) (rd ra rb : Fin 32)
  /-- SLT (R260). Operands: thread, RD, RA, RB. -/
  | slt (t : Fin 776) (rd ra rb : Fin 32)
  /-- SLTU (R260). Operands: thread, RD, RA, RB. -/
  | sltu (t : Fin 776) (rd ra rb : Fin 32)
  /-- MIN (R260). Operands: thread, RD, RA, RB. -/
  | min (t : Fin 776) (rd ra rb : Fin 32)
  /-- MAX (R260). Operands: thread, RD, RA, RB. -/
  | max (t : Fin 776) (rd ra rb : Fin 32)
  /-- MINU (R260). Operands: thread, RD, RA, RB. -/
  | minu (t : Fin 776) (rd ra rb : Fin 32)
  /-- MAXU (R260). Operands: thread, RD, RA, RB. -/
  | maxu (t : Fin 776) (rd ra rb : Fin 32)
  /-- MUL (R260). Operands: thread, RD, RA, RB. -/
  | mul (t : Fin 776) (rd ra rb : Fin 32)
  /-- MULH (R260). Operands: thread, RD, RA, RB. -/
  | mulh (t : Fin 776) (rd ra rb : Fin 32)
  /-- MULHU (R260). Operands: thread, RD, RA, RB. -/
  | mulhu (t : Fin 776) (rd ra rb : Fin 32)
  /-- DIV (R261). Operands: thread, RD, RA, RB. -/
  | div (t : Fin 776) (rd ra rb : Fin 32)
  /-- DIVU (R261). Operands: thread, RD, RA, RB. -/
  | divu (t : Fin 776) (rd ra rb : Fin 32)
  /-- REM (R261). Operands: thread, RD, RA, RB. -/
  | rem (t : Fin 776) (rd ra rb : Fin 32)
  /-- REMU (R261). Operands: thread, RD, RA, RB. -/
  | remu (t : Fin 776) (rd ra rb : Fin 32)
  /-- CLZ (R260). Operands: thread, RD, RA. -/
  | clz (t : Fin 776) (rd ra : Fin 32)
  /-- CTZ (R260). Operands: thread, RD, RA. -/
  | ctz (t : Fin 776) (rd ra : Fin 32)
  /-- POPC (R260). Operands: thread, RD, RA. -/
  | popc (t : Fin 776) (rd ra : Fin 32)
  /-- BSWAP (R260). Operands: thread, RD, RA. -/
  | bswap (t : Fin 776) (rd ra : Fin 32)
  /-- EXT (R260). Operands: thread, RD, RA, POS, LEN. -/
  | ext (t : Fin 776) (rd ra : Fin 32) (pos len : Fin 128)
  /-- INS (R260). Operands: thread, RD, RA, POS, LEN. -/
  | ins (t : Fin 776) (rd ra : Fin 32) (pos len : Fin 128)
  /-- SEXT (R260). Operands: thread, RD, RA, POS. -/
  | sext (t : Fin 776) (rd ra : Fin 32) (pos : Fin 128)
  /-- ADDI (R260). Operands: thread, RD, RA, IMM. -/
  | addi (t : Fin 776) (rd ra : Fin 32) (imm : BitVec 18)
  /-- ANDI (R260). Operands: thread, RD, RA, IMM. -/
  | andi (t : Fin 776) (rd ra : Fin 32) (imm : BitVec 18)
  /-- ORI (R260). Operands: thread, RD, RA, IMM. -/
  | ori (t : Fin 776) (rd ra : Fin 32) (imm : BitVec 18)
  /-- XORI (R260). Operands: thread, RD, RA, IMM. -/
  | xori (t : Fin 776) (rd ra : Fin 32) (imm : BitVec 18)
  /-- SHLI (R260). Operands: thread, RD, RA, IMM[6:0]. -/
  | shli (t : Fin 776) (rd ra : Fin 32) (sh : Fin 128)
  /-- SHRI (R260). Operands: thread, RD, RA, IMM[6:0]. -/
  | shri (t : Fin 776) (rd ra : Fin 32) (sh : Fin 128)
  /-- SARI (R260). Operands: thread, RD, RA, IMM[6:0]. -/
  | sari (t : Fin 776) (rd ra : Fin 32) (sh : Fin 128)
  /-- SLTI (R260). Operands: thread, RD, RA, IMM. -/
  | slti (t : Fin 776) (rd ra : Fin 32) (imm : BitVec 18)
  /-- SLTIU (R260). Operands: thread, RD, RA, IMM. -/
  | sltiu (t : Fin 776) (rd ra : Fin 32) (imm : BitVec 18)
  /-- LUI (R260). Operands: thread, RD, IMM. -/
  | lui (t : Fin 776) (rd : Fin 32) (imm : BitVec 23)
  /-- BEQ (R262). Operands: thread, RA, RB, OFS. -/
  | beq (t : Fin 776) (ra rb : Fin 32) (ofs : BitVec 18)
  /-- BNE (R262). Operands: thread, RA, RB, OFS. -/
  | bne (t : Fin 776) (ra rb : Fin 32) (ofs : BitVec 18)
  /-- BLT (R262). Operands: thread, RA, RB, OFS. -/
  | blt (t : Fin 776) (ra rb : Fin 32) (ofs : BitVec 18)
  /-- BGE (R262). Operands: thread, RA, RB, OFS. -/
  | bge (t : Fin 776) (ra rb : Fin 32) (ofs : BitVec 18)
  /-- BLTU (R262). Operands: thread, RA, RB, OFS. -/
  | bltu (t : Fin 776) (ra rb : Fin 32) (ofs : BitVec 18)
  /-- BGEU (R262). Operands: thread, RA, RB, OFS. -/
  | bgeu (t : Fin 776) (ra rb : Fin 32) (ofs : BitVec 18)
  /-- BEQI (R262). Operands: thread, RA, IMM5, OFS. -/
  | beqi (t : Fin 776) (ra : Fin 32) (imm : BitVec 5) (ofs : BitVec 18)
  /-- BNEI (R262). Operands: thread, RA, IMM5, OFS. -/
  | bnei (t : Fin 776) (ra : Fin 32) (imm : BitVec 5) (ofs : BitVec 18)
  /-- BLTI (R262). Operands: thread, RA, IMM5, OFS. -/
  | blti (t : Fin 776) (ra : Fin 32) (imm : BitVec 5) (ofs : BitVec 18)
  /-- BGEI (R262). Operands: thread, RA, IMM5, OFS. -/
  | bgei (t : Fin 776) (ra : Fin 32) (imm : BitVec 5) (ofs : BitVec 18)
  /-- JAL (R262). Operands: thread, RD, OFS. -/
  | jal (t : Fin 776) (rd : Fin 32) (ofs : BitVec 23)
  /-- JALR (R262). Operands: thread, RD, RA, IMM. -/
  | jalr (t : Fin 776) (rd ra : Fin 32) (imm : BitVec 18)
  /-- LD8 (R264). Operands: thread, RD, RA, DISP. -/
  | ld8 (t : Fin 776) (rd ra : Fin 32) (disp : BitVec 18)
  /-- LD8U (R264). Operands: thread, RD, RA, DISP. -/
  | ld8u (t : Fin 776) (rd ra : Fin 32) (disp : BitVec 18)
  /-- LD16 (R264). Operands: thread, RD, RA, DISP. -/
  | ld16 (t : Fin 776) (rd ra : Fin 32) (disp : BitVec 18)
  /-- LD16U (R264). Operands: thread, RD, RA, DISP. -/
  | ld16u (t : Fin 776) (rd ra : Fin 32) (disp : BitVec 18)
  /-- LD32 (R264). Operands: thread, RD, RA, DISP. -/
  | ld32 (t : Fin 776) (rd ra : Fin 32) (disp : BitVec 18)
  /-- LD32U (R264). Operands: thread, RD, RA, DISP. -/
  | ld32u (t : Fin 776) (rd ra : Fin 32) (disp : BitVec 18)
  /-- LD64 (R264). Operands: thread, RD, RA, DISP. -/
  | ld64 (t : Fin 776) (rd ra : Fin 32) (src : Ld64At)
  /-- LD64U (R264). Operands: thread, RD, RA, DISP. -/
  | ld64u (t : Fin 776) (rd ra : Fin 32) (disp : BitVec 18)
  /-- LDW (R266). Operands: thread, RD, RA, DISP. -/
  | ldw (t : Fin 776) (rd ra : Fin 32) (disp : BitVec 18)
  /-- ST8 (R265). Operands: thread, RS, RA, DISP. -/
  | st8 (t : Fin 776) (rs ra : Fin 32) (disp : BitVec 18)
  /-- ST16 (R265). Operands: thread, RS, RA, DISP. -/
  | st16 (t : Fin 776) (rs ra : Fin 32) (disp : BitVec 18)
  /-- ST32 (R265). Operands: thread, RS, RA, DISP. -/
  | st32 (t : Fin 776) (rs ra : Fin 32) (disp : BitVec 18)
  /-- ST64 (R265). Operands: thread, RS, RA, DISP. -/
  | st64 (t : Fin 776) (rs ra : Fin 32) (disp : BitVec 18)
  /-- STW (R265). Operands: thread, RS, RA, DISP. -/
  | stw (t : Fin 776) (rs ra : Fin 32) (disp : BitVec 18)
  /-- LDTAG (R260). Operands: thread, RD, RA, DISP. -/
  | ldtag (t : Fin 776) (rd ra : Fin 32) (disp : BitVec 18)
  /-- STTAG (R267). Operands: thread, RS, RA, DISP. -/
  | sttag (t : Fin 776) (rs ra : Fin 32) (disp : BitVec 18)
  /-- LDF (R268). Operands: thread, RD, RA, DISP. -/
  | ldf (t : Fin 776) (rd ra : Fin 32) (disp : BitVec 18)
  /-- LDFE (R268). Operands: thread, RD, RA, DISP. -/
  | ldfe (t : Fin 776) (rd ra : Fin 32) (disp : BitVec 18)
  /-- STF (R268). Operands: thread, RS, RA, DISP. -/
  | stf (t : Fin 776) (rs ra : Fin 32) (disp : BitVec 18)
  /-- FENCE (R271). Operands: thread. -/
  | fence (t : Fin 776)
  /-- SRGET (R272). Operands: thread, RD, SN. -/
  | srget (t : Fin 776) (rd : Fin 32) (sn : Fin 16)
  /-- SRSET (R315). Operands: thread, RA, SN. -/
  | srset (t : Fin 776) (ra : Fin 32) (sn : Fin 16)
  /-- SRSWAP (R272). Operands: thread, RD, RA, SN. -/
  | srswap (t : Fin 776) (rd ra : Fin 32) (sn : Fin 16)
  /-- SRADD (R272). Operands: thread, RD, RA, SN. -/
  | sradd (t : Fin 776) (rd ra : Fin 32) (sn : Fin 16)
  /-- SRFOR (R272). Operands: thread, RD, RA, SN. -/
  | srfor (t : Fin 776) (rd ra : Fin 32) (sn : Fin 16)
  /-- SIG (R314). Operands: thread, RA. -/
  | sig (t : Fin 776) (ra : Fin 32)
  /-- RGET (R260). Operands: thread, RD, RA. -/
  | rget (t : Fin 776) (rd ra : Fin 32)
  /-- RSET (R260). Operands: thread, RA, RB. -/
  | rset (t : Fin 776) (ra rb : Fin 32)
  /-- GETSR (R249). Operands: thread, RD, IDX. -/
  | getsr (t : Fin 776) (rd : Fin 32) (idx : Fin 256)
  /-- SETSR (R251). Operands: thread, RA, IDX. -/
  | setsr (t : Fin 776) (ra : Fin 32) (idx : Fin 256)
  /-- CHPUT (R320). Operands: thread, RA. -/
  | chput (t : Fin 776) (ra : Fin 32)
  /-- CHSEAL (R320). Operands: thread, RA. -/
  | chseal (t : Fin 776) (ra : Fin 32)
  /-- CHGET (R322). Operands: thread, RD. -/
  | chget (t : Fin 776) (rd : Fin 32)
  /-- WFE (R311). Operands: thread, RD. -/
  | wfe (t : Fin 776) (rd : Fin 32)
  /-- WAIT (R275). Operands: thread, RD. -/
  | wait (t : Fin 776) (rd : Fin 32)
  /-- PARK (R364). Operands: thread. -/
  | park (t : Fin 776)
  /-- ENDB (R359). Operands: thread, RA. -/
  | endb (t : Fin 776) (ra : Fin 32)
  /-- ERET (R260). Operands: thread. -/
  | eret (t : Fin 776)
  /-- SYSC (R276). Operands: thread, IMM. -/
  | sysc (t : Fin 776) (imm : BitVec 18)
  /-- CPTEST (R273). Operands: thread, RD, UNIT. -/
  | cptest (t : Fin 776) (rd : Fin 32) (u : Fin 3)
  /-- ILL (R258). Operands: thread, opcode FFh (else 00h), bits 27:0 of the word. -/
  | ill (t : Fin 776) (ones : Bool) (low : BitVec 28)
  /-- RESERVED_OP (R257). Operands: thread, instruction word. -/
  | reservedOp (t : Fin 776) (word : BitVec 36)
  /-- CRC32C (R436). Operands: thread, RD, RA, RB, NB, the unit is busy or the CPX loses the choice of R427. -/
  | crc32c (t : Fin 776) (rd ra rb : Fin 32) (nb : Fin 8) (busy : Bool)
  /-- CRC64 (R436). Operands: as CRC32C. -/
  | crc64 (t : Fin 776) (rd ra rb : Fin 32) (nb : Fin 8) (busy : Bool)
  /-- TPZ (R437). Operands: thread, RD, RA, RB, K, NB, busy. -/
  | tpz (t : Fin 776) (rd ra rb : Fin 32) (k : Fin 4) (nb : Fin 8) (busy : Bool)
  /-- ENC (R439). Operands: thread, RD, RA, RB, LEN, busy. -/
  | enc (t : Fin 776) (rd ra rb : Fin 32) (len : Fin 64) (busy : Bool)
  /-- DEC (R439). Operands: thread, RD, RA, RB, LEN, busy. -/
  | dec (t : Fin 776) (rd ra rb : Fin 32) (len : Fin 64) (busy : Bool)
  /-- AAD (R439). Operands: thread, RD, RA, RB, LEN, busy. -/
  | aad (t : Fin 776) (rd ra rb : Fin 32) (len : Fin 64) (busy : Bool)
  /-- GCM_TAG (R439). Operands: thread, RD, RA, RB, busy. -/
  | gcmTag (t : Fin 776) (rd ra rb : Fin 32) (busy : Bool)
  /-- XSUM_CLR (R447). Operands: thread, RD, RA, SLOT, busy. -/
  | xsumClr (t : Fin 776) (rd ra : Fin 32) (slot : Fin 16) (busy : Bool)
  /-- XSUM_ADD (R445). Operands: thread, RD, RA, SLOT, VAR, busy. -/
  | xsumAdd (t : Fin 776) (rd ra : Fin 32) (slot : Fin 16) (typ : Fin 3) (busy : Bool)
  /-- XSUM_ADDV (R447). Operands: thread, RD, RA, RB, SLOT, VAR, busy. -/
  | xsumAddv (t : Fin 776) (rd ra rb : Fin 32) (slot : Fin 16) (typ : Fin 3) (busy : Bool)
  /-- XSUM_MERGE (R452). Operands: thread, RD, RA, SLOT, VAR, busy. -/
  | xsumMerge (t : Fin 776) (rd ra : Fin 32) (slot : Fin 16) (image busy : Bool)
  /-- XSUM_RND (R448). Operands: thread, RD, RA, SLOT, busy. -/
  | xsumRnd (t : Fin 776) (rd ra : Fin 32) (slot : Fin 16) (busy : Bool)
  /-- XSUM_RND2 (R449). Operands: thread, RD, RA, RB, SLOT, busy. -/
  | xsumRnd2 (t : Fin 776) (rd ra rb : Fin 32) (slot : Fin 16) (busy : Bool)
  /-- XSUM_SAVE (R450). Operands: thread, RD, RA, SLOT, busy. -/
  | xsumSave (t : Fin 776) (rd ra : Fin 32) (slot : Fin 16) (busy : Bool)
  /-- XSUM_REST (R450). Operands: thread, RD, RA, SLOT, busy. -/
  | xsumRest (t : Fin 776) (rd ra : Fin 32) (slot : Fin 16) (busy : Bool)
  /-- XSUM_CXA (R451). Operands: thread, RD, RA, SLOT, busy. -/
  | xsumCxa (t : Fin 776) (rd ra : Fin 32) (slot : Fin 16) (busy : Bool)
  /-- XSUM_FLAGS (R447). Operands: thread, RD, RA, SLOT, busy. -/
  | xsumFlags (t : Fin 776) (rd ra : Fin 32) (slot : Fin 16) (busy : Bool)
  /-- CP_COMMIT (R429). Operands: thread, commit (else squash). -/
  | cpCommit (t : Fin 776) (ok : Bool)
  /-- DEPOSIT_CHUNK (R455). Operands: tile. -/
  | depositChunk (tile : Fin 12)
  /-- EVENT_ENTRY (R276). Operands: thread. -/
  | eventEntry (t : Fin 776)
  /-- POSTED_LOAD_RETURN (R294). Operands: thread, destination register, bytes a host returned (lowest address in bits 7:0), host error status. -/
  | postedLoadReturn (t : Fin 776) (rd : Fin 32) (data : BitVec 64) (err : Bool)
  /-- UNIT_LOAD_RETURN (R295). Operands: thread, and whether a reference record that the access reads has an uncorrectable error. -/
  | unitLoadReturn (t : Fin 776) (bad : Bool)
  /-- FULL_EMPTY_ANSWER (R268). Operands: thread. -/
  | fullEmptyAnswer (t : Fin 776)
  /-- STORE_BUFFER_DRAIN (R299). Operands: `bad` as above; core 8 * tile + core or 96 the steward. -/
  | storeBufferDrain (core : Fin 97) (bad : Bool)
  /-- LOAD_REPLAY (R301). Operands: thread. -/
  | loadReplay (t : Fin 776)
  /-- ICACHE_FILL (R303). Operands: core 8 * tile + core or 96 the steward, line number. -/
  | icacheFill (core : Fin 97) (line : BitVec 13)
  /-- WAIT_WAKE (R311). Operands: thread. -/
  | waitWake (t : Fin 776)
  /-- THREAD_DEADLINE (R316). Operands: thread. -/
  | threadDeadline (t : Fin 776)
  /-- TEC_COMPLETION (R329). Operands: tile, source. -/
  | tecCompletion (tile : Fin 12) (src : Fin 256)
  /-- TEC_COMPLETE (R329). Operands: tile, value written. -/
  | tecComplete (tile : Fin 12) (v : BitVec 64)
  /-- TEC_ACTSET (R329). Operands: tile, value written. -/
  | tecActset (tile : Fin 12) (v : BitVec 64)
  /-- TEC_ACTCLR (R338). Operands: tile, value written. -/
  | tecActclr (tile : Fin 12) (v : BitVec 64)
  /-- TEC_ACK (R331). Operands: tile, value written. -/
  | tecAck (tile : Fin 12) (v : BitVec 64)
  /-- TEC_PEND_CLEAR (R328). Operands: tile, group, value written. -/
  | tecPendClear (tile : Fin 12) (g : Fin 32) (v : BitVec 64)
  /-- TEC_CTRL_WRITE (R332). Operands: tile, value written. -/
  | tecCtrlWrite (tile : Fin 12) (v : BitVec 64)
  /-- TEC_SWIN_WRITE (R327). Operands: tile, value written. -/
  | tecSwinWrite (tile : Fin 12) (v : BitVec 64)
  /-- TEC_STRAY_READ (R338). Operands: tile. -/
  | tecStrayRead (tile : Fin 12)
  /-- TEC_GROUP_TIMER (R330). Operands: tile, group. -/
  | tecGroupTimer (tile : Fin 12) (g : Fin 32)
  /-- STALL_DETECT (R335). Operands: core, 8 * tile + core. -/
  | stallDetect (core : Fin 96)
  /-- POST_IMMEDIATE (R353). Operands: post area. -/
  | postImmediate (area : Fin 769)
  /-- POST_DELAYED (R354). Operands: post area, delay list. -/
  | postDelayed (area : Fin 769) (list : Fin 4)
  /-- SPILL_REFILL (R345). -/
  | spillRefill 
  /-- DISPATCH (R348). -/
  | dispatch 
  /-- DELAY_LIST_RELEASE (R355). -/
  | delayListRelease 
  /-- BUDGET_FAULT (R357). Operands: thread. -/
  | budgetFault (t : Fin 776)
  /-- BUDGET_RESET (R358). Operands: thread. -/
  | budgetReset (t : Fin 776)
  /-- TILE_DRAIN (R368). Operands: header, value. -/
  | tileDrain (h : DHdr) (v : Bytes)
  /-- DRAIN_TIMEOUT (R369). Operands: tile. -/
  | drainTimeout (tile : Fin 12)
  /-- ACQUIRE_TRY (R379). Operands: lock, master id, PRIO. -/
  | acquireTry (lock : Fin 4096) (master : BitVec 16) (prio : Fin 16)
  /-- ACQUIRE_QUEUE (R379). Operands: lock, master id, PRIO. -/
  | acquireQueue (lock : Fin 4096) (master : BitVec 16) (req : LockCome)
  /-- RELEASE (R379). Operands: lock, master id. -/
  | release (lock : Fin 4096) (master : BitVec 16)
  /-- LOCK_QUERY (R379). Operands: lock, master id. -/
  | lockQuery (lock : Fin 4096) (master : BitVec 16)
  /-- LEASE_EXPIRY (R385). Operands: lock. -/
  | leaseExpiry (lock : Fin 4096)
  /-- BREAK_LOCK (R385). Operands: header, value. -/
  | breakLock (h : DHdr) (v : Bytes)
  /-- LOCK_GROUP_CONFIG (R390). Operands: header, group, value. -/
  | lockGroupConfig (h : DHdr) (g : Fin 64) (v : Bytes)
  /-- LOCK_STATE_READ (R394). Operands: header. -/
  | lockStateRead (h : DHdr)
  /-- MATCH_SEARCH (R404). Operands: request area, value written to its OP word (its OP field is 1). -/
  | matchSearch (area : Fin 769) (v : BitVec 64)
  /-- MATCH_INSERT (R399). Operands: as MATCH_SEARCH with OP 2. -/
  | matchInsert (area : Fin 769) (v : BitVec 64)
  /-- MATCH_DELETE (R405). Operands: as MATCH_SEARCH with OP 3. -/
  | matchDelete (area : Fin 769) (v : BitVec 64)
  /-- MATCH_STEP (R407). Operands: as MATCH_SEARCH with OP 4. -/
  | matchStep (area : Fin 769) (v : BitVec 64)
  /-- HFREE (R407). Operands: as MATCH_SEARCH with OP 5. -/
  | hfree (area : Fin 769) (v : BitVec 64)
  /-- POST (R404). Operands: as MATCH_SEARCH with OP 6. -/
  | post (area : Fin 769) (v : BitVec 64)
  /-- ARRIVE (R404). -/
  | arrive 
  /-- MATCH_READ (R405). Operands: as MATCH_SEARCH with OP 8. -/
  | matchRead (area : Fin 769) (v : BitVec 64)
  /-- HELD_ARRIVE_ISSUE (R411). Operands: slice, peer. -/
  | heldArriveIssue (ts : Fin 8) (peer : BitVec 32)
  /-- MSEQ_HOLD_TIMEOUT (R412). Operands: slice, peer. -/
  | mseqHoldTimeout (ts : Fin 8) (peer : BitVec 32)
  /-- RENUMBER (R402). Operands: header, value. -/
  | renumber (h : DHdr) (v : Bytes)
  /-- RENUMBER_END (R402). Operands: D values of the other members' entries. -/
  | renumberEnd (others : List (BitVec 32))
  /-- CASCADE_TRAINING (R414). Operands: what the other members told. -/
  | cascadeTraining (members : List CMember)
  /-- CASCADE_ROUND (R416). -/
  | cascadeRound 
  /-- CASCADE_FRAME_RECEIVE (R417). Operands: sending position, round, operation records, local results by round, position and record order, CRC good. -/
  | cascadeFrameReceive (pos : Fin 4) (round : BitVec 32) (recs : List CRec) (results : List (Nat × Nat × Nat × CRes)) (crcOk : Bool)
  /-- CASCADE_MEMBER_TIMEOUT (R422). Operands: position. -/
  | cascadeMemberTimeout (pos : Fin 4)
  /-- BLOCK_CLASS_WRITE (R398). Operands: header, value. -/
  | blockClassWrite (h : DHdr) (v : Bytes)
  /-- MATCH_ENTRY_READ (R424). Operands: header. -/
  | matchEntryRead (h : DHdr)
  /-- ALLOC (R470). Operands: requester index, master id when it is the thread port, pool, owner's ledger class and item. -/
  | alloc (req : Fin 22) (master : BitVec 16) (pool : Fin 64) (ocls : Fin 6) (oitem : BitVec 32)
  /-- ADDREF (R470). Operands: requester index, master id, reference, the reference record reads poisoned. -/
  | addref (req : Fin 22) (master : BitVec 16) (r : BitVec 64) (bad : Bool)
  /-- FREE (R470). Operands: as ADDREF. -/
  | free (req : Fin 22) (master : BitVec 16) (r : BitVec 64) (bad : Bool)
  /-- BUFFER_QUERY (R470). Operands: as ADDREF. -/
  | bufferQuery (req : Fin 22) (master : BitVec 16) (r : BitVec 64) (bad : Bool)
  /-- FREEP (R474). Operands: as ADDREF. -/
  | freep (req : Fin 22) (master : BitVec 16) (r : BitVec 64) (bad : Bool)
  /-- ADDREFP (R474). Operands: as ADDREF. -/
  | addrefp (req : Fin 22) (master : BitVec 16) (r : BitVec 64) (bad : Bool)
  /-- FIFO_REFILL (R467). Operands: pool, the leaf word read is poisoned. -/
  | fifoRefill (pool : Fin 64) (bad : Bool)
  /-- POOL_CONFIG_WRITE (R465). Operands: header, pool, value. -/
  | poolConfigWrite (h : DHdr) (pool : Fin 64) (v : Bytes)
  /-- POOL_STATE_WRITE (R465). Operands: header, pool, value. -/
  | poolStateWrite (h : DHdr) (pool : Fin 64) (v : Bytes)
  /-- POOL_DRAIN_TIMEOUT (R477). Operands: pool. -/
  | poolDrainTimeout (pool : Fin 64)
  /-- POISON_LOG_READ (R484). Operands: header. -/
  | poisonLogRead (h : DHdr)
  /-- HBM_REQUEST_ACCEPT (R499). Operands: requester's tag, block number, write, byte mask, 64 data bytes, words whose whole tag is written and their tags, priority. -/
  | hbmRequestAccept (tag : Nat) (block : Fin 2818572288) (write : Bool) (mask : BitVec 64) (data : Bytes) (tsel : BitVec 8) (tags : Bytes) (prio : Fin 16)
  /-- HBM_COMMAND_ISSUE (R500). Operands: pseudo-channel 32 * stack + pc. -/
  | hbmCommandIssue (pc : Fin 128)
  /-- HBM_READ_RETURN (R511). Operands: pseudo-channel, on-die ECC severity of the two data bursts and of the tag burst. -/
  | hbmReadReturn (pc : Fin 128) (sev0 sev1 sevTag : Fin 4)
  /-- WATCH_RETRY (R501). Operands: thread. -/
  | watchRetry (t : Fin 776)
  /-- IDLE_CLOSE (R503). Operands: pseudo-channel, bank. -/
  | idleClose (pc : Fin 128) (bank : Fin 64)
  /-- REFRESH_DUE (R504). Operands: pseudo-channel. -/
  | refreshDue (pc : Fin 128)
  /-- HBM_TEMPERATURE_READ (R504). Operands: stack, degrees Celsius, signed. -/
  | hbmTemperatureRead (stack : Fin 4) (temp : BitVec 8)
  /-- POWER_DOWN_ENTRY (R505). Operands: pseudo-channel. -/
  | powerDownEntry (pc : Fin 128)
  /-- PARITY_ALERT (R509). Operands: pseudo-channel, commands issued after the last one the alert window confirmed. -/
  | parityAlert (pc : Fin 128) (late : Fin 33)
  /-- RETIRE_PC (R510). Operands: header, value. -/
  | retirePc (h : DHdr) (v : Bytes)
  /-- LANE_REPAIR (R512). Operands: header of the write, or none for a lane whose errors reached the limit; stack, channel and lane as 9406h.01. -/
  | laneRepair (h : Option DHdr) (v : Bytes)
  /-- RETIRE_STACK (R513). Operands: header, value. -/
  | retireStack (h : DHdr) (v : Bytes)
  /-- DOORBELL_TAIL (R525). Operands: function (128 * PORT + FUNC), command queue, value written to TAIL. -/
  | doorbellTail (func : Fin 256) (q : Fin 4096) (tail : BitVec 32)
  /-- DOORBELL_INLINE (R525). Operands: function, command queue, whether it is one 64-byte aligned TLP, its bytes. -/
  | doorbellInline (func : Fin 256) (q : Fin 4096) (whole : Bool) (entry : Bytes)
  /-- CMD_FETCH (R526). Operands: port, what the host read returned, whether it returned an error completion. -/
  | cmdFetch (port : Fin 2) (data : Bytes) (err : Bool)
  /-- NOP (R529). Operands: command queue. -/
  | nop (q : Fin 4096)
  /-- DMA (R529). Operands: command queue. -/
  | dma (q : Fin 4096)
  /-- MSG_PUT (R219). Operands: command queue. -/
  | msgPut (q : Fin 4096)
  /-- MSG_GET (R220). Operands: command queue. -/
  | msgGet (q : Fin 4096)
  /-- MSG_ATOMIC (R221). Operands: command queue. -/
  | msgAtomic (q : Fin 4096)
  /-- MSG_SEND (R223). Operands: command queue. -/
  | msgSend (q : Fin 4096)
  /-- MSG_REDUCE (R224). Operands: command queue. -/
  | msgReduce (q : Fin 4096)
  /-- MATCH (R529). Operands: command queue. -/
  | matchOp (q : Fin 4096)
  /-- BRICK (R529). Operands: command queue. -/
  | brick (q : Fin 4096)
  /-- COUNTER_ARM (R214). Operands: command queue. -/
  | counterArm (q : Fin 4096)
  /-- COUNTER_DISARM (R529). Operands: command queue. -/
  | counterDisarm (q : Fin 4096)
  /-- WINDOW (R529). Operands: command queue. -/
  | window (q : Fin 4096)
  /-- CREATE_CMQ (R524). Operands: command queue. -/
  | createCmq (q : Fin 4096)
  /-- DELETE_CMQ (R524). Operands: command queue. -/
  | deleteCmq (q : Fin 4096)
  /-- CREATE_CPQ (R523). Operands: command queue. -/
  | createCpq (q : Fin 4096)
  /-- DELETE_CPQ (R529). Operands: command queue. -/
  | deleteCpq (q : Fin 4096)
  /-- PASID_REG (R529). Operands: command queue. -/
  | pasidReg (q : Fin 4096)
  /-- PASID_UNREG (R529). Operands: command queue. -/
  | pasidUnreg (q : Fin 4096)
  /-- APERTURE (R535). Operands: command queue. -/
  | aperture (q : Fin 4096)
  /-- ADMIN_QUEUE_ENABLE (R526). Operands: function, register number (offset / 8 of Table 16-4), value written. -/
  | adminQueueEnable (func : Fin 256) (reg : Fin 8) (v : BitVec 64)
  /-- COMPLETION_WRITE (R531). Operands: completion queue. -/
  | completionWrite (j : Fin 4096)
  /-- CQ_HEAD_WRITE (R530). Operands: function, completion queue, value written to HEAD. -/
  | cqHeadWrite (func : Fin 256) (j : Fin 4096) (head : BitVec 32)
  /-- COALESCE_TIMER (R534). -/
  | coalesceTimer 
  /-- CXL_SNOOP (R533). Operands: command queue, first 4 bytes of the line read again. -/
  | cxlSnoop (q : Fin 4096) (tail : BitVec 32)
  /-- ATS_COMPLETION (R537). Operands: function, PASID, page and access of the request; translated base, log2 of the page size, read and write granted. -/
  | atsCompletion (func : Fin 256) (pasid : Option (BitVec 20)) (addr : BitVec 64) (wr : Bool) (phys : BitVec 64) (log2 : Fin 31) (rd wt : Bool)
  /-- PRG_RESPONSE (R537). Operands: function, PASID, page and access of the request; Success. -/
  | prgResponse (func : Fin 256) (pasid : Option (BitVec 20)) (addr : BitVec 64) (wr ok : Bool)
  /-- PRG_TIMEOUT (R538). Operands: function, PASID, page and access of the request. -/
  | prgTimeout (func : Fin 256) (pasid : Option (BitVec 20)) (addr : BitVec 64) (wr : Bool)
  /-- ATS_INVALIDATE (R539). Operands: function, PASID, range: base and log2 of its bytes. -/
  | atsInvalidate (func : Fin 256) (pasid : Option (BitVec 20)) (addr : BitVec 64) (log2 : Fin 65)
  /-- DMA_POST (R543). Operands: post area. -/
  | dmaPost (area : Fin 769)
  /-- DMA_CONTEXT_TAKE (R543). -/
  | dmaContextTake 
  /-- DMA_ITEM_END (R544). Operands: item, what host reads of its source returned from its next byte on, offset from there of a host completion with an error. -/
  | dmaItemEnd (item : Nat) (host : Bytes) (err : Option Nat)
  /-- FLR (R547). Operands: function. -/
  | flr (func : Fin 256)
  /-- HOST_LINK_RESET (R520). Operands: port, half of a bifurcated port. -/
  | hostLinkReset (port half : Fin 2)
  /-- HOST_LANE_FAIL (R519). Operands: port, half, widest width the good lanes allow. -/
  | hostLaneFail (port half : Fin 2) (width : Fin 17)
  /-- OPEN (R563). Operands: request header, OPEN body. -/
  | dictOpen (h : DHdr) (body : Bytes)
  /-- PROVE (R563). Operands: request header, proof. -/
  | dictProve (h : DHdr) (proof : Bytes)
  /-- DICT_READ (R555). Operands: header, index, subindex. -/
  | dictRead (h : DHdr) (idx : BitVec 16) (sub : BitVec 8)
  /-- DICT_WRITE (R553). Operands: header, index, subindex, value. -/
  | dictWrite (h : DHdr) (idx : BitVec 16) (sub : BitVec 8) (v : Bytes)
  /-- TIMED_WRITE (R571). Operands: header, index, subindex, ATIME, value. -/
  | timedWrite (h : DHdr) (idx : BitVec 16) (sub : BitVec 8) (atime : BitVec 80) (v : Bytes)
  /-- READ_GROUP (R573). Operands: header, ATIME (sent when TIMED), entries. -/
  | readGroup (h : DHdr) (atime : BitVec 80) (entries : List (BitVec 16 × BitVec 8))
  /-- CLOSE (R565). Operands: header. -/
  | dictClose (h : DHdr)
  /-- CLAIM (R561). Operands: header and the body of R561. -/
  | claim (h : DHdr) (serial : BitVec 64) (number : BitVec 16) (key pub sig : Bytes)
  /-- TIMED_WRITE_FIRE (R571). -/
  | timedWriteFire 
  /-- READ_GROUP_CAPTURE (R573). -/
  | readGroupCapture 
  /-- TIMED_CANCEL (R572). Operands: header, audit SEQ. -/
  | timedCancel (h : DHdr) (v : Bytes)
  /-- CHALLENGE_TIMEOUT (R565). Operands: session. -/
  | challengeTimeout (sid : BitVec 32)
  /-- IDLE_SESSION_TIMEOUT (R567). Operands: session. -/
  | idleSessionTimeout (sid : BitVec 32)
  /-- CLOSE_SESSION (R583). Operands: header, session id. -/
  | closeSession (h : DHdr) (v : Bytes)
  /-- OPERATOR_KEY (R568). Operands: header, slot, key. -/
  | operatorKey (h : DHdr) (slot : Fin 8) (v : Bytes)
  /-- INSTALLER_KEY (R568). Operands: header, key. -/
  | installerKey (h : DHdr) (v : Bytes)
  /-- UNCLAIM (R562). Operands: header, value. -/
  | unclaim (h : DHdr) (v : Bytes)
  /-- CONFIG_ERASE (R554). Operands: header, value. -/
  | configErase (h : DHdr) (v : Bytes)
  /-- JOURNAL_READ (R580). Operands: header. -/
  | journalRead (h : DHdr)
  /-- JOURNAL_MIRROR (R577). -/
  | journalMirror 
  /-- SPDM_REQUEST (R581). Operands: transport, SPDM message. -/
  | spdmRequest (xport : Nat) (msg : Bytes)
  /-- MCTP_CONTROL (R559). Operands: transport, MCTP control message. -/
  | mctpControl (xport : Nat) (msg : Bytes)
  /-- DOMAIN_TARGET_WRITE (R588). Operands: request header, domain, value of A002h. -/
  | domainTargetWrite (h : DHdr) (dom : Fin 80) (v : Bytes)
  /-- WAKE_GROUP (R598). Operands: request header, value of A003h.01. -/
  | wakeGroup (h : DHdr) (v : Bytes)
  /-- DEVICE_MODE_WRITE (R596). Operands: request header, value of A010h.01. -/
  | deviceModeWrite (h : DHdr) (v : Bytes)
  /-- WAKE_ALARM (R600). Operands: request header, value of A030h.02. -/
  | wakeAlarm (h : DHdr) (v : Bytes)
  /-- WAKE_ALARM_FIRE (R600). -/
  | wakeAlarmFire 
  /-- MGMT_WAKE_BYTE (R598). Operands: address and first data byte of a write transaction. -/
  | mgmtWakeByte (addr : BitVec 7) (first : BitVec 8)
  /-- PAIR_WAKE (R593). Operands: thread with a wake source pending. -/
  | pairWake (t : Fin 768)
  /-- DUSK_IDLE_ENTRY (R594). Operands: domain. -/
  | duskIdleEntry (dom : Fin 80)
  /-- DUSK_UNGATE (R594). Operands: domain. -/
  | duskUngate (dom : Fin 80)
  /-- SOFT_START_BEGIN (R604). -/
  | softStartBegin 
  /-- SOFT_START_END (R604). Operands: domain. -/
  | softStartEnd (dom : Fin 80)
  /-- RESTORE_END (R585). Operands: domain. -/
  | restoreEnd (dom : Fin 80)
  /-- GOVERNOR_WINDOW (R603). -/
  | governorWindow 
  /-- DOMAIN_LEAVE_END (R595). Operands: domain. -/
  | domainLeaveEnd (dom : Fin 80)
  /-- LSTEP_DEASSERT (R605). -/
  | lstepDeassert 
  /-- LEDGER_CHECK (R614). -/
  | ledgerCheck 
  /-- LEDGER_ALERT_CLEAR (R676). Operands: request header of the READ. -/
  | ledgerAlertClear (h : DHdr)
  /-- FAILURE_LOG_READ (R627). Operands: request header of the READ. -/
  | failureLogRead (h : DHdr)
  /-- CORE_FAULT (R620). Operands: core 8t+k. -/
  | coreFault (core : Fin 96)
  /-- TEC_CHANNEL_FAULT (R621). Operands: tile. -/
  | tecChannelFault (tile : Fin 12)
  /-- SELF_TEST_END (R620). Operands: core and its result. -/
  | selfTestEnd (core : Fin 96) (pass : Bool)
  /-- CORE_READMIT (R627). Operands: request header, value of C019h.03. -/
  | coreReadmit (h : DHdr) (v : Bytes)
  /-- STEWARD_MISMATCH (R622). -/
  | stewardMismatch 
  /-- WARM_RESTART_END (R622). -/
  | warmRestartEnd 
  /-- STALL_RESET (R623). Operands: core 8t+k. -/
  | stallReset (core : Fin 96)
  /-- IMAGE_LOAD (R640). Operands: request header, value of E010h.02. -/
  | imageLoad (h : DHdr) (v : Bytes)
  /-- IMAGE_CHUNK (R656). Operands: request header, value of E011h.01. -/
  | imageChunk (h : DHdr) (v : Bytes)
  /-- SWAP (R641). Operands: request header, value of E020h.02. -/
  | swap (h : DHdr) (v : Bytes)
  /-- SWAP_TIME (R641). Operands: request header, value of E020h.03. -/
  | swapTime (h : DHdr) (v : Bytes)
  /-- SWAP_FIRE (R641). -/
  | swapFire 
  /-- ROLLBACK (R642). Operands: request header, value of E020h.04. -/
  | rollback (h : DHdr) (v : Bytes)
  /-- DEVICE_RESET (R656). Operands: request header, value of E030h.01. -/
  | deviceReset (h : DHdr) (v : Bytes)
  /-- DBG_NONCE (R643). -/
  | dbgNonce 
  /-- DBG_UNLOCK (R643). Operands: proof shifted in. -/
  | dbgUnlock (proof : Bytes)
  /-- HALT (R644). Operands: how it comes in; TILE, CORE, THREAD. -/
  | halt (via : DbgVia) (tile core th : BitVec 8)
  /-- HALT_EFFECT (R644). Operands: thread. -/
  | haltEffect (t : Fin 776)
  /-- RESUME (R644). Operands: how it comes in; TILE, CORE, THREAD. -/
  | resume (via : DbgVia) (tile core th : BitVec 8)
  /-- STEP (R643). Operands: how it comes in; TILE, CORE, THREAD; count. -/
  | step (via : DbgVia) (tile core th : BitVec 8) (n : BitVec 16)
  /-- READ_REGS (R643). Operands: how it comes in; TILE, CORE, THREAD. -/
  | readRegs (via : DbgVia) (tile core th : BitVec 8)
  /-- WRITE_REG (R643). Operands: how it comes in; TILE, CORE, THREAD; register number, value. -/
  | writeReg (via : DbgVia) (tile core th : BitVec 8) (reg : BitVec 8) (v : W72)
  /-- READ_MEM (R643). Operands: how it comes in; TILE, CORE, THREAD; address, length. -/
  | readMem (via : DbgVia) (tile core th : BitVec 8) (addr : BitVec 48) (len : Fin 65)
  /-- WRITE_MEM (R643). Operands: how it comes in; TILE, CORE, THREAD; address, data, tags of the words touched. -/
  | writeMem (via : DbgVia) (tile core th : BitVec 8) (addr : BitVec 48) (data tags : Bytes)
  /-- SET_BP (R645). Operands: how it comes in; TILE, CORE, THREAD; slot, index, thread mask, enable. -/
  | setBp (via : DbgVia) (tile core th : BitVec 8) (slot : Fin 4) (index : BitVec 17) (mask : BitVec 8) (en : Bool)
  /-- SET_WP (R645). Operands: how it comes in; TILE, CORE, THREAD; slot, base, mask, R, W, thread mask, enable. -/
  | setWp (via : DbgVia) (tile core th : BitVec 8) (slot : Fin 4) (base mask : BitVec 48) (rd wr : Bool) (thr : BitVec 8) (en : Bool)
  /-- CHAN_ABORT (R325). Operands: how it comes in; TILE, CORE, THREAD; channel. -/
  | chanAbort (via : DbgVia) (tile core th : BitVec 8) (chan : Fin 64)
  /-- TRACE (R646). Operands: how it comes in; TILE, CORE, THREAD; thread mask of each core, stop mode, start and stop breakpoint. -/
  | trace (via : DbgVia) (tile core th : BitVec 8) (masks : BitVec 64) (stop : Bool) (first last : Option (Fin 4))
  /-- TRACE_READ (R646). Operands: how it comes in; TILE, CORE, THREAD; first record. -/
  | traceRead (via : DbgVia) (tile core th : BitVec 8) (first : BitVec 16)
  /-- BREAKPOINT_HIT (R645). Operands: thread. -/
  | breakpointHit (t : Fin 776)
  /-- WATCHPOINT_HIT (R645). Operands: thread. -/
  | watchpointHit (t : Fin 776)
  /-- FREEZE_N_EDGE (R668). -/
  | freezeNEdge 
  /-- FREEZE (R647). Operands: request header, value of D000h.02. -/
  | freeze (h : DHdr) (v : Bytes)
  /-- FREEZE_TIME (R647). Operands: request header, value of D000h.03. -/
  | freezeTime (h : DHdr) (v : Bytes)
  /-- FREEZE_FIRE (R648). -/
  | freezeFire 
  /-- FREEZE_STOP (R648). -/
  | freezeStop 
  /-- DUMP_START (R651). Operands: how it is started. -/
  | dumpStart (via : DumpVia)
  /-- DUMP_END (R652). -/
  | dumpEnd 
  /-- THAW (R653). Operands: request header, value of D000h.04. -/
  | thaw (h : DHdr) (v : Bytes)
  /-- THAW_TIME (R653). Operands: request header, value of D000h.05. -/
  | thawTime (h : DHdr) (v : Bytes)
  /-- THAW_FIRE (R653). -/
  | thawFire 
  /-- THAW_RELEASE (R654). -/
  | thawRelease 
  /-- UNIT_REGISTER_WRITE (R35). Operands: thread, address, log2 of the bytes stored, value, and whether a reference record that the write reads has an uncorrectable error. -/
  | unitRegisterWrite (t : Fin 776) (addr : BitVec 48) (size : Fin 4) (v : W64) (bad : Bool)
  /-- PTP_MESSAGE_INTERVAL (R60). Operands: sub-port. -/
  | ptpMessageInterval (sp : Fin 16)
  /-- MEMBER_REJOIN (R422). Operands: returning position, and ROUND, OSEQ, BASE and RGEN of the lowest present position. -/
  | memberRejoin (pos : Fin 4) (round oseq base rgen : BitVec 32)
  /-- MSIX_UNMASK (R534). Operands: function, vector, mask bit written. -/
  | msixUnmask (func : Fin 256) (vec : Fin 2048) (mask : Bool)
  /-- CONFIGURATION_REQUEST (R637). Operands: function, what the request does. -/
  | configurationRequest (func : Fin 256) (req : CfgReq)
  /-- PERST_N_DEASSERT (R637). Operands: port. -/
  | perstNDeassert (port : Fin 2)
  /-- HOST_LINK_TRAINING_END (R519). Operands: port, half, negotiated width, RATE code, CXL negotiated. -/
  | hostLinkTrainingEnd (port half : Fin 2) (width : Fin 17) (rate : Fin 7) (cxl : Bool)
  /-- IMAGE_LOAD_END (R640). Operands: whether the flash could not be read. -/
  | imageLoadEnd (err : Bool)
  /-- METADATA_MOVE_COMPLETE (R513). -/
  | metadataMoveComplete 
  deriving DecidableEq, Repr

end Sys2Proof
end

