-- ==== Sys2Proof/Decode.lean ====
section
/-! DEFINITION. What a word of the command table spells. The table gives no row any bits, so no word spells a
command. -/

namespace Sys2Proof

/-- The command that a word spells by the table's bits: none, for every row of the table has no bits. -/
def decodeTableWord (_nbits _w : Nat) : Option Instr := none

end Sys2Proof
end

