-- ==== Sys2Proof/Machine/Tab.lean ====
section
/-! DEFINITION. Sparse tables: the one canonical form in which the state holds everything that is indexed by a
number (memory bytes, tags, registers, table entries, counters, records).

A table is a list of (key, value) pairs with strictly rising keys. Two readings of it are used:
* with a default: a key that is not listed reads as the default, and no listed value equals the default;
* as a partial map: a key that is not listed holds nothing. -/

namespace Sys2Proof

/-- A sparse table over natural keys. -/
abbrev Tab (α : Type) := List (Nat × α)

namespace Machine

/-- The value listed at `k`, or nothing. -/
def tfind {α : Type} : Tab α → Nat → Option α
  | [], _ => none
  | (k', v) :: t, k => if k' = k then some v else tfind t k

/-- List `v` at `k`, keeping the keys strictly rising. -/
def tput {α : Type} : Tab α → Nat → α → Tab α
  | [], k, v => [(k, v)]
  | (k', v') :: t, k, v =>
    if k < k' then (k, v) :: (k', v') :: t
    else if k = k' then (k, v) :: t
    else (k', v') :: tput t k v

/-- Remove whatever is listed at `k`. -/
def tdel {α : Type} : Tab α → Nat → Tab α
  | [], _ => []
  | (k', v') :: t, k => if k' = k then tdel t k else (k', v') :: tdel t k

/-- Read a table that has the default `d`. -/
def tget {α : Type} (d : α) (t : Tab α) (k : Nat) : α := (tfind t k).getD d

/-- Write a table that has the default `d`: writing the default removes the entry. -/
def tset {α : Type} [DecidableEq α] (d : α) (t : Tab α) (k : Nat) (v : α) : Tab α :=
  if v = d then tdel t k else tput t k v

/-- Change one entry of a table that has the default `d`. -/
def tmod {α : Type} [DecidableEq α] (d : α) (t : Tab α) (k : Nat) (f : α → α) : Tab α :=
  tset d t k (f (tget d t k))

/-- Change the entry at `k` of a partial map, if there is one. -/
def tupd {α : Type} (t : Tab α) (k : Nat) (f : α → α) : Tab α :=
  match tfind t k with
  | some v => tput t k (f v)
  | none => t

/-- Keep the entries whose key and value satisfy `p`. -/
def tfilter {α : Type} (p : Nat → α → Bool) (t : Tab α) : Tab α := t.filter (fun e => p e.1 e.2)

/-- Apply `f` to every listed value. -/
def tmap {α : Type} (f : α → α) (t : Tab α) : Tab α := t.map (fun e => (e.1, f e.2))

/-- The keys are strictly rising and every key is above `lo`. -/
def tsortedFrom {α : Type} : Option Nat → Tab α → Bool
  | _, [] => true
  | lo, (k, _) :: t => (match lo with | none => true | some l => decide (l < k)) && tsortedFrom (some k) t

/-- The canonical form of a partial map: strictly rising keys. -/
def tsorted {α : Type} (t : Tab α) : Bool := tsortedFrom none t

/-- The canonical form of a table with the default `d`. -/
def twf {α : Type} [DecidableEq α] (d : α) (t : Tab α) : Bool :=
  tsorted t && t.all (fun e => decide (e.2 ≠ d))

/-- The smallest of the `f` numbers from `n` on at which nothing is listed, or the number after them. -/
def tfreshFrom {α : Type} (t : Tab α) : Nat → Nat → Nat
  | 0, n => n
  | f + 1, n => if (tfind t n).isNone then n else tfreshFrom t f (n + 1)

/-- The smallest natural number at which nothing is listed. -/
def tfresh {α : Type} (t : Tab α) : Nat := tfreshFrom t t.length 0

/-- Put a number into a list of distinct numbers in ascending order. -/
def insertNew (x : Nat) : List Nat → List Nat
  | [] => [x]
  | y :: t => if x < y then x :: y :: t else if x = y then y :: t else y :: insertNew x t

/-- The distinct numbers of a list in ascending order. -/
def distinct : List Nat → List Nat
  | [] => []
  | x :: t => insertNew x (distinct t)

/-- The keys of a table in ascending order. -/
def tkeys {α : Type} (t : Tab α) : List Nat := distinct (t.map (·.1))

/-- Apply `f` to every listed value of a table that has the default `d`, which stays the default of the rest. -/
def tremap {α : Type} [DecidableEq α] (d : α) (f : α → α) (t : Tab α) : Tab α :=
  t.foldr (fun e a => tset d a e.1 (f e.2)) []

end Machine
end Sys2Proof
end

