-- ==== Sys2Proof/Machine/Bits.lean ====
section
/-! DEFINITION. Bit fields, byte order, sign extension and small list helpers. -/

namespace Sys2Proof.Machine

/-- Field of width `w` at bit `lo` of a number. -/
def bf (x lo w : Nat) : Nat := x / 2 ^ lo % 2 ^ w

/-- Bit `i` of a number. -/
def bit (x i : Nat) : Bool := x.testBit i

/-- `x` with the field of width `w` at bit `lo` set to `v` (reduced to the width). -/
def bput (x lo w v : Nat) : Nat :=
  x % 2 ^ lo + (v % 2 ^ w) * 2 ^ lo + x / 2 ^ (lo + w) * 2 ^ (lo + w)

/-- `x` with bit `i` set to `b`. -/
def bitPut (x i : Nat) (b : Bool) : Nat := bput x i 1 (if b then 1 else 0)

/-- A Boolean as a number. -/
def b2n (b : Bool) : Nat := if b then 1 else 0

/-- Two's complement value of the low `w` bits. -/
def sxt (x w : Nat) : Int :=
  let v := x % 2 ^ w
  if v < 2 ^ (w - 1) then (v : Int) else (v : Int) - (2 ^ w : Nat)

/-- The low `w` bits of an integer, as two's complement. -/
def toTwos (x : Int) (w : Nat) : Nat := (x % (2 ^ w : Nat)).toNat

/-- Little-endian value of bytes (R263, R551). -/
def leNat : Bytes → Nat
  | [] => 0
  | b :: t => b.toNat + 256 * leNat t

/-- `n` little-endian bytes of a number. -/
def natLE : Nat → Nat → Bytes
  | 0, _ => []
  | n + 1, x => BitVec.ofNat 8 x :: natLE n (x / 256)

/-- Network-order (big-endian) value of bytes. -/
def beNat (b : Bytes) : Nat := b.foldl (fun a x => a * 256 + x.toNat) 0

/-- `n` network-order bytes of a number. -/
def natBE (n x : Nat) : Bytes := (natLE n x).reverse

/-- `len` bytes from offset `off`; bytes past the end are not there. -/
def slice (b : Bytes) (off len : Nat) : Bytes := (b.drop off).take len

/-- `len` bytes from offset `off`, with zero bytes past the end. -/
def sliceZ (b : Bytes) (off len : Nat) : Bytes :=
  let x := slice b off len
  x ++ List.replicate (len - x.length) 0

/-- Network-order number of `len` bytes at `off`. -/
def beAt (b : Bytes) (off len : Nat) : Nat := beNat (slice b off len)

/-- Little-endian number of `len` bytes at `off`. -/
def leAt (b : Bytes) (off len : Nat) : Nat := leNat (slice b off len)

/-- `b` with the bytes from `off` on replaced by `x`. -/
def patch (b : Bytes) (off : Nat) (x : Bytes) : Bytes :=
  b.take off ++ x ++ b.drop (off + x.length)

/-- `n` zero bytes. -/
def zeros (n : Nat) : Bytes := List.replicate n 0

/-- `b` padded with zero bytes to at least `n` bytes. -/
def padTo (b : Bytes) (n : Nat) : Bytes := b ++ zeros (n - b.length)

/-- Bytes of an ASCII string. -/
def ascii (x : String) : Bytes := x.toList.map (fun c => BitVec.ofNat 8 c.toNat)

/-- Round `x` up to a multiple of `m`. -/
def roundUp (x m : Nat) : Nat := (x + m - 1) / m * m

/-- Integer division of a signed value, rounded toward zero. -/
def tdivInt (a b : Int) : Int := Int.tdiv a b

/-- Clamp an integer to `[-m, m]`. -/
def clampInt (x m : Int) : Int := if x < -m then -m else if x > m then m else x

/-- The first element that satisfies `p`, with its position. -/
def findIdxVal {α : Type} (p : α → Bool) : List α → Nat → Option (Nat × α)
  | [], _ => none
  | x :: t, i => if p x then some (i, x) else findIdxVal p t (i + 1)

/-- Replace element `i` of a list by `f` of it. -/
def lmod {α : Type} (l : List α) (i : Nat) (f : α → α) : List α := l.modify i f

/-- Element `i` of a list, or `d`. -/
def lget {α : Type} (d : α) (l : List α) (i : Nat) : α := l.getD i d

/-- Number of set bits among the low `w` bits. -/
def popcnt (x w : Nat) : Nat := ((List.range w).filter (fun i => bit x i)).length

/-- Saturating 64-bit addition of counters. -/
def satAdd (x y w : Nat) : Nat := min (x + y) (2 ^ w - 1)

/-- The lowest set bit at or after `start`, wrapping once, among `w` bits: a rotating choice. -/
def rotPick (x w start : Nat) : Option Nat :=
  ((List.range w).map (fun i => (start + i) % w)).find? (fun i => bit x i)

/-- Lexicographic order. -/
def lexLt : List Nat → List Nat → Bool
  | a :: as, b :: bs => decide (a < b) || (decide (a = b) && lexLt as bs)
  | [], _ :: _ => true
  | _, [] => false

/-- The first of a list by a key. -/
def firstBy {α : Type} (key : α → List Nat) (l : List α) : Option α :=
  l.foldl (fun b x => match b with | none => some x | some y => if lexLt (key x) (key y) then some x else some y) none

/-- Insert an element into a list in ascending order of its key, after those of an equal key. -/
def insertBy {α : Type} (key : α → List Nat) (x : α) : List α → List α
  | [] => [x]
  | y :: t => if lexLt (key x) (key y) then x :: y :: t else y :: insertBy key x t

/-- A list in ascending order of a key. -/
def sortBy {α : Type} (key : α → List Nat) (l : List α) : List α := l.foldl (fun o x => insertBy key x o) []

end Sys2Proof.Machine
end

