-- ==== Sys2Proof/Machine/Crypto.lean ====
section
/-! DEFINITION. The check codes, hashes and ciphers the spec names by their standards: CRC-8 (Table 3-4), CRC-32 of
Ethernet, CRC-32C (R674), CRC-64 (R436), SHA-384 and HMAC-SHA-384 (R563), AES-256 and GHASH (R439), ECDSA P-384
(R561, R633). -/

namespace Sys2Proof.Machine

/-- One bit of a reflected CRC of width 32 or 64 held in a number. -/
def crcBit (poly c : Nat) : Nat := if c % 2 = 1 then (c / 2) ^^^ poly else c / 2

/-- One byte of a reflected CRC. -/
def crcByte (poly c : Nat) (b : Byte) : Nat :=
  (List.range 8).foldl (fun c _ => crcBit poly c) (c ^^^ b.toNat)

/-- A reflected CRC over bytes, from the running value `c`, with no inversion. -/
def crcRefl (poly c : Nat) (bs : Bytes) : Nat := bs.foldl (crcByte poly) c

/-- CRC-32C with an initial value and the final inversion (R674). -/
def crc32c (init : Nat) (bs : Bytes) : Nat := crcRefl 0x82F63B78 (init % 2 ^ 32) bs ^^^ 0xFFFFFFFF

/-- The CRC32C function of the coprocessor: neither preset nor final inversion (R436). -/
def crc32cRaw (c : Nat) (bs : Bytes) : Nat := crcRefl 0x82F63B78 (c % 2 ^ 32) bs

/-- The CRC64 function of the coprocessor: ECMA-182, reflected, no inversion (R436). -/
def crc64Raw (c : Nat) (bs : Bytes) : Nat := crcRefl 0xC96C5795D7870F42 (c % 2 ^ 64) bs

/-- The Ethernet frame check sequence as the number whose little-endian bytes end the frame. -/
def ethFcs (bs : Bytes) : Nat := crcRefl 0xEDB88320 0xFFFFFFFF bs ^^^ 0xFFFFFFFF

/-- CRC-8 with polynomial 07h and initial value 00h (Table 3-4). -/
def crc8 (bs : Bytes) : Nat :=
  bs.foldl (fun c b => (List.range 8).foldl
    (fun c _ => if c ≥ 128 then (c * 2 % 256) ^^^ 0x07 else c * 2 % 256) (c ^^^ b.toNat)) 0

/-! ### SHA-384 (FIPS 180-4)

The standard takes its constants from the roots of the primes: the first 64 bits of the fraction of each. -/

/-- The greatest `r` below 2^`bits` with r^`k` at most `n`. -/
def rootBelow (k n bits : Nat) : Nat :=
  (List.range bits).foldr (fun i r => if (r + 2 ^ i) ^ k ≤ n then r + 2 ^ i else r) 0

/-- The primes below `n`, rising. -/
def primesBelow (n : Nat) : List Nat :=
  (List.range n).filter (fun p => decide (2 ≤ p) && (List.range p).all (fun d => decide (d < 2 ∨ p % d ≠ 0)))

/-- The first 64 bits of the fraction of the `k`-th root of `p`. -/
def rootFrac (k p : Nat) : W64 := BitVec.ofNat 64 (rootBelow k (p * 2 ^ (64 * k)) 72)

/-- The 80 round constants: the cube roots of the first 80 primes, the last of them 409. -/
def shaK : List W64 := (primesBelow 410).map (rootFrac 3)

/-- The initial value: the square roots of the ninth to sixteenth primes. -/
def sha384H : List W64 := ((primesBelow 54).drop 8).map (rootFrac 2)

/-- Exclusive or of a word's rotations. -/
def rotXor (rs : List Nat) (x : W64) : W64 := rs.foldl (fun acc r => acc ^^^ x.rotateRight r) 0

/-- Word `t` of the message schedule from the words before it, newest first. -/
def shaNext (w : List W64) : W64 :=
  rotXor [19, 61] (w.getD 1 0) ^^^ (w.getD 1 0 >>> 6)
    |> (· + w.getD 6 0 + w.getD 15 0 + (rotXor [1, 8] (w.getD 14 0) ^^^ (w.getD 14 0 >>> 7)))

/-- The message schedule, newest word first, extended by `n` words. -/
def shaExtend : Nat → List W64 → List W64
  | 0, w => w
  | n + 1, w => shaExtend n (shaNext w :: w)

/-- One round on the eight working words: position 0 is the standard's `a`. -/
def shaRound (v : List W64) (kw : W64) : List W64 :=
  let x := fun i => v.getD i 0
  let pick := (x 4 &&& (x 5 ^^^ x 6)) ^^^ x 6
  let most := (x 0 &&& (x 1 ||| x 2)) ||| (x 1 &&& x 2)
  let step := kw + pick + rotXor [14, 18, 41] (x 4) + x 7
  (rotXor [28, 34, 39] (x 0) + most + step) :: (v.take 3 ++ (x 3 + step) :: (v.drop 4).take 3)

/-- Compress one 128-byte block into the chaining value. -/
def shaBlock (h : List W64) (blk : Bytes) : List W64 :=
  let first := ((List.range 16).map (fun i => BitVec.ofNat 64 (beAt blk (8 * i) 8))).reverse
  let out := (((shaExtend 64 first).reverse.zip shaK).map (fun p => p.1 + p.2)).foldl shaRound h
  (h.zip out).map (fun p => p.1 + p.2)

/-- Fold the compression over `n` blocks. -/
def shaBlocks : Nat → List W64 → Bytes → List W64
  | 0, h, _ => h
  | n + 1, h, b => shaBlocks n (shaBlock h (b.take 128)) (b.drop 128)

/-- SHA-384 of a byte string: 48 bytes. -/
def sha384 (m : Bytes) : Bytes :=
  let p := m ++ [0x80] ++ zeros ((128 - (m.length + 17) % 128) % 128) ++ natBE 16 (8 * m.length)
  (((shaBlocks (p.length / 128) sha384H p).take 6).map (fun w => natBE 8 w.toNat)).flatten

/-- HMAC-SHA-384 with a key of at most 128 bytes. -/
def hmac384 (key msg : Bytes) : Bytes :=
  let k := padTo key 128
  sha384 (k.map (· ^^^ 0x5c) ++ sha384 (k.map (· ^^^ 0x36) ++ msg))

/-! AES-256 (FIPS-197) and GHASH (SP 800-38D). -/

/-- Product in GF(2^8) modulo 11Bh. -/
def gf8Mul (a b : Nat) : Nat :=
  ((List.range 8).foldl (fun (p : Nat × Nat) i =>
    (if bit b i then p.1 ^^^ p.2 else p.1,
     if p.2 ≥ 128 then (p.2 * 2 % 256) ^^^ 0x1B else p.2 * 2)) (0, a % 256)).1

/-- The inverse in GF(2^8): the 254th power, 0 for 0. -/
def gf8Inv (a : Nat) : Nat :=
  let p := fun x => gf8Mul x x
  let a2 := p a; let a4 := p a2; let a8 := p a4; let a16 := p a8; let a32 := p a16; let a64 := p a32
  gf8Mul a2 (gf8Mul a4 (gf8Mul a8 (gf8Mul a16 (gf8Mul a32 (gf8Mul a64 (p a64))))))

/-- The AES S-box. -/
def aesSbox (a : Byte) : Byte :=
  let x : Byte := BitVec.ofNat 8 (gf8Inv a.toNat)
  x ^^^ x.rotateLeft 1 ^^^ x.rotateLeft 2 ^^^ x.rotateLeft 3 ^^^ x.rotateLeft 4 ^^^ 0x63

/-- AES-256 key expansion: words (4 bytes each), newest first, `n` words still to make; `i` is the word number. -/
def aesExpand : Nat → Nat → Nat → List Bytes → List Bytes
  | 0, _, _, w => w
  | n + 1, i, rcon, w =>
    let t := w.getD 0 []
    let b := w.getD 7 []
    let t' :=
      if i % 8 = 0 then
        let r := (t.drop 1 ++ t.take 1).map aesSbox
        patch r 0 [(r.getD 0 0) ^^^ BitVec.ofNat 8 rcon]
      else if i % 8 = 4 then t.map aesSbox else t
    aesExpand n (i + 1) (if i % 8 = 0 then gf8Mul rcon 2 else rcon) (List.zipWith (· ^^^ ·) b t' :: w)

/-- The fifteen round keys of 16 bytes. -/
def aesRoundKeys (key : Bytes) : List Bytes :=
  let w0 := (List.range 8).map (fun i => sliceZ key (4 * i) 4)
  let w := (aesExpand 52 8 1 w0.reverse).reverse
  (List.range 15).map (fun r => ((w.drop (4 * r)).take 4).flatten)

/-- ShiftRows on the column-major state. -/
def aesShiftRows (s : Bytes) : Bytes :=
  (List.range 16).map (fun i => s.getD ((i + 4 * (i % 4)) % 16) 0)

/-- MixColumns. -/
def aesMixColumns (s : Bytes) : Bytes :=
  (List.range 16).map (fun i =>
    let c := 4 * (i / 4)
    let g := fun k => (s.getD (c + (i + k) % 4) 0).toNat
    BitVec.ofNat 8 (gf8Mul (g 0) 2 ^^^ gf8Mul (g 1) 3 ^^^ g 2 ^^^ g 3))

/-- Bytewise exclusive or. -/
def xorBytes (a b : Bytes) : Bytes := List.zipWith (· ^^^ ·) a b

/-- Encrypt one 16-byte block under a 32-byte key (PRESUMED, log 128). -/
def aes256 (key blk : Bytes) : Bytes :=
  let rk := aesRoundKeys key
  let s := (List.range 13).foldl
    (fun s r => xorBytes (aesMixColumns (aesShiftRows (s.map aesSbox))) (rk.getD (r + 1) []))
    (xorBytes (padTo blk 16) (rk.getD 0 []))
  xorBytes (aesShiftRows (s.map aesSbox)) (rk.getD 14 [])

/-- Product in the GCM field: blocks as numbers whose bit 127 is the first bit of the block. -/
def gcmMul (x y : Nat) : Nat :=
  ((List.range 128).foldl (fun (p : Nat × Nat) i =>
    (if bit x (127 - i) then p.1 ^^^ p.2 else p.1,
     if p.2 % 2 = 1 then (p.2 / 2) ^^^ (0xE1 * 2 ^ 120) else p.2 / 2)) (0, y)).1

/-- One GHASH step: fold a 16-byte block (zero padded) into the running value. -/
def ghashStep (h y : Nat) (blk : Bytes) : Nat := gcmMul (y ^^^ beNat (padTo (blk.take 16) 16)) h

/-! ECDSA over P-384 with SHA-384. -/

def p384P : Nat := 2 ^ 384 - 2 ^ 128 - 2 ^ 96 + 2 ^ 32 - 1
def p384N : Nat := 0xffffffffffffffffffffffffffffffffffffffffffffffffc7634d81f4372ddf581a0db248b0a77aecec196accc52973
def p384B : Nat := 0xb3312fa7e23ee7e4988e056be3f82d19181d9c6efe8141120314088f5013875ac656398d8a2ed19d2a85c8edd3ec2aef
def p384Gx : Nat := 0xaa87ca22be8b05378eb1c71ef320ad746e1d3b628ba79b9859f741e082542a385502f25dbf55296c3a545e3872760ab7
def p384Gy : Nat := 0x3617de4a96262c6f5d9e98bf9292dc29f8f41dbd289a147ce9da3113b5f0b8c00a60b1ce1d7e819d7a431d7c90ea0e5f

/-- Power modulo `m` by squaring; the fuel bounds the bits of the exponent. -/
def powMod (m : Nat) : Nat → Nat → Nat → Nat
  | 0, _, _ => 1 % m
  | f + 1, b, e =>
    let r := powMod m f (b * b % m) (e / 2)
    if e % 2 = 1 then r * b % m else r

/-- Inverse modulo a prime below 2^384. -/
def invMod (m a : Nat) : Nat := powMod m 384 (a % m) (m - 2)

/-- Sum of two points of P-384; `none` is the point at infinity. -/
def ecAdd (a b : Option (Nat × Nat)) : Option (Nat × Nat) :=
  match a, b with
  | none, q => q
  | p, none => p
  | some (x1, y1), some (x2, y2) =>
    let p := p384P
    if x1 = x2 ∧ (y1 + y2) % p = 0 then none
    else
      let l := if x1 = x2 then (3 * x1 * x1 + (p - 3)) * invMod p (2 * y1) % p
               else (y2 + p - y1) * invMod p (x2 + p - x1) % p
      let x3 := (l * l + 2 * p - x1 - x2) % p
      some (x3, (l * (x1 + p - x3) + p - y1) % p)

/-- Multiple of a point, by doubling; the fuel bounds the bits of the scalar. -/
def ecMul : Nat → Nat → Option (Nat × Nat) → Option (Nat × Nat)
  | 0, _, _ => none
  | f + 1, k, q =>
    let r := ecMul f (k / 2) (ecAdd q q)
    if k % 2 = 1 then ecAdd r q else r

/-- ECDSA P-384 verification: a 97-byte uncompressed public key, a message digest and a 96-byte signature. -/
def ecdsaVerify (pub digest sig : Bytes) : Bool :=
  let x := beAt pub 1 48
  let y := beAt pub 49 48
  let r := beAt sig 0 48
  let s := beAt sig 48 48
  if pub.length = 97 ∧ sig.length = 96 ∧ pub.getD 0 0 = 4 ∧ x < p384P ∧ y < p384P ∧
      y * y % p384P = (x * x * x + (p384P - 3) * x + p384B) % p384P ∧
      0 < r ∧ r < p384N ∧ 0 < s ∧ s < p384N then
    let w := invMod p384N s
    let u1 := beNat digest * w % p384N
    let u2 := r * w % p384N
    match ecAdd (ecMul 384 u1 (some (p384Gx, p384Gy))) (ecMul 384 u2 (some (x, y))) with
    | none => false
    | some (vx, _) => decide (vx % p384N = r)
  else false

end Sys2Proof.Machine
end

