-- ==== Sys2Proof/Config.lean ====
section
/-! DEFINITION. What an implementation fixes and what the spec leaves open. Every constant here has no body: no proof
can see its value, and a statement that mentions it holds whatever it is. -/

namespace Sys2Proof.Config

/-- Free values: values the spec leaves open, one for each draw of `State.free` (DESIGN CHOICE, log 1). -/
opaque freeValue : Nat → BitVec 512

/-- The serial number fused into the device, 1000h.05 (DESIGN CHOICE, log 2). -/
opaque serial : BitVec 64

/-- The vendor's IANA Private Enterprise Number, 1000h.08 (DESIGN CHOICE, log 2). -/
opaque enterprise : BitVec 32

/-- The vendor's IEEE OUI, 3000h.02 (DESIGN CHOICE, log 2). -/
opaque vendorOui : BitVec 24

/-- The last three octets of FP0's MAC address, modulo 2^24 - 7 (R677, DESIGN CHOICE, log 2). -/
opaque macBase : BitVec 24

/-- The maker's HMAC key fused at the factory, 48 bytes (Table 17-7, DESIGN CHOICE, log 2). -/
opaque makerKey : BitVec 384

/-- The fused SHA-384 of the maker's claim public key (R561, DESIGN CHOICE, log 2). -/
opaque makerKeyDigest : BitVec 384

/-- The fused SHA-384 of the maker's image key (R633, DESIGN CHOICE, log 2). -/
opaque makerImageDigest : BitVec 384

/-- The calibrated DAY step current of a power domain, mA (A005h, DESIGN CHOICE, log 2). -/
opaque stepMa : Nat → BitVec 16

/-- Spare lanes of an HBM channel, by stack * 16 + channel (R512, DESIGN CHOICE, log 2). -/
opaque hbmSpares : Nat → Nat

/-- Where a block of a metadata item lies in the metadata rows of a stack, by the item's size and the block's number (R494,
DESIGN CHOICE, log 150). -/
opaque metaPlace : Nat → Nat → Nat

/-- Whether a PUT message is traced, and its TRACE_ID, by MSG_ID: the sender's choice (R199, Table 6-5, DESIGN CHOICE,
log 153). -/
opaque traced : Nat → Bool
opaque traceId : Nat → BitVec 64

/-- The vendor's JEP106 code in IDCODE bits 11:1 (DESIGN CHOICE, log 2). -/
opaque jep106 : BitVec 11

/-- The SHA-384 of measured object `n` (R581), as a function of the bytes the model holds for it: the spec does not say
which bytes the object is (PRESUMED, log 3). -/
opaque measurement : Nat → List (BitVec 8) → BitVec 384

/-- The certificate chain of a slot (R581, PRESUMED, log 3). -/
opaque certificate : Nat → List (BitVec 8)

/-- The ECDSA P-384 signature of a transcript with the key of a certificate slot; the draw stands for the signature's own
randomness (R581, PRESUMED, log 3). -/
opaque deviceSign : Nat → Nat → List (BitVec 8) → BitVec 768

/-- The code of a buffer event in the last-error record: 0 DOUBLE_FREE, 1 ADDREF_FREE, 2 REFCOUNT_SAT (R472, DESIGN CHOICE, log 4). -/
opaque bufEvent : Nat → BitVec 8

/-- What a reader of an image header finds (R632). The spec gives the header no field offsets, so this reading is left open. -/
structure ImageHeader where
  fmt : Nat
  svn : Nat
  /-- the signer's public key, the bytes its signature covers, and the signature -/
  key : List (BitVec 8)
  signed : List (BitVec 8)
  sig : List (BitVec 8)
  /-- type, offset and length in bytes, SHA-384 of each section -/
  sections : List (Nat × Nat × Nat × List (BitVec 8))
  deriving Inhabited

/-- The header in the first 512 bytes of an image, when they parse (R632, DESIGN CHOICE, log 5). -/
opaque imageHeader : List (BitVec 8) → Option ImageHeader

/-- What the course load set of an image holds (R632 section 3, R148): entries by instance * 8192 + index with key, mask
and action; program words by pipeline * 4096 + place; bindings and default actions by port; meters with CIR, PIR, CBS,
PBS and CA. -/
structure ImageCourse where
  entries : List (Nat × BitVec 640 × BitVec 640 × BitVec 64)
  programs : List (Nat × BitVec 32)
  bindings : List (Nat × BitVec 13)
  defaults : List (Nat × BitVec 64)
  meters : List (Nat × Nat × Nat × Nat × Nat × Bool)
  deriving Inhabited

/-- The course load set in the bytes of section 3, whose layout the spec does not give (DESIGN CHOICE, log 5). -/
opaque imageCourse : List (BitVec 8) → ImageCourse

/-- The dictionary values, by index * 256 + subindex, in the bytes of section 4 or 5 (R632, DESIGN CHOICE, log 5). -/
opaque imageValues : Nat → List (BitVec 8) → List (Nat × List (BitVec 8))

/-- Contents of the steward ROM by offset (Table 1-7, DESIGN CHOICE, log 2). -/
opaque rom : Nat → BitVec 8

/-- Number of the queues of a function's admin pair (Table 16-4, DESIGN CHOICE, log 2). -/
opaque adminQueue : Nat → BitVec 12

/-- Records the transport trace ring holds (R199, DESIGN CHOICE, log 2). -/
opaque traceRing : Nat

end Sys2Proof.Config
end

