-- ==== Sys2Proof/Machine/State.lean ====
section
/-! DEFINITION. The state of the ZY9672: every register, table, queue, counter, timer, mode and pin the spec gives
the block, as plain data; the reasons a step can stop; and the state right after reset.

Units are sub-structures. A table indexed by a number is a `Tab`; unless a comment says otherwise it has a default
value, and holds no entry equal to it. Times are whole nanoseconds of FTC unless a comment says otherwise. -/

namespace Sys2Proof.Machine

/-- The faults of the model: states in which the spec says that no operation is defined.
`supplyLost`: raised by nothing in the table; a rail that leaves tolerance while PWR_GOOD is high gives no defined
operation (R662), and no command of the table is that event. Safe: the machine would stop where the hardware goes on. -/
inductive Fault where
  | supplyLost
  deriving DecidableEq, Repr

/-- The refusals of the model.
`notModelled`: raised by a `Dispatch` arm that has no meaning yet. Safe: the machine stops. -/
inductive Refusal where
  | notModelled (mnemonic : String)
  deriving DecidableEq, Repr

/-- What the device sends out or drives: the model's own record, oldest first, of everything another party sees
(DESIGN CHOICE, log 7; DESIGN CHOICE, log 8). -/
inductive Output where
  /-- a frame handed to the transmitter of sub-port `sp`; `stomped` when it ends with an inverted FCS (R21) -/
  | frame (sp : Nat) (bytes : Bytes) (stomped : Bool)
  /-- the LLR preamble sent before a frame (Table 3-4): sequence number and acknowledgement -/
  | llrPreamble (sp : Nat) (bytes : Bytes)
  /-- a link control frame: kind and body (Table 3-5) -/
  | lcf (sp : Nat) (kind : Nat) (body : Bytes)
  /-- the transmitter of a sub-port starts training: the PMD it advertises (coded as 318ph.05), the OUI of its message page
  and the capability word of its unformatted page (R84) -/
  | train (sp pmd oui caps : Nat)
  /-- a memory write sent to a host -/
  | hostWrite (port func : Nat) (pasid : Option Nat) (addr : Nat) (data : Bytes)
  /-- a memory read sent to a host, for the requester named by `tag` -/
  | hostRead (port func : Nat) (pasid : Option Nat) (addr len : Nat) (tag : Nat)
  /-- an MSI-X message -/
  | msix (port func vec : Nat)
  /-- a host-link message other than a memory access: kind, function, body -/
  | hostMsg (port : Nat) (kind : String) (func : Nat) (body : List Nat)
  /-- a dictionary, MCTP or SPDM message sent on a transport (Table 17-6) -/
  | mgmt (xport : Nat) (bytes : Bytes)
  /-- an in-band interrupt raised over I3C by cause -/
  | ibi (cause : Nat)
  /-- a cascade frame: kind and words -/
  | casc (kind : Nat) (words : List Nat)
  /-- bits shifted out of the JTAG port -/
  | jtag (bytes : Bytes)
  /-- the dump, on TDO or on DBG_D: how many bytes (R651; their contents are not modelled) -/
  | dump (jtag : Bool) (bytes : Nat)
  /-- a command issued on an HBM pseudo-channel: stack, pseudo-channel, command code, bank, row, column -/
  | hbm (stack pc cmd bank row col : Nat)
  /-- a 1588 message sent on a sub-port, with the source MAC address of its frame (R677) -/
  | ptp (sp mac : Nat) (bytes : Bytes)
  /-- a result returned to a requester of a unit other than a held load of a thread: unit, requester, words -/
  | reply (unit : String) (dst : Nat) (words : List Nat)
  /-- a pin driven to a level -/
  | pin (name : String) (level : Bool)
  deriving DecidableEq, Repr

/-! ### Headers -/

/-- A ZMT header (Table 6-2). `ccid` and `sub` together are CTX in a SEND. -/
structure ZHdr where
  ver : Nat := 1
  op : Nat := 0
  flags : Nat := 0
  maxv : Nat := 0
  plen : Nat := 0
  srcEp : Nat := 0
  job : Nat := 0
  msgId : Nat := 0
  psn : Nat := 0
  tofs : Nat := 0
  ccid : Nat := 0
  sub : Nat := 0
  mseq : Nat := 0
  mlen : Nat := 0
  deriving DecidableEq, Repr

/-! ### Fabric time (chapter 02) -/

/-- The TIME exchange of one sub-port (R46-R49). -/
structure SubTime where
  /-- interval index (FTC / 131,072 ns) of the last REQ sent -/
  reqIvl : Nat := 0
  /-- next TSEQ -/
  tseq : BitVec 16 := 0
  /-- the last REQ sent: its TSEQ and T1 -/
  lastReq : Option (BitVec 16 × BitVec 80) := none
  answered : Bool := true
  /-- the last REQ has been counted as one without a RESP within its interval (R80) -/
  missed : Bool := false
  /-- the last answering RESP: GM_PRIO, GM_ID, HOPS, TFLAGS -/
  resp : Option (Nat × Nat × Nat × Nat) := none
  /-- exchange intervals since that RESP -/
  respAge : Nat := 0
  /-- delays of the last 16 exchanges, newest first, 2^-16 ns -/
  delays : List Int := []
  /-- link_delay, 2^-16 ns (R48) -/
  linkDelay : Int := 0
  /-- offset of an answering RESP of this interval, 2^-16 ns -/
  offset : Option Int := none
  deriving DecidableEq, Repr

/-- A foreign master of the 1588 edge: its dataset (priority1, class, accuracy, variance, priority2, identity, steps
removed, port identity of the sender), when its last Announce came and the interval it announces at, ns (R60). -/
structure PtpForeign where
  ds : List Nat
  heardAt : Nat
  ivl : Nat
  deriving DecidableEq, Repr

/-- The IEEE 1588 edge of one sub-port (R60, R61). -/
structure PtpPort where
  /-- best foreign master announced on the port -/
  foreign : Option PtpForeign := none
  /-- last Sync: sequence id, source, T1 (2^-16 ns, absent until Follow_Up), T2 -/
  sync : Option (Nat × Nat × Option Int × Int) := none
  /-- last Delay_Req or Pdelay_Req sent: sequence id and T3 -/
  req : Option (Nat × Int) := none
  /-- mean path delay, 2^-16 ns -/
  pathDelay : Int := 0
  /-- last Pdelay_Resp: sequence id, T2 of the peer, T4 -/
  presp : Option (Nat × Int × Int) := none
  seq : BitVec 16 := 0
  lastIvl : Nat := 0
  deriving DecidableEq, Repr

/-- The time unit (Table 2-7) and the time service. -/
structure Clk where
  /-- FTC: nanoseconds in bits 79:16, fraction in bits 15:0 -/
  ftc : BitVec 80 := 0
  /-- the part of a 2^-16 ns unit not yet in the FTC, in 2^-48 of a nominal nanosecond times 2^16 (model's own) -/
  acc : Nat := 0
  /-- index of the DL0 boundary whose actions have fired last, and of the one at which an exchange interval last ended
  (the model's own: R69, R70, R673) -/
  served : Nat := 0
  ivlAt : Nat := 0
  fia : BitVec 64 := 0
  state : BitVec 3 := 0
  everLocked : Bool := false
  /-- freq and rate of R52, signed, 2^-48 -/
  freq : Int := 0
  rate : Int := 0
  /-- rates applied in the last 64 intervals, newest first -/
  rates : List Int := []
  offsetEst : BitVec 64 := 0
  ext : Bool := false
  /-- parent sub-port 2p+s -/
  parent : Option Nat := none
  /-- port and sub-port fields of register 38h: 4 bits, the last parent's -/
  hops : BitVec 8 := 0xFF
  gmPrio : BitVec 8 := 0xFF
  gmId : BitVec 64 := 0
  /-- FTC at entry to the current holdover -/
  holdStart : Nat := 0
  goodRun : Nat := 0
  badRun : Nat := 0
  /-- index of the last exchange interval that ended -/
  ivl : Nat := 0
  /-- intervals since any port held a valid parent -/
  noParent : Nat := 0
  sub : Tab SubTime := []
  ptp : Tab PtpPort := []
  /-- FTC_FRAC latch per reading master (default 0) -/
  fracLatch : Tab (BitVec 16) := []
  /-- start of the frozen interval in force (R72) -/
  frozen : Option Nat := none
  timeout : Bool := false
  /-- the whole second of the TIMEOUT pulse last started -/
  pulseSec : Nat := 0
  /-- FTC of the last accepted TIMEIN edge (R668) -/
  timeinLast : Option Nat := none
  deriving DecidableEq, Repr

/-! ### Fabric ports (chapter 03) -/

/-- A frame kept by link-level retry (R98). -/
structure LlrCopy where
  seq : BitVec 16
  bytes : Bytes
  tc : Nat
  /-- the packet it carries, and that packet's ledger ITEM when it is a transit packet: it fails when the copy is
  released unacknowledged (R103, R104) -/
  pkt : Option Nat
  item : Option Nat
  stomp : Bool
  sentAt : Nat
  tries : Nat
  /-- bytes it takes in the replay buffer, its FCS included -/
  len : Nat
  /-- cells of credit it takes (none for a frame of the port's own), and whether they are charged since the last training
  (R46, R93, R94) -/
  cost : Nat
  paid : Bool
  deriving DecidableEq, Repr

/-- A sub-port: link state, link-level retry, flow control and shedding. -/
structure SubPort where
  /-- 0 DOWN, 1 TRAINING, 2 UP, 3 SHED -/
  oper : BitVec 3 := 0
  lanes : BitVec 4 := 0
  peerZy : Bool := false
  peerCaps : BitVec 11 := 0
  /-- link-level retry, shedding, credit flow control in force (R85) -/
  llr : Bool := false
  shedOn : Bool := false
  cbfc : Bool := false
  /-- when the link went down, and the hold in ms that applies (R104, R654) -/
  downAt : Option Nat := none
  holdMs : Nat := 10
  /-- admin-down drain in progress: when it began (R112 step 3) -/
  drainAt : Option Nat := none
  txNext : BitVec 16 := 0
  txAcked : BitVec 16 := 0
  rxExpect : BitVec 16 := 0
  nackSent : Bool := false
  /-- LLR state lost since the last training (R103) -/
  stateLost : Bool := true
  replay : List LlrCopy := []
  /-- a replay under R103 still has to send from here -/
  replayFrom : Option (BitVec 16) := none
  /-- rx_expect has changed since it was last sent -/
  ackDue : Bool := false
  /-- pause end by priority, in FTC units of 2^-16 ns (R90) -/
  paused : Tab Nat := []
  /-- classes for which a PFC XOFF was sent and is in force (R89) -/
  xoff : BitVec 8 := 0
  /-- when the last XOFF of a class was sent, in 2^-16 ns (R89) -/
  xoffAt : Tab Nat := []
  /-- XOFF sent for a full ingress FIFO (R87) -/
  fifoXoff : Bool := false
  /-- granted by the peer and consumed, per class, 32 bits (R93) -/
  granted : Tab (BitVec 32) := []
  consumed : Tab (BitVec 32) := []
  gotCredit : Bool := false
  /-- cumulative grants to the peer, per class, cells freed since the last CREDIT, and when it was sent, if one was
  since the last training (R92) -/
  grantTx : Tab (BitVec 32) := []
  freedSince : Nat := 0
  creditAt : Option Nat := none
  /-- lanes declared failed and not restored -/
  badLanes : BitVec 4 := 0
  /-- a shed or restore sequence waits for the receiver's lock, and for the peer's SHED_ACK (R107) -/
  lockDue : Bool := false
  ackWait : Bool := false
  /-- LTYPE of a SHED or RESTORE that waits for the frame in progress to end (R107 steps 1, 2) -/
  lcfDue : Option Nat := none
  /-- frames ahead of all others, without FCS: kind (0 PFC, 1 TIME REQ, 2 TIME RESP) and bytes, TIME frames first (R46) -/
  ctl : List (Nat × Bytes) := []
  /-- packets handed to the transmitter, oldest first -/
  tx : List Nat := []
  /-- packets of `tx` that have their SEQ -/
  txSeq : Tab (BitVec 16) := []
  deriving DecidableEq, Repr

/-- A port: what its two sub-ports share. -/
structure Port where
  /-- frames in the ingress FIFO, oldest first: sub-port index 2p+s and bytes -/
  fifo : List (Nat × Bytes) := []
  /-- LANE_FAIL.FAILED, W1C -/
  failed : BitVec 4 := 0
  /-- LANE_FAIL.LOL -/
  lol : BitVec 4 := 0
  /-- SIGDET.LEVEL and WAKE_PEND -/
  level : Bool := false
  wakePend : Bool := false
  /-- the wake in progress was asked for by the comparator: the port trains when it ends (R116) -/
  wakeTrain : Bool := false
  /-- when a lane was last declared failed (R109) -/
  failAt : Tab Nat := []
  /-- the mode still in force while the port goes down for a change of mode (R83) -/
  oldMode : Option Nat := none
  deriving DecidableEq, Repr

/-- A packet in the device, from its first byte to its last; its bytes stand without the FCS (DESIGN CHOICE, log 41). -/
structure Pkt where
  /-- ingress sub-port 2p+s; 16 + s for a packet that slice s originated; 24 for a frame of the time engine -/
  sp : Nat
  /-- bytes received so far, from the destination address; the FCS is not kept (it is recomputed at egress) -/
  bytes : Bytes
  /-- the frame has ended with a good FCS -/
  complete : Bool
  /-- the frame ended with a bad FCS while it was being sent cut-through (R21) -/
  stomp : Bool
  course : Nat
  /-- parse engine held, if any -/
  engine : Option Nat
  /-- 0 parsing, 1 parsed, 2 held for length, 3 to be forwarded, 4 waiting for an ET miss, 5 queued,
      6 at the transmitter, 7 done before its frame ended, 8 held by a fence, 9 to be handed to the slice and 10 to be
      trapped when its frame ends -/
  phase : Nat
  key : Bytes
  /-- metadata words 0 and 1 (Table 4-4) -/
  meta0 : BitVec 64
  meta1 : BitVec 64
  /-- applied action (R133) -/
  act : BitVec 64
  /-- traffic class for queueing -/
  tc : Nat
  /-- egress sub-port -/
  out : Nat
  spilled : Bool
  /-- transmission began before the last byte arrived -/
  cut : Bool
  /-- ends at its frame's end with this ledger reason; 0 completes it -/
  fate : Option Nat
  /-- group and key hash it was routed by (R112 step 2) -/
  nhg : Option Nat
  /-- buffer numbers of the granules a spilled packet holds, in the pool of 6400h.01 (R190) -/
  gran : List Nat := []
  deriving DecidableEq, Repr

/-- Packets, parse order, output queues. -/
structure Fab where
  sub : Tab SubPort := []
  port : Tab Port := []
  pkts : Tab Pkt := []
  nextPkt : Nat := 0
  /-- packets of a pipeline in entry order, until their search -/
  order : Tab (List Nat) := []
  /-- output queues, by sub-port * 8 + class -/
  queue : Tab (List Nat) := []
  deficit : Tab Nat := []
  /-- class the round robin of a sub-port stands at -/
  drr : Tab Nat := []
  deriving DecidableEq, Repr

/-! ### Parse, classify, courses (chapter 04) -/

/-- A classifier entry (Table 4-5): byte 0 of KEY and MASK in the most significant bits. -/
structure ClsEntry where
  key : BitVec 640 := 0
  mask : BitVec 640 := 0
  action : BitVec 64 := 0
  control : BitVec 64 := 0
  deriving DecidableEq, Repr

/-- Parameters of a meter slot (R140). -/
structure MeterSlot where
  cir : BitVec 32 := 0
  pir : BitVec 32 := 0
  cbs : BitVec 32 := 9216
  pbs : BitVec 32 := 9216
  ca : Bool := false
  deriving DecidableEq, Repr

/-- A meter (R137): its two slots, its token buckets in units of 1/8,000,000 byte (1 kb/s for 1 ns), and when it was last refilled
(absent: since the Dawn that started it). -/
structure Meter where
  s0 : MeterSlot := {}
  s1 : MeterSlot := {}
  tc : Nat := 73728000000
  tp : Nat := 73728000000
  last : Option Nat := none
  deriving DecidableEq, Repr

/-- A staged slot value (R149, R152): a program binding, a default action, or a meter's parameters. -/
inductive StagedVal where
  | prog (port : Nat) (v : BitVec 13)
  | dflt (port : Nat) (v : BitVec 64)
  | meter (m : Nat) (v : MeterSlot)
  deriving DecidableEq, Repr

/-- A requested commit (R151). -/
structure Commit where
  /-- fabric time asked for; absent for an immediate commit -/
  time : Option Nat
  acceptedAt : Nat
  fenced : Bool
  /-- audit SEQ for the order of R69 -/
  seq : Nat
  /-- it fired while two courses were live and waits (R156) -/
  waiting : Bool
  deriving DecidableEq, Repr

structure Cls where
  /-- entries by instance * 8192 + index -/
  ent : Tab ClsEntry := []
  /-- program stores by pipeline * 4096 + j -/
  prog : Tab (BitVec 32) := []
  /-- ENTRY[11:0] and PV[12], by pipeline * 2 + slot -/
  entry : Tab (BitVec 13) := []
  /-- default actions by port * 2 + slot; the default is DISP 11b -/
  dflt : Tab (BitVec 64) := []
  meters : Tab Meter := []
  meterDawn : Nat := 0
  pkts : Tab (BitVec 64) := []
  byts : Tab (BitVec 64) := []
  /-- BYTES latch by master * 262144 + pair -/
  latch : Tab (BitVec 64) := []
  active : BitVec 4 := 0
  older : Option (BitVec 4) := none
  /-- drain counts by course * 8 + pipeline, 32 bits -/
  drain : Tab Nat := []
  sweep : Bool := false
  staging : Bool := false
  /-- slot values staged and not yet in the slot, oldest first -/
  vals : List StagedVal := []
  /-- slot n mod 2 holds the copy of step 1 of R152 -/
  slotCopied : Bool := false
  /-- a staged value was written into the slot since the copy -/
  slotDirty : Bool := false
  /-- when the copy last ended or the older course was last reclaimed (the model's own: a commit fires at a boundary that
  comes after, R152, R156) -/
  readyAt : Nat := 0
  commit : Option Commit := none
  /-- the active course was committed fenced and is still held back (R157) -/
  fence : Bool := false
  lastStatus : Nat := 0
  lastCommit : BitVec 80 := 0
  /-- loaded program images: pipeline, first instruction, length -/
  images : List (Nat × Nat × Nat) := []
  deriving DecidableEq, Repr

/-! ### Forwarding (chapter 05) -/

/-- An LPM slot (R183). -/
structure LpmSlot where
  pfx : BitVec 128 := 0
  w2 : BitVec 64 := 0
  v : Bool := false
  deriving DecidableEq, Repr

/-- A next-hop group: sixteen member bytes, member 0 lowest, and the rotating pointer (R188). -/
structure Nhg where
  memb : BitVec 128 := 0
  ptr : BitVec 4 := 0
  deriving DecidableEq, Repr

/-- A command interface of the forwarding unit (Table 5-4). -/
structure FwdCmd where
  d0 : BitVec 64 := 0
  d1 : BitVec 64 := 0
  d2 : BitVec 64 := 0
  status : BitVec 4 := 0
  deriving DecidableEq, Repr

structure Fwd where
  /-- endpoint table by bucket * 4 + way: words 0 and 1 (Table 5-1) -/
  et : Tab (BitVec 64 × BitVec 64) := []
  /-- ET cache by set: slots of the table, most recently used first (R168) -/
  cache : Tab (List Nat) := []
  /-- outstanding misses: pipeline, bucket, packets that wait, oldest first (R169) -/
  misses : List (Nat × Nat × List Nat) := []
  /-- learn table by bucket * 4 + way (R170) -/
  lt : Tab (BitVec 64 × BitVec 64) := []
  /-- learn requests: sub-port, MAC, VID, birth (R172) -/
  learnQ : List (Nat × Nat × Nat × Nat) := []
  /-- learn notification records of four words (R180) -/
  lnq : List (List (BitVec 64)) := []
  /-- LNQ_W1-W3 latch by master -/
  lnqLatch : Tab (List (BitVec 64)) := []
  etSweep : Bool := false
  ltSweep : Bool := false
  etHeld : Bool := false
  ltHeld : Bool := false
  /-- AGE_TICKS, P of R177 -/
  ageTicks : Nat := 1
  /-- DL2 tick at which the last sweep fell due -/
  lastSweep : Nat := 0
  /-- LCFG by family * 129 + length -/
  lcfg : Tab (BitVec 64) := []
  lpm : Tab LpmSlot := []
  /-- length filter by family * 65536 + block; its bit 0 is kept as the difference from `filt0` -/
  filt : Tab (BitVec 129) := []
  /-- bit 0 (length 0) that a default route set in every block, by family -/
  filt0 : BitVec 2 := 0
  def4 : BitVec 64 := 0
  def6 : BitVec 64 := 0
  nhg : Tab Nhg := []
  cmdM : FwdCmd := {}
  cmdS : FwdCmd := {}
  deriving DecidableEq, Repr

/-! ### Ziyth Message Transport (chapter 06) -/

/-- Where the payload of a packet comes from when it is built and built again (R234, R235): bytes, or memory at a device
address read with a PASID. -/
inductive ZSrc where
  | lit (b : Bytes)
  | mem (addr len pasid : Nat)
  deriving DecidableEq, Repr

/-- A sequenced packet sent and not yet acknowledged or abandoned. -/
structure ZOut where
  psn : BitVec 32
  /-- its message -/
  msg : Nat
  hdr : ZHdr
  src : ZSrc
  tc : Nat
  /-- first send, times sent, start and duration of its timer -/
  first : Nat
  sends : Nat
  armed : Nat
  dur : Nat
  /-- 0 no credit, 1 REDUCE, 2 EAGER -/
  charge : Nat
  /-- acknowledged: a GET or ATOMIC whose response is awaited (R220) -/
  acked : Bool
  /-- to be sent again at once (R234) -/
  due : Bool
  deriving DecidableEq, Repr

/-- An outbound message. -/
structure ZMsg where
  ep : Nat
  op : Nat
  job : Nat := 0
  tofs : Nat := 0
  ccid : Nat := 0
  sub : Nat := 0
  tc : Nat := 0
  nonmin : Bool := false
  /-- bytes of the message, and what comes next -/
  n : Nat := 0
  next : Nat := 0
  /-- local source or destination, and the PASID for a host window -/
  laddr : Nat := 0
  pasid : Nat := 0
  /-- words 5 and 6 of a command, what an ABORT carries, or of the GETs of a rendezvous the destination and the MSG_ID its FIN
  names -/
  w5 : Nat := 0
  w6 : Nat := 0
  /-- payload of a MGMT packet -/
  lit : Bytes := []
  /-- host command that issued it -/
  cmd : Option Nat := none
  /-- match sequence of a SEND, taken at its creation; whether it goes eager -/
  mseq : BitVec 32 := 0
  begun : Bool := false
  eager : Bool := false
  /-- every packet has been sent; payload bytes acknowledged or returned -/
  sent : Bool := false
  acked : Nat := 0
  /-- a rendezvous SEND has had its FIN; the value an ATOMR returned -/
  fin : Bool := false
  res : BitVec 64 := 0
  /-- assembly entry whose GETs these are (R223) -/
  asm : Option Nat := none
  /-- a REDUCE carried out by a brick of this BID (R207) -/
  bid : Option Nat := none
  /-- not a message of the ledger: FIN, ABORT, GETs of a rendezvous, MGMT -/
  inner : Bool := false
  /-- MSG_ID its packets carry: its own, or that of the message a FIN or an ABORT is about -/
  id : Nat := 0
  deriving DecidableEq, Repr

/-- An entry of the response table (R220): message, message offset, bytes, and the local destination. -/
structure ZResp where
  msg : Nat
  ofs : Nat
  len : Nat
  deriving DecidableEq, Repr

/-- A peer record (R204). -/
structure Peer where
  ep : Nat
  /-- the slice that works for it -/
  slice : Nat
  txNext : BitVec 32 := 0
  txAcked : BitVec 32 := 0
  mseq : BitVec 32 := 0
  rxBase : BitVec 32 := 0
  /-- PSNs received beyond rx_base -/
  seen : List (BitVec 32) := []
  /-- srtt and rttvar, after the first sample; the RTO they give -/
  rtt : Option (Nat × Nat) := none
  rto : Nat := 0
  /-- R in Mb/s, 0 until the first packet is sent; alpha in units of 2^-16 -/
  rate : Nat := 0
  alpha : Nat := 65536
  /-- pacing bucket in units of 1/8000 byte, and when it was last refilled -/
  bucket : Nat := 0
  bucketAt : Nat := 0
  /-- credit granted by the peer and consumed, REDUCE and EAGER -/
  grantR : BitVec 32 := 0
  grantE : BitVec 32 := 0
  usedR : BitVec 32 := 0
  usedE : BitVec 32 := 0
  /-- credit granted to the peer, and what it was last told -/
  givenR : BitVec 32 := 0
  givenE : BitVec 32 := 0
  toldR : BitVec 32 := 0
  toldE : BitVec 32 := 0
  /-- first unacknowledged arrival, arrivals since the last ACK, NPKT and NCE -/
  ackAt : Option Nat := none
  arrivals : Nat := 0
  npkt : Nat := 0
  nce : Nat := 0
  /-- NACK GAPs sent, by PSN: when -/
  gaps : Tab Nat := []
  /-- interval of R237: start, sums, least RTT sample -/
  ccAt : Option Nat := none
  ccNce : Nat := 0
  ccNpkt : Nat := 0
  ccMin : Option Nat := none
  outs : List ZOut := []
  /-- sub-port its last packet took -/
  egress : Option Nat := none
  /-- response table entries by PSN, and ATOMRs kept by PSN (R222) -/
  resp : Tab ZResp := []
  kept : Tab (ZHdr × Bytes) := []
  deriving DecidableEq, Repr

/-- A packet handed to a slice (R134): frame, header offset, class; `hdr`, `body` and `dup` are set when it has passed
its checks. -/
structure ZIn where
  id : Nat
  bytes : Bytes
  hofs : Nat
  tc : Nat
  hdr : ZHdr := {}
  body : Bytes := []
  dup : Bool := false
  deriving DecidableEq, Repr

/-- A completion counter (Table 6-7), and when it was armed, for R64. -/
structure Ctr where
  count : Nat := 0
  /-- 0 IDLE, 1 ARMED, 2 AUTO, 3 DONE, 4 FAILED -/
  state : Nat := 0
  reason : Nat := 0
  target : Nat := 0
  job : Nat := 0
  act : Nat := 0
  actarg : Nat := 0
  deadline : Nat := 0
  /-- armed without a target: every packet names the one its first packet set (R214) -/
  auto : Bool := false
  armedAt : Nat := 0
  deriving DecidableEq, Repr

/-- An assembly entry (R223). -/
structure Asm where
  ep : Nat
  msgId : Nat
  slice : Nat
  hdr : ZHdr
  /-- up to 16 bytes after that header (Table 6-11) -/
  after : Bytes := []
  /-- source TOFS at the initiator of a rendezvous -/
  src : Nat
  /-- staging buffer -/
  stage : Option Nat
  /-- message offset and length of the pieces that lie there -/
  pieces : List (Nat × Nat)
  /-- descriptor of the posted receive it matched: WIN and OFS, LEN, CCID -/
  dest : Option (Nat × Nat × Nat)
  /-- the search has ended; the message was longer than its receive (R410) -/
  trunc : Bool
  deriving DecidableEq, Repr

structure Zmt where
  peers : Tab Peer := []
  msgs : Tab ZMsg := []
  nextMsg : Nat := 1
  /-- packets handed to the slices, by slice, oldest first; those that have passed their checks -/
  inq : Tab (List ZIn) := []
  ready : Tab (List ZIn) := []
  nextIn : Nat := 0
  win : Tab (List (BitVec 64)) := []
  ctr : Tab Ctr := []
  asm : Tab Asm := []
  /-- trace records of 32 bytes (R199) -/
  trace : List Bytes := []
  /-- CMD_D0-D3 and the STATUS of the last command -/
  d : List (BitVec 64) := [0, 0, 0, 0]
  status : Nat := 0
  deriving DecidableEq, Repr

/-! ### Memory (chapters 01 and 14) -/

/-- Memory of the device by device physical address: HBM data space, tile stores, near stores, code stores, steward
SRAM. A byte that is not listed is 0 and a tag that is not listed is 0 (R480). -/
structure Mem where
  /-- data bytes by address -/
  byte : Tab Byte := []
  /-- tag bytes by word number (address / 8); bits 71:64 of a code-store word -/
  tag : Tab Byte := []
  deriving DecidableEq, Repr

/-! ### Cores (chapters 07-09) -/

/-- A store-buffer entry (R299). -/
structure SbEnt where
  /-- thread of the core, 0-7 -/
  thr : Nat
  /-- device physical address of the word, aliases resolved -/
  addr : Nat
  /-- 0 data bytes under `mask`, 1 a whole word (STW), 2 a tag (STTAG), 3 a word made full (STF) -/
  kind : Nat
  mask : BitVec 8
  data : W72
  /-- level of the store, for STTAG and unit space -/
  lvl : Nat
  /-- PASID, for a host window -/
  pasid : Nat
  deriving DecidableEq, Repr

/-- A posted load outstanding (R293). -/
structure Posted where
  rd : Nat
  /-- opcode 40h-48h or 4Eh -/
  op : Nat
  ea : Nat
  /-- the instruction's index and word (R294) -/
  pc : Nat
  word : BitVec 36
  /-- the load is from a host window -/
  host : Bool
  /-- what an HBM load read at its home, and whether a word it read had P = 1 -/
  val : W72
  poison : Bool
  /-- bytes of `val` that came from the store buffer of a host load -/
  own : Nat
  /-- its place in the order of the thread's posted loads -/
  seq : Nat
  deriving DecidableEq, Repr

/-- A memory instruction held in the pipeline: opcode, destination register, address, store value, instruction word. -/
structure MemOp where
  op : Nat
  rd : Nat
  ea : Nat
  val : W72
  word : BitVec 36
  /-- what the SRAM word it reads proves to be: 0 sound, 1 corrected, 2 uncorrectable (R481) -/
  ecc : Nat := 0
  deriving DecidableEq, Repr

/-- A coprocessor instruction between acceptance and commit (R429): unit, FN, registers, operand values, and the key-table entry it found when the unit accepted it. -/
structure Cpx where
  unit : Nat
  fn : Nat
  rd : Nat
  ra : Nat
  rb : Nat
  a : W72
  b : W72
  /-- w[RA + 1] to w[RA + 3] and w[RB + 1] as the unit took them (R438) -/
  a1 : W72
  a2 : W72
  a3 : W72
  b1 : W72
  /-- the level it issued at -/
  lvl : Nat
  pc : Nat
  /-- the key-table entry an AES instruction found when the unit accepted it (R442) -/
  key : Option (BitVec 256 × Bool)
  /-- the core has committed it (R429) -/
  committed : Bool := false
  /-- its thread was reset after the commit: its register writes are discarded (R430) -/
  dead : Bool := false
  deriving DecidableEq, Repr

/-- What a thread waits for. -/
inductive Hold where
  /-- nothing: it runs -/
  | none
  /-- WFE, or WAIT that offers the vote `vote` (R311, R275) -/
  | wake (rd vote : Nat)
  /-- LDF, or LDFE when `take` (R268) -/
  | full (rd ea : Nat) (take : Bool)
  /-- STF: every earlier store visible -/
  | stf (ea : Nat) (val : W72)
  /-- FENCE (R271) -/
  | fence
  /-- PARK and ENDB: scoreboard and store buffer empty (R275) -/
  | park
  | endb (status : Nat)
  /-- a unit-space load (R295) -/
  | unit (m : MemOp)
  /-- a unit-space load whose value a unit has answered (R467) -/
  | unitVal (m : MemOp) (v : W64)
  /-- a host-window translation (R296) -/
  | xlate (m : MemOp)
  /-- a load squashed by older stores of its thread (R301) -/
  | replay (m : MemOp)
  deriving DecidableEq, Repr

/-- Thread states of Table 9-1 that are not given by the hold. -/
inductive TState where
  | idle | run | entry
  deriving DecidableEq, Repr

/-- A thread: Tables 7-1, 7-3 and 9-3, and the brick it runs. -/
structure Thread where
  w : Tab W72 := []
  pc : BitVec 17 := 0
  /-- the writable fields of st; THR, CORE and TILE are the thread's own place -/
  st : BitVec 64 := 1
  cs : BitVec 64 := 0
  spc : BitVec 17 := 0
  sst : BitVec 64 := 0
  ecause : BitVec 64 := 0
  eaddr : BitVec 48 := 0
  einst : BitVec 36 := 0
  /-- cpen.ENU -/
  enu : BitVec 3 := 0
  scr : Tab W72 := []
  /-- a mode shadow (R251): instructions left, and the st and ENU that follow -/
  shadow : Option (Nat × BitVec 64 × BitVec 3) := none
  state : TState := .idle
  hold : Hold := .none
  /-- stopped by the debugger; a halt asked for; when it stopped -/
  halted : Bool := false
  haltReq : Bool := false
  haltAt : Nat := 0
  /-- groups left of a debugger STEP, when one runs -/
  stepLeft : Option Nat := none
  /-- it stopped at a breakpoint and has been resumed: the next instruction runs -/
  bpSkip : Bool := false
  /-- a watchpoint matched: it halts before the next instruction (R645) -/
  wpHit : Bool := false
  /-- the eight words of the brick it runs -/
  brick : Option (List W64) := none
  /-- turns charged, the limit in force, and whether the BUDGET fault is due and not taken (R357) -/
  charge : Nat := 0
  limit : Nat := 0
  budgetTaken : Bool := false
  /-- boosted priority, 0 when none (R361) -/
  boost : Nat := 0
  /-- slot 0 of its natural pair issued last: its class, the register it writes, and the registers that were held then
  (R289) -/
  pair : Option (Nat × Nat × List Nat) := none
  posted : List Posted := []
  /-- posted loads issued so far -/
  loads : Nat := 0
  /-- deferred poison: address, instruction word, place in the order of the posted loads (R294) -/
  poisons : List (Nat × BitVec 36 × Nat) := []
  /-- coprocessor instructions accepted and not finished, oldest first -/
  cpx : List Cpx := []
  wctl : BitVec 64 := 0
  sig : Bool := false
  watch : Bool := false
  timer : Bool := false
  stall : Bool := false
  tdl : BitVec 64 := 0
  tdlSet : Nat := 0
  /-- EVBASE.BASE -/
  evbase : BitVec 13 := 0
  chsel : BitVec 64 := 0
  charm : BitVec 64 := 0
  wstat : Nat := 0
  chEmpty : Bool := false
  chLast : Bool := false
  rlen : Nat := 0
  /-- a page request group of this thread is outstanding, and its translation failed -/
  prg : Bool := false
  /-- when it began to wait in WFE or WAIT, or was resumed there (R334) -/
  waitAt : Nat := 0
  deriving DecidableEq, Repr

/-- What the eight threads of a core share. Core 96 is the steward. -/
structure CoreSt where
  sr : Tab W72 := []
  sb : List SbEnt := []
  /-- I-cache lines by set, most recently used first (R303) -/
  ic : Tab (List Nat) := []
  /-- the stall detector has fired and its count has not returned to 0 (R335) -/
  fired : Bool := false
  deriving DecidableEq, Repr

/-- A channel of a tile (R319). -/
structure Chan where
  /-- the reserved slot: writing thread of the tile and words so far -/
  rsv : Option (Nat × List W72) := none
  /-- sealed messages, oldest first -/
  sealed : List (List W72) := []
  /-- claimed messages: reading thread of the tile, words left, length -/
  claimed : List (Nat × List W72 × Nat) := []
  /-- rotating core pointer (R323) -/
  ptr : Nat := 0
  deriving DecidableEq, Repr

/-- A TEC group (R330). -/
structure TecGroup where
  n : BitVec 8 := 1
  t : BitVec 12 := 0
  core : BitVec 3 := 0
  thr : BitVec 3 := 0
  en : Bool := false
  count : Nat := 0
  deliv : Bool := false
  /-- start of the group timer, and whether it has expired undelivered -/
  start : Option Nat := none
  expired : Bool := false
  deriving DecidableEq, Repr

/-- A tile: CP_EN_S, the tile event controller and the channels. -/
structure Tile where
  cpEn : BitVec 3 := 0
  gdis : Bool := false
  stray : BitVec 16 := 0
  stalled : BitVec 8 := 0
  swin : BitVec 16 := 0
  active : BitVec 256 := 0
  pend : BitVec 256 := 0
  /-- input levels of sources 0-15 seen last -/
  input : BitVec 16 := 0
  /-- SENSE of sources 0-31, 2 bits each -/
  sense : BitVec 64 := 0x5555555555555555
  grp : Tab TecGroup := []
  chan : Tab Chan := []
  deriving DecidableEq, Repr

/-- Tile threads 0-767 (64 * tile + 8 * core + thread) and steward threads 768-775. -/
structure Cpu where
  thr : Tab Thread := []
  core : Tab CoreSt := []
  tile : Tab Tile := []
  /-- threads that wait in LDF or LDFE, in the order their requests reached the homes (R268) -/
  fe : List Nat := []
  deriving DecidableEq, Repr

/-! ### Scheduler (chapter 10) -/

/-- A queued brick: its eight words, or its continuation slot when it is one of KIND 5. -/
structure QBrick where
  words : List W64
  cont : Option Nat
  spilled : Bool
  deriving DecidableEq, Repr

/-- An entry of a delay list: due boundary and brick. -/
structure DlEnt where
  due : Nat
  b : QBrick
  deriving DecidableEq, Repr

/-- A continuation slot in use (R364). -/
structure Cont where
  words : List W64
  w : Tab W72
  pc : BitVec 17
  st : BitVec 64
  spc : BitVec 17
  sst : BitVec 64
  ecause : BitVec 64
  prio : Nat
  tdl : BitVec 64
  /-- it waits for a page response -/
  waitPrg : Bool
  deriving DecidableEq, Repr

/-- A post area (Table 10-6). -/
structure PostArea where
  w : List W64 := [0, 0, 0, 0, 0, 0, 0, 0]
  due : BitVec 64 := 0
  status : Nat := 0
  bid : BitVec 32 := 0
  deriving DecidableEq, Repr

structure Sched where
  /-- ready queues, oldest first -/
  rq : Tab (List QBrick) := []
  /-- delay lists in due order -/
  dl : Tab (List DlEnt) := []
  cont : Tab Cont := []
  post : Tab PostArea := []
  nextBid : BitVec 32 := 0
  tilePtr : Nat := 0
  refillPtr : Nat := 0
  drained : BitVec 12 := 0
  /-- when the drain of a tile began -/
  drainAt : Tab Nat := []
  deriving DecidableEq, Repr

/-! ### Locks (chapter 11) -/

/-- A lock (R376). -/
structure Lock where
  /-- 0 FREE, 1 HELD, 2 BROKEN -/
  state : BitVec 2 := 0
  owner : Nat := 0
  pk : Bool := false
  ab : Bool := false
  brk : Option (Nat × Bool) := none
  deadline : Nat := 0
  /-- when the lease began, for R64 -/
  leaseAt : Nat := 0
  /-- DLk of the lease in force -/
  leaseDl : Nat := 1
  /-- waiters in order: master id and priority -/
  waiters : List (Nat × Nat) := []
  deriving DecidableEq, Repr

structure Locks where
  lock : Tab Lock := []
  /-- turn pointers by group -/
  tp : Tab (BitVec 16) := []
  /-- NOTIFY entries: SRC in bits 7:0, EN in bit 8 -/
  notify : Tab (BitVec 9) := []
  lastForeign : Bytes := []
  deriving DecidableEq, Repr

/-! ### Match engine and cascade (chapter 12) -/

/-- A match entry (Table 12-1): key, PRIO, class, V, PAYLOAD. -/
structure MEnt where
  key : BitVec 128 := 0
  prio : BitVec 32 := 0
  wc : BitVec 3 := 0
  v : Bool := false
  pay : BitVec 64 := 0
  deriving DecidableEq, Repr

/-- A handle (R407): owner, whether it is cascaded, and the matched entries of this device not yet returned, in order. -/
structure MHandle where
  owner : Nat
  casc : Bool
  list : List Nat
  deriving DecidableEq, Repr

/-- Who made a request: a request area, a host command, a slice with an ARRIVE, or another member of the cascade. -/
inductive MWho where
  | area (m : Nat)
  | host (cmd : Nat)
  | slice (ts : Nat)
  | member
  deriving DecidableEq, Repr

/-- A match request. -/
structure MReq where
  who : MWho
  master : Nat := 0
  op : Nat := 0
  wc : Nat := 0
  auto : Bool := false
  consume : Bool := false
  hreq : Bool := false
  cls : Nat := 0
  key : BitVec 128 := 0
  mask : BitVec 128 := 0
  pay : BitVec 64 := 0
  prio : BitVec 32 := 0
  index : Nat := 0
  tcpos : Nat := 0
  handle : Nat := 0
  deriving DecidableEq, Repr

/-- A request area: REQ words 0h-28h, RES0-RES4, BUSY. -/
structure MArea where
  w : List (BitVec 64) := [0, 0, 0, 0, 0, 0]
  res : List (BitVec 64) := [0, 0, 0, 0, 0]
  busy : Bool := false
  deriving DecidableEq, Repr

/-- A cascaded operation in progress: its place in the operation order and the results held so far, by member. -/
structure COp where
  round : Nat
  pos : Nat
  ord : Nat
  req : MReq
  searched : Bool
  res : Tab CRes
  deriving DecidableEq, Repr

/-- An ARRIVE in the hold store (R411): slice and peer, MSEQ, key, arrival record, since when, and whether it is late. -/
structure HeldArr where
  ts : Nat
  peer : Nat
  mseq : BitVec 32
  key : BitVec 128
  record : BitVec 64
  since : Nat
  late : Bool
  deriving DecidableEq, Repr

structure Match where
  ent : Tab MEnt := []
  handle : Tab MHandle := []
  base : BitVec 32 := 0
  oseq : BitVec 32 := 0
  rgen : BitVec 32 := 0
  /-- a renumber runs; it ranks this device's entries after all others (R422) -/
  renum : Bool := false
  rerank : Bool := false
  /-- requests that wait for it, oldest first -/
  wait : List MReq := []
  area : Tab MArea := []
  /-- ARRIVEs issued, each with a class-4 row reserved, and not yet performed -/
  arrq : List MReq := []
  /-- EXP by slice * 2^32 + peer (R411) -/
  exp : Tab (BitVec 32) := []
  held : List HeldArr := []
  /-- what a slice has to complete: slice, arrival record, descriptor address (absent: the message is unexpected) -/
  done : List (Nat × BitVec 64 × Option (BitVec 64)) := []
  /-- 8C02h.06 and .08 -/
  cstate : Nat := 0
  present : Nat := 0
  round : BitVec 32 := 0
  /-- when a frame came last from a member, the round up to which every frame of it has come, and rounds beyond it that have -/
  heard : Tab Nat := []
  heardRound : Tab Nat := []
  ahead : List (Nat × Nat) := []
  /-- block classes of the other members, from training (R414) -/
  blk : Tab (BitVec 48) := []
  /-- rotating pointer over the requesters TS0-TS7, the host interface and the thread request port (R408) -/
  ptr : Nat := 0
  /-- cascaded requests accepted and not yet sent, then those in progress in operation order -/
  out : List MReq := []
  ops : List COp := []
  deriving DecidableEq, Repr

/-! ### Coprocessors (chapter 13) -/

/-- An exact-sum slot: V, the flags NAN, PINF, NINF, OVF, BADF, and the job and completion counter it is armed for. -/
structure XSlot where
  v : BitVec 2232 := 0
  flags : BitVec 5 := 0
  armed : Option (Nat × Nat) := none
  /-- what an ARM or DISARM that found work of a thread in progress will leave in `armed` (R454) -/
  later : Option (Option (Nat × Nat)) := none
  deriving DecidableEq, Repr

/-- A REDUCE deposit at the deposit port of a tile (R455): slot, mode, element type, payload bytes still to accumulate,
bytes of the packet, the slice and counter that count it, and how much the counter counts. -/
structure Deposit where
  slot : Nat
  mode : Nat
  typ : Nat
  rest : Bytes
  bytes : Nat
  slice : Nat
  ccid : Nat
  /-- the sending endpoint, and MLEN of its message -/
  ep : Nat
  mlen : Nat
  /-- PSN and SRC_EP of the packet, for the failure log -/
  item : Nat
  deriving DecidableEq, Repr

/-- The units of a tile: Toeplitz keys by 5 * key + word, rotating pointers, slots, deposits oldest first. -/
structure Cop where
  tpz : Tab (BitVec 64) := []
  ptr0 : Nat := 0
  ptr1 : Nat := 0
  ptr2 : Nat := 0
  slot : Tab XSlot := []
  dep : List Deposit := []
  deriving DecidableEq, Repr

/-- The coprocessors: units by tile, and the key table that every tile holds (R442): key and U; an entry not listed has
V = 0. -/
structure Cops where
  tile : Tab Cop := []
  key : Tab (BitVec 256 × Bool) := []
  deriving DecidableEq, Repr

/-! ### Buffer pools (chapter 14) -/

/-- A pool (Table 14-9). -/
structure Pool where
  cls : BitVec 2 := 0
  gshift : BitVec 5 := 0
  clrf : Bool := false
  /-- 0 OFF, 1 ACTIVE, 2 DRAINING -/
  state : BitVec 2 := 0
  first : Nat := 0
  count : Nat := 0
  base : BitVec 48 := 0
  pasid : BitVec 20 := 0
  /-- ready FIFO, oldest first (R467) -/
  fifo : List Nat := []
  /-- ALLOCs that wait for a refill, oldest first: requester, master id, owner class, owner item (R467) -/
  wait : List (Nat × Nat × Nat × Nat) := []
  /-- when its drain began, for the timeout -/
  drainAt : Nat := 0
  deriving DecidableEq, Repr

/-- A chain of packet-buffer cells that a trapped frame holds, named by its head cell (R463). -/
structure Chain where
  bytes : Bytes
  ref : BitVec 64
  deriving DecidableEq, Repr

structure Bufs where
  pool : Tab Pool := []
  /-- reference records by buffer number (Table 14-5) -/
  recs : Tab (BitVec 64) := []
  chain : Tab Chain := []
  /-- value of 9030h.01 (R472) -/
  lastError : Bytes := []
  /-- poison log records of 24 bytes, oldest first (R484) -/
  plog : List Bytes := []
  /-- ARG by area m -/
  arg : Tab (BitVec 64) := []
  deriving DecidableEq, Repr

/-! ### HBM controllers (chapter 15) -/

/-- Where a block lies: stack, pseudo-channel, bank (16 * SID + 4 * BG + BA), row, column. -/
structure HbmPlace where
  stack : Nat
  pc : Nat
  bank : Nat
  row : Nat
  col : Nat
  deriving DecidableEq, Repr

/-- A request in a pseudo-channel's queue. A read carries what the writes accepted before it left (R498). -/
structure HbmReq where
  /-- requester's own number -/
  tag : Nat
  /-- device address of the 64-byte block; a number of its own, from 2^60 up, for a tag line or a metadata block -/
  block : Nat
  /-- where it goes in the array -/
  place : HbmPlace
  /-- 0 data, 1 a tag line (R493), 2 a metadata block (R494) -/
  kind : Nat := 0
  /-- it missed the tag cache: its line is fetched alongside (R493) -/
  tagMiss : Bool := false
  write : Bool
  mask : BitVec 64
  data : Bytes
  tags : Bytes
  prio : Nat
  since : Nat
  /-- some bytes, or all bytes, came from queued writes (R498) -/
  merged : Bool
  forwarded : Bool
  /-- its column command has been issued -/
  issued : Bool
  deriving DecidableEq, Repr

/-- A bank: open row, predictor, row of the last access, postponed refreshes, last access. -/
structure HbmBank where
  row : Option Nat := none
  pred : Nat := 2
  lastRow : Option Nat := none
  used : Nat := 0
  /-- its row was activated and no column command has used it -/
  fresh : Bool := false
  deriving DecidableEq, Repr

structure HbmPc where
  rq : List HbmReq := []
  wq : List HbmReq := []
  /-- fetches and write-backs of tag lines, and metadata writes for which the write queue had no room (R493, R494) -/
  side : List HbmReq := []
  bank : Tab HbmBank := []
  /-- refreshes due and not done, by bank (R500 step 1, R504) -/
  refresh : Tab Nat := []
  /-- next bank of the per-bank refresh -/
  nextRef : Nat := 0
  wmode : Bool := false
  pd : Bool := false
  /-- when its queues became empty -/
  idleAt : Nat := 0
  sref : Bool := false
  tries : Nat := 0
  /-- HCLK time (in ns) of the last alert -/
  alertAt : Nat := 0
  failed : Bool := false
  /-- retry buffer: the last 32 commands (command, bank, row, column), oldest first, confirmed ones removed -/
  retry : List (Nat × Nat × Nat × Nat) := []
  /-- multi-bit bursts and data-parity errors in the running window, and its start -/
  sev2 : Nat := 0
  sev2At : Nat := 0
  deriving DecidableEq, Repr

structure Hbm where
  pc : Tab HbmPc := []
  /-- STATE of a stack: 0 OFF, 1 TRAINING, 2 ACTIVE, 3 SELFREF, 4 RETIRING, 5 RETIRED -/
  state : Tab Nat := []
  /-- 1 retiring, 2 retired -/
  retire : Tab Nat := []
  /-- values a stack's own window gave the fields of 9402h, by stack * 8 + subindex -/
  ownCfg : Tab Nat := []
  /-- the metadata of the retiring stack has moved -/
  moved : Bool := false
  temp : Tab Int := []
  /-- index, plus 1, of the DL2 boundary at which a stack's temperature was last read (R504) -/
  tempAt : Tab Nat := []
  rate : Tab Nat := []
  /-- watches held: stack and waiting thread -/
  watch : List (Nat × Nat) := []
  /-- threads whose request found no watch entry (R501) -/
  noWatch : List (Nat × Nat) := []
  /-- stacks whose copies of the mirrored metadata are gone (R494) -/
  metaGone : List Nat := []
  repairs : List (BitVec 16) := []
  /-- order in force (R495) -/
  order : Nat := 0
  /-- tag cache: sets by 2048 * stack + set, lines (number, dirty), most recently used first (R493) -/
  tc : Tab (List (Nat × Bool)) := []
  deriving DecidableEq, Repr

/-! ### Host links, queues, translation, DMA (chapter 16) -/

/-- A command queue (Table 16-11). -/
structure CmQ where
  base : BitVec 64 := 0
  log2 : Nat := 0
  cpq : Nat := 0
  qprio : Nat := 0
  pslot : Nat := 0
  pv : Bool := false
  admin : Bool := false
  /-- 128 * PORT + FUNC -/
  owner : Nat := 0
  /-- 0 OFF, 1 ACTIVE, 2 ERROR, 3 DRAINING -/
  state : BitVec 2 := 0
  qjob : BitVec 32 := 0
  /-- entries taken and entries made ready since creation; HEAD and TAIL are these modulo 2^LOG2 -/
  head : Nat := 0
  tail : Nat := 0
  /-- INLINE entries taken and not yet accepted, by ring position -/
  inline : Tab Bytes := []
  /-- the command that asked to delete it -/
  delBy : Option Nat := none
  deriving DecidableEq, Repr

/-- A completion queue (Table 16-11). -/
structure CpQ where
  base : BitVec 64 := 0
  log2 : Nat := 0
  vec : Nat := 0
  n : Nat := 1
  t : Nat := 0
  dbm : Bool := false
  en : Bool := false
  owner : Nat := 0
  /-- entries freed by the host and entries written, since creation -/
  head : Nat := 0
  tail : Nat := 0
  /-- entries written since the last signal, and when the first was -/
  count : Nat := 0
  since : Option Nat := none
  deriving DecidableEq, Repr

/-- A command in flight: its queue (absent once a reset took it), words, whether it has started. -/
structure HCmd where
  q : Nat
  words : List W64
  started : Bool
  /-- queue position, for order and FENCE -/
  pos : Nat
  /-- what it started: the BID of its brick, the id of its item or message -/
  link : Option Nat
  deriving DecidableEq, Repr

/-- A completion that waits to be written: queue and its four words, PHASE not yet set; for a command's, the ledger reason (0
completes) and the item (Table 19-2) with which the command ends when it is written. -/
structure Cpl where
  cpq : Nat
  words : List W64
  led : Option (Nat × Nat)
  deriving DecidableEq, Repr

/-- A function's registers (Table 16-4). -/
structure HFunc where
  cmdBase : BitVec 64 := 0
  cplBase : BitVec 64 := 0
  log : BitVec 8 := 0
  en : Bool := false
  vec : BitVec 11 := 0
  /-- admin pair: command and completion queue numbers -/
  pair : Option (Nat × Nat) := none
  lockCpq : BitVec 12 := 0
  lockEn : Bool := false
  errq : BitVec 16 := 0
  errcode : BitVec 8 := 0
  /-- configuration-space state the host sets: PRI enabled and its Outstanding Page Request Allocation, ATS enabled; off
  as PCIe resets them (PRESUMED, log 70) -/
  pri : Bool := false
  alloc : Nat := 0
  ats : Bool := false
  deriving DecidableEq, Repr

/-- A host link: one per port in x16 mode, two in 2 x x8 mode, by 2 * port + half. -/
structure HLink where
  up : Bool := false
  width : Nat := 0
  rate : Nat := 0
  cxl : Bool := false
  /-- PERST released, when -/
  perstAt : Option Nat := none
  retrains : Nat := 0
  deriving DecidableEq, Repr

/-- An ATC entry (R536): port, function, PASID, page base and size as log2, translated base, rights. -/
structure AtcEnt where
  func : Nat
  pasid : Option Nat
  base : Nat
  log2 : Nat
  phys : Nat
  rd : Bool
  wr : Bool
  deriving DecidableEq, Repr

/-- Who waits for a translation. -/
inductive XReq where
  | thread (t : Nat)
  | item (i : Nat)
  | cont (slot : Nat)
  | other (n : Nat)
  deriving DecidableEq, Repr

/-- A translation request outstanding: function, PASID, host address, write, requesters; when its page request was
sent, if one was; whether the page request waits for an allocation. -/
structure Xlate where
  func : Nat
  pasid : Option Nat
  addr : Nat
  wr : Bool
  reqs : List XReq
  prgAt : Option Nat
  waiting : Bool
  deriving DecidableEq, Repr

/-- A DMA item (Table 16-8) and its progress. -/
structure DItem where
  words : List W64
  prio : Nat
  /-- PASID for host apertures -/
  pasid : Nat
  /-- host command that made it, or the master that posted it -/
  cmd : Option Nat
  master : Nat
  /-- 0 WAITING, 1 ACTIVE, 2 TRANSLATING, 3 FAULTED, 4 ended with the reason in `fail` -/
  state : Nat
  engine : Option Nat
  done : Nat
  fail : Nat
  deriving DecidableEq, Repr

/-- An item post area of a thread. -/
structure DPost where
  w : List W64 := [0, 0, 0, 0, 0, 0]
  status : Nat := 0
  item : BitVec 32 := 0
  deriving DecidableEq, Repr

/-- An aperture (Table 16-12): control, HBASE, LEN. -/
structure Aper where
  ctl : BitVec 13 := 0
  hbase : BitVec 64 := 0
  len : Nat := 0
  deriving DecidableEq, Repr

structure HostIf where
  link : Tab HLink := []
  func : Tab HFunc := []
  cmq : Tab CmQ := []
  cpq : Tab CpQ := []
  cmds : Tab HCmd := []
  nextCmd : Nat := 0
  /-- completions not yet written, oldest first -/
  posts : List Cpl := []
  /-- MSI-X vectors masked (as PCIe resets them, PRESUMED, log 70), and pending, by function * 2048 + vector -/
  masked : Tab Bool := []
  pend : Tab Bool := []
  /-- queue pointer of each port (R528) -/
  ptr : Tab Nat := []
  aper : Tab Aper := []
  /-- PASID slots by 64 * function + slot: PASID and EST -/
  pslot : Tab (Nat × Nat) := []
  /-- ATC sets: entries, most recently used first -/
  atc : List AtcEnt := []
  xl : List Xlate := []
  items : Tab DItem := []
  nextItem : Nat := 0
  /-- `other` requesters whose translation failed -/
  denied : List Nat := []
  /-- item post areas by master -/
  dpost : Tab DPost := []
  deriving DecidableEq, Repr

/-! ### Object dictionary, sessions, journal (chapter 17) -/

/-- A dictionary session (R563-R567). -/
structure Sess where
  role : Nat
  slot : Nat
  xport : Nat
  /-- OPEN; otherwise CHALLENGED -/
  isOpen : Bool
  lastSeq : Option Nat
  /-- a request is outstanding (R566) -/
  busy : Bool
  hostNonce : Bytes
  devNonce : Bytes
  key : Bytes
  openedAt : Nat
  lastAct : Nat
  /-- session-scoped entry values (Table 17-2), absent: the default -/
  own : Tab Bytes
  /-- result of the session's last debug command (D100h.02) -/
  dbgResult : Bytes
  deriving DecidableEq, Repr

/-- A pending timed write (R571). -/
structure TimedW where
  seq : Nat
  sid : Nat
  role : Nat
  xport : Nat
  idx : Nat
  sub : Nat
  val : Bytes
  atime : Nat
  acceptedAt : Nat
  deriving DecidableEq, Repr

/-- A pending read group (R573). -/
structure PGroup where
  hdr : DHdr
  role : Nat
  entries : List (Nat × Nat)
  /-- the time asked for; the capture boundary is the first DL0 boundary at or after it -/
  atime : Nat
  acceptedAt : Nat
  timed : Bool
  deriving DecidableEq, Repr

/-- The SPDM exchange on a transport (R581): 0 nothing, 1 VERSION, 2 CAPABILITIES, 3 ALGORITHMS answered; the messages up to
there, those since that a CHALLENGE signs, and those that MEASUREMENTS sign. -/
structure SpdmConn where
  phase : Nat := 0
  vca : Bytes := []
  chal : Bytes := []
  meas : Bytes := []
  deriving DecidableEq, Repr

/-- The dictionary service. -/
structure Dict where
  /-- values in force, by index * 256 + subindex; absent: the entry's default -/
  vals : Tab Bytes := []
  /-- persistent configuration: staged values of DAWN entries (R554) -/
  persist : Tab Bytes := []
  /-- staged values of COURSE entries (R553) -/
  staged : Tab Bytes := []
  /-- open and challenged sessions by session id -/
  sess : Tab Sess := []
  /-- consecutive AUTH_FAILs and the time of the last, by role * 8 + transport (R564) -/
  fails : Tab (Nat × Nat) := []
  installerKey : Option Bytes := none
  operatorKeys : Tab Bytes := []
  claimFuses : BitVec 8 := 0
  /-- next journal SEQ -/
  jNext : BitVec 64 := 0
  /-- records in SRAM not yet mirrored, oldest first, each 64 bytes (R577) -/
  jSram : List Bytes := []
  /-- records in flash by SEQ -/
  jFlash : Tab Bytes := []
  /-- the next record is to be a GAP record (R579) -/
  jGap : Bool := false
  timed : List TimedW := []
  groups : List PGroup := []
  /-- SPDM exchanges by transport -/
  spdm : Tab SpdmConn := []
  /-- MCTP endpoint id by transport -/
  eid : Tab Nat := []
  /-- I3C dynamic address latched in AON (R598) -/
  i3cAddr : Option (BitVec 7) := none
  /-- dictionary messages delivered by MGMT packets and not yet taken: sender's endpoint id, bytes (R226) -/
  inbox : List (Nat × Bytes) := []
  /-- responses waiting for the transport: endpoint id, bytes -/
  fabTx : List (Nat × Bytes) := []
  /-- the ledger and Dawn causes of ALERT_N (R676); the journal cause is computed -/
  alertLedger : Bool := false
  alertDawn : Bool := false
  deriving DecidableEq, Repr

/-! ### Power domains (chapter 18) -/

/-- A power domain. -/
structure Dom where
  /-- STATE of Table 18-6: 0 DAY, 1 DUSK, 2 NIGHT, 3 DARK, 4 WAKING, 5 LEAVING -/
  state : Nat := 0
  /-- the state a LEAVING domain goes to, and the state a WAKING one left -/
  goal : Nat := 0
  /-- WAKING: 0 waits, 1 soft start, 2 restore, 3 clock stages; LEAVING: 3 clock stages, 4 supply off due -/
  phase : Nat := 0
  /-- a wake came after its supply began to switch off -/
  rewake : Bool := false
  /-- when the phase began -/
  since : Nat := 0
  /-- when its wake was asked for -/
  reqAt : Nat := 0
  /-- DAY current of its stages still to come, mA -/
  left : Nat := 0
  /-- when a waiting wake could have started: its dependencies were in DAY (R606) -/
  elig : Option Nat := none
  /-- it leaves DAY by the votes of its threads (R591) -/
  byVote : Bool := false
  /-- a request to sleep that came while it woke (R595) -/
  sleepReq : Option Nat := none
  /-- put in NIGHT by votes: thread state is in the save area (R593) -/
  saved : Bool := false
  deriving DecidableEq, Repr

/-- The power unit. -/
structure Power where
  dom : Tab Dom := []
  /-- 0 DAY, 2 NIGHT -/
  dmode : Nat := 0
  /-- domains that wait to start waking or leaving, oldest request first -/
  queue : List Nat := []
  /-- domains in clock stages, in the order their restore ended or their leaving began -/
  stages : List Nat := []
  /-- M of R605, mA -/
  m : Nat := 0
  /-- when LSTEP_N was asserted -/
  lstep : Option Nat := none
  /-- when the last transition of the sequence ended -/
  quietAt : Nat := 0
  /-- when a wake token was last released (R604) -/
  tokenAt : Nat := 0
  wsrc : BitVec 3 := 0
  wgroup : BitVec 6 := 0
  wakeAt : Nat := 0
  /-- the wake alarm: fabric time and acceptance -/
  alarm : Option (Nat × Nat) := none
  /-- the current that the governor held when a freeze stopped the clocks, and what the ballast and the clock trees draw
  while they are stopped, mA (R649, R653) -/
  holdE : Nat := 0
  ballast : Nat := 0
  /-- wakes held by a freeze: source, and group or 64 + domain (R601) -/
  held : List (Nat × Nat) := []
  deriving DecidableEq, Repr

/-! ### Ledger and fault service (chapter 19) -/

/-- The four counts of a ledger row (R611). -/
structure LRow where
  acc : BitVec 64 := 0
  comp : BitVec 64 := 0
  fail : BitVec 64 := 0
  infl : BitVec 64 := 0
  deriving DecidableEq, Repr

/-- The ledger and the fault service. Rows: 1 transit, 2 ZMT outbound, 3 bricks, 4 DMA, 5 host, 6 ZMT inbound. -/
structure Ledger where
  rows : Tab LRow := []
  /-- failure log, oldest first, 32 bytes a record, at most 256 (R615) -/
  log : List Bytes := []
  lastCheck : BitVec 80 := 0
  /-- index of the DL2 boundary last checked -/
  checkIdx : Nat := 0
  mismatches : BitVec 32 := 0
  lastMismatch : Bytes := []
  /-- cores excluded from dispatch, by core 8t+k (R620) -/
  excluded : Tab Bool := []
  /-- cores in self-test: end time, by core -/
  selfTest : Tab Nat := []
  /-- when a steward warm restart in progress began, and the beginning and the end of the last (R622) -/
  restart : Option Nat := none
  restarted : Option (Nat × Nat) := none
  /-- pending STALL report of a core: FTC of the firing, and whether another followed in time (R623) -/
  stallAt : Tab (Nat × Bool) := []
  deriving DecidableEq, Repr

/-! ### Dawn, debug and freeze (chapter 20) -/

/-- A breakpoint of a core. -/
structure Bp where
  index : BitVec 17 := 0
  mask : BitVec 8 := 0
  en : Bool := false
  deriving DecidableEq, Repr

/-- A watchpoint of a core. -/
structure Wp where
  base : BitVec 48 := 0
  mask : BitVec 48 := 0
  rd : Bool := false
  wr : Bool := false
  thr : BitVec 8 := 0
  en : Bool := false
  deriving DecidableEq, Repr

/-- A tile trace (R646): thread masks of cores 0-7, mode (0 ring, 1 stop), start and stop breakpoint slots (4 none). -/
structure Trace where
  mask : BitVec 64 := 0
  mode : Nat := 0
  start : Nat := 4
  stop : Nat := 4
  on : Bool := false
  recs : List Bytes := []
  deriving DecidableEq, Repr

structure Dbg where
  /-- PHASE: 0-4, 5 after Dawn-4 -/
  phase : Nat := 0
  phaseAt : Nat := 0
  /-- Dawn stays in Dawn-1 for want of an image (R635) -/
  stuck : Bool := false
  bootSel : BitVec 2 := 0
  cpos : BitVec 2 := 0
  slot : Nat := 0
  /-- ends of phases 0-4 -/
  times : List (BitVec 80) := [0, 0, 0, 0, 0]
  dawnCount : BitVec 32 := 0
  lastReset : Nat := 0
  /-- an image was pushed while Dawn waited in Dawn-1; E030h.01 was written (both the model's own) -/
  pushed : Bool := false
  resetReq : Bool := false
  pwrGood : Bool := true
  /-- flash, by byte offset; a byte not listed reads FFh (erased) -/
  flash : Tab Byte := []
  /-- active image (0 A, 1 B), whether a rollback finds the other image, a load in progress -/
  active : Nat := 0
  rollback : Bool := false
  load : Option Nat := none
  /-- tile code of images A and B as the steward keeps it in the HBM reserve (R640) -/
  copy : Tab Bytes := []
  /-- flash slot each half of the code stores came from; the slot Dawn used where none is named (the model's own) -/
  imgSlot : Tab Nat := []
  loadResult : Nat := 0
  /-- a swap that fired while a load was in progress, and whether it is a rollback; a timed swap: time and acceptance -/
  swapWait : Option Bool := none
  swapAt : Option (Nat × Nat) := none
  /-- breakpoints and watchpoints by core * 4 + slot -/
  bp : Tab Bp := []
  wp : Tab Wp := []
  trace : Tab Trace := []
  /-- JTAG nonce issued and unused, tiles unlocked, maker unlock, failed proofs and the last -/
  nonce : Option (BitVec 256) := none
  scope : BitVec 12 := 0
  maker : Bool := false
  fails : Nat := 0
  failAt : Nat := 0
  /-- FSTATE, cause, F, S, release -/
  fstate : Nat := 0
  cause : Nat := 0
  fAt : Nat := 0
  sAt : Nat := 0
  relAt : Nat := 0
  /-- time the ramp of a thaw takes, ns (R653) -/
  rampNs : Nat := 0
  /-- a freeze that waits for its boundary; a timed freeze; a thaw that waits; a timed thaw -/
  freezeDue : Option Nat := none
  freezeAt : Option (Nat × Nat) := none
  thawDue : Option Nat := none
  thawAt : Option (Nat × Nat) := none
  dumping : Bool := false
  /-- the read-out goes out over JTAG, else over DBG_D -/
  dumpJtag : Bool := false
  sent : Nat := 0
  deriving DecidableEq, Repr

/-! ### The whole state -/

/-- The state of the device. -/
structure State where
  clk : Clk := {}
  dict : Dict := {}
  fab : Fab := {}
  cls : Cls := {}
  fwd : Fwd := {}
  zmt : Zmt := {}
  mem : Mem := {}
  cpu : Cpu := {}
  sched : Sched := {}
  locks : Locks := {}
  power : Power := {}
  cops : Cops := {}
  mat : Match := {}
  bufs : Bufs := {}
  hbm : Hbm := {}
  host : HostIf := {}
  dbg : Dbg := {}
  led : Ledger := {}
  /-- statistics counters C0xxh, C10xh, C11xh by index * 256 + subindex, 64 bits -/
  ctr : Tab (BitVec 64) := []
  /-- what the device has sent out or driven, oldest first (the model's own record) -/
  out : List Output := []
  /-- number of free values drawn so far (the model's own field) -/
  free : Nat := 0
  /-- the commands waiting, first in, first out -/
  pending : List Instr := []
  deriving DecidableEq, Repr

/-- The device right after reset: AON has just powered up and Dawn-0 has begun (DESIGN CHOICE, log 17; DESIGN CHOICE,
log 18). -/
def State.reset : State := {}

end Sys2Proof.Machine
end

