-- ==== Sys2Proof/Machine/EntryTable.lean ====
section
/-! DEFINITION. The object dictionary: every entry the chapters list, with its type, access and role letters, default,
commit class and range (R41, R551-R553), and the statistics counters. -/

namespace Sys2Proof.Machine

/-- Value types (Table 17-1). -/
inductive Ty where
  | bool | u8 | u16 | u32 | u64 | u72 | s32 | s64 | f64 | time | str | blob
  deriving DecidableEq, Repr

/-- Commit classes (R553); `ro` is the read-only dash. -/
inductive CClass where
  | ro | now | course | timed | dawn
  deriving DecidableEq, Repr

/-- The range a chapter states for a value (DESIGN CHOICE, log 127). -/
inductive Rng where
  /-- every value of the type -/
  | any
  /-- an unsigned value from `lo` to `hi` -/
  | le (lo hi : Nat)
  /-- a signed value from `lo` to `hi` -/
  | sle (lo hi : Int)
  /-- one of these values -/
  | mem (vs : List Nat)
  /-- a BLOB of one of these lengths -/
  | len (ns : List Nat)
  deriving DecidableEq, Repr

/-- A row of a dictionary table: index range, subindex range, type, access r and w, roles (bit 0 O, 1 I, 2 M),
default, commit class, range. -/
structure Ent where
  i0 : Nat
  i1 : Nat
  lo : Nat
  hi : Nat
  ty : Ty
  rd : Bool
  wr : Bool
  roles : Nat
  dflt : Bytes
  commit : CClass
  rng : Rng
  deriving DecidableEq, Repr

/-- Bytes of a value of a type; `none` for STRING and BLOB (Table 17-1). -/
def Ty.size : Ty → Option Nat
  | .bool => some 1 | .u8 => some 1 | .u16 => some 2 | .u32 => some 4 | .u64 => some 8 | .u72 => some 9
  | .s32 => some 4 | .s64 => some 8 | .f64 => some 8 | .time => some 10 | .str => none | .blob => none

/-- Dictionary entries of chapter 02. -/
def entTab02 : List Ent := [
  ⟨0x2000, 0x2000, 0x01, 0x01, .time, true, false, 7, (natLE 10 0), .ro, .any⟩ ,
  ⟨0x2000, 0x2000, 0x02, 0x02, .u64, true, false, 7, (natLE 8 0), .ro, .any⟩ ,
  ⟨0x2000, 0x2000, 0x03, 0x03, .u64, true, false, 7, (natLE 8 0), .ro, .any⟩ ,
  ⟨0x2001, 0x2001, 0x01, 0x01, .u8, true, false, 7, (natLE 1 0), .ro, .any⟩ ,
  ⟨0x2001, 0x2001, 0x02, 0x02, .u8, true, false, 7, (natLE 1 255), .ro, .any⟩ ,
  ⟨0x2001, 0x2001, 0x03, 0x03, .u8, true, false, 7, (natLE 1 255), .ro, .any⟩ ,
  ⟨0x2001, 0x2001, 0x04, 0x04, .u32, true, false, 7, (natLE 4 0), .ro, .any⟩ ,
  ⟨0x2001, 0x2001, 0x05, 0x05, .u32, true, false, 7, (natLE 4 0), .ro, .any⟩ ,
  ⟨0x2002, 0x2002, 0x01, 0x01, .u8, true, true, 2, (natLE 1 255), .now, .any⟩ ,
  ⟨0x2002, 0x2002, 0x02, 0x02, .bool, true, true, 2, (natLE 1 0), .now, .any⟩ ,
  ⟨0x2002, 0x2002, 0x03, 0x03, .bool, true, true, 2, (natLE 1 0), .now, .any⟩ ,
  ⟨0x2002, 0x2002, 0x04, 0x04, .u64, true, true, 2, (natLE 8 0), .dawn, .any⟩ ,
  ⟨0x2002, 0x2002, 0x05, 0x05, .time, false, true, 2, (natLE 10 0), .now, .any⟩ ,
  ⟨0x2003, 0x2003, 0x01, 0x10, .u8, true, true, 2, (natLE 1 1), .now, .le 0 2⟩ ,
  ⟨0x2004, 0x2004, 0x01, 0x10, .s32, true, true, 2, (natLE 4 0), .now, .any⟩ ,
  ⟨0x2005, 0x2005, 0x01, 0x01, .u8, true, true, 2, (natLE 1 0), .now, .le 0 127⟩ ,
  ⟨0x2005, 0x2005, 0x02, 0x02, .u8, true, true, 2, (natLE 1 0), .now, .le 0 1⟩ ,
  ⟨0x2005, 0x2005, 0x03, 0x03, .u8, true, true, 2, (natLE 1 2), .now, .le 0 2⟩ ,
  ⟨0x2005, 0x2005, 0x04, 0x04, .s32, true, true, 2, (natLE 4 0xfffffffc), .now, .sle (-7) 0⟩ ,
  ⟨0x2005, 0x2005, 0x05, 0x05, .bool, true, true, 2, (natLE 1 0), .now, .any⟩ ,
  ⟨0x2006, 0x2006, 0x01, 0x01, .u32, true, true, 2, (natLE 4 0x186a0), .now, .le 1000 10000000⟩ ,
  ⟨0x2006, 0x2006, 0x02, 0x02, .u32, true, true, 2, (natLE 4 10000), .now, .le 100 100000⟩ ,
  ⟨0x2007, 0x2007, 0x01, 0x01, .bool, true, true, 2, (natLE 1 1), .now, .any⟩ ]

/-- Dictionary entries of chapter 03. -/
def entTab03 : List Ent := [
  ⟨0x3000, 0x3000, 0x01, 0x01, .u8, true, false, 7, (natLE 1 8), .ro, .any⟩ ,
  ⟨0x3000, 0x3000, 0x02, 0x02, .u32, true, false, 7, (natLE 4 0), .ro, .any⟩ ,
  ⟨0x3100, 0x3107, 0x01, 0x01, .u8, true, true, 3, (natLE 1 1), .now, .le 0 1⟩ ,
  ⟨0x3100, 0x3107, 0x02, 0x02, .u8, true, true, 2, (natLE 1 0), .now, .le 0 1⟩ ,
  ⟨0x3100, 0x3107, 0x03, 0x03, .u8, true, true, 2, (natLE 1 0), .now, .le 0 1⟩ ,
  ⟨0x3100, 0x3107, 0x04, 0x04, .u8, true, true, 2, (natLE 1 1), .now, .le 0 2⟩ ,
  ⟨0x3100, 0x3107, 0x05, 0x05, .bool, true, true, 2, (natLE 1 1), .now, .any⟩ ,
  ⟨0x3100, 0x3107, 0x06, 0x06, .bool, true, true, 2, (natLE 1 1), .now, .any⟩ ,
  ⟨0x3100, 0x3107, 0x07, 0x07, .u8, true, true, 2, (natLE 1 16), .now, .le 4 255⟩ ,
  ⟨0x3100, 0x3107, 0x08, 0x08, .u16, true, true, 2, (natLE 2 10), .now, .le 1 1000⟩ ,
  ⟨0x3100, 0x3107, 0x09, 0x09, .u8, true, true, 2, (natLE 1 4), .now, .le 3 8⟩ ,
  ⟨0x3100, 0x3107, 0x0A, 0x0A, .u16, true, true, 2, (natLE 2 1024), .now, .le 1 65535⟩ ,
  ⟨0x3100, 0x3107, 0x0B, 0x0B, .u16, true, true, 2, (natLE 2 120), .now, .le 50 400⟩ ,
  ⟨0x3100, 0x3107, 0x0C, 0x0C, .bool, true, true, 2, (natLE 1 0), .now, .any⟩ ,
  ⟨0x3100, 0x3107, 0x0D, 0x0D, .u64, true, false, 7, (natLE 8 0), .ro, .any⟩ ,
  ⟨0x3120, 0x3127, 0x01, 0x01, .u32, true, true, 2, (natLE 4 0xfac688), .now, .le 0 0xFFFFFF⟩ ,
  ⟨0x3120, 0x3127, 0x02, 0x02, .u8, true, true, 2, (natLE 1 0), .now, .le 0 7⟩ ,
  ⟨0x3120, 0x3127, 0x03, 0x03, .u8, true, true, 2, (natLE 1 255), .now, .any⟩ ,
  ⟨0x3120, 0x3127, 0x04, 0x04, .u32, true, true, 2, (natLE 4 2048), .now, .le 64 65536⟩ ,
  ⟨0x3120, 0x3127, 0x05, 0x05, .u32, true, true, 2, (natLE 4 1024), .now, .any⟩ ,
  ⟨0x3120, 0x3127, 0x06, 0x06, .u8, true, true, 2, (natLE 1 255), .now, .any⟩ ,
  ⟨0x3120, 0x3127, 0x07, 0x07, .u32, true, true, 2, (natLE 4 256), .now, .any⟩ ,
  ⟨0x3120, 0x3127, 0x08, 0x08, .u32, true, true, 2, (natLE 4 4096), .now, .le 0 393216⟩ ,
  ⟨0x3120, 0x3127, 0x09, 0x09, .u8, true, true, 2, (natLE 1 20), .now, .le 1 100⟩ ,
  ⟨0x3140, 0x3147, 0x01, 0x01, .u32, true, true, 2, (natLE 4 4096), .now, .any⟩ ,
  ⟨0x3140, 0x3147, 0x02, 0x02, .u8, true, true, 2, (natLE 1 2), .now, .le 1 255⟩ ,
  ⟨0x3180, 0x3187, 0x01, 0x01, .u8, true, false, 7, (natLE 1 0), .ro, .any⟩ ,
  ⟨0x3180, 0x3187, 0x11, 0x11, .u8, true, false, 7, (natLE 1 0), .ro, .any⟩ ,
  ⟨0x3180, 0x3187, 0x02, 0x02, .u8, true, false, 7, (natLE 1 0), .ro, .any⟩ ,
  ⟨0x3180, 0x3187, 0x12, 0x12, .u8, true, false, 7, (natLE 1 0), .ro, .any⟩ ]

/-- Dictionary entries of chapter 03. -/
def entTab03a : List Ent := [
  ⟨0x3180, 0x3187, 0x03, 0x03, .u16, true, false, 7, (natLE 2 0), .ro, .any⟩ ,
  ⟨0x3180, 0x3187, 0x13, 0x13, .u16, true, false, 7, (natLE 2 0), .ro, .any⟩ ,
  ⟨0x3180, 0x3187, 0x04, 0x04, .u16, true, false, 7, (natLE 2 0), .ro, .any⟩ ,
  ⟨0x3180, 0x3187, 0x14, 0x14, .u16, true, false, 7, (natLE 2 0), .ro, .any⟩ ,
  ⟨0x3180, 0x3187, 0x05, 0x05, .u8, true, false, 7, (natLE 1 0), .ro, .any⟩ ,
  ⟨0x3180, 0x3187, 0x15, 0x15, .u8, true, false, 7, (natLE 1 0), .ro, .any⟩ ]

/-- Dictionary entries of chapter 04. -/
def entTab04 : List Ent := [
  ⟨0x5000, 0x5000, 0x01, 0x01, .u8, true, false, 7, (natLE 1 0), .ro, .any⟩ ,
  ⟨0x5000, 0x5000, 0x02, 0x02, .u8, true, false, 7, (natLE 1 255), .ro, .any⟩ ,
  ⟨0x5000, 0x5000, 0x03, 0x03, .u32, true, false, 7, (natLE 4 0), .ro, .any⟩ ,
  ⟨0x5000, 0x5000, 0x04, 0x04, .u32, true, false, 7, (natLE 4 0), .ro, .any⟩ ,
  ⟨0x5100, 0x5100, 0x01, 0x01, .u8, true, false, 7, (natLE 1 1), .ro, .any⟩ ,
  ⟨0x5100, 0x5100, 0x02, 0x02, .u8, false, true, 2, (natLE 1 0), .now, .le 1 1⟩ ,
  ⟨0x5100, 0x5100, 0x03, 0x03, .time, false, true, 2, (natLE 10 0), .timed, .any⟩ ,
  ⟨0x5100, 0x5100, 0x04, 0x04, .u8, false, true, 2, (natLE 1 0), .now, .le 1 1⟩ ,
  ⟨0x5100, 0x5100, 0x05, 0x05, .u8, true, false, 7, (natLE 1 0), .ro, .any⟩ ,
  ⟨0x5100, 0x5100, 0x06, 0x06, .u8, true, false, 7, (natLE 1 0), .ro, .any⟩ ,
  ⟨0x5100, 0x5100, 0x07, 0x07, .time, true, false, 7, (natLE 10 0), .ro, .any⟩ ,
  ⟨0x5200, 0x5200, 0x01, 0x01, .u32, true, true, 2, (natLE 4 0), .course, .any⟩ ,
  ⟨0x5200, 0x5200, 0x02, 0x02, .blob, true, true, 2, (zeros 80), .course, .len [80]⟩ ,
  ⟨0x5200, 0x5200, 0x03, 0x03, .blob, true, true, 2, (zeros 80), .course, .len [80]⟩ ,
  ⟨0x5200, 0x5200, 0x04, 0x04, .u64, true, true, 2, (natLE 8 0), .course, .any⟩ ,
  ⟨0x5200, 0x5200, 0x05, 0x05, .u8, false, true, 2, (natLE 1 0), .course, .le 1 2⟩ ,
  ⟨0x5300, 0x5300, 0x01, 0x01, .u32, true, true, 2, (natLE 4 0), .course, .any⟩ ,
  ⟨0x5300, 0x5300, 0x02, 0x02, .blob, false, true, 2, [], .course, .any⟩ ,
  ⟨0x5310, 0x5317, 0x01, 0x01, .u16, true, true, 2, (natLE 2 65535), .course, .any⟩ ,
  ⟨0x5320, 0x5327, 0x01, 0x01, .u64, true, true, 2, (natLE 8 0xc00000000), .course, .any⟩ ,
  ⟨0x5400, 0x5400, 0x01, 0x01, .u16, true, true, 2, (natLE 2 0), .course, .le 0 16383⟩ ,
  ⟨0x5400, 0x5400, 0x02, 0x02, .u32, true, true, 2, (natLE 4 0), .course, .le 0 800000000⟩ ,
  ⟨0x5400, 0x5400, 0x03, 0x03, .u32, true, true, 2, (natLE 4 0), .course, .le 0 800000000⟩ ,
  ⟨0x5400, 0x5400, 0x04, 0x04, .u32, true, true, 2, (natLE 4 9216), .course, .le 9216 1073741824⟩ ,
  ⟨0x5400, 0x5400, 0x05, 0x05, .u32, true, true, 2, (natLE 4 9216), .course, .le 9216 1073741824⟩ ,
  ⟨0x5400, 0x5400, 0x06, 0x06, .bool, true, true, 2, (natLE 1 0), .course, .any⟩ ,
  ⟨0x5400, 0x5400, 0x07, 0x07, .u8, false, true, 2, (natLE 1 0), .course, .le 1 1⟩ ,
  ⟨0x5500, 0x5500, 0x01, 0x01, .bool, true, true, 2, (natLE 1 0), .course, .any⟩ ,
  ⟨0x5600, 0x5600, 0x01, 0x01, .blob, true, false, 7, [], .ro, .any⟩ ,
  ⟨0x5600, 0x5600, 0x02, 0x02, .u32, true, true, 3, (natLE 4 0), .now, .le 0 262143⟩ ]

/-- Dictionary entries of chapter 04. -/
def entTab04a : List Ent := [
  ⟨0x5600, 0x5600, 0x03, 0x03, .u8, true, true, 3, (natLE 1 1), .now, .le 1 64⟩ ]

/-- Dictionary entries of chapter 05. -/
def entTab05 : List Ent := [
  ⟨0x6000, 0x6000, 0x01, 0x01, .u32, true, false, 7, (natLE 4 0), .ro, .any⟩ ,
  ⟨0x6000, 0x6000, 0x02, 0x02, .u32, true, false, 7, (natLE 4 0), .ro, .any⟩ ,
  ⟨0x6000, 0x6000, 0x03, 0x03, .u32, true, false, 7, (natLE 4 0), .ro, .any⟩ ,
  ⟨0x6010, 0x6010, 0x01, 0x01, .u8, true, true, 2, (natLE 1 0), .now, .le 0 1⟩ ,
  ⟨0x6010, 0x6010, 0x02, 0x02, .u8, true, true, 2, (natLE 1 0), .now, .le 0 1⟩ ,
  ⟨0x6010, 0x6010, 0x03, 0x03, .u32, true, true, 2, (natLE 4 0xffffffff), .dawn, .any⟩ ,
  ⟨0x6010, 0x6010, 0x04, 0x04, .u32, true, true, 2, (natLE 4 0xffffffff), .dawn, .any⟩ ,
  ⟨0x6020, 0x6020, 0x01, 0x01, .bool, true, true, 2, (natLE 1 1), .now, .any⟩ ,
  ⟨0x6020, 0x6020, 0x02, 0x02, .u32, true, true, 2, (natLE 4 0x493e0), .now, .le 1 3600000⟩ ,
  ⟨0x6100, 0x6100, 0x01, 0x01, .u32, true, true, 2, (natLE 4 0), .now, .any⟩ ,
  ⟨0x6100, 0x6100, 0x02, 0x02, .u16, true, true, 2, (natLE 2 0), .now, .any⟩ ,
  ⟨0x6100, 0x6100, 0x03, 0x03, .bool, true, true, 2, (natLE 1 1), .now, .any⟩ ,
  ⟨0x6100, 0x6100, 0x05, 0x05, .u8, false, true, 2, (natLE 1 0), .now, .le 1 2⟩ ,
  ⟨0x6200, 0x6200, 0x01, 0x01, .blob, true, true, 2, (zeros 16), .now, .len [16]⟩ ,
  ⟨0x6200, 0x6200, 0x02, 0x02, .u8, true, true, 2, (natLE 1 0), .now, .le 0 128⟩ ,
  ⟨0x6200, 0x6200, 0x03, 0x03, .u8, true, true, 2, (natLE 1 1), .now, .le 0 1⟩ ,
  ⟨0x6200, 0x6200, 0x04, 0x04, .u16, true, true, 2, (natLE 2 0), .now, .le 0 16383⟩ ,
  ⟨0x6200, 0x6200, 0x05, 0x05, .u8, false, true, 2, (natLE 1 0), .now, .le 1 2⟩ ,
  ⟨0x6210, 0x6210, 0x01, 0x01, .u64, true, true, 2, (natLE 8 0), .now, .any⟩ ,
  ⟨0x6300, 0x6300, 0x01, 0x01, .u16, true, true, 2, (natLE 2 0), .now, .le 0 16383⟩ ,
  ⟨0x6300, 0x6300, 0x02, 0x02, .blob, true, true, 2, (zeros 16), .now, .len [16]⟩ ,
  ⟨0x6300, 0x6300, 0x03, 0x03, .u8, false, true, 2, (natLE 1 0), .now, .le 1 1⟩ ,
  ⟨0x6300, 0x6300, 0x04, 0x04, .u32, true, true, 2, (natLE 4 64), .now, .any⟩ ,
  ⟨0x6400, 0x6400, 0x01, 0x01, .u8, true, true, 2, (natLE 1 1), .dawn, .le 0 63⟩ ,
  ⟨0x6400, 0x6400, 0x02, 0x02, .u32, true, true, 2, (natLE 4 8192), .now, .le 0 65536⟩ ,
  ⟨0x6410, 0x6417, 0x01, 0x08, .u32, true, true, 2, (natLE 4 0), .now, .any⟩ ,
  ⟨0x6410, 0x6417, 0x11, 0x18, .u32, true, true, 2, (natLE 4 49152), .now, .le 64 393216⟩ ,
  ⟨0x6410, 0x6417, 0x21, 0x28, .u32, true, true, 2, (natLE 4 256), .now, .le 0 16384⟩ ,
  ⟨0x6500, 0x6507, 0x01, 0x01, .bool, true, true, 2, (natLE 1 1), .now, .any⟩ ,
  ⟨0x6500, 0x6507, 0x02, 0x02, .u32, true, true, 2, (natLE 4 0x10101c), .now, .any⟩ ]

/-- Dictionary entries of chapter 05. -/
def entTab05a : List Ent := [
  ⟨0x6500, 0x6507, 0x03, 0x03, .bool, true, true, 2, (natLE 1 0), .now, .any⟩ ,
  ⟨0x6500, 0x6507, 0x05, 0x05, .u64, true, true, 2, (natLE 8 0), .now, .any⟩ ,
  ⟨0x6500, 0x6507, 0x06, 0x06, .u64, true, true, 2, (natLE 8 0), .now, .any⟩ ,
  ⟨0x6600, 0x6600, 0x01, 0x01, .blob, true, false, 6, [], .ro, .any⟩ ,
  ⟨0x6600, 0x6600, 0x02, 0x02, .u8, true, true, 2, (natLE 1 255), .now, .any⟩ ]

/-- Dictionary entries of chapter 06. -/
def entTab06 : List Ent := [
  ⟨0x7000, 0x7000, 0x01, 0x01, .u8, true, true, 2, (natLE 1 2), .now, .le 1 2⟩ ,
  ⟨0x7000, 0x7000, 0x02, 0x02, .u16, true, true, 2, (natLE 2 4872), .dawn, .any⟩ ,
  ⟨0x7000, 0x7000, 0x03, 0x03, .u8, true, true, 2, (natLE 1 1), .dawn, .le 0 1⟩ ,
  ⟨0x7000, 0x7000, 0x04, 0x04, .blob, true, true, 2, (zeros 12), .dawn, .len [12]⟩ ,
  ⟨0x7000, 0x7000, 0x05, 0x05, .u32, true, true, 2, (natLE 4 0), .dawn, .any⟩ ,
  ⟨0x7000, 0x7000, 0x06, 0x06, .u16, true, true, 2, (natLE 2 4096), .now, .le 512 4096⟩ ,
  ⟨0x7000, 0x7000, 0x07, 0x07, .u32, true, true, 2, (natLE 4 16384), .now, .le 0 16384⟩ ,
  ⟨0x7000, 0x7000, 0x08, 0x08, .u8, true, true, 2, (natLE 1 1), .now, .le 0 2⟩ ,
  ⟨0x7000, 0x7000, 0x09, 0x09, .u8, true, true, 2, (natLE 1 2), .dawn, .le 0 63⟩ ,
  ⟨0x7000, 0x7000, 0x0A, 0x0A, .bool, true, true, 2, (natLE 1 0), .now, .any⟩ ,
  ⟨0x7100, 0x7100, 0x01, 0x01, .u32, true, true, 2, (natLE 4 16384), .now, .le 64 67108864⟩ ,
  ⟨0x7100, 0x7100, 0x02, 0x02, .u32, true, true, 2, (natLE 4 2048), .now, .le 64 65536⟩ ,
  ⟨0x7100, 0x7100, 0x03, 0x03, .u32, true, true, 2, (natLE 4 0x4000000), .now, .le 65536 67108864⟩ ,
  ⟨0x7100, 0x7100, 0x04, 0x04, .u8, true, true, 2, (natLE 1 16), .now, .le 1 255⟩ ,
  ⟨0x7100, 0x7100, 0x05, 0x05, .u8, true, true, 2, (natLE 1 16), .now, .le 1 255⟩ ,
  ⟨0x7100, 0x7100, 0x06, 0x06, .u16, true, true, 2, (natLE 2 256), .now, .le 16 2048⟩ ,
  ⟨0x7100, 0x7100, 0x07, 0x07, .u16, true, true, 2, (natLE 2 256), .now, .le 64 16384⟩ ,
  ⟨0x7200, 0x7200, 0x01, 0x01, .bool, true, true, 2, (natLE 1 1), .now, .any⟩ ,
  ⟨0x7200, 0x7200, 0x02, 0x02, .u32, true, true, 2, (natLE 4 1000), .now, .any⟩ ,
  ⟨0x7200, 0x7200, 0x03, 0x03, .u32, true, true, 2, (natLE 4 100), .now, .any⟩ ,
  ⟨0x7200, 0x7200, 0x04, 0x04, .u32, true, true, 2, (natLE 4 4096), .now, .le 256 1048576⟩ ,
  ⟨0x7200, 0x7200, 0x05, 0x05, .u32, true, true, 2, (natLE 4 16384), .now, .le 4202 1048576⟩ ,
  ⟨0x7200, 0x7200, 0x06, 0x06, .u8, true, true, 2, (natLE 1 4), .now, .le 1 8⟩ ,
  ⟨0x7300, 0x7300, 0x01, 0x01, .u8, true, true, 2, (natLE 1 8), .now, .le 0 63⟩ ,
  ⟨0x7300, 0x7300, 0x02, 0x02, .u16, true, true, 2, (natLE 2 64), .now, .le 1 4096⟩ ,
  ⟨0x7300, 0x7300, 0x03, 0x03, .u16, true, true, 2, (natLE 2 16), .now, .le 0 4096⟩ ,
  ⟨0x7400, 0x7400, 0x01, 0x01, .u32, true, true, 3, (natLE 4 0), .now, .any⟩ ,
  ⟨0x7400, 0x7400, 0x02, 0x02, .blob, true, false, 7, [], .ro, .any⟩ ,
  ⟨0x7500, 0x7500, 0x01, 0x01, .blob, true, false, 7, [], .ro, .any⟩ ,
  ⟨0x7500, 0x7500, 0x02, 0x02, .bool, true, true, 3, (natLE 1 0), .now, .any⟩ ]

/-- Dictionary entries of chapter 07. -/
def entTab07 : List Ent := [
  ⟨0x8000, 0x8000, 0x01, 0x01, .u8, true, false, 7, (natLE 1 1), .ro, .any⟩ ,
  ⟨0x8000, 0x8000, 0x02, 0x02, .u16, true, false, 7, (natLE 2 96), .ro, .any⟩ ,
  ⟨0x8000, 0x8000, 0x03, 0x03, .u8, true, false, 7, (natLE 1 8), .ro, .any⟩ ,
  ⟨0x8000, 0x8000, 0x04, 0x04, .u32, true, false, 7, (natLE 4 0x20000), .ro, .any⟩ ,
  ⟨0x8001, 0x8001, 0x01, 0x01, .u8, true, true, 2, (natLE 1 7), .now, .le 0 7⟩ ]

/-- Dictionary entries of chapter 09. -/
def entTab09 : List Ent := [
  ⟨0x8002, 0x8002, 0x01, 0x01, .blob, true, false, 7, [], .ro, .any⟩ ]

/-- Dictionary entries of chapter 10. -/
def entTab10 : List Ent := [
  ⟨0x8400, 0x8400, 0x01, 0x01, .u32, true, false, 7, (natLE 4 0), .ro, .any⟩ ,
  ⟨0x8400, 0x8400, 0x02, 0x02, .u32, true, false, 7, (natLE 4 0), .ro, .any⟩ ,
  ⟨0x8400, 0x8400, 0x03, 0x03, .u32, true, false, 7, (natLE 4 0x40000), .ro, .any⟩ ,
  ⟨0x8401, 0x8401, 0x01, 0x01, .u16, true, true, 2, (natLE 2 50), .now, .le 1 65535⟩ ,
  ⟨0x8401, 0x8401, 0x02, 0x02, .u32, true, true, 2, (natLE 4 0x186a0), .now, .le 1024 67108864⟩ ,
  ⟨0x8401, 0x8401, 0x03, 0x03, .u16, true, true, 2, (natLE 2 256), .now, .le 16 4095⟩ ,
  ⟨0x8402, 0x8402, 0x01, 0x01, .u16, true, true, 2, (natLE 2 4095), .now, .le 0 0xFFF⟩ ,
  ⟨0x8402, 0x8402, 0x02, 0x02, .u16, true, true, 2, (natLE 2 0), .now, .le 0 0xFFF⟩ ,
  ⟨0x8402, 0x8402, 0x03, 0x03, .u16, true, true, 2, (natLE 2 4096), .now, .le 1 65535⟩ ,
  ⟨0x8402, 0x8402, 0x04, 0x04, .u32, true, true, 2, (natLE 4 1024), .now, .le 1 1000000⟩ ,
  ⟨0x8402, 0x8402, 0x05, 0x05, .u16, true, false, 7, (natLE 2 0), .ro, .any⟩ ,
  ⟨0x8410, 0x8410, 0x01, 0x20, .u32, true, true, 2, (natLE 4 65520), .now, .any⟩ ,
  ⟨0x8420, 0x8420, 0x01, 0x40, .u64, true, true, 2, (natLE 8 0), .now, .any⟩ ,
  ⟨0x8430, 0x8430, 0x01, 0x40, .u32, true, true, 2, (natLE 4 0), .now, .any⟩ ,
  ⟨0x8440, 0x8440, 0x01, 0x04, .u32, true, false, 7, (natLE 4 0), .ro, .any⟩ ]

/-- Dictionary entries of chapter 11. -/
def entTab11 : List Ent := [
  ⟨0x8800, 0x8800, 0x01, 0x01, .u16, true, false, 7, (natLE 2 4096), .ro, .any⟩ ,
  ⟨0x8800, 0x8800, 0x02, 0x02, .bool, true, true, 2, (natLE 1 1), .now, .any⟩ ,
  ⟨0x8801, 0x8801, 0x01, 0x40, .u32, true, true, 2, (natLE 4 515), .now, .any⟩ ,
  ⟨0x8802, 0x8802, 0x01, 0x01, .u16, true, true, 3, (natLE 2 0), .now, .le 0 4095⟩ ,
  ⟨0x8802, 0x8802, 0x02, 0x02, .blob, true, false, 7, [], .ro, .any⟩ ,
  ⟨0x8803, 0x8803, 0x01, 0x01, .blob, true, false, 7, [], .ro, .any⟩ ,
  ⟨0x8804, 0x8804, 0x01, 0x01, .u16, false, true, 2, (natLE 2 0), .now, .le 0 4095⟩ ]

/-- Dictionary entries of chapter 12. -/
def entTab12 : List Ent := [
  ⟨0x8C00, 0x8C00, 0x01, 0x01, .u32, true, false, 7, (natLE 4 65536), .ro, .any⟩ ,
  ⟨0x8C00, 0x8C00, 0x02, 0x02, .u32, true, false, 7, (natLE 4 0), .ro, .any⟩ ,
  ⟨0x8C00, 0x8C00, 0x03, 0x03, .u32, true, false, 7, (natLE 4 0), .ro, .any⟩ ,
  ⟨0x8C00, 0x8C00, 0x04, 0x04, .u32, true, false, 7, (natLE 4 0), .ro, .any⟩ ,
  ⟨0x8C01, 0x8C01, 0x01, 0x01, .u64, true, true, 2, (natLE 8 0x924689000000), .now, .any⟩ ,
  ⟨0x8C01, 0x8C01, 0x02, 0x02, .u16, true, true, 2, (natLE 2 16), .now, .le 1 65535⟩ ,
  ⟨0x8C01, 0x8C01, 0x03, 0x03, .u8, true, true, 2, (natLE 1 9), .now, .le 0 63⟩ ,
  ⟨0x8C01, 0x8C01, 0x04, 0x04, .bool, true, true, 2, (natLE 1 1), .now, .any⟩ ,
  ⟨0x8C01, 0x8C01, 0x05, 0x05, .u8, false, true, 2, (natLE 1 0), .now, .le 1 1⟩ ,
  ⟨0x8C02, 0x8C02, 0x01, 0x01, .bool, true, true, 2, (natLE 1 0), .dawn, .any⟩ ,
  ⟨0x8C02, 0x8C02, 0x02, 0x02, .u8, true, true, 2, (natLE 1 15), .dawn, .le 0 15⟩ ,
  ⟨0x8C02, 0x8C02, 0x03, 0x03, .u32, true, true, 2, (natLE 4 0), .dawn, .any⟩ ,
  ⟨0x8C02, 0x8C02, 0x04, 0x04, .u32, true, true, 2, (natLE 4 0), .dawn, .any⟩ ,
  ⟨0x8C02, 0x8C02, 0x05, 0x05, .u16, true, true, 2, (natLE 2 1024), .now, .le 16 65535⟩ ,
  ⟨0x8C02, 0x8C02, 0x06, 0x06, .u8, true, false, 7, (natLE 1 0), .ro, .any⟩ ,
  ⟨0x8C02, 0x8C02, 0x07, 0x07, .u8, true, false, 7, (natLE 1 0), .ro, .any⟩ ,
  ⟨0x8C02, 0x8C02, 0x08, 0x08, .u8, true, false, 7, (natLE 1 0), .ro, .any⟩ ,
  ⟨0x8C03, 0x8C03, 0x01, 0x01, .u16, true, true, 3, (natLE 2 0), .now, .any⟩ ,
  ⟨0x8C03, 0x8C03, 0x02, 0x02, .blob, true, false, 7, [], .ro, .any⟩ ]

/-- Dictionary entries of chapter 13. -/
def entTab13 : List Ent := [
  ⟨0x8E00, 0x8E00, 0x01, 0x01, .u8, true, false, 7, (natLE 1 3), .ro, .any⟩ ,
  ⟨0x8E00, 0x8E00, 0x02, 0x02, .u8, true, false, 7, (natLE 1 16), .ro, .any⟩ ,
  ⟨0x8E10, 0x8E10, 0x01, 0x01, .u16, true, true, 2, (natLE 2 0), .now, .le 0 1023⟩ ,
  ⟨0x8E10, 0x8E10, 0x02, 0x02, .blob, false, true, 2, [], .now, .len [32]⟩ ,
  ⟨0x8E10, 0x8E10, 0x03, 0x03, .bool, true, true, 2, (natLE 1 0), .now, .any⟩ ,
  ⟨0x8E10, 0x8E10, 0x04, 0x04, .u8, false, true, 2, (natLE 1 0), .now, .le 1 2⟩ ,
  ⟨0x8E10, 0x8E10, 0x05, 0x05, .blob, true, false, 7, [], .ro, .any⟩ ]

/-- Dictionary entries of chapter 14. -/
def entTab14 : List Ent := [
  ⟨0x9000, 0x9000, 0x01, 0x01, .u8, true, false, 7, (natLE 1 64), .ro, .any⟩ ,
  ⟨0x9000, 0x9000, 0x02, 0x02, .u64, true, false, 7, (natLE 8 0x6000000), .ro, .any⟩ ,
  ⟨0x9000, 0x9000, 0x03, 0x03, .u32, true, false, 7, (natLE 4 0x60000), .ro, .any⟩ ,
  ⟨0x9010, 0x9010, 0x01, 0x40, .blob, true, true, 2, (zeros 32), .now, .len [32]⟩ ,
  ⟨0x9011, 0x9011, 0x01, 0x40, .u8, true, true, 2, (natLE 1 0), .now, .le 0 2⟩ ,
  ⟨0x9012, 0x9012, 0x01, 0x40, .blob, true, false, 7, [], .ro, .any⟩ ,
  ⟨0x9020, 0x9020, 0x01, 0x01, .u16, true, true, 2, (natLE 2 1024), .now, .le 1 65535⟩ ,
  ⟨0x9030, 0x9030, 0x01, 0x01, .blob, true, false, 7, [], .ro, .any⟩ ,
  ⟨0x9040, 0x9040, 0x01, 0x01, .blob, true, false, 7, [], .ro, .any⟩ ]

/-- Dictionary entries of chapter 15. -/
def entTab15 : List Ent := [
  ⟨0x9400, 0x9400, 0x01, 0x01, .u8, true, false, 7, (natLE 1 4), .ro, .any⟩ ,
  ⟨0x9400, 0x9400, 0x02, 0x02, .u64, true, false, 7, (natLE 8 0x2a00000000), .ro, .any⟩ ,
  ⟨0x9400, 0x9400, 0x03, 0x03, .u8, true, true, 2, (natLE 1 0), .dawn, .le 0 3⟩ ,
  ⟨0x9401, 0x9401, 0x01, 0x04, .u8, true, false, 7, (natLE 1 0), .ro, .any⟩ ,
  ⟨0x9402, 0x9402, 0x01, 0x01, .u16, true, true, 2, (natLE 2 256), .now, .le 16 65535⟩ ,
  ⟨0x9402, 0x9402, 0x02, 0x02, .u16, true, true, 2, (natLE 2 1200), .now, .le 64 65535⟩ ,
  ⟨0x9402, 0x9402, 0x03, 0x03, .u8, true, true, 2, (natLE 1 40), .now, .le 8 48⟩ ,
  ⟨0x9402, 0x9402, 0x04, 0x04, .u8, true, true, 2, (natLE 1 16), .now, .le 0 40⟩ ,
  ⟨0x9402, 0x9402, 0x05, 0x05, .u16, true, true, 2, (natLE 2 2048), .now, .le 256 65535⟩ ,
  ⟨0x9403, 0x9403, 0x01, 0x01, .u16, true, true, 2, (natLE 2 64), .now, .le 1 65535⟩ ,
  ⟨0x9403, 0x9403, 0x02, 0x02, .u16, true, true, 2, (natLE 2 1000), .now, .le 1 65535⟩ ,
  ⟨0x9403, 0x9403, 0x03, 0x03, .u16, true, true, 2, (natLE 2 16), .now, .le 1 65535⟩ ,
  ⟨0x9404, 0x9404, 0x01, 0x04, .bool, true, true, 2, (natLE 1 1), .now, .any⟩ ,
  ⟨0x9405, 0x9405, 0x01, 0x01, .u8, false, true, 2, (natLE 1 0), .now, .le 0 3⟩ ,
  ⟨0x9405, 0x9405, 0x02, 0x02, .u8, false, true, 2, (natLE 1 0), .now, .le 0 127⟩ ,
  ⟨0x9406, 0x9406, 0x01, 0x01, .u16, false, true, 2, (natLE 2 0), .now, .any⟩ ,
  ⟨0x9406, 0x9406, 0x02, 0x02, .blob, true, false, 7, [], .ro, .any⟩ ,
  ⟨0x9407, 0x9407, 0x01, 0x04, .u32, true, false, 7, (natLE 4 0), .ro, .any⟩ ,
  ⟨0x9408, 0x9408, 0x01, 0x01, .u8, true, false, 7, (natLE 1 0), .ro, .any⟩ ,
  ⟨0x9409, 0x9409, 0x01, 0x04, .s32, true, false, 7, (natLE 4 0), .ro, .any⟩ ]

/-- Dictionary entries of chapter 16. -/
def entTab16 : List Ent := [
  ⟨0x4000, 0x4000, 0x01, 0x01, .u8, true, false, 7, (natLE 1 2), .ro, .any⟩ ,
  ⟨0x4100, 0x4100, 0x01, 0x01, .u8, true, true, 2, (natLE 1 0), .dawn, .le 0 3⟩ ,
  ⟨0x4100, 0x4100, 0x02, 0x02, .u8, true, true, 2, (natLE 1 0), .dawn, .le 0 3⟩ ,
  ⟨0x4100, 0x4100, 0x03, 0x03, .u8, true, true, 2, (natLE 1 6), .dawn, .le 1 6⟩ ,
  ⟨0x4100, 0x4100, 0x04, 0x04, .u8, true, true, 2, (natLE 1 64), .dawn, .le 0 64⟩ ,
  ⟨0x4101, 0x4102, 0x01, 0x01, .u8, true, false, 7, (natLE 1 0), .ro, .any⟩ ,
  ⟨0x4101, 0x4102, 0x02, 0x02, .u8, true, false, 7, (natLE 1 0), .ro, .any⟩ ,
  ⟨0x4101, 0x4102, 0x03, 0x03, .u32, true, false, 7, (natLE 4 0), .ro, .any⟩ ,
  ⟨0x4200, 0x4200, 0x01, 0x01, .u8, true, true, 2, (natLE 1 10), .now, .le 1 255⟩ ,
  ⟨0x4400, 0x45FF, 0x01, 0x01, .u16, true, true, 2, (natLE 2 0), .now, .any⟩ ,
  ⟨0x4400, 0x45FF, 0x02, 0x02, .u16, true, true, 2, (natLE 2 0), .now, .le 0 2048⟩ ,
  ⟨0x4400, 0x45FF, 0x03, 0x03, .u16, true, true, 2, (natLE 2 0), .now, .le 0 1024⟩ ,
  ⟨0x4400, 0x45FF, 0x04, 0x04, .u32, true, true, 2, (natLE 4 127), .now, .le 0 0xFF⟩ ]

/-- Dictionary entries of chapter 17. -/
def entTab17 : List Ent := [
  ⟨0x1000, 0x1000, 0x01, 0x01, .str, true, false, 7, (ascii "ZY9672"), .ro, .any⟩ ,
  ⟨0x1000, 0x1000, 0x02, 0x02, .str, true, false, 7, (ascii "Ziyth"), .ro, .any⟩ ,
  ⟨0x1000, 0x1000, 0x03, 0x03, .str, true, false, 7, (ascii "Loralur Devices"), .ro, .any⟩ ,
  ⟨0x1000, 0x1000, 0x04, 0x04, .u8, true, false, 7, (natLE 1 1), .ro, .any⟩ ,
  ⟨0x1000, 0x1000, 0x05, 0x05, .u64, true, false, 7, (natLE 8 0), .ro, .any⟩ ,
  ⟨0x1000, 0x1000, 0x06, 0x06, .u8, true, false, 7, (natLE 1 1), .ro, .any⟩ ,
  ⟨0x1000, 0x1000, 0x07, 0x07, .u8, true, false, 7, (natLE 1 0), .ro, .any⟩ ,
  ⟨0x1000, 0x1000, 0x08, 0x08, .u32, true, false, 7, (natLE 4 0), .ro, .any⟩ ,
  ⟨0x1001, 0x1001, 0x01, 0x01, .u32, true, false, 7, (natLE 4 0), .ro, .any⟩ ,
  ⟨0xB000, 0xB000, 0x01, 0x01, .u8, true, false, 7, (natLE 1 0), .ro, .any⟩ ,
  ⟨0xB000, 0xB000, 0x02, 0x02, .blob, true, false, 6, [], .ro, .any⟩ ,
  ⟨0xB000, 0xB000, 0x03, 0x03, .blob, true, false, 7, [], .ro, .any⟩ ,
  ⟨0xB001, 0xB001, 0x01, 0x01, .u32, false, true, 6, (natLE 4 0), .now, .any⟩ ,
  ⟨0xB010, 0xB010, 0x01, 0x08, .blob, false, true, 2, [], .now, .len [0, 48]⟩ ,
  ⟨0xB010, 0xB010, 0x09, 0x09, .u8, true, false, 7, (natLE 1 0), .ro, .any⟩ ,
  ⟨0xB020, 0xB020, 0x01, 0x01, .u8, true, false, 7, (natLE 1 0), .ro, .any⟩ ,
  ⟨0xB020, 0xB020, 0x02, 0x02, .blob, false, true, 2, [], .now, .len [48]⟩ ,
  ⟨0xB020, 0xB020, 0x03, 0x03, .u8, false, true, 4, (natLE 1 0), .now, .le 1 1⟩ ,
  ⟨0xB020, 0xB020, 0x04, 0x04, .u8, true, false, 7, (natLE 1 0), .ro, .any⟩ ,
  ⟨0xB030, 0xB030, 0x01, 0x01, .u8, true, true, 2, (natLE 1 15), .now, .le 0 15⟩ ,
  ⟨0xB030, 0xB030, 0x02, 0x02, .u8, true, true, 2, (natLE 1 96), .dawn, .le 8 0x77⟩ ,
  ⟨0xB030, 0xB030, 0x03, 0x03, .u16, true, true, 2, (natLE 2 400), .dawn, .mem [100, 400, 1000]⟩ ,
  ⟨0xB040, 0xB040, 0x01, 0x01, .u8, false, true, 2, (natLE 1 0), .now, .le 1 1⟩ ,
  ⟨0xB050, 0xB050, 0x01, 0x01, .blob, true, false, 7, [], .ro, .any⟩ ,
  ⟨0xB050, 0xB050, 0x02, 0x02, .u64, false, true, 2, (natLE 8 0), .now, .any⟩ ,
  ⟨0xB100, 0xB100, 0x01, 0x01, .u64, true, true, 7, (natLE 8 0), .now, .any⟩ ,
  ⟨0xB100, 0xB100, 0x02, 0x02, .blob, true, false, 7, [], .ro, .any⟩ ,
  ⟨0xB100, 0xB100, 0x03, 0x03, .u64, true, false, 7, (natLE 8 0), .ro, .any⟩ ,
  ⟨0xB100, 0xB100, 0x04, 0x04, .u16, true, false, 7, (natLE 2 0), .ro, .any⟩ ]

/-- Dictionary entries of chapter 18. -/
def entTab18 : List Ent := [
  ⟨0xA000, 0xA000, 0x01, 0x01, .u8, true, false, 7, (natLE 1 80), .ro, .any⟩ ,
  ⟨0xA001, 0xA001, 0x01, 0x50, .u8, true, false, 7, (natLE 1 0), .ro, .any⟩ ,
  ⟨0xA002, 0xA002, 0x01, 0x50, .u8, true, true, 2, (natLE 1 0), .now, .le 0 3⟩ ,
  ⟨0xA003, 0xA003, 0x01, 0x01, .u8, false, true, 2, (natLE 1 0), .now, .any⟩ ,
  ⟨0xA004, 0xA004, 0x01, 0x01, .u16, true, true, 2, (natLE 2 1024), .now, .le 64 65535⟩ ,
  ⟨0xA005, 0xA005, 0x01, 0x50, .u16, true, false, 7, (natLE 2 0), .ro, .any⟩ ,
  ⟨0xA010, 0xA010, 0x01, 0x01, .u8, true, true, 2, (natLE 1 0), .now, .mem [0, 2]⟩ ,
  ⟨0xA010, 0xA010, 0x02, 0x02, .u8, true, true, 2, (natLE 1 0), .now, .le 0 1⟩ ,
  ⟨0xA020, 0xA020, 0x01, 0x01, .u64, true, true, 2, (natLE 8 0xf000000000000000), .now, .any⟩ ,
  ⟨0xA030, 0xA030, 0x01, 0x01, .bool, true, true, 2, (natLE 1 1), .now, .any⟩ ,
  ⟨0xA030, 0xA030, 0x02, 0x02, .time, false, true, 2, (natLE 10 0), .now, .any⟩ ,
  ⟨0xA030, 0xA030, 0x03, 0x03, .u8, true, true, 2, (natLE 1 0), .now, .any⟩ ,
  ⟨0xA030, 0xA030, 0x04, 0x04, .blob, true, false, 7, [], .ro, .any⟩ ,
  ⟨0xA040, 0xA040, 0x01, 0x01, .u8, true, true, 2, (natLE 1 100), .now, .le 50 100⟩ ,
  ⟨0xA040, 0xA040, 0x02, 0x02, .u8, true, true, 2, (natLE 1 2), .now, .le 1 2⟩ ,
  ⟨0xA040, 0xA040, 0x03, 0x03, .u8, true, true, 2, (natLE 1 20), .now, .le 5 20⟩ ,
  ⟨0xA040, 0xA040, 0x04, 0x04, .u8, true, false, 7, (natLE 1 25), .ro, .any⟩ ]

/-- Dictionary entries of chapter 19. -/
def entTab19 : List Ent := [
  ⟨0xC000, 0xC000, 0x01, 0x01, .time, true, false, 7, (natLE 10 0), .ro, .any⟩ ,
  ⟨0xC000, 0xC000, 0x02, 0x02, .u32, true, false, 7, (natLE 4 0), .ro, .any⟩ ,
  ⟨0xC000, 0xC000, 0x03, 0x03, .blob, true, false, 7, [], .ro, .any⟩ ,
  ⟨0xC001, 0xC001, 0x01, 0x04, .u64, true, false, 7, (natLE 8 0), .ro, .any⟩ ,
  ⟨0xC002, 0xC002, 0x01, 0x08, .u64, true, false, 7, (natLE 8 0), .ro, .any⟩ ,
  ⟨0xC003, 0xC003, 0x01, 0x04, .u64, true, false, 7, (natLE 8 0), .ro, .any⟩ ,
  ⟨0xC004, 0xC004, 0x01, 0x04, .u64, true, false, 7, (natLE 8 0), .ro, .any⟩ ,
  ⟨0xC005, 0xC005, 0x01, 0x04, .u64, true, false, 7, (natLE 8 0), .ro, .any⟩ ,
  ⟨0xC011, 0xC016, 0x01, 0xFF, .u64, true, false, 7, (natLE 8 0), .ro, .any⟩ ,
  ⟨0xC017, 0xC017, 0x01, 0x01, .blob, true, false, 7, [], .ro, .any⟩ ,
  ⟨0xC019, 0xC019, 0x01, 0x01, .u16, true, true, 2, (natLE 2 1024), .now, .le 16 65535⟩ ,
  ⟨0xC019, 0xC019, 0x02, 0x02, .blob, true, false, 7, [], .ro, .any⟩ ,
  ⟨0xC019, 0xC019, 0x03, 0x03, .u8, false, true, 2, (natLE 1 0), .now, .le 0 95⟩ ]

/-- Dictionary entries of chapter 20. -/
def entTab20 : List Ent := [
  ⟨0xD000, 0xD000, 0x01, 0x01, .u8, true, false, 7, (natLE 1 0), .ro, .any⟩ ,
  ⟨0xD000, 0xD000, 0x02, 0x02, .u8, false, true, 2, (natLE 1 0), .now, .le 1 1⟩ ,
  ⟨0xD000, 0xD000, 0x03, 0x03, .time, false, true, 2, (natLE 10 0), .timed, .any⟩ ,
  ⟨0xD000, 0xD000, 0x04, 0x04, .u8, false, true, 2, (natLE 1 0), .now, .le 1 1⟩ ,
  ⟨0xD000, 0xD000, 0x05, 0x05, .time, false, true, 2, (natLE 10 0), .timed, .any⟩ ,
  ⟨0xD000, 0xD000, 0x06, 0x06, .u8, true, true, 2, (natLE 1 0), .now, .le 0 15⟩ ,
  ⟨0xD000, 0xD000, 0x07, 0x07, .blob, true, false, 7, [], .ro, .any⟩ ,
  ⟨0xD010, 0xD010, 0x01, 0x01, .u16, true, true, 2, (natLE 2 4095), .now, .le 0 0x7FFF⟩ ,
  ⟨0xD010, 0xD010, 0x02, 0x02, .u64, true, false, 7, (natLE 8 0), .ro, .any⟩ ,
  ⟨0xD010, 0xD010, 0x03, 0x03, .u64, true, false, 7, (natLE 8 0), .ro, .any⟩ ,
  ⟨0xD010, 0xD010, 0x04, 0x04, .u8, false, true, 2, (natLE 1 0), .now, .le 1 1⟩ ,
  ⟨0xD010, 0xD010, 0x05, 0x05, .u8, true, true, 2, (natLE 1 200), .now, .le 25 200⟩ ,
  ⟨0xD020, 0xD020, 0x01, 0x01, .blob, false, true, 2, [], .now, .len [0, 48]⟩ ,
  ⟨0xD020, 0xD020, 0x02, 0x02, .u16, true, true, 2, (natLE 2 0), .now, .le 0 0xFFF⟩ ,
  ⟨0xD020, 0xD020, 0x03, 0x03, .time, true, true, 2, (natLE 10 0), .now, .any⟩ ,
  ⟨0xD100, 0xD100, 0x01, 0x01, .blob, false, true, 2, [], .now, .any⟩ ,
  ⟨0xD100, 0xD100, 0x02, 0x02, .blob, true, false, 6, [], .ro, .any⟩ ,
  ⟨0xE000, 0xE000, 0x01, 0x01, .u8, true, true, 2, (natLE 1 0), .dawn, .le 0 1⟩ ,
  ⟨0xE000, 0xE000, 0x03, 0x03, .u8, true, false, 7, (natLE 1 0), .ro, .any⟩ ,
  ⟨0xE000, 0xE000, 0x04, 0x04, .blob, true, false, 7, [], .ro, .any⟩ ,
  ⟨0xE001, 0xE001, 0x01, 0x01, .blob, true, true, 2, (zeros 48), .dawn, .len [48]⟩ ,
  ⟨0xE001, 0xE001, 0x02, 0x02, .u16, true, true, 2, (natLE 2 0), .dawn, .any⟩ ,
  ⟨0xE010, 0xE010, 0x01, 0x01, .u8, true, true, 6, (natLE 1 1), .now, .le 0 1⟩ ,
  ⟨0xE010, 0xE010, 0x02, 0x02, .u8, false, true, 2, (natLE 1 0), .now, .le 1 1⟩ ,
  ⟨0xE010, 0xE010, 0x03, 0x03, .u8, true, false, 7, (natLE 1 0), .ro, .any⟩ ,
  ⟨0xE011, 0xE011, 0x01, 0x01, .blob, false, true, 6, [], .now, .any⟩ ,
  ⟨0xE020, 0xE020, 0x01, 0x01, .u8, true, false, 7, (natLE 1 0), .ro, .any⟩ ,
  ⟨0xE020, 0xE020, 0x02, 0x02, .u8, false, true, 2, (natLE 1 0), .now, .le 1 1⟩ ,
  ⟨0xE020, 0xE020, 0x03, 0x03, .time, false, true, 2, (natLE 10 0), .timed, .any⟩ ,
  ⟨0xE020, 0xE020, 0x04, 0x04, .u8, false, true, 2, (natLE 1 0), .now, .le 1 1⟩ ]

/-- Dictionary entries of chapter 20. -/
def entTab20a : List Ent := [
  ⟨0xE020, 0xE020, 0x05, 0x05, .blob, true, false, 7, [], .ro, .any⟩ ,
  ⟨0xE030, 0xE030, 0x01, 0x01, .u8, false, true, 6, (natLE 1 0), .now, .le 1 1⟩ ,
  ⟨0xE030, 0xE030, 0x02, 0x02, .u8, true, false, 7, (natLE 1 0), .ro, .any⟩ ]

/-- Every entry of the dictionary tables. -/
def entries : List Ent :=
  entTab02 ++ entTab03 ++ entTab03a ++ entTab04 ++ entTab04a ++ entTab05 ++
  entTab05a ++ entTab06 ++ entTab07 ++ entTab09 ++ entTab10 ++ entTab11 ++
  entTab12 ++ entTab13 ++ entTab14 ++ entTab15 ++ entTab16 ++ entTab17 ++
  entTab18 ++ entTab19 ++ entTab20 ++ entTab20a

/-- The statistics counters: first index, last index, last subindex; each is a U64 readable by O, I and M. -/
def counterRows : List (Nat × Nat × Nat) := [
  (0xC018, 0xC018, 0x0A),
  (0xC020, 0xC020, 0x08),
  (0xC030, 0xC037, 0x19),
  (0xC040, 0xC047, 0x10),
  (0xC048, 0xC048, 0x06),
  (0xC050, 0xC057, 0x0D),
  (0xC058, 0xC058, 0x0B),
  (0xC060, 0xC067, 0x0D),
  (0xC068, 0xC068, 0x0D),
  (0xC070, 0xC07B, 0x1F),
  (0xC080, 0xC080, 0x13),
  (0xC090, 0xC090, 0x10),
  (0xC0A0, 0xC0A0, 0x19),
  (0xC0B0, 0xC0BB, 0x0C),
  (0xC0C0, 0xC0C0, 0x14),
  (0xC0D0, 0xC0D3, 0x16),
  (0xC0E0, 0xC0E1, 0x0E),
  (0xC0E8, 0xC0E8, 0x0D),
  (0xC0F0, 0xC0F0, 0x0F),
  (0xC100, 0xC100, 0x0F),
  (0xC110, 0xC110, 0x10)]

/-- Whether an index and subindex name a statistics counter. -/
def isCounter (idx sub : Nat) : Bool :=
  counterRows.any (fun r => decide (r.1 ≤ idx) && decide (idx ≤ r.2.1) && decide (1 ≤ sub) && decide (sub ≤ r.2.2))

/-- The descriptor of an entry, counters included (R42: none where the index or subindex names no entry). -/
def entFind (idx sub : Nat) : Option Ent :=
  match entries.find? (fun e => decide (e.i0 ≤ idx) && decide (idx ≤ e.i1) && decide (e.lo ≤ sub) && decide (sub ≤ e.hi)) with
  | some e => some e
  | none => if isCounter idx sub then some ⟨idx, idx, sub, sub, .u64, true, false, 7, natLE 8 0, .ro, .any⟩ else none

end Sys2Proof.Machine
end

