-- ==== Sys2Proof/Machine/Mods.lean ====
section
/-! DEFINITION. One update for each unit of the state: it changes that unit and nothing else. -/

namespace Sys2Proof.Machine

/-- Change `clk`. -/
def modClk (f : Clk → Clk) (s : State) : State := { s with clk := f s.clk }

/-- Change `dict`. -/
def modDict (f : Dict → Dict) (s : State) : State := { s with dict := f s.dict }

/-- Change `fab`. -/
def modFab (f : Fab → Fab) (s : State) : State := { s with fab := f s.fab }

/-- Change `cls`. -/
def modCls (f : Cls → Cls) (s : State) : State := { s with cls := f s.cls }

/-- Change `fwd`. -/
def modFwd (f : Fwd → Fwd) (s : State) : State := { s with fwd := f s.fwd }

/-- Change `zmt`. -/
def modZmt (f : Zmt → Zmt) (s : State) : State := { s with zmt := f s.zmt }

/-- Change `mem`. -/
def modMem (f : Mem → Mem) (s : State) : State := { s with mem := f s.mem }

/-- Change `cpu`. -/
def modCpu (f : Cpu → Cpu) (s : State) : State := { s with cpu := f s.cpu }

/-- Change `sched`. -/
def modSched (f : Sched → Sched) (s : State) : State := { s with sched := f s.sched }

/-- Change `locks`. -/
def modLocks (f : Locks → Locks) (s : State) : State := { s with locks := f s.locks }

/-- Change `power`. -/
def modPower (f : Power → Power) (s : State) : State := { s with power := f s.power }

/-- Change `cops`. -/
def modCops (f : Cops → Cops) (s : State) : State := { s with cops := f s.cops }

/-- Change `mat`. -/
def modMat (f : Match → Match) (s : State) : State := { s with mat := f s.mat }

/-- Change `bufs`. -/
def modBufs (f : Bufs → Bufs) (s : State) : State := { s with bufs := f s.bufs }

/-- Change `hbm`. -/
def modHbm (f : Hbm → Hbm) (s : State) : State := { s with hbm := f s.hbm }

/-- Change `host`. -/
def modHost (f : HostIf → HostIf) (s : State) : State := { s with host := f s.host }

/-- Change `dbg`. -/
def modDbg (f : Dbg → Dbg) (s : State) : State := { s with dbg := f s.dbg }

/-- Change `led`. -/
def modLed (f : Ledger → Ledger) (s : State) : State := { s with led := f s.led }

/-- Change `ctr`. -/
def modCtr (f : Tab (BitVec 64) → Tab (BitVec 64)) (s : State) : State := { s with ctr := f s.ctr }

/-- Change `out`. -/
def modOut (f : List Output → List Output) (s : State) : State := { s with out := f s.out }

/-- Change `free`. -/
def modFree (f : Nat → Nat) (s : State) : State := { s with free := f s.free }

/-- Change `pending`. -/
def modPending (f : List Instr → List Instr) (s : State) : State := { s with pending := f s.pending }

end Sys2Proof.Machine
end

