-- ==== Sys2Proof/Machine/Ops.lean ====
section
/-! DEFINITION. The operations every unit shares: fabric time and its boundaries, what the device sends, free values,
statistics counters, the ledger, and dictionary values in force. -/

namespace Sys2Proof.Machine

/-! ### Fabric time -/

/-- FTC[79:16], whole nanoseconds (R45). -/
def now (s : State) : Nat := s.clk.ftc.toNat / 65536

/-- The FTC as a number of 2^-16 ns units. -/
def now80 (s : State) : Nat := s.clk.ftc.toNat

/-- A TIME value that holds `ns` whole nanoseconds and no fraction. -/
def ofNs (ns : Nat) : BitVec 80 := BitVec.ofNat 80 (ns * 65536)

/-- The whole nanoseconds of a written TIME value; the fraction is ignored (R675). -/
def nsOf (t : BitVec 80) : Nat := t.toNat / 65536

/-- Ten bytes of a TIME value (Table 17-1). -/
def timeLE (t : BitVec 80) : Bytes := natLE 10 t.toNat

/-- Live time: FTC_NS - FIA (R71). -/
def liveTime (s : State) : BitVec 64 := BitVec.ofNat 64 (now s) - s.clk.fia

/-- Period of DLk in ns (Table 2-4). -/
def dlPeriod (k : Nat) : Nat :=
  match k with
  | 0 => 64
  | 1 => 1024
  | 2 => 1048576
  | _ => 1073741824

/-- The first DLk boundary at or after `t`. -/
def dlUp (k t : Nat) : Nat := roundUp t (dlPeriod k)

/-- The first DL0 boundary after `t`. -/
def dl0After (t : Nat) : Nat := (t / 64 + 1) * 64

/-- The boundary at which a timer with absolute deadline `d` on list DLk, armed at `armed`, expires (R64). -/
def expiryAt (k d armed : Nat) : Nat :=
  if dlUp k d < armed then dl0After armed else dlUp k d

/-- The boundary at which a timed action with time `t`, accepted at `acc`, fires (R65, R67). -/
def timedBoundary (t acc : Nat) : Nat := if t < acc then dl0After acc else dlUp 0 t

/-- The DL0 boundary at which what fires now fires: the last one the clock has come to. An entry that a forward step of
the FTC skips fires at the first boundary after the step (R70), so the boundary is not read off the FTC. -/
def fireAt (s : State) : Nat := s.clk.served * 64

/-- The boundary `b` has been reached, and no frozen interval holds entries back (R70, R73). -/
def reached (b : Nat) (s : State) : Bool := s.clk.frozen.isNone && decide (b ≤ fireAt s)

/-- A boundary fell in the last steward warm restart (R622; DESIGN CHOICE, log 113). -/
def inRestart (s : State) (b : Nat) : Bool :=
  match s.led.restarted with | some (a, e) => decide (a ≤ b) && decide (b ≤ e) | none => false

/-- A boundary of the steward's that fell in a warm restart is put off to the first DL0 boundary after it (R622). -/
def putOff (b : Nat) (s : State) : Nat :=
  if inRestart s b then dl0After ((s.led.restarted.map (·.2)).getD 0) else b

/-- The boundary at which a timed action the steward performs fires (R65, R67, R622). -/
def stewardBoundary (t acc : Nat) (s : State) : Nat := putOff (timedBoundary t acc) s

/-- It fires LATE: its time had passed when it was accepted (R67), or it fires after its own boundary because of a freeze
(Table 2-5), a warm restart (R622) or a forward step (DESIGN CHOICE, log 134). -/
def timedLate (t acc : Nat) (s : State) : Bool := decide (t < acc) || decide (timedBoundary t acc < fireAt s)

/-- Its boundary has been reached, and the steward runs. -/
def stewardReached (t acc : Nat) (s : State) : Bool := s.led.restart.isNone && reached (stewardBoundary t acc s) s

/-! ### Output, free values, counters -/

/-- Append to what the device has sent. -/
def emit (o : Output) (s : State) : State := modOut (fun l => l ++ [o]) s

/-- The free value the next draw gives. -/
def freeNat (s : State) : Nat := (Config.freeValue s.free).toNat

/-- Move on to the next free value. -/
def drawn (s : State) : State := modFree (· + 1) s

/-- Add `n` to the statistics counter `idx.sub`, modulo 2^64. -/
def bumpBy (idx sub n : Nat) (s : State) : State :=
  modCtr (fun t => tmod 0 t (idx * 256 + sub) (fun c => c + BitVec.ofNat 64 n)) s

/-- Add 1 to the statistics counter `idx.sub`. -/
def bump (idx sub : Nat) (s : State) : State := bumpBy idx sub 1 s

/-- Add `b` to it. -/
def bumpIf (b : Bool) (idx sub : Nat) (s : State) : State := if b then bump idx sub s else s

/-- Value of the statistics counter `idx.sub`. -/
def ctrVal (s : State) (idx sub : Nat) : BitVec 64 := tget 0 s.ctr (idx * 256 + sub)

/-! ### The ledger (chapter 19) -/

/-- A row of the ledger. -/
def ledRow (s : State) (r : Nat) : LRow := tget {} s.led.rows r

def modRow (r : Nat) (f : LRow → LRow) (s : State) : State :=
  modLed (fun l => { l with rows := tmod {} l.rows r f }) s

/-- An acceptance (R612). -/
def LRow.accept (r : LRow) : LRow := { r with acc := r.acc + 1, infl := r.infl + 1 }
/-- A completed end (R612). -/
def LRow.complete (r : LRow) : LRow := { r with comp := r.comp + 1, infl := r.infl - 1 }
/-- A failed end (R612). -/
def LRow.failed (r : LRow) : LRow := { r with fail := r.fail + 1, infl := r.infl - 1 }

/-- Accept an item into row `r`. -/
def ledAccept (r : Nat) (s : State) : State := modRow r LRow.accept s

/-- Complete an item of row `r`. -/
def ledComplete (r : Nat) (s : State) : State := modRow r LRow.complete s

/-- The failure log record of Table 19-2. -/
def failRecord (row reason unit detail item ns : Nat) : Bytes :=
  natLE 1 row ++ natLE 1 reason ++ natLE 1 unit ++ [0] ++ natLE 4 detail ++ natLE 8 item ++ natLE 8 ns ++ zeros 8

/-- Append a record to the failure log, or count it when the log is full (R615). -/
def failLog (rec : Bytes) (s : State) : State :=
  if s.led.log.length < 256 then modLed (fun l => { l with log := l.log ++ [rec] }) s
  else bump 0xC018 0x08 s

/-- Fail an item of row `r` with a reason: counts, failed-by-reason, failure log (R612, R615). -/
def ledFail (r reason unit detail item : Nat) (s : State) : State :=
  failLog (failRecord r reason unit detail item (now s))
    (bump (0xC010 + r) reason (modRow r LRow.failed s))

/-- The ledger code of a transport reason (R617). -/
def zmtReason (code : Nat) : Nat :=
  if code = 0x18 then 0x03 else if code = 0x19 then 0x01 else if code = 0x1A then 0x02 else 0x20 + code

/-! ### Dictionary values -/

/-- Key of an entry in the value tables. -/
def ekey (idx sub : Nat) : Nat := idx * 256 + sub

/-- The default of an entry. -/
def entDefault (idx sub : Nat) : Bytes :=
  match entFind idx sub with
  | some e => if idx = 0x9011 ∧ sub = 1 then natLE 1 1 else e.dflt
  | none => []

/-- The value in force of an entry that is held by value (R555). -/
def entVal (s : State) (idx sub : Nat) : Bytes :=
  match tfind s.dict.vals (ekey idx sub) with
  | some v => v
  | none => entDefault idx sub

/-- The number in force of an entry. -/
def cfg (s : State) (idx sub : Nat) : Nat := leNat (entVal s idx sub)

/-- Whether a BOOL entry is true. -/
def cfgB (s : State) (idx sub : Nat) : Bool := decide (cfg s idx sub ≠ 0)

/-- Put a value in force. -/
def setVal (idx sub : Nat) (v : Bytes) (s : State) : State :=
  modDict (fun d => { d with vals := tput d.vals (ekey idx sub) v }) s

/-- A value of the persistent configuration, or the default (R554). -/
def persistVal (s : State) (idx sub : Nat) : Bytes :=
  match tfind s.dict.persist (ekey idx sub) with
  | some v => v
  | none => entDefault idx sub

/-- Clocks run: the device is not frozen and not thawing (R648). -/
def clocked (s : State) : Bool := decide (s.dbg.fstate ≤ 1)

/-- Dawn-4 has ended: items are accepted (R636; DESIGN CHOICE, log 19). -/
def awake (s : State) : Bool := decide (5 ≤ s.dbg.phase)

/-- The default action of a slot never written: drop (Table 4-9). -/
def dropAction : W64 := 0xC00000000

/-- Pool 0 is fixed (R463). -/
def pool0 : Pool := { cls := 1, gshift := 8, state := 1, count := 393216, base := 0xFF0000000000 }

def poolOf (s : State) (p : Nat) : Pool := if p = 0 then pool0 else tget {} s.bufs.pool p
def modPool (p : Nat) (f : Pool → Pool) (s : State) : State :=
  if p = 0 then s else modBufs (fun b => { b with pool := tmod {} b.pool p f }) s

/-- Words 0 to 3 of a pool's configuration, its state apart (R464). -/
def poolHeld (s : State) (p i : Nat) : Nat :=
  let x := poolOf s p
  match i with
  | 0 => x.cls.toNat + x.gshift.toNat * 2 ^ 2 + b2n x.clrf * 2 ^ 7
  | 1 => x.first + x.count * 2 ^ 28
  | 2 => if p = 0 then 0 else x.base.toNat
  | _ => x.pasid.toNat

/-- The 32-byte value of entry 9010h of a pool. -/
def poolBlob (s : State) (p : Nat) : Bytes := (List.range 4).flatMap (fun i => natLE 8 (poolHeld s p i))

/-- P of R177 in DL2 ticks, from 6020h.02. -/
def agePeriod (ms : Nat) : Nat := (ms * 1000000 + 1048575) / 1048576

/-! ### Dictionary status codes (Table 17-3) -/

def stOk : Nat := 0x00
def stNoEntry : Nat := 0x01
def stAccess : Nat := 0x02
def stDenied : Nat := 0x03
def stType : Nat := 0x04
def stRange : Nat := 0x05
def stInUse : Nat := 0x06
def stBusy : Nat := 0x07
def stNoSession : Nat := 0x08
def stAuthFail : Nat := 0x09
def stBackoff : Nat := 0x0A
def stSeq : Nat := 0x0B
def stNoTime : Nat := 0x0C
def stTooFar : Nat := 0x0D
def stLate : Nat := 0x0E
def stJournalFull : Nat := 0x0F
def stTooBig : Nat := 0x10
def stClaimed : Nat := 0x11
def stBadToken : Nat := 0x12
def stFull : Nat := 0x13
def stBackward : Nat := 0x20
def stNotGm : Nat := 0x21
def stNotVisible : Nat := 0x22
def stDying : Nat := 0x23
def stBadProg : Nat := 0x24
def stCommitPending : Nat := 0x25
def stAborted : Nat := 0x26
def stWaited : Nat := 0x27
def stExists : Nat := 0x28
def stNotFound : Nat := 0x29
def stBucketFull : Nat := 0x2A
def stNotHeld : Nat := 0x2B
def stNoSpare : Nat := 0x2C

/-- The register image of an entry. Until Dawn-1 applies the configuration, a field that nothing has written holds the reset
value of its register table (R118, R193, R554; DEDUCED, log 141). -/
def image (s : State) (idx sub reset : Nat) : Nat :=
  match tfind s.dict.vals (ekey idx sub) with
  | some v => leNat v
  | none => if s.dbg.phase < 2 then reset else cfg s idx sub

/-- An address field whose bits 11:0 must be 0: they are cleared (DESIGN CHOICE, log 144). -/
def pageBase (v : BitVec 64) : BitVec 64 := v &&& ~~~0xFFF

/-- Acceptance of a timed action: NO_TIME in FREE_RUN, TOO_FAR beyond 2^40 ns, else accepted (R66, R68).
An action that meets both is NO_TIME and is not counted as too far (DESIGN CHOICE, log 54). -/
def timedStatus (t : Nat) (s : State) : Nat :=
  if s.clk.state = 0 then stNoTime
  else if now s + 2 ^ 40 < t then stTooFar
  else stOk

/-- Count what R66 counts. -/
def timedCount (st : Nat) (s : State) : State := if st = stTooFar then bump 0xC020 0x02 s else s

end Sys2Proof.Machine
end

