-- ==== Sys2Proof/Machine/Boundary.lean ====
section
/-! DEFINITION. What falls due at a DL0 boundary: the actions of classes 1 to 3 of R69 that are due now, and the order in
which they fire (R65, R69, R70, R74, R573). -/

namespace Sys2Proof.Machine

/-- An action of classes 1 to 3 of R69. -/
inductive DueAct where
  | commit
  | write (w : TimedW)
  | swap
  | group (g : PGroup)
  | check
  | freeze (timed : Bool)
  deriving DecidableEq, Repr

/-- Class of R69. -/
def DueAct.cls : DueAct → Nat
  | .commit | .write _ | .swap => 1
  | .group _ | .check => 2
  | .freeze _ => 3

/-- A due action: the boundary at which it fell due, its TIME, its acceptance and its audit sequence number. -/
structure DueEnt where
  act : DueAct
  boundary : Nat
  time : Nat
  acc : Nat
  seq : Nat
  deriving DecidableEq, Repr

/-- Its place among the actions of one boundary (R69): class, TIME, acceptance; the ledger check is the last of its class. -/
def DueEnt.place (e : DueEnt) : List Nat :=
  [e.act.cls, if e.act = .check then 1 else 0, e.time, e.acc, e.seq]

/-! ### Course commits (R151, R152, R156) -/

/-- Slot preparation is complete (R152). -/
def slotReady (s : State) : Bool := s.cls.slotCopied && s.cls.vals.isEmpty

/-- It was complete, and the older course reclaimed, by the boundary now in force. -/
def commitReady (s : State) : Bool := slotReady s && decide (s.cls.readyAt ≤ fireAt s)

/-- The boundary of a requested commit (R151, R622). -/
def commitBoundary (c : Commit) (s : State) : Nat :=
  match c.time with | none => putOff (dlUp 0 c.acceptedAt) s | some t => stewardBoundary t c.acceptedAt s

/-- A commit that a boundary makes active, or makes wait for the older course. -/
def commitDue (s : State) : Option Commit :=
  s.cls.commit.filter (fun c => s.led.restart.isNone && reached (commitBoundary c s) s &&
    (if c.waiting then s.cls.older.isNone && commitReady s else s.cls.older.isSome || commitReady s))

/-! ### Read groups, the ledger check, freeze (R573, R614, R647) -/

/-- The boundary at which a group captures. -/
def groupBoundary (s : State) (g : PGroup) : Nat :=
  if g.timed then stewardBoundary g.atime g.acceptedAt s else putOff (dl0After g.acceptedAt) s

/-- The capture is due: a timed group waits for the end of a frozen interval, an untimed one does not. -/
def groupDue (s : State) (g : PGroup) : Bool :=
  s.led.restart.isNone && (!g.timed || s.clk.frozen.isNone) && decide (groupBoundary s g ≤ fireAt s)

/-- Index of the last DL2 boundary reached. -/
def checkNow (s : State) : Nat := fireAt s / dlPeriod 2

/-- The check of a DL2 boundary is due (R614). -/
def checkDue (s : State) : Bool :=
  decide (s.led.checkIdx < checkNow s) && s.clk.frozen.isNone && s.led.restart.isNone

/-- A freeze that is due: its boundary and whether it is the timed one. A timed freeze is the steward's (R622). -/
def freezeDueAt (s : State) : Option (Nat × Bool) :=
  let cmd := s.dbg.freezeDue.filter (fun b => decide (b ≤ fireAt s))
  let timed := (s.dbg.freezeAt.map (fun e => stewardBoundary e.1 e.2 s)).filter
    (fun b => decide (b ≤ fireAt s) && s.led.restart.isNone)
  match cmd, timed with
  | some a, some b => if b < a then some (b, true) else some (a, false)
  | some a, none => some (a, false)
  | none, some b => some (b, true)
  | none, none => none

/-! ### All of them -/

/-- The actions due now. -/
def dueActs (s : State) : List DueEnt :=
  ((commitDue s).map (fun c : Commit =>
      (⟨.commit, commitBoundary c s, c.time.getD c.acceptedAt, c.acceptedAt, c.seq⟩ : DueEnt))).toList ++
    (s.dict.timed.filter (fun w => stewardReached w.atime w.acceptedAt s)).map
      (fun w => ⟨.write w, stewardBoundary w.atime w.acceptedAt s, w.atime, w.acceptedAt, w.seq⟩) ++
    ((s.dbg.swapAt.filter (fun e => stewardReached e.1 e.2 s)).map (fun e : Nat × Nat =>
      (⟨.swap, stewardBoundary e.1 e.2 s, e.1, e.2, 0⟩ : DueEnt))).toList ++
    (s.dict.groups.filter (groupDue s)).map (fun g => ⟨.group g, groupBoundary s g, g.atime, g.acceptedAt, 0⟩) ++
    (if checkDue s then [⟨.check, checkNow s * dlPeriod 2, 0, 0, 0⟩] else []) ++
    ((freezeDueAt s).map (fun e : Nat × Bool => (⟨.freeze e.2, e.1, 0, 0, 0⟩ : DueEnt))).toList

/-- The action that fires next (R69). -/
def nextDue (s : State) : Option DueEnt := firstBy DueEnt.place (dueActs s)

end Sys2Proof.Machine
end

