-- ==== Sys2Proof/Machine/DictCore.lean ====
section
/-! DEFINITION. The dictionary service: sessions and their MACs, access checks, the journal, and how one WRITE or READ
to a given entry is performed (chapter 17). What a write does to its unit is passed in by the unit. -/

namespace Sys2Proof.Machine

/-! ### Journal (R575-R580) -/

/-- Journal event codes (Table 17-10). -/
def evWrite : Nat := 0x01
def evTimedFire : Nat := 0x02
def evTimedCancel : Nat := 0x03
def evOpen : Nat := 0x04
def evAuthFail : Nat := 0x05
def evClose : Nat := 0x06
def evTimeout : Nat := 0x07
def evClaim : Nat := 0x08
def evUnclaim : Nat := 0x09
def evNoEntry : Nat := 0x0A
def evGap : Nat := 0x0B

/-- The digest a record keeps of a value: the first 16 bytes of its SHA-384. -/
def jDigest (v : Bytes) : Bytes := (sha384 v).take 16

/-- A journal record of 64 bytes (Table 17-10). -/
def jRecord (seq : Nat) (ftc : BitVec 80) (role ev sid idx sub res xport : Nat) (old new : Bytes) : Bytes :=
  natLE 8 seq ++ timeLE ftc ++ natLE 1 role ++ natLE 1 ev ++ natLE 4 sid ++ natLE 2 idx ++ natLE 1 sub ++
    natLE 1 res ++ natLE 1 xport ++ zeros 3 ++ padTo (old.take 16) 16 ++ padTo (new.take 16) 16

/-- The SRAM ring holds 8,192 records not yet mirrored, or has room for the GAP record alone that comes first (R578, R579). -/
def jFull (s : State) : Bool := decide (8192 ≤ s.dict.jSram.length + b2n s.dict.jGap)

/-- Append a record made from its SEQ; a full ring loses it and counts it (R578). -/
def jPut (mk : Nat → Bytes) (s : State) : State :=
  if 8192 ≤ s.dict.jSram.length then bump 0xC0F0 0x0A s
  else
    let s1 := modDict (fun d => { d with jSram := d.jSram ++ [mk d.jNext.toNat], jNext := d.jNext + 1 }) s
    if s1.dict.jSram.length = 7169 then emit (.ibi 0) s1 else s1

/-- Append a record, after the GAP record that follows a loss of AON power (R579). -/
def journal (ev role sid idx sub res xport : Nat) (old new : Bytes) (s : State) : State :=
  let s1 := if s.dict.jGap then
      modDict (fun d => { d with jGap := false })
        (jPut (fun q => jRecord q s.clk.ftc 0 evGap 0 0 0 0 5 [] []) s)
    else s
  jPut (fun q => jRecord q s.clk.ftc role ev sid idx sub res xport old new) s1

/-- The SEQ the next record of an event will have. -/
def jNextSeq (s : State) : Nat := s.dict.jNext.toNat + b2n s.dict.jGap

/-- Records not yet in flash (B100h.04). -/
def jUnmirrored (s : State) : Nat := s.dict.jSram.length

/-- ALERT_N is asserted while any of its causes holds (R676). -/
def alertAsserted (s : State) : Bool :=
  decide (7168 < jUnmirrored s) || s.dict.alertLedger || s.dict.alertDawn

/-! ### Messages (R558, R559) -/

/-- The bit of B030h.01 that enables a transport. -/
def xportBit (x : Nat) : Nat := if x ≤ 1 then x else if x ≤ 3 then 2 else 3

/-- A transport that B030h.01 enables; the steward itself is always one. -/
def xportOn (s : State) (x : Nat) : Bool := decide (x = 5) || bit (cfg s 0xB030 0x01) (xportBit x)

/-- The 16 header bytes of a message (Table 17-4). -/
def dmsgHeader (kind tag sid seq blen flags status : Nat) : Bytes :=
  natLE 1 1 ++ natLE 1 kind ++ natLE 2 tag ++ natLE 4 sid ++ natLE 4 seq ++ natLE 2 blen ++
    natLE 1 flags ++ natLE 1 status

/-- Header bytes of a request as sent. -/
def reqHeader (kind : Nat) (h : DHdr) : Bytes :=
  natLE 1 h.dver.toNat ++ natLE 1 kind ++ natLE 2 h.tag.toNat ++ natLE 4 h.sid.toNat ++ natLE 4 h.seq.toNat ++
    natLE 2 h.blen.toNat ++ natLE 1 h.flags.toNat ++ natLE 1 h.status.toNat

/-- The 32-byte MAC of a message under a session key (R563). -/
def dmsgMac (key header body : Bytes) : Bytes := (hmac384 key (header ++ body)).take 32

/-- The session a request names. -/
def sessOf (s : State) (sid : Nat) : Option Sess := tfind s.dict.sess sid

def modSess (sid : Nat) (f : Sess → Sess) (s : State) : State :=
  modDict (fun d => { d with sess := tupd d.sess sid f }) s

/-- An MCTP message: its type with IC = 0, then its body (R559). -/
def mctpMsg (ty : Nat) (m : Bytes) : Bytes := natLE 1 ty ++ m

/-- A dictionary message over MCTP: type 7Fh, the vendor's enterprise number, then the message (R559). The number stands high
byte first, as DSP0236 has it (PRESUMED, log 165). -/
def mctpDict (m : Bytes) : Bytes := mctpMsg 0x7F (natBE 4 Config.enterprise.toNat ++ m)

/-- Send a message on a transport: as an MCTP message, or over the fabric to the requester's endpoint. -/
def sendMgmt (h : DHdr) (m : Bytes) (s : State) : State :=
  if h.xport = 4 then modDict (fun d => { d with fabTx := d.fabTx ++ [(h.peer.toNat, m)] }) s
  else emit (.mgmt h.xport (mctpDict m)) s

/-- A response: the request's KIND with bit 7 set, its TAG and SEQ, a status and a body, with a MAC inside an open
session (R558, R563). -/
def respond (h : DHdr) (kind sid : Nat) (key : Option Bytes) (status : Nat) (body : Bytes) (s : State) : State :=
  let hd := dmsgHeader (kind + 0x80) h.tag.toNat sid h.seq.toNat body.length 0 status
  let mac := match key with | some k => dmsgMac k hd body | none => []
  sendMgmt h (hd ++ body ++ mac) s

/-- A request is malformed: bad DVER, length, reserved FLAGS or STATUS (R558). -/
def malformed (s : State) (h : DHdr) (body : Bytes) : Bool :=
  let opn := match sessOf s h.sid.toNat with | some e => e.isOpen | none => false
  decide (h.dver ≠ 1) || decide (h.blen.toNat ≠ body.length) || decide (h.flags &&& 0xFC ≠ 0) ||
    decide (h.status ≠ 0) || decide (h.mac.length ≠ if opn then 32 else 0)

/-- Take a message that a running steward, an enabled transport and R558 let through; else discard and count it
(R559, R622). During a warm restart messages on I3C and SMBus are not acknowledged at all (DESIGN CHOICE, log 129). -/
def dictArrive (h : DHdr) (body : Bytes) (k : State → State) (s : State) : State :=
  if s.led.restart.isSome then (if h.xport ≤ 1 then s else bump 0xC018 0x09 s)
  else if !xportOn s h.xport || malformed s h body then bump 0xC0F0 0x0E s
  else k s

/-- Perform a request inside an open session: NO_SESSION, MAC, BUSY and SEQ checks in that order, then `k`
(R563, R565-R567). -/
def inSession (h : DHdr) (kind : Nat) (body : Bytes) (k : Sess → State → State) (s : State) : State :=
  dictArrive h body (fun s =>
    match sessOf s h.sid.toNat with
    | none => respond h kind h.sid.toNat none stNoSession [] s
    | some e =>
      if !e.isOpen then respond h kind h.sid.toNat none stNoSession [] s
      else if dmsgMac e.key (reqHeader kind h) body ≠ h.mac then bump 0xC0F0 0x0C s
      else
        let s1 := modSess h.sid.toNat (fun e => { e with lastAct := now s }) s
        let refuse := fun st => respond h kind h.sid.toNat (some e.key) st [] (bump 0xC0F0 0x0D s1)
        if e.busy then refuse stBusy
        else if (match e.lastSeq with | some q => decide (h.seq.toNat ≤ q) | none => false) then refuse stSeq
        else k e (modSess h.sid.toNat (fun e => { e with lastSeq := some h.seq.toNat }) s1)) s

/-! ### Access, type and range (R42, R551, R552) -/

/-- An index that names no entry by R42. -/
def idxUnassigned (idx : Nat) : Bool := decide (idx < 0x1000) || (decide (0x9800 ≤ idx) && decide (idx < 0xA000))

/-- Bit of a role in the role letters. -/
def roleBit (role : Nat) : Nat := role - 1

/-- The status of the access checks for a read (`wr` false) or a write, role letters before access letters. -/
def accessStatus (role idx sub : Nat) (wr : Bool) : Nat :=
  if 0xF000 ≤ idx then (if role = 3 then stNoEntry else stDenied)
  else if idxUnassigned idx then stNoEntry
  else match entFind idx sub with
    | none => stNoEntry
    | some e =>
      if !bit e.roles (roleBit role) then stDenied
      else if (if wr then e.wr else e.rd) then stOk
      else stAccess

/-- Whether R42 has the access recorded in the journal. -/
def r42Access (role idx : Nat) : Bool := idxUnassigned idx || (decide (0xF000 ≤ idx) && decide (role = 3))

/-- Limits that relate one entry to another or that a table's layout gives (DESIGN CHOICE, log 116). -/
def rangeCross (s : State) (idx sub : Nat) (v : Bytes) : Bool :=
  let x := leNat v
  if 0x3120 ≤ idx ∧ idx ≤ 0x3127 ∧ sub = 5 then decide (x < cfg s idx 4)
  else if 0x3120 ≤ idx ∧ idx ≤ 0x3127 ∧ sub = 7 then decide (x < cfg s idx 8)
  else if idx = 0x9402 ∧ sub = 3 then decide (cfg s idx 4 < x)
  else if idx = 0x7000 ∧ sub = 6 then decide (x % 8 = 0)
  else if idx = 0x6100 ∧ sub = 2 then decide (x < 16384) || decide (x = 0xFFFF)
  else if 0x6410 ≤ idx ∧ idx ≤ 0x6417 ∧ 1 ≤ sub ∧ sub ≤ 8 then
    decide (bf x 1 7 = 0) && decide (9216 ≤ x / 256) && decide (x / 256 ≤ 1048576)
  else if idx = 0x6400 ∧ sub = 1 then
    let y := tget {} s.bufs.pool x
    decide (1 ≤ x) && (decide (y.cls = 0) || decide (y.gshift = 11))
  else if 0x5310 ≤ idx ∧ idx ≤ 0x5317 ∧ sub = 1 then decide (x < 4096) || decide (x = 0xFFFF)
  else if idx = 0xE001 ∧ sub = 2 then decide (cfg s idx 2 ≤ x)
  else if idx = 0x6600 ∧ sub = 2 then decide (x < 12) || decide (x = 255)
  else if 0x6500 ≤ idx ∧ idx ≤ 0x6507 ∧ sub = 2 then decide (x < 2 ^ 24)
  else if idx = 0x9406 ∧ sub = 1 then true
  else true

/-- The status of the type and range checks of a value (R551). -/
def valueStatus (s : State) (idx sub : Nat) (e : Ent) (v : Bytes) : Nat :=
  let okLen := match e.ty with
    | .str => decide (v.length ≤ 64)
    | .blob => decide (v.length ≤ 4000) && (match e.rng with | .len ns => decide (v.length ∈ ns) | _ => true)
    | t => decide (some v.length = t.size)
  if !okLen then stType
  else
    let x := leNat v
    let okRng := (match e.ty with | .bool => decide (x ≤ 1) | _ => true) &&
      (match e.rng with
        | .le lo hi => decide (lo ≤ x) && decide (x ≤ hi)
        | .sle lo hi => decide (lo ≤ sxt x (8 * v.length)) && decide (sxt x (8 * v.length) ≤ hi)
        | .mem vs => decide (x ∈ vs)
        | _ => true)
    if okRng && rangeCross s idx sub v then stOk else stRange

/-- The session-scoped entries of Table 17-2. -/
def sessionScoped (idx sub : Nat) : Bool :=
  (decide (idx = 0x5200) && decide (sub ≤ 4)) || (decide (idx = 0x5300) && decide (sub = 1)) ||
  (decide (idx = 0x5400) && decide (sub ≤ 6)) || (decide (idx = 0x5600) && decide (2 ≤ sub)) ||
  (decide (idx = 0x6100) && decide (sub ≤ 3)) || (decide (idx = 0x6200) && decide (sub ≤ 4)) ||
  (decide (idx = 0x6300) && decide (sub ≤ 2)) || (decide (idx = 0x7400) && decide (sub = 1)) ||
  (decide (idx = 0x8802) && decide (sub = 1)) || (decide (idx = 0x8C03) && decide (sub = 1)) ||
  (decide (idx = 0x8E10) && decide (sub ≤ 3)) || (decide (idx = 0xB100) && decide (sub = 1))

/-- A session's value of a session-scoped entry (R556). -/
def ownVal (s : State) (sid idx sub : Nat) : Bytes :=
  match sessOf s sid with
  | some e => (tfind e.own (ekey idx sub)).getD (entDefault idx sub)
  | none => entDefault idx sub

/-- A session's number of a session-scoped entry. -/
def own (s : State) (sid idx sub : Nat) : Nat := leNat (ownVal s sid idx sub)

/-- Key entries, whose values the journal never digests (R443). -/
def isKeyEntry (idx sub : Nat) : Bool :=
  (decide (idx = 0xB010) && decide (sub ≤ 8)) || (decide (idx = 0xB020) && decide (sub = 2)) ||
  (decide (idx = 0x8E10) && decide (sub = 2)) || (decide (idx = 0xD020) && decide (sub = 1))

/-- The default of B030h.02 follows the CPOS strap (Table 17-12). -/
def mgmtDefault (s : State) : Bytes := natLE 1 (0x60 + s.dbg.cpos.toNat)

/-- The value a write replaces: the persistent or the staged one where the write will be persistent or staged, else the one in
force (R553, R555). -/
def heldVal (s : State) (idx sub : Nat) (c : CClass) : Bytes :=
  let k := ekey idx sub
  match c with
  | .dawn => (tfind s.dict.persist k).getD (if idx = 0xB030 ∧ sub = 2 then mgmtDefault s else entDefault idx sub)
  | .course =>
    (tfind s.dict.staged k).getD
      (if 0x5310 ≤ idx ∧ idx ≤ 0x5317 then
        let v := (tget 0 s.cls.entry (2 * (idx - 0x5310) + s.cls.active.toNat % 2)).toNat
        natLE 2 (if bit v 12 then v % 4096 else 0xFFFF)
      else if 0x5320 ≤ idx ∧ idx ≤ 0x5327 then
        natLE 8 (tget dropAction s.cls.dflt (2 * (idx - 0x5320) + s.cls.active.toNat % 2)).toNat
      else entVal s idx sub)
  | _ =>
    if idx = 0x9010 then poolBlob s (sub - 1)
    else if idx = 0x9011 then natLE 1 (poolOf s (sub - 1)).state.toNat
    else entVal s idx sub

/-- OLD of a write's record: nothing for a key or an entry that holds no value. -/
def oldDigest (s : State) (sid idx sub : Nat) (e : Ent) : Bytes :=
  if isKeyEntry idx sub || !e.rd then []
  else if sessionScoped idx sub then jDigest (ownVal s sid idx sub)
  else jDigest (heldVal s idx sub e.commit)

/-- NEW of a write's record. -/
def newDigest (idx sub : Nat) (v : Bytes) : Bytes := if isKeyEntry idx sub then [] else jDigest v

/-! ### One WRITE (R553, R571, R576, R578) -/

/-- What a write does to the device: given the session id and the value, a status and the next state. -/
abbrev WriteEff := Nat → Bytes → State → Nat × State

/-- The status of a write before its own effect is asked: access, type, range. -/
def writeStatus (s : State) (role idx sub : Nat) (v : Bytes) : Nat :=
  let a := accessStatus role idx sub true
  if a ≠ stOk then a
  else match entFind idx sub with
    | some e => valueStatus s idx sub e v
    | none => stNoEntry

/-- Count a performed or refused write (C0F0h.05, .06). -/
def countWrite (st : Nat) (s : State) : State := bump 0xC0F0 (if st = stOk then 0x05 else 0x06) s

/-- A write to an entry of class COURSE is a staging write; the course service counts those refused (R149, R162). -/
def countStaging (idx sub st : Nat) (s : State) : State :=
  match entFind idx sub with
  | some e => if st ≠ stOk ∧ e.commit = .course then bump 0xC048 0x06 s else s
  | none => s

/-- A write the full journal turns away (R578). -/
def refuseFull (e : Sess) (h : DHdr) (idx sub : Nat) (s : State) : State :=
  respond h 4 h.sid.toNat (some e.key) stJournalFull [] (countStaging idx sub stJournalFull (countWrite stJournalFull (bump 0xC0F0 0x09 s)))

/-- Record a write and answer it (R576): `st` is its status, `k` what it does when the status lets it (DESIGN CHOICE,
log 53). -/
def recordWrite (e : Sess) (h : DHdr) (idx sub st : Nat) (old new : Bytes) (k : State → State) (s : State) : State :=
  let ev := if r42Access e.role idx then evNoEntry else evWrite
  let q := jNextSeq s
  let s1 := journal ev e.role h.sid.toNat idx sub st e.xport old new s
  let s2 := if st = stNoEntry then bump 0xC0F0 0x0B s1 else s1
  respond h 4 h.sid.toNat (some e.key) st (natLE 8 q) (countStaging idx sub st (countWrite st (k s2)))

/-- Perform a WRITE to `idx.sub` in an open session with the effect `eff`. -/
def performWrite (e : Sess) (h : DHdr) (idx sub : Nat) (v : Bytes) (eff : WriteEff) (s : State) : State :=
  if jFull s then refuseFull e h idx sub s
  else
    let st := writeStatus s e.role idx sub v
    let ent := (entFind idx sub).getD ⟨0, 0, 0, 0, .blob, false, false, 0, [], .ro, .any⟩
    let old := oldDigest s h.sid.toNat idx sub ent
    if st ≠ stOk then recordWrite e h idx sub st old (newDigest idx sub v) id s
    else
      let st2 := (eff h.sid.toNat v s).1
      recordWrite e h idx sub st2 old (newDigest idx sub v) (fun s => (eff h.sid.toNat v s).2) s

/-- Body of a WRITE without ATIME. -/
def writeBody (idx sub : Nat) (v : Bytes) : Bytes := natLE 2 idx ++ natLE 1 sub ++ [0] ++ v

/-- A WRITE to an entry that has its own row: the whole request, from its arrival to its response. -/
def dictWriteRow (h : DHdr) (idx sub : Nat) (v : Bytes) (eff : WriteEff) (s : State) : State :=
  if bit h.flags.toNat 1 then s
  else inSession h 4 (writeBody idx sub v) (fun e s => performWrite e h idx sub v eff s) s

/-! ### One READ (R552, R555, R574) -/

/-- What a read of an entry returns and leaves: given the session id, a status, the value and the next state. -/
abbrev ReadEff := Nat → State → Nat × Bytes × State

/-- Answer a READ that passed its checks; a response above 4,096 bytes is TOO_BIG and pops nothing. -/
def answerRead (e : Sess) (h : DHdr) (eff : ReadEff) (s : State) : State :=
  let r := eff h.sid.toNat s
  if 48 + r.2.1.length > 4096 then respond h 3 h.sid.toNat (some e.key) stTooBig [] s
  else if r.1 ≠ stOk then respond h 3 h.sid.toNat (some e.key) r.1 [] s
  else respond h 3 h.sid.toNat (some e.key) stOk r.2.1 r.2.2

/-- Perform a READ of `idx.sub` in an open session. -/
def performRead (e : Sess) (h : DHdr) (idx sub : Nat) (eff : ReadEff) (s : State) : State :=
  let st := accessStatus e.role idx sub false
  if st = stOk then answerRead e h eff s
  else
    let s1 := if st = stNoEntry then bump 0xC0F0 0x0B s else s
    let s2 := if r42Access e.role idx then
        journal evNoEntry e.role h.sid.toNat idx sub stNoEntry e.xport [] [] s1 else s1
    respond h 3 h.sid.toNat (some e.key) st [] s2

/-- Body of a READ. -/
def readBody (idx sub : Nat) : Bytes := natLE 2 idx ++ natLE 1 sub ++ [0]

/-- A READ of an entry that has its own row. -/
def dictReadRow (h : DHdr) (idx sub : Nat) (eff : ReadEff) (s : State) : State :=
  inSession h 3 (readBody idx sub) (fun e s => performRead e h idx sub eff s) s

/-! ### Storing a value (R553) -/

/-- Put a session-scoped value into its session. -/
def storeOwn (sid idx sub : Nat) (v : Bytes) (s : State) : State :=
  modSess sid (fun e => { e with own := tput e.own (ekey idx sub) v }) s

/-- Stage a DAWN value in the persistent configuration (R554). -/
def storePersist (idx sub : Nat) (v : Bytes) (s : State) : State :=
  modDict (fun d => { d with persist := tput d.persist (ekey idx sub) v }) s

/-! ### Sessions (R563-R568) -/

/-- The role key of an OPEN (Table 17-7). -/
def roleKey (s : State) (role slot : Nat) : Option Bytes :=
  match role with
  | 1 => tfind s.dict.operatorKeys slot
  | 2 => s.dict.installerKey
  | 3 => some (natBE 48 Config.makerKey.toNat)
  | _ => none

/-- The backoff of R564 is in force for a role and transport. -/
def backoffOn (s : State) (role x : Nat) : Bool :=
  match tfind s.dict.fails (role * 8 + x) with
  | some (n, t) => decide (0 < n) && decide (now s < expiryAt 2 (t + min (2 ^ (n - 1)) 256 * 1000000000) t)
  | none => false

/-- Close a session with an event for the journal. -/
def closeSess (sid ev : Nat) (s : State) : State :=
  match sessOf s sid with
  | none => s
  | some e =>
    journal ev e.role sid 0 0 0 e.xport [] []
      (modDict (fun d => { d with sess := tdel d.sess sid, groups := d.groups.filter (fun g => g.hdr.sid.toNat ≠ sid) }) s)

/-- Close every session that satisfies `p`, in order of id. -/
def closeWhere (p : Nat → Sess → Bool) (s : State) : State :=
  (s.dict.sess.filter (fun e => p e.1 e.2)).foldl (fun s e => closeSess e.1 evClose s) s

/-- The message a PROVE authenticates (R563). -/
def proofText (role slot sid : Nat) (devN hostN : Bytes) : Bytes :=
  ascii "ZYDS" ++ natLE 1 role ++ natLE 1 slot ++ natLE 4 sid ++ devN ++ hostN

/-- The text the session key is made from (R563). -/
def sessionKeyText (sid : Nat) (hostN devN : Bytes) : Bytes := ascii "ZYSK" ++ natLE 4 sid ++ hostN ++ devN

/-- A nonzero session id not in use, from a free value (at most 16 ids are in use). -/
def freshSid (s : State) : Nat :=
  let r := freeNat s % (2 ^ 32 - 1)
  let c := (List.range 17).map (fun i => (r + i) % (2 ^ 32 - 1) + 1)
  (c.find? (fun x => (sessOf s x).isNone)).getD (r + 1)

/-- The status of an OPEN, in the order of R563. -/
def openStatus (s : State) (h : DHdr) (body : Bytes) : Nat :=
  let role := leAt body 0 1
  let slot := leAt body 1 1
  if h.sid ≠ 0 then stNoSession
  else if body.length ≠ 36 then stType
  else if role = 0 ∨ 3 < role ∨ 7 < slot then stRange
  else if (roleKey s role slot).isNone ∨ (role = 3 ∧ 1 < h.xport) then stDenied
  else if backoffOn s role h.xport then stBackoff
  else if 16 ≤ s.dict.sess.length then stBusy
  else stOk

/-- OPEN: allocate a session id and a device nonce, or refuse (R563, R564, R578). -/
def execDictOpen (h : DHdr) (body : Bytes) (s : State) : Host.Outcome State Fault Refusal :=
  .next (dictArrive h body (fun s =>
    let role := leAt body 0 1
    let st := if jFull s then stJournalFull else openStatus s h body
    if st = stOk then
      let sid := freshSid s
      let nonce := natLE 32 (freeNat (drawn s))
      let slot := if role = 1 then leAt body 1 1 else 0
      let e : Sess :=
        { role := role, slot := slot, xport := h.xport, isOpen := false, lastSeq := none, busy := false,
          hostNonce := slice body 4 32, devNonce := nonce, key := [], openedAt := now s, lastAct := now s,
          own := [], dbgResult := [] }
      respond h 1 sid none stOk nonce
        (modDict (fun d => { d with sess := tput d.sess sid e }) (drawn (drawn s)))
    else
      let s1 := if st = stJournalFull then bump 0xC0F0 0x09 s
        else journal evOpen (if role ≤ 3 then role else 0) 0 0 0 st h.xport [] [] s
      let s2 := if st = stBackoff then bump 0xC0F0 0x03 s1 else s1
      respond h 1 h.sid.toNat none st [] s2) s)

/-- PROVE: open the session, or fail it with AUTH_FAIL (R563-R565). It is a request performed in its session, so its SEQ is the
first that R566 compares with (DEDUCED, log 163). -/
def execDictProve (h : DHdr) (proof : Bytes) (s : State) : Host.Outcome State Fault Refusal :=
  .next (dictArrive h proof (fun s =>
    let sid := h.sid.toNat
    match sessOf s sid with
    | none => respond h 2 sid none stNoSession [] s
    | some e =>
      if e.isOpen then respond h 2 sid none stNoSession [] s
      else
        let k := (roleKey s e.role e.slot).getD []
        if (roleKey s e.role e.slot).isSome ∧ proof = hmac384 k (proofText e.role e.slot sid e.devNonce e.hostNonce) then
          let s1 := modSess sid (fun e => { e with
            isOpen := true, lastAct := now s, lastSeq := some h.seq.toNat, key := hmac384 k (sessionKeyText sid e.hostNonce e.devNonce) }) s
          let s2 := modDict (fun d => { d with fails := tdel d.fails (e.role * 8 + e.xport) }) s1
          respond h 2 sid none stOk [] (bump 0xC0F0 0x01 (journal evOpen e.role sid 0 0 stOk e.xport [] [] s2))
        else
          let n := ((tfind s.dict.fails (e.role * 8 + e.xport)).getD (0, 0)).1
          let s1 := modDict (fun d => { d with
            sess := tdel d.sess sid, fails := tput d.fails (e.role * 8 + e.xport) (n + 1, now s) }) s
          respond h 2 sid none stAuthFail []
            (bump 0xC0F0 0x02 (journal evAuthFail e.role sid 0 0 stAuthFail e.xport [] [] s1))) s)

/-- CLOSE: answer, then close the session (R565). -/
def execDictClose (h : DHdr) (s : State) : Host.Outcome State Fault Refusal :=
  .next (inSession h 6 [] (fun e s =>
    closeSess h.sid.toNat evClose (respond h 6 h.sid.toNat (some e.key) stOk [] s)) s)

/-- The text a claim token signs (R561). -/
def claimText (serial number : Nat) (key : Bytes) : Bytes := natLE 8 serial ++ natLE 2 number ++ sha384 key

/-- CLAIM: set the installer key of an unclaimed device from a valid token (R561). -/
def execClaim (h : DHdr) (serial : BitVec 64) (number : BitVec 16) (key pub sig : Bytes) (s : State) :
    Host.Outcome State Fault Refusal :=
  let body := natLE 8 serial.toNat ++ natLE 2 number.toNat ++ key ++ pub ++ sig
  .next (dictArrive h body (fun s =>
    let good := decide (serial = Config.serial) && decide (number.toNat = s.dict.claimFuses.toNat) &&
      decide (key.length = 48) && decide (pub.length = 97) && decide (sig.length = 96) &&
      decide (sha384 pub = natBE 48 Config.makerKeyDigest.toNat) &&
      ecdsaVerify pub (sha384 (claimText serial.toNat number.toNat key)) sig
    let st := if h.sid ≠ 0 then stNoSession
      else if jFull s then stJournalFull
      else if s.dict.installerKey.isSome then stClaimed
      else if good then stOk else stBadToken
    let s1 := if st = stJournalFull then bump 0xC0F0 0x09 s
      else if st = stNoSession then s
      else journal evClaim 0 0 0 0 st h.xport [] [] s
    let s2 := if st = stOk then modDict (fun d => { d with installerKey := some key }) s1
      else bump 0xC0F0 0x0F s1
    respond h 7 h.sid.toNat none st [] s2) s)

/-- CHALLENGE_TIMEOUT: a session still CHALLENGED at the first DL3 boundary at or after 8 DL3 ticks closes (R565). -/
def execChallengeTimeout (sid : BitVec 32) (s : State) : Host.Outcome State Fault Refusal :=
  match sessOf s sid.toNat with
  | some e =>
    if !e.isOpen && reached (expiryAt 3 (e.openedAt + 8 * dlPeriod 3) e.openedAt) s then
      .next (closeSess sid.toNat evTimeout s)
    else .next s
  | none => .next s

/-- IDLE_SESSION_TIMEOUT: an open session closes at the first DL3 boundary at or after 300 s idle (R567). -/
def execIdleSessionTimeout (sid : BitVec 32) (s : State) : Host.Outcome State Fault Refusal :=
  match sessOf s sid.toNat with
  | some e =>
    if e.isOpen && reached (expiryAt 3 (e.lastAct + 300000000000) e.lastAct) s then
      .next (bump 0xC0F0 0x04 (closeSess sid.toNat evTimeout s))
    else .next s
  | none => .next s

/-- B001h.01 closes the named session; an installer may not close a maker's (R583). -/
def wrCloseSession : WriteEff := fun sid v s =>
  match sessOf s (leNat v) with
  | none => (stNotFound, s)
  | some e =>
    match sessOf s sid with
    | some me => if e.role = 3 ∧ me.role = 2 then (stDenied, s) else (stOk, closeSess (leNat v) evClose s)
    | none => (stNotFound, s)

/-- CLOSE_SESSION. -/
def execCloseSession (h : DHdr) (v : Bytes) (s : State) : Host.Outcome State Fault Refusal :=
  .next (dictWriteRow h 0xB001 0x01 v wrCloseSession s)

/-- B010h sets or erases an operator key and closes the sessions opened with the slot (R568). -/
def wrOperatorKey (slot : Nat) : WriteEff := fun _ v s =>
  let s1 := modDict (fun d => { d with
    operatorKeys := if v.length = 0 then tdel d.operatorKeys slot else tput d.operatorKeys slot v }) s
  (stOk, closeWhere (fun _ e => decide (e.role = 1) && decide (e.slot = slot)) s1)

/-- OPERATOR_KEY. -/
def execOperatorKey (h : DHdr) (slot : Fin 8) (v : Bytes) (s : State) : Host.Outcome State Fault Refusal :=
  .next (dictWriteRow h 0xB010 (slot.val + 1) v (wrOperatorKey slot.val) s)

/-- B020h.02 rotates the installer key and closes every other installer session (R568). -/
def wrInstallerKey : WriteEff := fun sid v s =>
  (stOk, closeWhere (fun i e => decide (e.role = 2) && decide (i ≠ sid))
    (modDict (fun d => { d with installerKey := some v }) s))

/-- INSTALLER_KEY. -/
def execInstallerKey (h : DHdr) (v : Bytes) (s : State) : Host.Outcome State Fault Refusal :=
  .next (dictWriteRow h 0xB020 0x02 v wrInstallerKey s)

/-- Role and transport of a session, for a record its write causes. -/
def sessWho (s : State) (sid : Nat) : Nat × Nat := match sessOf s sid with | some e => (e.role, e.xport) | none => (0, 5)

/-- B020h.03 unclaims: keys erased, sessions closed, one fuse burnt; a sixteenth write is RANGE (R562; DESIGN CHOICE,
log 115). -/
def wrUnclaim : WriteEff := fun sid _ s =>
  if 15 ≤ s.dict.claimFuses.toNat then (stRange, s)
  else
    let s1 := modDict (fun d => { d with
      installerKey := none, operatorKeys := [], claimFuses := d.claimFuses + 1 }) s
    (stOk, closeWhere (fun _ e => decide (e.role ≠ 3)) (journal evUnclaim 3 sid 0xB020 3 stOk (sessWho s sid).2 [] [] s1))

/-- UNCLAIM. -/
def execUnclaim (h : DHdr) (v : Bytes) (s : State) : Host.Outcome State Fault Refusal :=
  .next (dictWriteRow h 0xB020 0x03 v wrUnclaim s)

/-- B040h.01 erases the persistent configuration (R554). -/
def wrConfigErase : WriteEff := fun _ _ s => (stOk, modDict (fun d => { d with persist := [] }) s)

/-- CONFIG_ERASE. -/
def execConfigErase (h : DHdr) (v : Bytes) (s : State) : Host.Outcome State Fault Refusal :=
  .next (dictWriteRow h 0xB040 0x01 v wrConfigErase s)

/-- B050h.02 cancels the pending timed write with that audit SEQ (R572). -/
def wrTimedCancel : WriteEff := fun sid v s =>
  match s.dict.timed.find? (fun t => decide (t.seq = leNat v)) with
  | none => (stNotFound, s)
  | some t =>
    (stOk, journal evTimedCancel (sessWho s sid).1 sid t.idx t.sub stOk (sessWho s sid).2 [] (jDigest (timeLE (ofNs t.atime)))
      (modDict (fun d => { d with timed := d.timed.filter (fun t => t.seq ≠ leNat v) }) s))

/-- TIMED_CANCEL. -/
def execTimedCancel (h : DHdr) (v : Bytes) (s : State) : Host.Outcome State Fault Refusal :=
  .next (dictWriteRow h 0xB050 0x02 v wrTimedCancel s)

/-! ### Reading and mirroring the journal (R577, R580) -/

/-- Record `q`: from SRAM, from flash, or a zero record with SEQ set. -/
def jLookup (s : State) (q : Nat) : Bytes :=
  match s.dict.jSram.find? (fun r => decide (leAt r 0 8 = q)) with
  | some r => r
  | none => (tfind s.dict.jFlash q).getD (natLE 8 q ++ zeros 56)

/-- B100h.02: up to 48 records from B100h.01 of the session. -/
def rdJournal : ReadEff := fun sid s =>
  let q := own s sid 0xB100 1
  let n := min 48 (s.dict.jNext.toNat - q)
  (stOk, (List.range n).flatMap (fun i => jLookup s (q + i)), s)

/-- JOURNAL_READ. -/
def execJournalRead (h : DHdr) (s : State) : Host.Outcome State Fault Refusal :=
  .next (dictReadRow h 0xB100 0x02 rdJournal s)

/-- The flash ring with a page of records written into it: 524,288 records are kept (R577). -/
def flashPut (f : Tab Bytes) (rs : List Bytes) : Tab Bytes :=
  let f1 := rs.foldl (fun f r => tput f (leAt r 0 8) r) f
  let newest := (rs.map (fun r => leAt r 0 8)).foldl max 0
  tfilter (fun k _ => decide (newest < k + 524288)) f1

/-- JOURNAL_MIRROR: a page of the 64 oldest unmirrored records is written to flash and leaves the SRAM ring
(R577, R578). -/
def execJournalMirror (s : State) : Host.Outcome State Fault Refusal :=
  if s.dict.jSram.length < 64 then .next s
  else .next (modDict (fun d => { d with jFlash := flashPut d.jFlash (d.jSram.take 64), jSram := d.jSram.drop 64 }) s)

/-! ### MCTP control (R559, Table 17-6) -/

/-- The answer to an MCTP control request: its instance byte without the request bit, its command, a completion code
and its data; a command that is not supported is answered with completion code 05h. -/
def mctpAnswer (s : State) (x : Nat) (msg : Bytes) : Bytes :=
  let iid := BitVec.ofNat 8 (leAt msg 0 1 % 128)
  let c := leAt msg 1 1
  let data : Bytes :=
    if c = 0x01 then [0x00, 0x00] ++ slice msg 3 1 ++ [0x00]
    else if c = 0x02 then [0x00] ++ natLE 1 (tget 0 s.dict.eid x) ++ [0x00, 0x00]
    else if c = 0x04 then [0x00, 0x01, 0xF1, 0xF3, 0xF1, 0x00]
    else if c = 0x05 then [0x00, 0x03, 0x00, 0x05, 0x7F]
    else if c = 0x06 then [0x00, 0xFF, 0x01] ++ natBE 4 Config.enterprise.toNat ++ [0x00, 0x00]
    else [0x05]
  [iid] ++ natLE 1 c ++ data

/-- MCTP_CONTROL: answered on an enabled MCTP transport; Set Endpoint ID also takes the id. -/
def execMctpControl (xport : Nat) (msg : Bytes) (s : State) : Host.Outcome State Fault Refusal :=
  if s.led.restart.isSome then .next (if xport ≤ 1 then s else bump 0xC018 0x09 s)
  else if 4 ≤ xport ∨ !xportOn s xport ∨ msg.length < 2 then .next (bump 0xC0F0 0x0E s)
  else
    let s1 := if leAt msg 1 1 = 1 then
        modDict (fun d => { d with eid := tset 0 d.eid xport (leAt msg 3 1) }) s else s
    .next (emit (.mgmt xport (mctpMsg 0x00 (mctpAnswer s xport msg))) s1)

end Sys2Proof.Machine
end

