-- ==== Sys2Proof/Machine/MemOps.lean ====
section
/-! DEFINITION. The device address map and device memory: bytes, words and tags at their homes (chapters 01, 07, 14). -/

namespace Sys2Proof.Machine

/-- What a device physical address reaches (Table 1-7), the aliases resolved. -/
inductive Region where
  | hbm
  | tileStore (t : Nat)
  | nearStore (c : Nat)
  | codeStore (t : Nat)
  | sram
  | rom
  | unitSpace (uid off : Nat)
  | hostWin
  | unmapped
  deriving DecidableEq, Repr

/-- The region of an address that is no alias (R28). -/
def regionOf (a : Nat) : Region :=
  if a < 0x2A00000000 then .hbm
  else if 0xE000000000 ≤ a ∧ a < 0xE000000000 + 12 * 0x200000 then .tileStore ((a - 0xE000000000) / 0x200000)
  else if 0xE100000000 ≤ a ∧ a < 0xE100000000 + 96 * 0x10000 then .nearStore ((a - 0xE100000000) / 0x10000)
  else if 0xE200000000 ≤ a ∧ a < 0xE200000000 + 12 * 0x80000 then .codeStore ((a - 0xE200000000) / 0x80000)
  else if 0xE300000000 ≤ a ∧ a < 0xE300100000 then .sram
  else if 0xE300100000 ≤ a ∧ a < 0xE300140000 then .rom
  else if 0xF000000000 ≤ a ∧ a < 0xF100000000 then .unitSpace ((a - 0xF000000000) / 0x1000000) (a % 0x1000000)
  else if 0x400000000000 ≤ a ∧ a < 0x800000000000 then .hostWin
  else .unmapped

/-- An address as core `c` (0-95, or 96 for the steward) reaches it: the two aliases name its own stores. The
steward has neither store, so for it they name nothing: ADDR_UNMAPPED (DESIGN CHOICE, log 142). -/
def unalias (c a : Nat) : Nat :=
  if c < 96 ∧ 0xE400000000 ≤ a ∧ a < 0xE400010000 then 0xE100000000 + c * 0x10000 + (a - 0xE400000000)
  else if c < 96 ∧ 0xE401000000 ≤ a ∧ a < 0xE401200000 then 0xE000000000 + c / 8 * 0x200000 + (a - 0xE401000000)
  else a

/-- Regions whose words carry tags. -/
def Region.tagged : Region → Bool
  | .hbm => true
  | .tileStore _ => true
  | .nearStore _ => true
  | .sram => true
  | _ => false

/-- A memory of the device that is a plain store of bytes. -/
def Region.isStore : Region → Bool
  | .hbm => true
  | .tileStore _ => true
  | .nearStore _ => true
  | .codeStore _ => true
  | .sram => true
  | _ => false

/-! ### Placement of HBM blocks (R495) -/

/-- Placement of the address `a` of HBM data space in an order of Table 15-4. -/
def hbmPlace (order a : Nat) : HbmPlace :=
  let n := a / 64
  match order with
  | 0 => { stack := bf n 5 2, pc := 2 * bf n 0 4 + bf n 4 1, bank := 16 * bf n 15 2 + 4 * bf n 7 2 + bf n 13 2,
           row := n / 2 ^ 17, col := bf n 9 4 }
  | 1 => { stack := bf n 9 2, pc := 2 * bf n 4 4 + bf n 8 1, bank := 16 * bf n 15 2 + 4 * bf n 11 2 + bf n 13 2,
           row := n / 2 ^ 17, col := bf n 0 4 }
  | 2 =>
    let st := a / 45097156608
    let m := n - st * 704643072
    { stack := st, pc := 2 * bf m 0 4 + bf m 4 1, bank := 16 * bf m 13 2 + 4 * bf m 5 2 + bf m 11 2,
      row := m / 2 ^ 15, col := bf m 7 4 }
  | _ =>
    let r := n / 2 ^ 17
    { stack := bf n 5 2, pc := 2 * (bf n 0 4 ^^^ bf r 4 4) + bf n 4 1,
      bank := 16 * bf n 15 2 + 4 * (bf n 7 2 ^^^ bf r 0 2) + (bf n 13 2 ^^^ bf r 2 2), row := r, col := bf n 9 4 }

def hbmPc (s : State) (p : Nat) : HbmPc := tget {} s.hbm.pc p
def modHbmPc (p : Nat) (f : HbmPc → HbmPc) (s : State) : State := modHbm (fun h => { h with pc := tmod {} h.pc p f }) s

/-- The pseudo-channel, by 32 * stack + pc, that holds an address. -/
def hbmPcOf (s : State) (a : Nat) : Nat := let p := hbmPlace s.hbm.order a; 32 * p.stack + p.pc

/-- The address lies in HBM on a failed pseudo-channel (R510). -/
def hbmFailed (s : State) (a : Nat) : Bool := decide (a < 0x2A00000000) && (hbmPc s (hbmPcOf s a)).failed

/-- The address lies in HBM on a retired stack (R513). -/
def hbmRetired (s : State) (a : Nat) : Bool :=
  decide (a < 0x2A00000000) && decide (tget 0 s.hbm.retire (hbmPlace s.hbm.order a).stack = 2)

/-! ### Bytes, words, tags -/

/-- The byte at an address. Steward ROM reads its fixed contents, a failed pseudo-channel 0 (R510). -/
def memByte (s : State) (a : Nat) : Byte :=
  match regionOf a with
  | .rom => Config.rom (a - 0xE300100000)
  | _ => if hbmFailed s a then 0 else tget 0 s.mem.byte a

/-- The canonical form of device memory: strictly rising addresses, no entry equal to what an unlisted one reads as
(DESIGN CHOICE, log 14). -/
def Mem.wf (m : Mem) : Bool := twf 0 m.byte && twf 0 m.tag

/-- Write one byte; a failed pseudo-channel discards it. -/
def memPut (a : Nat) (b : Byte) (s : State) : State :=
  if hbmFailed s a then s else modMem (fun m => { m with byte := tset 0 m.byte a b }) s

/-- Write one tag, by word number. -/
def tagPut (w : Nat) (b : Byte) (s : State) : State :=
  if hbmFailed s (w * 8) then s else modMem (fun m => { m with tag := tset 0 m.tag w b }) s

/-- `n` bytes from an address. -/
def memBytes (s : State) (a n : Nat) : Bytes := (List.range n).map (fun i => memByte s (a + i))

/-- Write bytes from an address on. -/
def memWrite : Nat → Bytes → State → State
  | _, [], s => s
  | a, b :: t, s => memWrite (a + 1) t (memPut a b s)

/-- Tag of the word that holds an address; 80h on a failed pseudo-channel. Of the steward ROM these are bits 71:64. -/
def memTag (s : State) (a : Nat) : Byte :=
  match regionOf a with
  | .rom => Config.rom (0x40000 + (a - 0xE300100000) / 8)
  | _ => if hbmFailed s a then 0x80 else tget 0 s.mem.tag (a / 8)

/-- Data of the aligned word that holds an address. -/
def memData (s : State) (a : Nat) : W64 := BitVec.ofNat 64 (leNat (memBytes s (a / 8 * 8) 8))

/-- The 72-bit word that holds an address. -/
def memWord (s : State) (a : Nat) : W72 := memTag s a ++ memData s a

/-- Write a whole 72-bit word, tag included. -/
def memPutWord (a : Nat) (v : W72) (s : State) : State :=
  tagPut (a / 8) (v.extractLsb' 64 8) (memWrite (a / 8 * 8) (natLE 8 (v.toNat % 2 ^ 64)) s)

/-! ### Tag bits (Table 0-5, Table 14-7) -/

/-- P, F, K and E of a tag. -/
def tagP (t : Byte) : Bool := t.getLsbD 7
def tagF (t : Byte) : Bool := t.getLsbD 6

def tagSetP (b : Bool) (t : Byte) : Byte := BitVec.ofNat 8 (bitPut t.toNat 7 b)
def tagSetF (b : Bool) (t : Byte) : Byte := BitVec.ofNat 8 (bitPut t.toNat 6 b)

/-- Some word among the bytes `a` to `a + n - 1` is poisoned. -/
def poisonedIn (s : State) (a n : Nat) : Bool :=
  (regionOf a).tagged && ((List.range (n + 7)).any (fun i => decide (i % 8 = 0) && decide (a / 8 * 8 + i < a + n) &&
    tagP (memTag s (a / 8 * 8 + i))))

/-- Write data bytes as an ordinary store does: a word that is written whole loses P, any other keeps its tag (R265,
R433). -/
def storeBytes (a : Nat) (bs : Bytes) (s : State) : State :=
  let s1 := memWrite a bs s
  if (regionOf a).tagged then
    ((List.range (bs.length / 8 + 1)).map (fun i => roundUp a 8 + 8 * i)).foldl
      (fun s w => if w + 8 ≤ a + bs.length then tagPut (w / 8) (tagSetP false (memTag s w)) s else s) s1
  else s1

/-- Write bytes under a mask into the aligned word at `a`: bit i of the mask writes byte i. -/
def storeMasked (a : Nat) (mask : BitVec 8) (data : W64) (s : State) : State :=
  let s1 := (List.range 8).foldl (fun s i => if mask.getLsbD i then memPut (a + i) (data.extractLsb' (8 * i) 8) s else s) s
  if mask = 0xFF ∧ (regionOf a).tagged then tagPut (a / 8) (tagSetP false (memTag s1 a)) s1 else s1

/-- Write bytes as a placement does: a word of tagged memory that is written whole gets P 0, F 1 and the window's KIND
and EPOCH, `mark` bits 5:4 and 3:0 (R210, Table 14-7). -/
def placeBytes (a : Nat) (bs : Bytes) (mark : Nat) (s : State) : State :=
  let s1 := memWrite a bs s
  if (regionOf a).tagged then
    ((List.range (bs.length / 8 + 1)).map (fun i => roundUp a 8 + 8 * i)).foldl
      (fun s w => if w + 8 ≤ a + bs.length then tagPut (w / 8) (BitVec.ofNat 8 (0x40 + mark % 64)) s else s) s1
  else s1

/-- Zero every byte and tag from `lo` to `hi - 1`, but what `keep` keeps (R480). -/
def memZero (lo hi : Nat) (keep : Nat → Bool) (s : State) : State :=
  modMem (fun m => { byte := tfilter (fun a _ => decide (a < lo) || decide (hi ≤ a) || keep a) m.byte,
                     tag := tfilter (fun w _ => decide (w * 8 < lo) || decide (hi ≤ w * 8) || keep (w * 8)) m.tag }) s

/-! ### Power domains of units (R34, R587) -/

/-- State of a domain: 0 DAY, 1 DUSK, 2 NIGHT, 3 DARK, 4 WAKING, 5 LEAVING (DESIGN CHOICE, log 15). -/
def domState (s : State) (d : Nat) : Nat := (tget {} s.power.dom d).state

/-- The unit ids that are assigned (Table 1-8). -/
def unitAssigned (u : Nat) : Bool := decide (u ≤ 0x1B) || (decide (0x20 ≤ u) && decide (u ≤ 0x2B))

/-- The domain of a unit; 255 for AON. A slice of unit 0Fh has its own. -/
def unitDomain (u off : Nat) : Nat :=
  if u ≤ 1 then 255
  else if u ≤ 9 then 60 + (u - 2)
  else if u ≤ 0xD then 72 + (u - 0xA)
  else if u = 0xE then 77
  else if u = 0xF then 60 + off / 0x200000
  else if u = 0x12 then 76
  else if u ≤ 0x13 then 79
  else if u ≤ 0x17 then 68 + (u - 0x14)
  else if u = 0x18 then 78
  else if u = 0x19 then 79
  else if u ≤ 0x1B then 255
  else 5 * (u - 0x20) + 4

/-- The unit's domain is in NIGHT or DARK (R39). -/
def unitOff (s : State) (u off : Nat) : Bool :=
  let d := unitDomain u off
  decide (d ≠ 255) && (decide (domState s d = 2) || decide (domState s d = 3))

/-- The unit's domain is in DUSK or between two states: an access waits for DAY (R38). -/
def unitHeld (s : State) (u off : Nat) : Bool :=
  let d := unitDomain u off
  decide (d ≠ 255) && (decide (domState s d = 1) || decide (domState s d = 4) || decide (domState s d = 5))

/-- UNIT_IDENT (Table 1-9). -/
def unitIdent (u : Nat) : Nat :=
  let kind := if 2 ≤ u ∧ u ≤ 9 then 2 else if 0xA ≤ u ∧ u ≤ 0xD then 0xA else if 0x14 ≤ u ∧ u ≤ 0x17 then 0x14
    else if 0x20 ≤ u ∧ u ≤ 0x2B then 0x20 else u
  u + (u - kind) * 2 ^ 8 + kind * 2 ^ 16 + 2 ^ 24 + unitDomain u 0 * 2 ^ 32

/-! ### The poison log (R484) -/

/-- A record: address, source (1 SRAM, 2 HBM, 3 host read), tile or stack, fabric time. -/
def poisonLog (addr src place : Nat) (s : State) : State :=
  if s.bufs.plog.length < 16 then
    modBufs (fun b => { b with plog := b.plog ++ [natLE 8 addr ++ natLE 1 src ++ natLE 1 place ++ zeros 6 ++ natLE 8 (now s)] }) s
  else bump 0xC0C0 0x12 s

/-- An uncorrectable error: P is set in the stored word, its data stay, and the log takes it (R481, R484). -/
def poisonWord (addr src place : Nat) (s : State) : State :=
  poisonLog (addr / 8 * 8) src place (tagPut (addr / 8) (tagSetP true (memTag s addr)) s)

end Sys2Proof.Machine
end

