-- ==== Sys2Proof/Machine/Meta.lean ====
section
/-! DEFINITION. Tags and metadata in the rows of the stacks: where a tag lies (R492), what the metadata region holds and on
which stacks (R494), and the reads and writes of a metadata block. -/

namespace Sys2Proof.Machine

/-- Count in a stack. -/
def bumpHbm (k sub : Nat) (s : State) : State := bump (0xC0D0 + k) sub s

def hbmBank (x : HbmPc) (b : Nat) : HbmBank := tget {} x.bank b
def modHbmBank (p b : Nat) (f : HbmBank → HbmBank) (s : State) : State :=
  modHbmPc p (fun x => { x with bank := tmod {} x.bank b f }) s

/-! ### Commands to the array -/

def cPre : Nat := 0
def cAct : Nat := 1
def cRd : Nat := 2
def cRda : Nat := 3
def cWr : Nat := 4
def cWra : Nat := 5
def cRefPb : Nat := 6
def cRefAb : Nat := 7
def cPdEnter : Nat := 8
def cPdExit : Nat := 9
def cSrEnter : Nat := 10
def cSrExit : Nat := 11

/-- Issue a command; the retry buffer keeps the last 32 (R509). -/
def hbmCmd (p cmd bank row col : Nat) (s : State) : State :=
  let s1 := modHbmPc p (fun x =>
    let r := x.retry ++ [(cmd, bank, row, col)]
    { x with retry := r.drop (r.length - 32) }) s
  emit (.hbm (p / 32) (p % 32) cmd bank row col) s1

/-- Leave power-down (R505). -/
def pdExit (p : Nat) (s : State) : State :=
  if (hbmPc s p).pd then hbmCmd p cPdExit 0 0 0 (modHbmPc p (fun x => { x with pd := false }) s) else s

/-- What a failed pseudo-channel answers: data 0 with tag 80h (R510). -/
def readWords (data tags : Bytes) : List Nat :=
  (List.range 8).map (fun i => leAt data (8 * i) 8 + (lget 0 tags i).toNat * 2 ^ 64)

/-- Answer a read. -/
def hbmAnswer (tag : Nat) (data tags : Bytes) (s : State) : State := emit (.reply "HBM" tag (readWords data tags)) s

/-! ### Tags (R491-R493) -/

/-- Bank of the tags of a bank: BG xor 2, the same SID and BA (R492). -/
def tagBank (bank : Nat) : Nat := bank ^^^ 8

/-- Row of the tags of a data row. -/
def tagRow (row : Nat) : Nat := 21504 + row / 8

/-- Byte, in that row, of the tag of the word at byte `b` of data row `row`. -/
def tagByte (row b : Nat) : Nat := row % 8 * 128 + b / 8

/-- The line of a place: the 64 tag bytes of eight column blocks of a row (R493). -/
def tagLine (p : HbmPlace) : Nat := ((p.pc * 64 + p.bank) * 24576 + p.row) * 2 + p.col / 8

/-- The column block that holds a line of a stack. -/
def tagPlace (stack line : Nat) : HbmPlace :=
  let row := line / 2 % 24576
  { stack := stack, pc := line / 49152 / 64, bank := tagBank (line / 49152 % 64), row := tagRow row,
    col := tagByte row (line % 2 * 512) / 64 }

/-- A request for a tag line: its fetch, or its write-back. -/
def tagReq (stack line : Nat) (write : Bool) (s : State) : HbmReq :=
  { tag := 0, block := 2 ^ 60 + line, place := tagPlace stack line, kind := 1, write := write, mask := BitVec.allOnes 64,
    data := [], tags := [], prio := 8, since := now s, merged := false, forwarded := false, issued := false }

/-! ### Metadata (R494) -/

/-- The items of Table 15-3. -/
inductive MetaItem where
  | endpoints
  | peers
  | heads
  | overflow
  | continuations
  | delays
  | windows
  | receive
  | references
  | freeStore
  deriving DecidableEq, Repr

/-- Bytes of a copy, or of a striped item (Table 15-3). -/
def MetaItem.bytes : MetaItem → Nat
  | .endpoints => 33554432
  | .peers => 268435456
  | .heads => 4194304
  | .overflow => 67108864
  | .continuations => 100663296
  | .delays => 16777216
  | .windows => 35651584
  | .receive => 46137344
  | .references => 1222639616
  | .freeStore => 34078720

/-- The two stacks of a mirrored item; none for a striped one. -/
def MetaItem.mirror : MetaItem → Option (Nat × Nat)
  | .endpoints | .peers => some (0, 2)
  | .references | .freeStore => none
  | _ => some (1, 3)

/-- The stack of the 4 KiB piece that holds byte `a` of a striped item; once a stack is retired the pieces go round the other
three (R513; DESIGN CHOICE, log 97). -/
def stripeStack (s : State) (a : Nat) : Nat :=
  let l := (List.range 4).filter (fun k => decide (tget 0 s.hbm.retire k ≠ 2))
  l.getD (a / 4096 % l.length) 0

/-- The controller serves a pseudo-channel: its stack is ACTIVE or RETIRING and not in self-refresh. -/
def hbmServes (s : State) (p : Nat) : Bool :=
  (decide (tget 0 s.hbm.state (p / 32) = 2) || decide (tget 0 s.hbm.state (p / 32) = 4)) && !(hbmPc s p).sref &&
    decide (domState s (68 + p / 32) = 0)

/-- Where block `b` of an item lies in a stack: the spec gives the metadata rows, and no place in them (DESIGN CHOICE,
log 150). -/
def metaPlace (stack : Nat) (it : MetaItem) (b : Nat) : HbmPlace :=
  let x := Config.metaPlace it.bytes b
  { stack := stack, pc := x % 32, bank := x / 32 % 64, row := 24192 + x / 2048 % 384, col := x / 786432 % 16 }

def metaPc (stack : Nat) (it : MetaItem) (b : Nat) : Nat := 32 * stack + (metaPlace stack it b).pc

/-- The stacks whose copy of a mirrored block can be read: a failed pseudo-channel is served by the other copy (R510). -/
def metaCopies (s : State) (it : MetaItem) (b : Nat) : List Nat :=
  match it.mirror with
  | some (i, j) => [i, j].filter (fun k => hbmServes s (metaPc k it b) && !(hbmPc s (metaPc k it b)).failed)
  | none => []

/-- The copy a block is read from: the one whose read queue is shorter, on a tie the lower-numbered stack. -/
def metaCopy (s : State) (it : MetaItem) (b : Nat) : Option Nat :=
  let len := fun k => (hbmPc s (metaPc k it b)).rq.length
  match metaCopies s it b with
  | [i, j] => some (if len j < len i then j else i)
  | [i] => some i
  | _ => none

/-- The queue entry of a metadata block; `tag` says who reads it. -/
def metaReq (stack : Nat) (it : MetaItem) (b : Nat) (write : Bool) (tag : Nat) (s : State) : HbmReq :=
  { tag := tag, block := 2 ^ 61 + it.bytes * 2 ^ 32 + b, place := metaPlace stack it b, kind := 2, write := write,
    mask := BitVec.allOnes 64, data := [], tags := [], prio := 8, since := now s, merged := false, forwarded := false,
    issued := false }

/-- Queue a metadata request; it brings its pseudo-channel out of power-down (R505). -/
def queueMeta (p : Nat) (q : HbmReq) (s : State) : State :=
  modHbmPc p (fun x =>
    if !q.write then { x with rq := x.rq ++ [q] }
    else if (x.wq ++ x.side).any (fun w => w.write && decide (w.block = q.block)) then x
    else if x.wq.length < 48 then { x with wq := x.wq ++ [q] }
    else { x with side := x.side ++ [q] }) (pdExit p s)

/-- A read of a mirrored block goes to the queue of the copy chosen; no copy, no read. -/
def metaRead (it : MetaItem) (b tag : Nat) (s : State) : State :=
  match metaCopy s it b with
  | some k => queueMeta (metaPc k it b) (metaReq k it b false tag s) s
  | none => s

/-- The queue a read of the block would go to has room. -/
def metaRoom (s : State) (it : MetaItem) (b : Nat) : Bool :=
  match metaCopy s it b with
  | some k => decide ((hbmPc s (metaPc k it b)).rq.length < 64)
  | none => true

/-- A mirrored block is written to both of its copies. -/
def metaWrite (it : MetaItem) (b : Nat) (s : State) : State :=
  (metaCopies s it b).foldl (fun s k => queueMeta (metaPc k it b) (metaReq k it b true 0 s) s) s

/-- A read of a block by `tag` still waits in a queue. -/
def metaPending (s : State) (it : MetaItem) (b tag : Nat) : Bool :=
  s.hbm.pc.any (fun e => e.2.rq.any (fun q =>
    decide (q.kind = 2 ∧ q.block = 2 ^ 61 + it.bytes * 2 ^ 32 + b ∧ q.tag = tag)))

/-- No copy of a mirrored block can be read because the pseudo-channels of both have failed. -/
def metaDead (s : State) (it : MetaItem) (b : Nat) : Bool :=
  match it.mirror with
  | some (i, j) => [i, j].all (fun k => (hbmPc s (metaPc k it b)).failed)
  | none => false

/-- Byte `a` of a striped item lies on a failed pseudo-channel and reads as poisoned (R510). -/
def stripeFailed (s : State) (it : MetaItem) (a : Nat) : Bool := (hbmPc s (metaPc (stripeStack s a) it (a / 64))).failed

/-! ### Self-refresh (R506, R507) -/

/-- A pseudo-channel enters self-refresh: its banks are precharged and refreshed at once, and its queues are kept. -/
def pcSelfRefresh (p : Nat) (s : State) : State :=
  let s1 := ((hbmPc s p).bank.filter (fun e => e.2.row.isSome)).foldl (fun s e =>
    hbmCmd p cPre e.1 (e.2.row.getD 0) 0 (modHbmBank p e.1 (fun b => { b with row := none }) s)) (pdExit p s)
  hbmCmd p cSrEnter 0 0 0 (bumpHbm (p / 32) 0x0A (hbmCmd p cRefAb 0 0 0 (modHbmPc p (fun x => { x with sref := true }) s1)))

/-- A stack enters self-refresh; the entry is counted once for the stack (DESIGN CHOICE, log 151). -/
def stackSelfRefresh (k : Nat) (s : State) : State :=
  bumpHbm k 0x13 ((List.range 32).foldl (fun s i => pcSelfRefresh (32 * k + i) s) s)

/-- A stack leaves self-refresh and resumes its queues (R506). -/
def stackWake (k : Nat) (s : State) : State :=
  (List.range 32).foldl (fun s i =>
    if (hbmPc s (32 * k + i)).sref then
      hbmCmd (32 * k + i) cSrExit 0 0 0 (modHbmPc (32 * k + i) (fun x => { x with sref := false }) s)
    else s) s

/-- Before NIGHT a stack performs every queued request and writes back every dirty tag line (R507 steps 1 to 3). -/
def stackDrain (k : Nat) (s : State) : State :=
  let s1 := (List.range 32).foldl (fun s i =>
    let p := 32 * k + i
    (hbmPc s p).rq.foldl (fun s q => if q.kind = 0 then hbmAnswer q.tag q.data q.tags s else s)
      (modHbmPc p (fun x => { x with rq := [], wq := [], side := [] }) s)) s
  let dirty := ((s1.hbm.tc.filter (fun e => decide (e.1 / 2048 = k))).map (fun e => e.2.filter (·.2))).flatten
  let s2 := dirty.foldl (fun s e =>
    let q := tagPlace k e.1
    hbmCmd (32 * k + q.pc) cWra q.bank q.row q.col (hbmCmd (32 * k + q.pc) cAct q.bank q.row 0 s)) s1
  modHbm (fun h => { h with tc := h.tc.map (fun e =>
    if e.1 / 2048 = k then (e.1, e.2.map (fun l => (l.1, false))) else e) }) s2

end Sys2Proof.Machine
end

