-- ==== Sys2Proof/Machine/CoreOps.lean ====
section
/-! DEFINITION. Threads: their place, level and registers; wake sources, the tile event controller and the channels
(chapters 07 and 09). -/

namespace Sys2Proof.Machine

/-! ### Place and access -/

/-- A thread of the steward (DESIGN CHOICE, log 34). -/
def isSteward (t : Nat) : Bool := decide (768 ≤ t)
/-- Core of a thread: 8 * tile + core, 96 for the steward. -/
def coreOf (t : Nat) : Nat := if t < 768 then t / 8 else 96
/-- Tile of a thread, 12 for the steward. -/
def tileOf (t : Nat) : Nat := if t < 768 then t / 64 else 12
/-- Thread number in its core. -/
def thrOf (t : Nat) : Nat := t % 8

/-- A thread as Dawn leaves it: a tile thread is IDLE at level S, a steward thread runs at level M (R244, R250;
DESIGN CHOICE, log 24). -/
def threadInit (t : Nat) : Thread := if t < 768 then {} else { st := 2, state := .run }

def thr (s : State) (t : Nat) : Thread := tget (threadInit t) s.cpu.thr t
def modThr (t : Nat) (f : Thread → Thread) (s : State) : State :=
  modCpu (fun c => { c with thr := tmod (threadInit t) c.thr t f }) s
def coreSt (s : State) (c : Nat) : CoreSt := tget {} s.cpu.core c
def modCore (c : Nat) (f : CoreSt → CoreSt) (s : State) : State :=
  modCpu (fun u => { u with core := tmod {} u.core c f }) s
def tileSt (s : State) (t : Nat) : Tile := tget {} s.cpu.tile t
def modTile (t : Nat) (f : Tile → Tile) (s : State) : State :=
  modCpu (fun u => { u with tile := tmod {} u.tile t f }) s

/-- Count in the tile of a thread; the steward keeps no tile counters. -/
def bumpTile (t sub : Nat) (s : State) : State := if t < 768 then bump (0xC070 + t / 64) sub s else s

/-- The master id of a thread (Table 11-1). -/
def masterOf (t : Nat) : Nat := if t < 768 then t else 0xC000 + (t - 768)

/-! ### Registers (R244, R245, R248, R249) -/

/-- Read a general register; w0 reads 0. -/
def Thread.reg (x : Thread) (r : Nat) : W72 := if r = 0 then 0 else tget 0 x.w r

/-- Write a general register; a write to w0 is discarded. -/
def Thread.setReg (r : Nat) (v : W72) (x : Thread) : Thread := if r = 0 then x else { x with w := tset 0 x.w r v }

def getReg (s : State) (t r : Nat) : W72 := (thr s t).reg r
def setReg (t r : Nat) (v : W72) (s : State) : State := modThr t (Thread.setReg r v) s

/-- The writable bits of st (Table 7-2). -/
def stMask : BitVec 64 := 0x000FFFFF000001FF

/-- A status with the read-only fields of thread `t`. -/
def stPlaced (t : Nat) (v : BitVec 64) : BitVec 64 :=
  (v &&& stMask) ||| BitVec.ofNat 64 (thrOf t * 2 ^ 16) |||
    BitVec.ofNat 64 ((if t < 768 then coreOf t % 8 else 0) * 2 ^ 19) |||
    BitVec.ofNat 64 ((if t < 768 then tileOf t else 15) * 2 ^ 22)

/-- The whole st of a thread. -/
def stOf (s : State) (t : Nat) : BitVec 64 := stPlaced t (thr s t).st

/-- The bits that sst and a saved st keep: the writable ones of st and its place (R276). -/
def sstMask : BitVec 64 := stMask ||| 0x3FF0000

/-- Privilege of an st: 0 U, 1 S, 2 M. -/
def plOf (st : BitVec 64) : Nat := bf st.toNat 0 2
/-- The level a thread runs at. -/
def level (s : State) (t : Nat) : Nat := plOf (thr s t).st
/-- st.PASID. -/
def pasidOf (st : BitVec 64) : Nat := bf st.toNat 32 20
def stEV (st : BitVec 64) : Bool := st.getLsbD 2
def stIH (st : BitVec 64) : Bool := st.getLsbD 3
def stPM (st : BitVec 64) : Nat := bf st.toNat 4 2

/-- cpen.ENS of a thread: CP_EN_S of its tile, nothing on the steward (DEDUCED, log 25). -/
def ensOf (s : State) (t : Nat) : BitVec 3 := if t < 768 then (tileSt s (tileOf t)).cpEn else 0

/-- A coprocessor unit is enabled for a thread (R273). -/
def cpEnabled (s : State) (t u : Nat) : Bool :=
  (ensOf s t).getLsbD u && (decide (level s t ≠ 0) || (thr s t).enu.getLsbD u)

/-! ### The coprocessors of a tile -/

def copOf (s : State) (tile : Nat) : Cop := tget {} s.cops.tile tile
def modCop (tile : Nat) (f : Cop → Cop) (s : State) : State := modCops (fun u => { u with tile := tmod {} u.tile tile f }) s
def slotOf (s : State) (tile k : Nat) : XSlot := tget {} (copOf s tile).slot k
def modSlot (tile k : Nat) (f : XSlot → XSlot) (s : State) : State :=
  modCop tile (fun u => { u with slot := tmod {} u.slot k f }) s

/-- The slot an exact-sum instruction works on. -/
def Cpx.slot (c : Cpx) : Nat := bf c.fn 2 4

/-- An ARM or DISARM that waited for work on the slot takes effect when that work is over (R454). -/
def armSettle (t : Nat) (c : Cpx) (s : State) : State :=
  if c.unit = 2 then modSlot (tileOf t) c.slot (fun x => { x with armed := x.later.getD x.armed, later := none }) s else s

/-- What a slot is armed for once its waiting ARM or DISARM has taken effect. -/
def XSlot.arming (x : XSlot) : Option (Nat × Nat) := x.later.getD x.armed

/-- An instruction of a thread works on the slot. -/
def slotWork (s : State) (tile slot : Nat) : Bool :=
  ((List.range 64).map (fun i => 64 * tile + i)).any (fun t => (thr s t).cpx.any (fun c => decide (c.unit = 2) && decide (c.slot = slot)))

/-- ARM or DISARM a slot: at once, or when the work in progress on it has folded (R454). -/
def armSlot (tile slot : Nat) (a : Option (Nat × Nat)) (s : State) : State :=
  if slotWork s tile slot then modSlot tile slot (fun x => { x with later := some a }) s
  else modSlot tile slot (fun x => { x with armed := a }) s

/-! ### The tile event controller (R327-R333) -/

def tecGroup (s : State) (tile g : Nat) : TecGroup := tget {} (tileSt s tile).grp g
def modGroup (tile g : Nat) (f : TecGroup → TecGroup) (s : State) : State :=
  modTile tile (fun x => { x with grp := tmod {} x.grp g f }) s

/-- Set DELIV of a group that qualifies (R330, R332). -/
def tecDeliver (tile g : Nat) (s : State) : State :=
  let x := tecGroup s tile g
  if x.en && !x.deliv && !(tileSt s tile).gdis && (decide (x.n.toNat ≤ x.count) || x.expired) then
    bump (0xC070 + tile) 0x1D (modGroup tile g (fun x => { x with deliv := true }) s)
  else s

/-- Count one event of a group (R330). -/
def tecCount (tile g : Nat) (s : State) : State :=
  if (tecGroup s tile g).en then
    tecDeliver tile g (modGroup tile g (fun x =>
      { x with count := min 255 (x.count + 1), start := x.start <|> some (now s) }) s)
  else s

/-- A completion to a source of a tile (R329). -/
def tecComplete (tile src : Nat) (s : State) : State :=
  if src < 32 || !(tileSt s tile).active.getLsbD src then
    bump (0xC070 + tile) 0x1E (modTile tile (fun x => { x with stray := if x.stray = 0xFFFF then x.stray else x.stray + 1 }) s)
  else
    tecCount tile (src / 8) (modTile tile (fun x =>
      { x with active := x.active &&& ~~~(BitVec.ofNat 256 (2 ^ src)), pend := x.pend ||| BitVec.ofNat 256 (2 ^ src) }) s)

/-- One source below 16 takes a new input level (R328). -/
def tecInput (tile src : Nat) (lvl : Bool) (s : State) : State :=
  let x := tileSt s tile
  let old := x.input.getLsbD src
  let sense := bf x.sense.toNat (2 * src) 2
  let s1 := modTile tile (fun x => { x with input := BitVec.ofNat 16 (bitPut x.input.toNat src lvl) }) s
  let hit := if sense = 0 then lvl && !old else if sense = 1 then lvl && !old else if sense = 2 then old && !lvl
    else decide (lvl ≠ old)
  if hit then tecCount tile (src / 8) (modTile tile (fun x => { x with pend := x.pend ||| BitVec.ofNat 256 (2 ^ src) }) s1)
  else s1

/-- Source 0 of every tile follows the learn notification queue (R180, R327). -/
def tecLearn (s : State) : State :=
  (List.range 12).foldl (fun s t => tecInput t 0 (!s.fwd.lnq.isEmpty && decide (cfg s 0x6600 2 = t)) s) s

/-- PEND of a group, with every level-mode source whose input is high (R328). -/
def tecPend (s : State) (tile g : Nat) : Nat := bf (tileSt s tile).pend.toNat (8 * g) 8

/-! ### Channels (R319-R326) -/

def chanOf (s : State) (tile c : Nat) : Chan := tget {} (tileSt s tile).chan c
def modChan (tile c : Nat) (f : Chan → Chan) (s : State) : State :=
  modTile tile (fun x => { x with chan := tmod {} x.chan c f }) s

/-- Slots of a channel in use. -/
def Chan.used (c : Chan) : Nat := c.sealed.length + c.claimed.length + b2n c.rsv.isSome

/-- The channel on which thread `x` of a tile holds its reservation. -/
def rsvChan (s : State) (tile x : Nat) : Option Nat :=
  ((tileSt s tile).chan.find? (fun e => match e.2.rsv with | some (o, _) => decide (o = x) | none => false)).map (·.1)

/-- The channel on which thread `x` of a tile holds its read claim. -/
def claimChan (s : State) (tile x : Nat) : Option Nat :=
  ((tileSt s tile).chan.find? (fun e => e.2.claimed.any (fun m => decide (m.1 = x)))).map (·.1)

/-- Abort a reservation of a thread; the abort is counted (R324, R325; DESIGN CHOICE, log 117). -/
def abortRsv (t : Nat) (s : State) : State :=
  match rsvChan s (tileOf t) (t % 64) with
  | some c => bumpTile t 0x1B (modChan (tileOf t) c (fun x => { x with rsv := none }) s)
  | none => s

/-- Release a read claim of a thread; its unread words are discarded and counted (R324). -/
def dropClaim (t : Nat) (s : State) : State :=
  match claimChan s (tileOf t) (t % 64) with
  | some c =>
    let n := (((chanOf s (tileOf t) c).claimed.find? (fun m => decide (m.1 = t % 64))).map (fun m => m.2.1.length)).getD 0
    let s1 := modChan (tileOf t) c (fun x => { x with claimed := x.claimed.filter (fun m => decide (m.1 ≠ t % 64)) }) s
    if t < 768 then bumpBy (0xC070 + tileOf t) 0x1C n s1 else s1
  | none => s

/-- What PARK, ENDB, a reset and a drain do to channel state (R324). -/
def chanCleanup (t : Nat) (s : State) : State := if t < 768 then dropClaim t (abortRsv t s) else s

/-- The thread is HALTED: by the debugger, or because a STEP has run its groups (R643, R644). -/
def isHalted (x : Thread) : Bool := x.halted || decide (x.stepLeft = some 0)

/-! ### Wake sources (Table 9-2) -/

/-- WPEND of a thread. -/
def wpend (s : State) (t : Nat) : Nat :=
  let x := thr s t
  let tec := t < 768 && (tileSt s (tileOf t)).grp.any (fun e => e.2.deliv &&
    decide (e.2.core.toNat = coreOf t % 8) && decide (e.2.thr.toNat = thrOf t))
  let ch := t < 768 && (tileSt s (tileOf t)).chan.any (fun e => x.charm.getLsbD e.1 && !e.2.sealed.isEmpty)
  b2n x.sig + 2 * b2n x.watch + 4 * b2n tec + 8 * b2n x.timer + 16 * b2n ch

/-- Sources pending and armed. -/
def wakeBits (s : State) (t : Nat) : Nat := (wpend s t &&& (thr s t).wctl.toNat) % 32

/-- The classes of events a thread may take now, lowest class first: STALL, TEC, TIMER, CHANNEL (R276). -/
def deliverable (s : State) (t : Nat) (st : BitVec 64) : List Nat :=
  if stIH st then []
  else
    let p := wpend s t
    (if (thr s t).stall then [1] else []) ++
      (if stEV st then
        (if bit p 2 && st.getLsbD 6 then [2] else []) ++ (if bit p 3 && st.getLsbD 7 then [3] else []) ++
        (if bit p 4 && st.getLsbD 8 then [4] else [])
      else [])

/-- Set SIG of a thread that is not IDLE; a signal to an IDLE thread is discarded and counted (R314). -/
def signalThread (t : Nat) (s : State) : State :=
  if (thr s t).state = .idle then bumpTile t 0x18 s else modThr t (fun x => { x with sig := true }) s

/-- Thread `t` waits on no word any more: its request and its watch are gone (R268, R501). -/
def watchDrop (t : Nat) (s : State) : State :=
  modHbm (fun h => { h with watch := h.watch.filter (fun w => decide (w.2 ≠ t)), noWatch := h.noWatch.filter (fun w => decide (w.2 ≠ t)) })
    (modCpu (fun c => { c with fe := c.fe.filter (fun v => decide (v ≠ t)) }) s)

/-- The pair domain of a tile thread. -/
def pairDomain (t : Nat) : Nat := 5 * (t / 64) + t % 64 / 16

/-- The pair of a thread, and the services of its tile, are in DAY. -/
def pairDay (s : State) (t : Nat) : Bool :=
  !decide (t < 768) || (decide (domState s (pairDomain t) = 0) && decide (domState s (5 * (t / 64) + 4) = 0))

/-- Free the match handles a master owns: its brick ended, parked or was reset (R407). -/
def dropHandles (m : Nat) (s : State) : State :=
  modMat (fun x => { x with handle := tfilter (fun k h =>
    decide (h.owner ≠ m) || (h.casc && decide (k / 16 ≠ s.dbg.cpos.toNat))) x.handle }) s

/-- The threads of a core. -/
def coreThreads (c : Nat) : List Nat := if c < 96 then (List.range 8).map (fun i => 8 * c + i)
  else (List.range 8).map (fun i => 768 + i)

/-- The threads of a tile. -/
def tileThreads (tile : Nat) : List Nat := (List.range 64).map (fun i => 64 * tile + i)

end Sys2Proof.Machine
end

