-- ==== Sys2Proof/Machine/PowerOps.lean ====
section
/-! DEFINITION. Power transitions: dependencies, requests to wake and to leave DAY, votes of core pairs, the governor's
bounds (chapter 18). -/

namespace Sys2Proof.Machine

def domOf (s : State) (d : Nat) : Dom := tget {} s.power.dom d
def modDom (d : Nat) (f : Dom → Dom) (s : State) : State := modPower (fun p => { p with dom := tmod {} p.dom d f }) s

/-- DAY current of a domain, mA (DESIGN CHOICE, log 133). -/
def stepMa (d : Nat) : Nat := (Config.stepMa d).toNat

/-- A stack that is retiring or retired: its retirement state is 1 or 2 (R513). -/
def stackGone (s : State) (k : Nat) : Bool := decide (tget 0 s.hbm.retire k ≠ 0)

/-- The domains a domain depends on (Table 18-2). -/
def domDeps (s : State) (d : Nat) : List Nat :=
  let live := (List.range 4).filter (fun k => !stackGone s k)
  if d < 60 then (if d % 5 = 4 then [79] else [d / 5 * 5 + 4])
  else if d < 68 then [72 + (d - 60) / 2, 77, 79]
  else if d < 72 then []
  else if d < 76 then [79]
  else if d = 77 then 79 :: (live.filter (fun k => k % 2 = 0)).map (· + 68)
  else if d = 79 then live.map (· + 68)
  else [79]

/-- The domains that depend on a domain. -/
def domUsers (s : State) (d : Nat) : List Nat := (List.range 80).filter (fun u => decide (d ∈ domDeps s u))

/-- The states a domain may be given on its own (Table 18-2). -/
def domAllows (d st : Nat) : Bool :=
  if d < 60 then true
  else if d < 68 then decide (st ≠ 1)
  else if d < 72 then decide (st = 0)
  else decide (st ≤ 1)

/-- DAY currents of the transitions that wait to start. -/
def queuedMa (s : State) : Nat := (s.power.queue.map stepMa).sum

/-- The part of the DAY current of a domain that the governor counts: all of it in DAY, the stages applied in a
transition (R602, R603; DEDUCED, log 92). -/
def domMa (s : State) (d : Nat) : Nat :=
  let x := domOf s d
  match x.state, x.phase with
  | 0, _ => stepMa d
  | 4, 3 => stepMa d - x.left
  | 5, 3 => x.left
  | _, _ => 0

/-- E, mA: the domains' currents, or what the ballast draws while the clocks are stopped (R649). -/
def governorE (s : State) : Nat :=
  if 2 ≤ s.dbg.fstate ∧ s.clk.frozen.isSome then s.power.ballast else ((List.range 80).map (domMa s)).sum

/-- LSTEP_N is asserted (R605, Table 20-6). -/
def assertLstep (s : State) : State :=
  if s.power.lstep.isNone then
    bump 0xC100 0x0B (emit (.pin "LSTEP_N" false) (modPower (fun p => { p with lstep := some (now s) }) s))
  else s

/-- LSTEP_N is asserted as soon as M and the queued transitions exceed the threshold (R605). -/
def checkLstep (s : State) : State :=
  if cfg s 0xA040 0x03 * 1000 < s.power.m + queuedMa s then assertLstep s else s

/-- Every domain a domain depends on is in DAY. -/
def depsDay (s : State) (d : Nat) : Bool := (domDeps s d).all (fun u => decide (domState s u = 0))

/-- A domain that depends on this one is in DAY or DUSK (R588). -/
def usersUp (s : State) (d : Nat) : Bool := (domUsers s d).any (fun u => decide (domState s u ≤ 1))

/-- Transitions of domains go on: no freeze holds them, and the steward is not in a warm restart (R601, R622). -/
def domainsRun (s : State) : Bool := s.clk.frozen.isNone && s.led.restart.isNone

/-- A transition of domain `d` may start under R588 and R605, and nothing holds the domains (R601, R622). -/
def domMayStart (s : State) (d : Nat) : Bool :=
  let x := domOf s d
  domainsRun s &&
  (if x.state = 4 then depsDay s d else decide (x.goal = 1) || !usersUp s d) &&
  (decide (s.power.m + stepMa d ≤ cfg s 0xA040 0x03 * 1000) ||
    (match s.power.lstep with | some a => decide (a + 2048 ≤ now s) | none => false))

/-- A waiting wake becomes eligible: at once from DUSK, else at the next DL0 boundary (R604, R606). -/
def setElig (d : Nat) (s : State) : State :=
  let x := domOf s d
  if x.state = 4 ∧ x.phase = 0 ∧ x.elig = none ∧ depsDay s d = true then
    modDom d (fun x => { x with elig := some (if x.goal = 1 then now s else dlUp 0 (now s)) }) s
  else s

/-- A delayed wake and its delay are counted when it starts (R606; DEDUCED, log 99). -/
def countDelay (d start : Nat) (s : State) : State :=
  match (domOf s d).elig with
  | some e => if e < start then bumpBy 0xC100 0x0A (start - e) (bump 0xC100 0x09 s) else s
  | none => s

/-- A domain begins clock stages, up or down. -/
def beginStages (d left : Nat) (s : State) : State :=
  modPower (fun p => { p with stages := p.stages ++ [d], queue := p.queue.filter (· ≠ d) })
    (modDom d (fun x => { x with phase := 3, since := now s, left := left }) s)

/-- A transition starts: M takes its DAY current (R605). -/
def addM (d : Nat) (s : State) : State := modPower (fun p => { p with m := p.m + stepMa d }) s

/-! ### Votes of core pairs (R591-R593) -/

/-- The 16 threads of a pair domain. -/
def pairThreads (d : Nat) : List Nat := (List.range 16).map (fun i => d / 5 * 64 + d % 5 * 16 + i)

/-- The vote of a thread. -/
def voteOf (s : State) (t : Nat) : Nat :=
  let x := thr s t
  match x.state, x.hold with
  | .idle, _ => cfg s 0xA010 0x02
  | _, .wake _ v => if isHalted x then 0 else v
  | _, _ => 0

/-- The state all 16 threads of a pair vote for. -/
def pairVotes (s : State) (d : Nat) : Nat := (pairThreads d).foldl (fun a u => min a (voteOf s u)) 2

/-- The stall detector of a core is counting (R334). -/
def stallCounting (s : State) (c : Nat) : Bool :=
  (coreThreads c).all (fun t =>
    let x := thr s t
    (match x.state, x.hold with | .idle, _ => false | _, .wake _ _ => true | _, _ => false) &&
      decide (x.wctl.toNat &&& 0x1C = 0) && decide (x.tdl = 0) && !isHalted x)

/-! ### Starting, leaving and waking -/

/-- The state a domain that waits to leave DAY goes to: a vote that was withdrawn keeps it in DAY (R591). -/
def leaveGoal (s : State) (d : Nat) : Nat := if (domOf s d).byVote then pairVotes s d else (domOf s d).goal

/-- Start the stages of a domain that waits with clocks stopped or running: a DUSK domain that wakes, a DAY domain that
leaves. -/
def startStages (d : Nat) (s : State) : State :=
  if (domOf s d).state = 4 then beginStages d (stepMa d) (addM d (countDelay d (now s) s))
  else
    let g := leaveGoal s d
    if g = 0 then
      modPower (fun p => { p with queue := p.queue.filter (· ≠ d) }) (modDom d (fun x => { x with byVote := false }) s)
    else beginStages d (stepMa d) (addM d (modDom d (fun x => { x with state := 5, goal := g, rewake := false }) s))

/-- Queue a transition and start it when R588 and R605 let it. -/
def queueStages (d : Nat) (s : State) : State :=
  let s1 := setElig d (checkLstep (modPower (fun p => { p with queue := p.queue.filter (· ≠ d) ++ [d] }) s))
  if domMayStart s1 d then startStages d s1 else s1

/-- Ask for a domain to leave DAY (R595). One that is stopped already goes on without stages (DESIGN CHOICE, log 93;
DESIGN CHOICE, log 94). -/
def requestLeave (d goal : Nat) (s : State) : State :=
  match domState s d with
  | 0 => queueStages d (modDom d (fun x => { x with goal := goal, reqAt := now s, byVote := false }) s)
  | 1 => if goal = 1 then s
    else modDom d (fun x => { x with state := 5, goal := goal, phase := 4, since := now s, rewake := false }) s
  | 4 => modDom d (fun x => { x with sleepReq := some goal }) s
  | 5 => modDom d (fun x => { x with goal := goal, rewake := false }) s
  | _ => modDom d (fun x => { x with state := 5, goal := goal, phase := 4, since := now s, rewake := false }) s

/-- Ask for one domain to wake: it waits for a token and its dependencies, or goes back up (R594, R595, R604). `goal` keeps where it
wakes from, and 0 says that it turned back. -/
def wakeOne (d : Nat) (s : State) : State :=
  let x := domOf s d
  match x.state with
  | 0 => modPower (fun p => { p with queue := p.queue.filter (· ≠ d) }) (modDom d (fun x => { x with byVote := false }) s)
  | 1 => queueStages d (modDom d (fun x => { x with state := 4, goal := 1, phase := 0, reqAt := now s, elig := none }) s)
  | 4 => modDom d (fun x => { x with sleepReq := none }) s
  | 5 =>
    if x.phase = 4 then modDom d (fun x => { x with rewake := true }) s
    else bump 0xC100 0x0E (modDom d (fun x => { x with state := 4, goal := 0, left := stepMa d - x.left }) s)
  | g => setElig d (checkLstep (modPower (fun p => { p with queue := p.queue ++ [d] })
      (modDom d (fun x => { x with state := 4, goal := g, phase := 0, reqAt := now s, elig := none }) s)))

/-- Wake a domain and, ahead of it, the sleeping domains it depends on (R588). -/
def wakeDeps : Nat → Nat → State → State
  | 0, d, s => wakeOne d s
  | n + 1, d, s => wakeOne d ((domDeps s d).foldl (fun s u => wakeDeps n u s) s)

/-- The group a domain belongs to (Table 18-3). -/
def domGroup (d : Nat) : Nat :=
  if d < 60 then 1 + d / 5 else if d < 68 then 0x10 + (d - 60) else if d < 72 then 0x18 + (d - 68)
  else if d < 76 then 0x1C + (d - 72) else 0x20 + (d - 76)

/-- Record the last wake: source 1 management port, 2 signal detect, 3 alarm, 4 request, 5 vote (DESIGN CHOICE, log 98). -/
def recordWake (src group : Nat) (s : State) : State :=
  modPower (fun p => { p with wsrc := BitVec.ofNat 3 src, wgroup := BitVec.ofNat 6 group, wakeAt := now s }) s

/-- Wake a domain for a source; a freeze holds the wake (R601). -/
def wakeFor (src d : Nat) (s : State) : State :=
  if s.clk.frozen.isSome then modPower (fun p => { p with held := p.held ++ [(src, 64 + d)] }) s
  else wakeDeps 4 d (recordWake src (domGroup d) s)

/-- A request wakes a domain. -/
def wakeDomain (d : Nat) (s : State) : State := wakeFor 4 d s

/-- All steward threads vote NIGHT and every domain sleeps: the device enters NIGHT, and steward SRAM banks that are not
selected lose their contents (R596, R597). -/
def nightCheck (s : State) : State :=
  if s.power.dmode = 0 ∧ cfg s 0xA010 0x01 = 2 ∧
      (List.range 80).all (fun d => decide (domState s d = 2) || decide (domState s d = 3)) ∧
      (List.range 8).all (fun i => decide (voteOf s (768 + i) = 2)) then
    memZero 0xE300000000 0xE300100000 (fun a => bit (cfg s 0xA020 0x01) (60 + (a - 0xE300000000) / 0x40000))
      (modPower (fun p => { p with dmode := 2 }) s)
  else s

/-- PAIR_VOTE_SLEEP: a pair in DAY takes the lowest-power state that all 16 threads vote for (R591, R593). -/
def pairVote (t : Nat) (s : State) : State :=
  if t < 768 then
    let d := pairDomain t
    let v := pairVotes s d
    let c := t / 16 * 2
    if domState s d = 0 ∧ v ≠ 0 ∧ stallCounting s c = false ∧ stallCounting s (c + 1) = false ∧ d ∉ s.power.queue then
      queueStages d (modDom d (fun x => { x with goal := v, reqAt := now s, byVote := true }) s)
    else s
  else nightCheck s

end Sys2Proof.Machine
end

