-- ==== Sys2Proof/Machine/Bufs.lean ====
section
/-! DEFINITION. The buffer pool manager: pools, the free store, reference records, draining, the poison log
(chapter 14). The free-store bitmap is read off the reference records and the ready FIFOs: a leaf bit is 1 exactly for
a buffer that is not allocated and not in a FIFO. -/

namespace Sys2Proof.Machine

/-! ### Cells of pool 0 (R463) -/

/-- Frame length from the destination address through the FCS. -/
def Pkt.len (p : Pkt) : Nat := p.bytes.length + 4

/-- 256-byte cells. -/
def Pkt.cells (p : Pkt) : Nat := (p.len + 255) / 256

/-- Cells of a chain. -/
def Chain.cells (c : Chain) : Nat := max 1 ((c.bytes.length + 255) / 256)

/-- On-chip cells of pool 0 in use: frames in the packet buffer, and chains (R463). -/
def pool0Used (s : State) : Nat :=
  (s.bufs.chain.map (fun e => e.2.cells)).sum +
  (s.fab.pkts.map (fun e => if !e.2.spilled ∧ (e.2.phase = 5 ∨ e.2.phase = 6) then e.2.cells else 0)).sum

/-! ### Pools -/

/-- Bytes of a pool's range. -/
def Pool.bytes (x : Pool) : Nat := x.count * 2 ^ x.gshift.toNat

/-- ACTIVE or DRAINING. -/
def Pool.on (x : Pool) : Bool := decide (x.state ≠ 0)

/-- The lowest cell from which `n` cells in a row are free. -/
def cellRun (n : Nat) : Nat → Tab Chain → Nat
  | lo, [] => lo
  | lo, (k, c) :: t => if lo + n ≤ k then lo else cellRun n (max lo (k + c.cells)) t

/-! ### Reference records (Table 14-5) -/

def recRef (r : W64) : Nat := bf r.toNat 0 16
def recAlloc (r : W64) : Bool := bit r.toNat 16
def recSat (r : W64) : Bool := bit r.toNat 17
def recQuar (r : W64) : Bool := bit r.toNat 18
def recOcls (r : W64) : Nat := bf r.toNat 24 3
def recOitem (r : W64) : Nat := bf r.toNat 32 32

/-- The record of a buffer just allocated. -/
def recNew (ocls oitem : Nat) : W64 := BitVec.ofNat 64 (1 + 2 ^ 16 + ocls % 8 * 2 ^ 24 + oitem % 2 ^ 32 * 2 ^ 32)
def recSetRef (n : Nat) (r : W64) : W64 := BitVec.ofNat 64 (bput r.toNat 0 16 n)
def recSetBit (i : Nat) (b : Bool) (r : W64) : W64 := BitVec.ofNat 64 (bitPut r.toNat i b)

/-- Where a reference lands (R462): nowhere, a cell of pool 0, or a buffer of another pool. -/
inductive BufAt where
  | none
  | cell (c : Nat)
  | buf (p n : Nat)
  deriving DecidableEq, Repr

/-- The buffer that contains a reference. Of overlapping host-window pools the lowest-numbered is meant. -/
def bufAt (s : State) (r : W64) : BufAt :=
  let a := r.toNat
  if 0xFF0000000000 ≤ a ∧ a < 0xFF0000000000 + 393216 * 256 then .cell ((a - 0xFF0000000000) / 256)
  else
    match s.bufs.pool.find? (fun e => e.2.on && decide (e.2.base.toNat ≤ a) && decide (a < e.2.base.toNat + e.2.bytes)) with
    | some (p, x) => .buf p (x.first + (a - x.base.toNat) / 2 ^ x.gshift.toNat)
    | none => .none

/-- First byte of a buffer. -/
def bufAddr (s : State) (p n : Nat) : Nat :=
  let x := poolOf s p
  x.base.toNat + (n - x.first) * 2 ^ x.gshift.toNat

/-- The record of a buffer. -/
def bufRec (s : State) : BufAt → W64
  | .none => 0
  | .cell c => match tfind s.bufs.chain c with | some x => x.ref | none => 0
  | .buf _ n => tget 0 s.bufs.recs n

/-- Write the record of a buffer; a cell keeps its chain. -/
def setRec (b : BufAt) (r : W64) (s : State) : State :=
  match b with
  | .none => s
  | .cell c => modBufs (fun x => { x with chain := tupd x.chain c (fun y => { y with ref := r }) }) s
  | .buf _ n => modBufs (fun x => { x with recs := tset 0 x.recs n r }) s

/-- Byte address of a buffer, or its cell reference. -/
def bufName (s : State) : BufAt → Nat
  | .none => 0
  | .cell c => 0xFF0000000000 + c * 256
  | .buf p n => bufAddr s p n

/-- The result word of Table 14-6, the record read after the operation. -/
def bufResult (s : State) (b : BufAt) (st : Nat) : W64 :=
  let r := bufRec s b
  BitVec.ofNat 64 (st + b2n (recAlloc r) * 2 ^ 4 + b2n (recSat r) * 2 ^ 5 + b2n (recQuar r) * 2 ^ 6 +
    bf (bufName s b) 8 40 * 2 ^ 8 + recRef r * 2 ^ 48)

/-! ### Counts (Table 14-9) -/

/-- Buffers of a pool whose record satisfies `f`. -/
def poolRecs (s : State) (p : Nat) (f : W64 → Bool) : List Nat :=
  let x := poolOf s p
  (s.bufs.recs.filter (fun e => decide (x.first ≤ e.1) && decide (e.1 < x.first + x.count) && f e.2)).map (·.1)

/-- ALLOC_CNT of a pool: 0 when it is OFF. -/
def poolAlloc (s : State) (p : Nat) : Nat :=
  if p = 0 then pool0Used s
  else if (poolOf s p).on then (poolRecs s p recAlloc).length else 0

/-- FREE_CNT of a pool, the FIFO included. -/
def poolFree (s : State) (p : Nat) : Nat := (poolOf s p).count - poolAlloc s p

/-- QUAR_CNT of a pool. -/
def poolQuar (s : State) (p : Nat) : Nat :=
  if p = 0 then (s.bufs.chain.filter (fun e => recQuar e.2.ref)).length
  else if (poolOf s p).on then (poolRecs s p recQuar).length else 0

/-! ### Events (R472) -/

/-- DOUBLE_FREE 0, ADDREF_FREE 1 or REFCOUNT_SAT 2: the last-error record, and the count the steward keeps. -/
def bufEvent (k req master : Nat) (r : W64) (s : State) : State :=
  let m := if req = 21 then master else 0
  let rec24 := [Config.bufEvent k] ++ natLE 1 req ++ natLE 2 m ++ zeros 4 ++ natLE 8 r.toNat ++ natLE 8 (now s)
  bump 0xC0C0 (7 + k) (modBufs (fun b => { b with lastError := rec24 }) s)

/-- A record reads poisoned: its buffer is quarantined and counts as allocated (R483). -/
def quarantine (b : BufAt) (s : State) : State :=
  if recQuar (bufRec s b) then s
  else bump 0xC0C0 0x0B (setRec b (recSetBit 18 true (recSetBit 16 true (bufRec s b))) s)

/-- The state in which a record is read: it reads poisoned by an uncorrectable error (`bad`), or because its pseudo-channel has
failed, and its buffer is then quarantined (R483, R510). -/
def readRec (b : BufAt) (bad : Bool) (s : State) : State :=
  let lost := match b with | .buf _ n => stripeFailed s .references (8 * n) | _ => false
  if bad || lost then quarantine b s else s

/-! ### Free and allocate (R470) -/

/-- A retiring stack whose metadata have moved goes DARK and reads RETIRED once no pool drains and no watch is held
there (R513 step 4, R501). -/
def retireCheck (s : State) : State :=
  match s.hbm.retire.find? (fun e => decide (e.2 = 1)) with
  | some (k, _) =>
    if s.hbm.moved && !s.bufs.pool.any (fun e => decide (e.2.state = 2)) && !s.hbm.watch.any (fun w => decide (w.1 = k)) then
      requestLeave (68 + k) 3 (modHbm (fun h => { h with retire := tset 0 h.retire k 2, state := tset 0 h.state k 5, moved := false }) s)
    else s
  | none => s

/-- A draining pool that holds nothing any more goes OFF (R476). -/
def poolEnd (p : Nat) (s : State) : State :=
  if (poolOf s p).state = 2 ∧ poolAlloc s p = 0 then retireCheck (modPool p (fun x => { x with state := 0 }) s) else s

/-- Clear F in every word of a buffer of a class 2 pool with CLRF (R475). -/
def clearF (p n : Nat) (s : State) : State :=
  let x := poolOf s p
  if x.cls = 2 ∧ x.clrf then
    let lo := bufAddr s p n / 8
    let words := 2 ^ x.gshift.toNat / 8
    let cleared := (s.mem.tag.map (fun e => if lo ≤ e.1 ∧ e.1 < lo + words then (e.1, tagSetF false e.2) else e)).filter
      (fun e => decide (e.2 ≠ 0))
    let s1 := modMem (fun m => { m with tag := cleared }) s
    bumpBy 0xC0C0 0x0F words s1
  else s

/-- The last holder is gone: ALLOC 0, F cleared, the leaf bit set; a chain gives back every cell. -/
def bufRelease (b : BufAt) (s : State) : State :=
  match b with
  | .none => s
  | .cell c => bump 0xC0C0 0x06 (modBufs (fun x => { x with chain := tdel x.chain c }) s)
  | .buf p n => bump 0xC0C0 0x06 (poolEnd p (clearF p n (setRec b (recSetBit 16 false (bufRec s b)) s)))

/-- FREE: status and next state. -/
def bufFree (req master : Nat) (r : W64) (bad : Bool) (s0 : State) : Nat × State :=
  let b := bufAt s0 r
  let s := readRec b bad s0
  let x := bufRec s b
  if b = .none then (3, s)
  else if recQuar x then (7, s)
  else if !recAlloc x then (4, bufEvent 0 req master r s)
  else if recSat x then (6, bump 0xC0C0 0x0A s)
  else
    let s1 := bump 0xC0C0 0x05 (setRec b (recSetRef (recRef x - 1) x) s)
    (0, if recRef x ≤ 1 then bufRelease b s1 else s1)

/-- ADDREF: status and next state. -/
def bufAddref (req master : Nat) (r : W64) (bad : Bool) (s0 : State) : Nat × State :=
  let b := bufAt s0 r
  let s := readRec b bad s0
  let x := bufRec s b
  if b = .none then (3, s)
  else if recQuar x then (7, s)
  else if !recAlloc x then (5, bufEvent 1 req master r s)
  else if recSat x then (6, bump 0xC0C0 0x0A s)
  else if recRef x = 65535 then (6, bump 0xC0C0 0x0A (bufEvent 2 req master r (setRec b (recSetBit 17 true x) s)))
  else (0, bump 0xC0C0 0x04 (setRec b (recSetRef (recRef x + 1) x) s))

/-- QUERY: status and next state. -/
def bufQuery (r : W64) (bad : Bool) (s0 : State) : Nat × State :=
  let b := bufAt s0 r
  let s := readRec b bad s0
  if b = .none then (3, s) else (0, s)

/-- Put a frame's bytes into a chain of free cells with one reference; none when the cells are gone (R463). -/
def chainAlloc (bytes : Bytes) (ocls oitem : Nat) (s : State) : Option (Nat × State) :=
  let c : Chain := { bytes := bytes, ref := recNew ocls oitem }
  let h := cellRun c.cells 0 s.bufs.chain
  if poolAlloc s 0 + c.cells ≤ 393216 ∧ h + c.cells ≤ 393216 then
    some (h, bumpBy 0xC0C0 0x01 c.cells (modBufs (fun b => { b with chain := tput b.chain h c }) s))
  else none

/-- Buffers of a pool that the bitmap holds as free (DESIGN CHOICE, log 86). -/
def poolHas (s : State) (p : Nat) : Bool := decide ((poolOf s p).fifo.length < poolFree s p)

/-- The lowest buffer from `n` on whose leaf bit is 1; `fuel` bounds the numbers in use. -/
def lowBuf (s : State) (p : Nat) : Nat → Nat → Nat
  | 0, n => n
  | f + 1, n =>
    if recAlloc (tget 0 s.bufs.recs n) || decide (n ∈ (poolOf s p).fifo) then lowBuf s p f (n + 1) else n

/-- What an ALLOC comes to: it waits for a refill, or it has a status and a buffer. -/
inductive AllocRes where
  | wait
  | done (status : Nat) (b : BufAt)
  deriving DecidableEq, Repr

/-- ALLOC for requester `req`; only requesters 0-15 and 17 allocate cells (R463). -/
def bufAlloc (req p ocls oitem : Nat) (s : State) : AllocRes × State :=
  let x := poolOf s p
  if p = 0 then
    if req < 16 ∨ req = 17 then
      match chainAlloc [] ocls oitem s with
      | some (c, s1) => (.done 0 (.cell c), s1)
      | none => (.done 1 .none, bump 0xC0C0 0x02 s)
    else (.done 8 .none, s)
  else if x.state = 0 then (.done 3 .none, bump 0xC0C0 0x03 s)
  else if x.state = 2 then (.done 2 .none, bump 0xC0C0 0x03 s)
  else
    match x.fifo with
    | n :: rest =>
      (.done 0 (.buf p n), bump 0xC0C0 0x01 (setRec (.buf p n) (recNew ocls oitem) (modPool p (fun x => { x with fifo := rest }) s)))
    | [] => if poolHas s p then (.wait, s) else (.done 1 .none, bump 0xC0C0 0x02 s)

/-- The owner the manager writes for a thread: its running brick (R470). -/
def ownerOf (s : State) (req master ocls oitem : Nat) : Nat × Nat :=
  if req = 21 then
    let t := if master < 768 then master else 768 + (master - 0xC000)
    match (thr s t).brick with
    | some ws => (3, bf (ws.getD 7 0).toNat 0 32)
    | none => (0, 0)
  else (ocls, oitem)

/-- Answer a requester of the manager with a result word. -/
def bufReply (req master : Nat) (b : BufAt) (r : Nat × State) : State :=
  emit (.reply "BUFS" (req * 65536 + master) [(bufResult r.2 b r.1).toNat]) r.2

/-- Answer an ALLOC: a thread that loads from the pool's ALLOC offset takes the result word as its data (R467, R474). -/
def allocReply (req master p : Nat) (b : BufAt) (r : Nat × State) : State :=
  let t := if master < 768 then master else 768 + (master - 0xC000)
  match (thr r.2 t).hold with
  | .unit m =>
    if req = 21 ∧ m.ea = 0xF013800000 + 8 * p then
      modThr t (fun x => { x with hold := .unitVal m (bufResult r.2 b r.1) }) r.2
    else bufReply req master b r
  | _ => bufReply req master b r

/-- Serve waiting ALLOCs in order, as far as the FIFO lasts (R467). -/
def serveWaiters (p : Nat) : List (Nat × Nat × Nat × Nat) → State → State
  | [], s => modPool p (fun x => { x with wait := [] }) s
  | (req, m, oc, oi) :: t, s =>
    match bufAlloc req p oc oi s with
    | (.wait, _) => modPool p (fun x => { x with wait := (req, m, oc, oi) :: t }) s
    | (.done st b, s1) => serveWaiters p t (allocReply req m p b (st, s1))

/-- ALLOC. -/
def execAlloc (req : Fin 22) (master : BitVec 16) (pool : Fin 64) (ocls : Fin 6) (oitem : BitVec 32) (s : State) :
    Host.Outcome State Fault Refusal :=
  let o := ownerOf s req.val master.toNat ocls.val oitem.toNat
  let w := (req.val, master.toNat, o.1, o.2)
  .next (match bufAlloc req.val pool.val o.1 o.2 s with
    | (.wait, s1) => modPool pool.val (fun x => { x with wait := x.wait ++ [w] }) s1
    | (.done st b, s1) => allocReply req.val master.toNat pool.val b (st, s1))

/-- ADDREF. -/
def execAddref (req : Fin 22) (master : BitVec 16) (r : W64) (bad : Bool) (s : State) : Host.Outcome State Fault Refusal :=
  .next (bufReply req.val master.toNat (bufAt s r) (bufAddref req.val master.toNat r bad s))

/-- FREE. -/
def execFree (req : Fin 22) (master : BitVec 16) (r : W64) (bad : Bool) (s : State) : Host.Outcome State Fault Refusal :=
  .next (bufReply req.val master.toNat (bufAt s r) (bufFree req.val master.toNat r bad s))

/-- BUFFER_QUERY. -/
def execBufferQuery (req : Fin 22) (master : BitVec 16) (r : W64) (bad : Bool) (s : State) : Host.Outcome State Fault Refusal :=
  .next (bufReply req.val master.toNat (bufAt s r) (bufQuery r bad s))

/-- FREEP: a posted FREE (R474). -/
def execFreep (req : Fin 22) (master : BitVec 16) (r : W64) (bad : Bool) (s : State) : Host.Outcome State Fault Refusal :=
  .next (bufFree req.val master.toNat r bad s).2

/-- ADDREFP: a posted ADDREF (R474). -/
def execAddrefp (req : Fin 22) (master : BitVec 16) (r : W64) (bad : Bool) (s : State) : Host.Outcome State Fault Refusal :=
  .next (bufAddref req.val master.toNat r bad s).2

/-- Quarantine every buffer of a leaf word (R483). -/
def quarLeaf (p n : Nat) (s : State) : State :=
  (List.range 64).foldl (fun s i => quarantine (.buf p (n / 64 * 64 + i)) s) s

/-- Numbers a refill takes: the lowest set bits of the lowest leaf word that has any (R467; DESIGN CHOICE, log 87). -/
def refillTake (s : State) (p n : Nat) : List Nat :=
  (((List.range 64).map (fun i => n / 64 * 64 + i)).filter
    (fun k => !recAlloc (tget 0 s.bufs.recs k) && !decide (k ∈ (poolOf s p).fifo))).take (64 - (poolOf s p).fifo.length)

/-- A refill ends: the FIFO takes its numbers, or the leaf word proves bad; waiting ALLOCs are served (R467, R483). -/
def refillFifo (p : Nat) (bad : Bool) (s : State) : State :=
  let x := poolOf s p
  if poolHas s p then
    let n := lowBuf s p (s.bufs.recs.length + x.fifo.length) x.first
    let s1 := if bad || stripeFailed s .freeStore (n / 8) then quarLeaf p n s
      else let got := refillTake s p n
        modPool p (fun x => { x with fifo := x.fifo ++ got }) s
    serveWaiters p x.wait (bump 0xC0C0 0x14 s1)
  else serveWaiters p x.wait s

/-- FIFO_REFILL: a refill of a pool whose FIFO holds 32 or fewer ends (R467, R483). -/
def execFifoRefill (pool : Fin 64) (bad : Bool) (s : State) : Host.Outcome State Fault Refusal :=
  let x := poolOf s pool.val
  .next (if pool.val ≠ 0 ∧ x.state = 1 ∧ x.fifo.length ≤ 32 then refillFifo pool.val bad s else s)

/-! ### Granules of the spill region (R190) -/

/-- Pool of the spill region. -/
def spillPool (s : State) : Nat := cfg s 0x6400 0x01

/-- The spill pool is an ACTIVE pool of 2 KiB granules with `n` buffers free. -/
def spillRoom (s : State) (n : Nat) : Bool :=
  let x := poolOf s (spillPool s)
  decide (x.cls = 2) && decide (x.gshift = 11) && decide (x.state = 1) && decide (n ≤ poolFree s (spillPool s))

/-- One buffer of pool `p` for requester 16, forwarding; where its ALLOC would wait, the refill is taken to end at once
(DESIGN CHOICE, log 152). -/
def granuleTake (p ocls oitem : Nat) : Nat → State → List Nat × State
  | 0, s => ([], s)
  | f + 1, s =>
    match bufAlloc 16 p ocls oitem s with
    | (.wait, _) => granuleTake p ocls oitem f (refillFifo p false s)
    | (.done _ (.buf _ n), s1) => ([n], s1)
    | (.done _ _, s1) => ([], s1)

/-- `n` granules of the spill pool. -/
def granulesTake (p ocls oitem : Nat) : Nat → State → List Nat × State
  | 0, s => ([], s)
  | n + 1, s =>
    let r := granuleTake p ocls oitem ((poolOf s p).wait.length + 2) s
    let t := granulesTake p ocls oitem n r.2
    (r.1 ++ t.1, t.2)

/-- The pool whose buffers a number is among. -/
def poolWith (s : State) (n : Nat) : Option Nat :=
  (s.bufs.pool.find? (fun e => e.2.on && decide (e.2.first ≤ n) && decide (n < e.2.first + e.2.count))).map (·.1)

/-- Give granules back: a FREE of each that is still allocated. -/
def granulesFree (ns : List Nat) (s : State) : State :=
  ns.foldl (fun s n => match poolWith s n with
    | some p => if recAlloc (tget 0 s.bufs.recs n) then (bufFree 16 0 (BitVec.ofNat 64 (bufAddr s p n)) false s).2 else s
    | none => s) s

/-- A chain of pool 0 is freed by its one holder, and its cells released (R463, R470). -/
def chainGone (s : State) : State := bump 0xC0C0 0x06 (bump 0xC0C0 0x05 s)

/-! ### Configuration (R464, R465) -/

/-- The pool a 32-byte image of words 100h-118h configures. -/
def poolImage (v : Bytes) : Pool :=
  let w0 := leAt v 0 8
  let w1 := leAt v 8 8
  { cls := BitVec.ofNat 2 (bf w0 0 2), gshift := BitVec.ofNat 5 (bf w0 2 5), clrf := bit w0 7, first := bf w1 0 28,
    count := bf w1 28 29, base := BitVec.ofNat 48 (leAt v 16 8), pasid := BitVec.ofNat 20 (leAt v 24 8) }

/-- A word of a pool's entry in the window, by word number (Table 14-9). -/
def poolWord (s : State) (p i : Nat) : W64 :=
  let x := poolOf s p
  BitVec.ofNat 64 (match i with
    | 0 => poolHeld s p 0 + x.state.toNat * 2 ^ 8
    | 1 | 2 | 3 => poolHeld s p i
    | 4 => poolFree s p + poolAlloc s p * 2 ^ 32
    | 5 => x.fifo.length + poolQuar s p * 2 ^ 8
    | _ => 0)

/-- Two ranges share an element. -/
def overlap (a n b m : Nat) : Bool := decide (a < b + m) && decide (b < a + n)

/-- A configuration obeys R464 beside the other configured pools. -/
def poolValid (s : State) (p : Nat) (x : Pool) : Bool :=
  let g := x.gshift.toNat
  let others := s.bufs.pool.filter (fun e => decide (e.1 ≠ p) && decide (e.2.cls ≠ 0))
  let a := x.base.toNat
  let place := if x.cls = 2 then
      decide (11 ≤ g) && decide (g ≤ 21) && decide (a + x.bytes ≤ 0x2A00000000) &&
        others.all (fun e => !decide (e.2.cls = 2) || !overlap a x.bytes e.2.base.toNat e.2.bytes)
    else if x.cls = 3 then
      decide (16 ≤ g) && decide (g ≤ 30) && decide (0x400000000000 ≤ a) && decide (a + x.bytes ≤ 0x800000000000)
    else false
  place && decide (a % 2 ^ g = 0) && decide (x.first % 4096 = 0) && decide (x.count % 4096 = 0) &&
    decide (x.first + x.count ≤ 2 ^ 28) && !overlap x.first x.count 0 393216 &&
    others.all (fun e => !overlap x.first x.count e.2.first e.2.count) &&
    decide (pool0.bytes + x.bytes + (others.map (fun e => e.2.bytes)).sum ≤ 2 ^ 42)

/-- 9010h: configure an OFF pool; pool 0 is read-only (R465, R488). -/
def wrPoolConfig (p : Nat) : WriteEff := fun _ v s =>
  let x := poolImage v
  if p = 0 then (stAccess, s)
  else if (poolOf s p).on then (stInUse, s)
  else if x.cls = 0 ∨ poolValid s p x then (stOk, modPool p (fun _ => x) s)
  else (stRange, s)

/-- POOL_CONFIG_WRITE. -/
def execPoolConfigWrite (h : DHdr) (pool : Fin 64) (v : Bytes) (s : State) : Host.Outcome State Fault Refusal :=
  .next (dictWriteRow h 0x9010 (pool.val + 1) v (wrPoolConfig pool.val) s)

/-- Every buffer of the pool becomes free: records and bitmap are rebuilt (R465). -/
def poolWipe (p : Nat) (s : State) : State :=
  let x := poolOf s p
  modBufs (fun b => { b with recs := tfilter (fun n _ => decide (n < x.first) || decide (x.first + x.count ≤ n)) b.recs }) s

/-- Enter DRAINING: the FIFO's numbers return to the bitmap, and waiting ALLOCs are answered (R476). -/
def poolDrain (p : Nat) (s : State) : State :=
  let w := (poolOf s p).wait
  poolEnd p (serveWaiters p w (modPool p (fun x => { x with state := 2, fifo := [], drainAt := now s }) s))

/-- 9011h: activate, drain or turn off a pool (R465, Table 14-3). -/
def wrPoolState (p : Nat) : WriteEff := fun _ v s =>
  let x := poolOf s p
  let n := leNat v
  if 2 < n then (stRange, s)
  else if p = 0 then (if n = 1 then stOk else stRange, s)
  else if n = x.state.toNat then (stOk, s)
  else if n = 1 then
    if x.state = 0 ∧ poolValid s p x then
      (stOk, modPool p (fun x => { x with state := 1, fifo := [], wait := [] }) (poolWipe p s))
    else (stRange, s)
  else if n = 2 then
    if x.state = 0 then (stRange, s) else (stOk, poolDrain p s)
  else if poolAlloc s p = 0 then
    (stOk, retireCheck (serveWaiters p x.wait (modPool p (fun x => { x with state := 0, fifo := [] }) s)))
  else (stInUse, s)

/-- POOL_STATE_WRITE. -/
def execPoolStateWrite (h : DHdr) (pool : Fin 64) (v : Bytes) (s : State) : Host.Outcome State Fault Refusal :=
  .next (dictWriteRow h 0x9011 (pool.val + 1) v (wrPoolState pool.val) s)

/-! ### The poison log (R484) -/

/-- 9040h.01 pops the records. -/
def rdPoisonLog : ReadEff := fun _ s => (stOk, s.bufs.plog.flatten, modBufs (fun b => { b with plog := [] }) s)

/-- POISON_LOG_READ. -/
def execPoisonLogRead (h : DHdr) (s : State) : Host.Outcome State Fault Refusal :=
  .next (dictReadRow h 0x9040 0x01 rdPoisonLog s)

end Sys2Proof.Machine
end

