-- ==== Sys2Proof/Machine/ZmtFrame.lean ====
section
/-! DEFINITION. The ZMT frame: its header, its encapsulation and its checksums (R197, R198, R202), and the header
fields later stages read from a received frame. -/

namespace Sys2Proof.Machine

/-! ### Operations and flags (Tables 6-3, 6-4) -/

def opPut : Nat := 1
def opGet : Nat := 2
def opGetr : Nat := 3
def opAtomic : Nat := 4
def opAtomr : Nat := 5
def opSend : Nat := 6
def opReduce : Nat := 7
def opAck : Nat := 8
def opNack : Nat := 9
def opCredit : Nat := 10
def opTime : Nat := 11
def opMgmt : Nat := 12
def opFin : Nat := 13

def flNonmin : Nat := 1
def flAckreq : Nat := 2
def flRetx : Nat := 4
def flTrc : Nat := 8
def flRndv : Nat := 16
def flAbort : Nat := 32

/-- Whether an operation takes a PSN (Table 6-3). -/
def opSequenced (op : Nat) : Bool := decide (op ∈ [opPut, opGet, opAtomic, opSend, opReduce, opMgmt, opFin])

/-- A trace extension stands behind the header: FLAGS.TRC, which only version 2 has (Table 6-4). -/
def ZHdr.traced (h : ZHdr) : Bool := decide (h.ver = 2) && bit h.flags 3

/-- CTX of a SEND: CCID and SUB together. -/
def ZHdr.ctx (h : ZHdr) : Nat := h.ccid * 256 + h.sub

/-- The 40 header bytes of Table 6-2. -/
def zhdrBytes (h : ZHdr) : Bytes :=
  natBE 1 (h.ver * 16 + h.op) ++ natBE 1 h.flags ++ natBE 2 (h.maxv * 8192 + h.plen) ++ natBE 4 h.srcEp ++
    natBE 4 h.job ++ natBE 4 h.msgId ++ natBE 4 h.psn ++ natBE 8 h.tofs ++ natBE 3 h.ccid ++ natBE 1 h.sub ++
    natBE 4 h.mseq ++ natBE 4 h.mlen

/-- The trace extension of a packet built at fabric time `t` (Table 6-5): TRACE_ID is the sender's choice, a free value
(DESIGN CHOICE, log 153). -/
def traceExt (t : Nat) (h : ZHdr) : Bytes := natBE 8 (Config.traceId h.msgId).toNat ++ natBE 6 t ++ zeros 2

/-- The header read from 40 bytes. -/
def zhdrParse (b : Bytes) : ZHdr :=
  { ver := beAt b 0 1 / 16, op := beAt b 0 1 % 16, flags := beAt b 1 1, maxv := beAt b 2 2 / 8192,
    plen := beAt b 2 2 % 8192, srcEp := beAt b 4 4, job := beAt b 8 4, msgId := beAt b 12 4, psn := beAt b 16 4,
    tofs := beAt b 20 8, ccid := beAt b 28 3, sub := beAt b 31 1, mseq := beAt b 32 4, mlen := beAt b 36 4 }

/-- Window handle and byte offset of a TOFS. -/
def tofsWin (t : Nat) : Nat := bf t 48 16
def tofsOfs (t : Nat) : Nat := bf t 0 48
def mkTofs (win ofs : Nat) : Nat := win * 2 ^ 48 + ofs % 2 ^ 48

/-! ### Internet checksums -/

/-- Sum of the big-endian 16-bit words of bytes, an odd last byte padded with zero. -/
def sum16 : Bytes → Nat
  | [] => 0
  | [a] => a.toNat * 256
  | a :: b :: t => a.toNat * 256 + b.toNat + sum16 t

/-- Fold a sum into 16 bits, ones' complement. -/
def fold16 (x : Nat) : Nat :=
  let y := x % 65536 + x / 65536
  let z := y % 65536 + y / 65536
  z % 65536 + z / 65536

/-- The ones' complement checksum of a sum. -/
def cksum (x : Nat) : Nat := 0xFFFF - fold16 x

/-- RFC 1624: a checksum after one 16-bit word of what it covers changes from `old` to `new`. -/
def cksumUpdate (ck old new : Nat) : Nat := 0xFFFF - fold16 ((0xFFFF - ck) + (0xFFFF - old) + new)

/-! ### Addresses -/

/-- 7000h.04 as 12 bytes. -/
def fabricPrefix (s : State) : Bytes := (padTo (entVal s 0x7000 0x04) 12).take 12

/-- The IPv6 address of an endpoint: fabric_prefix followed by the endpoint id (Table 6-1). -/
def epAddr6 (s : State) (ep : Nat) : Bytes := fabricPrefix s ++ natBE 4 ep

/-- This device's endpoint id. -/
def ownEp (s : State) : Nat := cfg s 0x7000 0x05

/-- Whether ZMT packets travel over IPv6. -/
def overIpv6 (s : State) : Bool := decide (cfg s 0x7000 0x03 = 1)

/-- The neighbour MAC address of sub-port `sp` (650ph.05, .06). -/
def neighbourMac (s : State) (sp : Nat) : Nat := cfg s (0x6500 + sp / 2) (5 + sp % 2) % 2 ^ 48

/-- The MAC address of the port of sub-port `sp`: FP p has the p-th of eight consecutive unicast addresses of the vendor's
OUI block (R677). -/
def portMacOf (sp : Nat) : Nat :=
  (Config.vendorOui.toNat &&& 0xFEFFFF) * 2 ^ 24 + Config.macBase.toNat % (2 ^ 24 - 7) + sp / 2

/-! ### Encapsulation (Table 6-1) -/

/-- UDP header and payload with a valid checksum, given the sum of the pseudo-header; 0000h is sent as FFFFh. -/
def udpBytes (srcPort dstPort pseudo : Nat) (payload : Bytes) : Bytes :=
  let len := 8 + payload.length
  let c := cksum (pseudo + 17 + len + srcPort + dstPort + len + sum16 payload)
  natBE 2 srcPort ++ natBE 2 dstPort ++ natBE 2 len ++ natBE 2 (if c = 0 then 0xFFFF else c) ++ payload

/-- The IPv6 packet of a ZMT packet: DSCP 8 x TC, ECT(0), flow label from SRC_EP and MSG_ID, hop limit 64. -/
def zmtIpv6 (s : State) (tc srcPort peer : Nat) (h : ZHdr) (body : Bytes) : Bytes :=
  let src := epAddr6 s (ownEp s)
  let dst := epAddr6 s peer
  let flow := crc32c 0xFFFFFFFF (natBE 4 h.srcEp ++ natBE 4 h.msgId) % 2 ^ 20
  let udp := udpBytes srcPort (cfg s 0x7000 0x02) (sum16 src + sum16 dst) (zhdrBytes h ++ body)
  natBE 4 (6 * 2 ^ 28 + ((8 * tc % 64) * 4 + 2) * 2 ^ 20 + flow) ++ natBE 2 udp.length ++ [17, 64] ++ src ++ dst ++ udp

/-- The IPv4 packet of a ZMT packet: identification 0, DF set, TTL 64, the endpoint ids as addresses. -/
def zmtIpv4 (s : State) (tc srcPort peer : Nat) (h : ZHdr) (body : Bytes) : Bytes :=
  let src := natBE 4 (ownEp s)
  let dst := natBE 4 peer
  let udp := udpBytes srcPort (cfg s 0x7000 0x02) (sum16 src + sum16 dst) (zhdrBytes h ++ body)
  let hd := fun c => natBE 1 0x45 ++ natBE 1 ((8 * tc % 64) * 4 + 2) ++ natBE 2 (20 + udp.length) ++ natBE 2 0 ++
    natBE 2 0x4000 ++ [64, 17] ++ natBE 2 c ++ src ++ dst
  hd (cksum (sum16 (hd 0))) ++ udp

/-- The whole frame of a ZMT packet toward endpoint `peer`, without the MAC addresses, which the egress port writes,
and without the FCS. `srcPort14` is the 14-bit value of the slice LFSR, a free value (DESIGN CHOICE, log 1). -/
def zmtFrame (s : State) (tc srcPort14 peer : Nat) (h : ZHdr) (body : Bytes) : Bytes :=
  let srcPort := 0xC000 + srcPort14 % 2 ^ 14
  zeros 12 ++ (if overIpv6 s then natBE 2 0x86DD ++ zmtIpv6 s tc srcPort peer h body
    else natBE 2 0x0800 ++ zmtIpv4 s tc srcPort peer h body)

/-- Where the ZMT header stands in a frame this device builds. -/
def zmtOfs (s : State) : Nat := if overIpv6 s then 62 else 42

/-- A frame with its destination and source MAC addresses written. -/
def setMacs (da sa : Nat) (f : Bytes) : Bytes := natBE 6 da ++ natBE 6 sa ++ f.drop 12

/-- Clear NONMIN in a ZMT header at `hofs` and update a nonzero UDP checksum by RFC 1624 (R189, R203). -/
def clearNonmin (hofs : Nat) (f : Bytes) : Bytes :=
  let old := beAt f hofs 2
  let new := bput old 0 1 0
  let ck := beAt f (hofs - 2) 2
  let f1 := patch f hofs (natBE 2 new)
  if ck = 0 then f1 else
    let c := cksumUpdate ck old new
    patch f1 (hofs - 2) (natBE 2 (if c = 0 then 0xFFFF else c))

/-! ### Reading a received frame -/

/-- Length of the 802.1Q tags at the front: at most an S-tag and a C-tag (Table 3-1). -/
def tagLen (f : Bytes) : Nat :=
  let t0 := beAt f 12 2
  if t0 = 0x88A8 ∨ t0 = 0x8100 then (if t0 = 0x88A8 ∧ beAt f 16 2 = 0x8100 then 8 else 4) else 0

/-- PCP of the outermost tag, if there is one. -/
def outerPcp (f : Bytes) : Option Nat := if tagLen f = 0 then none else some (beAt f 14 2 / 8192)

/-- VID of the outermost tag, 0 when untagged. -/
def outerVid (f : Bytes) : Nat := if tagLen f = 0 then 0 else beAt f 14 2 % 4096

def frameDa (f : Bytes) : Nat := beAt f 0 6
def frameSa (f : Bytes) : Nat := beAt f 6 6

/-- EtherType after the tags. -/
def frameType (f : Bytes) : Nat := beAt f (12 + tagLen f) 2

/-- Offset of the network header after the tags. -/
def l3Start (f : Bytes) : Nat := 14 + tagLen f

/-- ECN bits of an IPv4 or IPv6 packet at offset `o`; `none` for anything else. -/
def ecnOf (f : Bytes) (o : Nat) : Option Nat :=
  let v := beAt f o 1 / 16
  if v = 4 ∧ frameType f = 0x0800 then some (beAt f (o + 1) 1 % 4)
  else if v = 6 ∧ frameType f = 0x86DD then some (beAt f o 2 / 16 % 4)
  else none

/-- Mark CE an ECT IPv4 or IPv6 packet; anything else is left as it is (R95). -/
def markCe (f : Bytes) : Bytes × Bool :=
  let o := l3Start f
  match ecnOf f o with
  | some e =>
    if e = 0 ∨ e = 3 then (f, false)
    else if beAt f o 1 / 16 = 4 then
      let old := beAt f o 2
      let new := bput old 0 2 3
      (patch (patch f o (natBE 2 new)) (o + 10) (natBE 2 (cksumUpdate (beAt f (o + 10) 2) old new)), true)
    else (patch f o (natBE 2 (bput (beAt f o 2) 4 2 3)), true)
  | none => (f, false)

end Sys2Proof.Machine
end

