-- ==== Sys2Proof/Machine/PortOps.lean ====
section
/-! DEFINITION. What fabric ports, classification, forwarding and transport share: sub-port accessors, flow-control
frames, packets from their entry to their end, output queues, next-hop groups, link-level retry and link loss
(chapters 03 to 05). -/

namespace Sys2Proof.Machine

/-! ### Sub-ports and ports -/

def subOf (s : State) (sp : Nat) : SubPort := tget {} s.fab.sub sp

def modSub (sp : Nat) (f : SubPort → SubPort) (s : State) : State :=
  modFab (fun x => { x with sub := tmod {} x.sub sp f }) s

def portSt (s : State) (p : Nat) : Port := tget {} s.fab.port p

def modPort (p : Nat) (f : Port → Port) (s : State) : State :=
  modFab (fun x => { x with port := tmod {} x.port p f }) s

/-- Bump a port counter C030h + p. -/
def portCount (sp sub : Nat) (s : State) : State := bump (0xC030 + sp / 2) sub s

/-- Mode of a port (Table 3-2): the one it is leaving until it is down (R83). -/
def portMode (s : State) (p : Nat) : Nat := (portSt s p).oldMode.getD (cfg s (0x3100 + p) 0x02)

def adminUp (s : State) (p : Nat) : Bool := decide (cfg s (0x3100 + p) 0x01 = 1)

/-- Lanes of a sub-port in its mode (Table 3-2). -/
def fullLanes (s : State) (sp : Nat) : BitVec 4 :=
  if portMode s (sp / 2) = 0 then (if sp % 2 = 0 then 0xF else 0) else if sp % 2 = 0 then 0x3 else 0xC

/-- The link carries frames: UP or SHED. -/
def linkUp (s : State) (sp : Nat) : Bool := decide ((subOf s sp).oper = 2) || decide ((subOf s sp).oper = 3)

/-- Nominal rate in Gb/s. -/
def nominalRate (s : State) (sp : Nat) : Nat := if portMode s (sp / 2) = 0 then 800 else 400

/-- Current rate in Gb/s: 200 per active lane (Table 3-6). -/
def rateOf (s : State) (sp : Nat) : Nat :=
  if linkUp s sp then 200 * popcnt (subOf s sp).lanes.toNat 4 else 0

/-- Flow control in force: 0 none, 1 PFC, 2 credit; credit runs PFC while the peer does not qualify (R85). -/
def flowCtl (s : State) (sp : Nat) : Nat :=
  let m := cfg s (0x3100 + sp / 2) 0x04
  if m = 2 then (if (subOf s sp).cbfc then 2 else 1) else m

/-- The traffic class 3120h.01 maps priority `i` to. -/
def pcpTc (s : State) (p i : Nat) : Nat := bf (cfg s (0x3120 + p) 0x01) (3 * i) 3

/-- The traffic class of a frame that its parse program does not set (R88). -/
def frameTc (s : State) (p : Nat) (f : Bytes) : Nat :=
  pcpTc s p (match outerPcp f with | some c => c | none => cfg s (0x3120 + p) 0x02)

/-- Replay buffer capacity in bytes (Table 3-2). -/
def replayCap (s : State) (sp : Nat) : Nat := if portMode s (sp / 2) = 0 then 589824 else 294912

/-- Bytes in the replay buffer. -/
def replayBytes (x : SubPort) : Nat := (x.replay.map (·.len)).sum

/-- Bytes in a port's ingress FIFO, each frame with its FCS (R87). A frame enters and leaves the FIFO whole (DESIGN CHOICE,
log 148). -/
def fifoBytes (s : State) (p : Nat) : Nat := ((portSt s p).fifo.map (fun e => e.2.length + 4)).sum

/-! ### Packets -/

def pktOf (s : State) (k : Nat) : Option Pkt := tfind s.fab.pkts k

def modPkt (k : Nat) (f : Pkt → Pkt) (s : State) : State :=
  modFab (fun x => { x with pkts := tupd x.pkts k f }) s

/-- A packet that entered on a fabric port. -/
def Pkt.transit (p : Pkt) : Bool := decide (p.sp < 16)

/-- The packet's ZMT flag and header offset (Table 4-4). -/
def Pkt.zmt (p : Pkt) : Bool := bit p.meta0.toNat 36
def Pkt.hofs (p : Pkt) : Nat := bf p.meta0.toNat 26 7
def Pkt.l3t (p : Pkt) : Nat := bf p.meta0.toNat 33 3

/-- ITEM of a transit packet in a failure record (Table 19-2). -/
def Pkt.item (p : Pkt) : Nat :=
  p.sp / 2 + (p.sp % 2) * 8 + p.course % 16 * 16 + bf p.meta1.toNat 4 13 * 256

/-- Cells on chip charged to an ingress sub-port and class: the packets in the packet buffer (R89). -/
def cellsCharged (s : State) (sp tc : Nat) : Nat :=
  (s.fab.pkts.map (fun e => if e.2.sp = sp ∧ e.2.tc = tc ∧ !e.2.spilled ∧ (e.2.phase = 5 ∨ e.2.phase = 6)
    then e.2.cells else 0)).sum

/-- Cells of a class the receiver holds of a sub-port, wherever they stand (R92). -/
def cellsHeld (s : State) (sp tc : Nat) : Nat :=
  (s.fab.pkts.map (fun e => if e.2.sp = sp ∧ e.2.tc = tc then e.2.cells else 0)).sum

/-- Packets of an output queue, oldest first. -/
def queueOf (s : State) (sp tc : Nat) : List Nat := tget [] s.fab.queue (sp * 8 + tc)

def modQueue (sp tc : Nat) (f : List Nat → List Nat) (s : State) : State :=
  modFab (fun x => { x with queue := tmod [] x.queue (sp * 8 + tc) f }) s

/-- The packets of a queue themselves. -/
def queuePkts (s : State) (sp tc : Nat) : List Pkt := (queueOf s sp tc).filterMap (pktOf s)

/-- Cells a queue holds on chip. -/
def queueChip (s : State) (sp tc : Nat) : Nat :=
  ((queuePkts s sp tc).map (fun p => if p.spilled then 0 else p.cells)).sum

/-- Bytes a queue holds in the spill region. -/
def queueSpill (s : State) (sp tc : Nat) : Nat :=
  ((queuePkts s sp tc).map (fun p => if p.spilled then p.len else 0)).sum

/-- Depth of a queue in cells, spilled packets included (R192). -/
def queueDepth (s : State) (sp tc : Nat) : Nat := queueChip s sp tc + (queueSpill s sp tc + 255) / 256

/-! ### PFC frames (R87, R89) -/

/-- Priorities that map to a class of the mask. -/
def prioVector (s : State) (p mask : Nat) : Nat :=
  ((List.range 8).map (fun i => if bit mask (pcpTc s p i) then 2 ^ i else 0)).sum

/-- A PFC frame: MAC control, opcode 0101h, vector and eight timers. -/
def pfcFrame (sp vec quanta : Nat) : Bytes :=
  let b := natBE 6 0x0180C2000001 ++ natBE 6 (portMacOf sp) ++ natBE 2 0x8808 ++ natBE 2 0x0101 ++ natBE 2 vec ++
    (List.range 8).flatMap (fun i => natBE 2 (if bit vec i then quanta else 0)) ++ zeros 26
  b

/-- Put a frame of the port's own before all others: TIME frames first, then PFC frames (R46). -/
def ctlPush (sp kind : Nat) (b : Bytes) (s : State) : State :=
  modSub sp (fun x => { x with
    ctl := if kind = 0 then x.ctl ++ [(0, b)]
    else x.ctl.takeWhile (fun e => e.1 ≠ 0) ++ [(kind, b)] ++ x.ctl.dropWhile (fun e => e.1 ≠ 0) }) s

/-- Pause or release the classes of a mask toward the peer; a class to which no priority maps is left out. The frame goes
to the transmitter as any other, so that with LLR it is sequenced, kept and carries ACK (R96, R98, R99). -/
def sendPfc (sp mask quanta : Nat) (s : State) : State :=
  let v := prioVector s (sp / 2) mask
  if v = 0 then s else portCount sp 0x0F (ctlPush sp 0 (pfcFrame sp v quanta) s)

/-- Pause the classes of a mask, and note when (R89). -/
def sendXoff (sp mask : Nat) (s : State) : State :=
  modSub sp (fun x => { x with
    xoffAt := (List.range 8).foldl (fun t c => if bit mask c then tput t c (now80 s) else t) x.xoffAt }) (sendPfc sp mask 0xFFFF s)

/-- Classes above xoff, and classes at or below xon, of those in 3120h.03. -/
def overXoff (s : State) (sp : Nat) : Nat :=
  ((List.range 8).map (fun c => if bit (cfg s (0x3120 + sp / 2) 3) c && decide (cfg s (0x3120 + sp / 2) 4 < cellsCharged s sp c)
    then 2 ^ c else 0)).sum
def underXon (s : State) (sp : Nat) : Nat :=
  ((List.range 8).map (fun c => if decide (cellsCharged s sp c ≤ cfg s (0x3120 + sp / 2) 5) then 2 ^ c else 0)).sum

/-- Send XOFF for classes that rose above xoff and XON for paused classes that fell to xon or below (R89). A class the
full ingress FIFO still holds paused is not released (R87). -/
def pfcCheck (sp : Nat) (s : State) : State :=
  if flowCtl s sp ≠ 1 ∨ !linkUp s sp ∨ 16 ≤ sp then s
  else
    let old := (subOf s sp).xoff.toNat
    let up := overXoff s sp &&& (255 - old)
    let dn := old &&& underXon s sp
    let s1 := modSub sp (fun x => { x with xoff := BitVec.ofNat 8 ((old ||| up) - dn) }) s
    let s2 := sendXoff sp up s1
    if (subOf s sp).fifoXoff then s2 else sendPfc sp dn 0 s2

/-- PFC for a filling ingress FIFO: XOFF above 4 KiB, XON at 2 KiB or below (R87). -/
def fifoPfc (sp : Nat) (s : State) : State :=
  if flowCtl s sp ≠ 1 ∨ !linkUp s sp then s
  else
    let n := fifoBytes s (sp / 2)
    let m := cfg s (0x3120 + sp / 2) 3
    let x := subOf s sp
    if 4096 < n ∧ !x.fifoXoff then
      sendXoff sp m (modSub sp (fun x => { x with fifoXoff := true }) s)
    else if n ≤ 2048 ∧ x.fifoXoff then
      sendPfc sp (m &&& (255 - x.xoff.toNat)) 0 (modSub sp (fun x => { x with fifoXoff := false }) s)
    else s

/-- Both sub-ports of a port share its ingress FIFO. -/
def fifoPfcs (p : Nat) (s : State) : State := fifoPfc (2 * p + 1) (fifoPfc (2 * p) s)

/-! ### Link control frames (Table 3-5) -/

/-- The LLR preamble bytes 1 to 6 (Table 3-4); SEQ and ACK go high byte first (DESIGN CHOICE, log 145). -/
def llrPre (ptype seq ack : Nat) : Bytes :=
  let b := natBE 1 ptype ++ natBE 2 seq ++ natBE 2 ack
  b ++ natBE 1 (crc8 b)

/-- The 64 bytes of a link control frame; LSEQ and the CREDIT words go high byte first (DESIGN CHOICE, log 145). -/
def lcfBytes (sp ltype lseq lanes lost : Nat) (credits : List Nat) : Bytes :=
  let b := natBE 6 0x0180C200000E ++ natBE 6 (portMacOf sp) ++ natBE 2 0x88B5 ++ [1] ++ natBE 1 ltype ++
    natBE 2 lseq ++ natBE 1 lanes ++ natBE 1 (sp % 2 + 2 * lost) ++
    (List.range 8).flatMap (fun i => natBE 4 (credits.getD i 0)) ++ zeros 8
  b ++ natLE 4 (ethFcs b)

/-- Send a link control frame; its preamble carries rx_expect as ACK (DESIGN CHOICE, log 42). -/
def sendLcf (sp ltype lseq lanes lost : Nat) (credits : List Nat) (s : State) : State :=
  let a := (subOf s sp).rxExpect.toNat
  modSub sp (fun x => { x with ackDue := false })
    (emit (.lcf sp ltype (lcfBytes sp ltype lseq lanes lost credits)) (emit (.llrPreamble sp (llrPre 0xA9 0 a)) s))

/-- Cumulative grants as the eight CREDIT words. -/
def grantWords (x : SubPort) : List Nat := (List.range 8).map (fun c => (tget 0 x.grantTx c).toNat)

/-- Cells freed toward a sub-port's peer: the grant of the class grows (R92). -/
def grantCells (sp tc n : Nat) (s : State) : State :=
  if 16 ≤ sp then s
  else modSub sp (fun x =>
    if x.cbfc then
      { x with grantTx := tmod 0 x.grantTx tc (fun g => g + BitVec.ofNat 32 n), freedSince := x.freedSince + n }
    else x) s

/-! ### The end of a packet -/

/-- Charge the counter pair of the applied action (R135); both counts wrap modulo 2^64. -/
def chargeCounter (p : Pkt) (s : State) : State :=
  if bit p.act.toNat 18 then
    let i := bf p.act.toNat 0 18
    modCls (fun c => { c with pkts := tmod 0 c.pkts i (· + 1),
                              byts := tmod 0 c.byts i (· + BitVec.ofNat 64 p.len) }) s
  else s

/-- Drain count of a course over all pipelines (R154). -/
def drainTotal (s : State) (c : Nat) : Nat := ((List.range 8).map (fun p => tget 0 s.cls.drain (c * 8 + p))).sum

/-- A packet of a course leaves: its drain count falls, and the older course's sweep starts at zero (R154, R155). -/
def drainDec (p : Pkt) (s : State) : State :=
  let s1 := modCls (fun c => { c with drain := tmod 0 c.drain (p.course * 8 + p.sp / 2) (· - 1) }) s
  match s1.cls.older with
  | some o =>
    if o.toNat = p.course ∧ drainTotal s1 p.course = 0 then modCls (fun c => { c with sweep := true }) s1 else s1
  | none => s1

/-- The frame of a packet lies in cells of pool 0: it is queued, or at the transmitter, and not spilled. -/
def Pkt.onChip (p : Pkt) : Bool := !p.spilled && (decide (p.phase = 5) || decide (p.phase = 6))

/-- Take a packet out of every list that holds it and out of the device. -/
def purgePkt (k : Nat) (s : State) : State :=
  let held := match pktOf s k with | some p => p.gran | none => []
  let chip := match pktOf s k with | some p => p.onChip | none => false
  let s1 := modFab (fun x => { x with
    pkts := tdel x.pkts k
    order := (x.order.map (fun e => (e.1, e.2.filter (· ≠ k)))).filter (fun e => e.2 ≠ [])
    queue := (x.queue.map (fun e => (e.1, e.2.filter (· ≠ k)))).filter (fun e => e.2 ≠ [])
    sub := (tremap {} (fun v => { v with tx := v.tx.filter (· ≠ k), txSeq := tdel v.txSeq k }) x.sub) }) s
  let s2 := granulesFree held (modFwd (fun x => { x with misses := x.misses.map (fun m => (m.1, m.2.1, m.2.2.filter (· ≠ k))) }) s1)
  if chip then chainGone s2 else s2

/-- A transit packet leaves the device or is handed over: its cells are freed and its drain count falls. -/
def releasePkt (k : Nat) (p : Pkt) (s : State) : State :=
  let s1 := purgePkt k s
  if p.transit then pfcCheck p.sp (grantCells p.sp p.tc p.cells (drainDec p s1)) else s1

/-- A transit packet leaves the device and returns no credit: its frame was bad, out of sequence, or stomped, whose cells
are returned when it ends (R94). -/
def releaseQuiet (k : Nat) (p : Pkt) (s : State) : State :=
  let s1 := purgePkt k s
  if p.transit then pfcCheck p.sp (drainDec p s1) else s1

/-- A complete transit packet ends well: counter, drain, cells, ledger (R135). -/
def completePkt (k : Nat) (p : Pkt) (s : State) : State :=
  ledComplete 1 (releasePkt k p (chargeCounter p s))

/-- A transit packet is failed with a ledger reason. One whose frame has not ended yet stays until its end; a stomped one
was never accepted (R22, R135). -/
def failPkt (k : Nat) (reason unit : Nat) (s : State) : State :=
  match pktOf s k with
  | none => s
  | some p =>
    if p.complete then ledFail 1 reason unit 0 p.item (releasePkt k p (chargeCounter p s))
    else if p.stomp then releaseQuiet k p s
    else modPkt k (fun p => { p with phase := 7, fate := some reason }) (if p.onChip then chainGone s else s)

/-- Unit ID of the port of a sub-port. -/
def portUnit (sp : Nat) : Nat := 2 + sp / 2

/-- Finish a transit packet well, at once or when its frame ends. -/
def finishPkt (k : Nat) (p : Pkt) (s : State) : State :=
  if p.complete then completePkt k p s
  else if p.stomp then releaseQuiet k p s
  else modPkt k (fun p => { p with phase := 7, fate := some 0 }) (if p.onChip then chainGone s else s)

/-- A locally originated packet is treated as sent and lost: its retransmit timer runs (R678). -/
def lostLocal (k : Nat) (s : State) : State := purgePkt k s

/-! ### Next-hop groups (R188, R189) -/

def nhgOf (s : State) (g : Nat) : Nhg := tget {} s.fwd.nhg g

/-- Sixteen member bytes as they are stored: bits 7:6 of each are reserved (R188, R6, R8). -/
def membOf (v : Nat) : BitVec 128 := BitVec.ofNat 128 v &&& 0x3F3F3F3F3F3F3F3F3F3F3F3F3F3F3F3F

/-- Member byte `m` of a group. -/
def memberByte (n : Nhg) (m : Nat) : Nat := bf n.memb.toNat (8 * m) 8

/-- Sub-port of a member byte. -/
def memberSp (b : Nat) : Nat := bf b 0 3 * 2 + bf b 3 1

/-- R188: the member is valid, its sub-port is UP or SHED, its port is admitted and does not go down for another mode. -/
def memberEligible (s : State) (b : Nat) : Bool :=
  bit b 5 && linkUp s (memberSp b) && adminUp s (bf b 0 3) && (portSt s (bf b 0 3)).oldMode.isNone

/-- The metric x of R189 for a class. -/
def memberMetric (s : State) (b tc : Nat) : Nat :=
  let r := rateOf s (memberSp b)
  (queueDepth s (memberSp b) tc * 800 + r - 1) / r

/-- Members that are eligible and minimal (`mn`) or not, in member order. -/
def membersOf (s : State) (n : Nhg) (mn : Bool) : List Nat :=
  (List.range 16).filter (fun m => memberEligible s (memberByte n m) && (bit (memberByte n m) 4 == mn))

/-- The member of least metric; ties go to the first at or after the rotating pointer. -/
def leastMember (s : State) (n : Nhg) (tc : Nat) (ms : List Nat) : Option (Nat × Nat) :=
  let rot := fun m => (m + 16 - n.ptr.toNat) % 16
  ms.foldl (fun best m =>
    let x := memberMetric s (memberByte n m) tc
    match best with
    | none => some (m, x)
    | some (m', x') => if x < x' ∨ (x = x' ∧ rot m < rot m') then some (m, x) else best) none

/-- R189: the chosen member of a group and whether NONMIN is cleared. `hash` is given for a packet that is not ZMT. -/
def chooseMember (s : State) (g tc : Nat) (hash : Option Nat) (nonmin : Bool) : Option (Nat × Bool) :=
  let n := nhgOf s g
  match hash with
  | some h =>
    let c := membersOf s n true
    if c.length = 0 then none else (c.drop (h % c.length)).head?.map (fun m => (m, false))
  | none =>
    let bm := leastMember s n tc (membersOf s n true)
    let bn := if nonmin then leastMember s n tc (membersOf s n false) else none
    match bm, bn with
    | none, none => none
    | some m, none => some (m.1, false)
    | none, some m => some (m.1, true)
    | some m, some q => if 2 * q.2 + cfg s 0x6300 0x04 < m.2 then some (q.1, true) else some (m.1, false)

/-- The rotating pointer moves to the member after a winner chosen by metric. -/
def moveNhgPtr (g m : Nat) (s : State) : State :=
  modFwd (fun x => { x with nhg := tmod {} x.nhg g (fun n => { n with ptr := BitVec.ofNat 4 (m + 1) }) }) s

/-- NONMIN of the packet's ZMT header. -/
def Pkt.nonmin (p : Pkt) : Bool := p.zmt && bit (beAt p.bytes (p.hofs + 1) 1) 0

/-- The hash of a packet that is not ZMT, over key bytes 0-39. -/
def Pkt.hash (p : Pkt) : Option Nat := if p.zmt then none else some (crc32c 0xFFFFFFFF (p.key.take 40))

/-- Send packet `k` to a member of group `g`: the member is chosen, NONMIN cleared where R189 says so, the pointer
moved; answers the egress sub-port. -/
def routeTo (k g : Nat) (s : State) : Option Nat × State :=
  match pktOf s k with
  | none => (none, s)
  | some p =>
    match chooseMember s g p.tc p.hash p.nonmin with
    | none => (none, s)
    | some (m, clr) =>
      let sp := memberSp (memberByte (nhgOf s g) m)
      let s1 := if p.zmt then moveNhgPtr g m s else s
      let s2 := if clr then modPkt k (fun p => { p with bytes := clearNonmin p.hofs p.bytes }) s1 else s1
      let s3 := if clr ∧ p.transit then bump (0xC050 + p.sp / 2) 0x09 s2 else s2
      (some sp, modPkt k (fun p => { p with out := sp, nhg := some g }) s3)

/-- Write the MAC addresses of the egress port into an IP packet (R164, Table 6-1). -/
def writeMacs (k sp : Nat) (s : State) : State :=
  modPkt k (fun p => { p with bytes := setMacs (neighbourMac s sp) (portMacOf sp) p.bytes }) s

/-! ### Admission (R190) -/

/-- Frame bytes known before the frame has ended: the declared length. -/
def knownLen (p : Pkt) : Option Nat :=
  if p.complete || !p.transit then some p.len
  else if bit p.meta0.toNat 37 then some (bf p.meta0.toNat 38 14) else none

/-- Room a frame takes in the replay buffer: its length, or the longest frame while that is not known (DESIGN CHOICE,
log 146). -/
def copyLen (p : Pkt) : Nat := (knownLen p).getD 9216

/-- Granules a spilled packet takes; of one still arriving whose length is not known, as many as the longest frame needs
(DESIGN CHOICE, log 146). -/
def Pkt.granules (p : Pkt) : Nat := (copyLen p + 2047) / 2048

/-- Where a packet goes in queue (sp, tc): 0 on chip, 1 spill, 2 nowhere. -/
def admitPlace (s : State) (sp tc : Nat) (p : Pkt) : Nat :=
  let q := 0x6410 + sp / 2
  if queueChip s sp tc + p.cells ≤ cfg s q (0x11 + tc) ∧ pool0Used s + p.cells + cfg s 0x6400 0x02 ≤ 393216 ∧
      queueSpill s sp tc = 0 then 0
  else if queueSpill s sp tc + p.len ≤ cfg s q (0x21 + tc) * 1048576 ∧ spillRoom s p.granules then 1
  else 2

/-- Put a packet at the tail of an output queue. -/
def enqueuePkt (k sp tc : Nat) (spill : Bool) (s : State) : State :=
  modQueue sp tc (· ++ [k]) (modPkt k (fun p => { p with phase := 5, out := sp, tc := tc, spilled := spill }) s)

/-- Admit a packet to the queue of its class, or answer that there is no room. -/
def admitPkt (k sp : Nat) (s : State) : Bool × State :=
  match pktOf s k with
  | none => (false, s)
  | some p =>
    match admitPlace s sp p.tc p with
    | 0 => (true, bumpBy 0xC0C0 0x01 p.cells (enqueuePkt k sp p.tc false s))
    | 1 =>
      let g := granulesTake (spillPool s) (if p.transit then 1 else 0) (if p.transit then p.item % 2 ^ 32 else 0) p.granules s
      let s1 := modPkt k (fun p => { p with gran := g.1 }) (enqueuePkt k sp p.tc true g.2)
      (true, if p.transit then bump (0xC050 + p.sp / 2) 0x0D s1 else s1)
    | _ => (false, s)

/-! ### Link-level retry (R98-R104) -/

/-- Send one copy of the replay buffer: preamble, frame, counters. -/
def sendCopy (sp : Nat) (c : LlrCopy) (s : State) : State :=
  let a := (subOf s sp).rxExpect.toNat
  let f := c.bytes
  emit (.frame sp (f ++ natLE 4 (ethFcs f ^^^ (if c.stomp then 0xFFFFFFFF else 0))) c.stomp) (emit (.llrPreamble sp (llrPre 0xA6 c.seq.toNat a)) s)

/-- `seq` is before `a` modulo 2^16. -/
def seqBefore (seq a : BitVec 16) : Bool := decide (0 < (a - seq).toNat ∧ (a - seq).toNat < 32768)

/-- A released copy ends a packet that left the transmitter with its link (R678). -/
def ackCopy (sp : Nat) (c : LlrCopy) (s : State) : State :=
  match c.pkt with
  | some k =>
    if k ∈ (subOf s sp).tx then s
    else match pktOf s k with
      | some p => if p.transit then finishPkt k p s else lostLocal k s
      | none => s
  | none => s

/-- An acknowledgement: copies before it are released (R98). One beyond tx_next names nothing sent and is ignored. -/
def llrAcked (sp : Nat) (a : BitVec 16) (s : State) : State :=
  let x := subOf s sp
  if (a - x.txAcked).toNat ≤ (x.txNext - x.txAcked).toNat then
    (x.replay.filter (fun c => seqBefore c.seq a)).foldl (fun s c => ackCopy sp c s)
      (modSub sp (fun x => { x with replay := x.replay.filter (fun c => !seqBefore c.seq a), txAcked := a }) s)
  else s

/-- Credit left for a class (R93). -/
def creditLeft (x : SubPort) (tc : Nat) : Nat := (tget 0 x.granted tc - tget 0 x.consumed tc).toNat

/-- Charge credit for a frame of `n` cells. -/
def chargeCredit (tc n : Nat) (x : SubPort) : SubPort :=
  { x with consumed := tmod 0 x.consumed tc (· + BitVec.ofNat 32 n) }

/-- Cells of a frame kept without its FCS. -/
def frameCells (b : Bytes) : Nat := (b.length + 4 + 255) / 256

/-- A copy may go out again: its frame has ended, and its credit is charged since the last training or the grant covers
it (R93, R94). -/
def mayReplay (s : State) (x : SubPort) (c : LlrCopy) : Bool :=
  (match c.pkt.bind (pktOf s) with | some p => p.complete || p.stomp || !p.transit | none => true) &&
    (!x.cbfc || c.paid || decide (c.cost = 0) || (x.gotCredit && decide (c.cost ≤ creditLeft x c.tc)))

/-- Replay the copies from `replayFrom` on, in SEQ order. Within a training a copy takes no credit a second time; after one
each is charged against the new grant like a new frame, and the replay stands still while the grant does not cover the next
one (R93, R94, R98). The fuel is the number of copies. -/
def replayCredit : Nat → Nat → State → State
  | 0, sp, s => modSub sp (fun x => { x with replayFrom := none }) s
  | f + 1, sp, s =>
    let x := subOf s sp
    match x.replayFrom with
    | none => s
    | some n =>
      match x.replay.find? (fun c => !seqBefore c.seq n) with
      | none => modSub sp (fun x => { x with replayFrom := none }) s
      | some c =>
        if !mayReplay s x c then s
        else
          replayCredit f sp (modSub sp (fun x =>
            { (if x.cbfc && !c.paid then chargeCredit c.tc c.cost x else x) with
              replayFrom := some (c.seq + 1)
              ackDue := false
              replay := x.replay.map (fun d => if d.seq = c.seq then { d with sentAt := now s, paid := true } else d) })
            (portCount sp 0x0A (sendCopy sp c s)))

/-- Run a replay as far as credit allows. -/
def runReplay (sp : Nat) (s : State) : State := replayCredit ((subOf s sp).replay.length + 1) sp s

/-- Replay every copy from `n` on, in SEQ order; `tries` of the first grows (R98). -/
def replayAll (sp : Nat) (n : BitVec 16) (s : State) : State :=
  runReplay sp (modSub sp (fun x => { x with
    replayFrom := some n
    replay := x.replay.map (fun c => if c.seq = n then { c with tries := c.tries + 1 } else c) }) s)

/-- The frame of a packet has ended: the copies of it hold the whole frame (R98, R678). -/
def fillCopies (sp k : Nat) (b : Bytes) (stomp : Bool) (s : State) : State :=
  modSub sp (fun x => { x with replay := x.replay.map (fun c =>
    if c.pkt = some k then { c with bytes := b, stomp := stomp, len := b.length + 4 } else c) }) s

/-- A copy is released unacknowledged: a packet still at the transmitter fails; a transit packet that had completed
moves from completed to failed, so that it is counted once (DESIGN CHOICE, log 9). -/
def failCopy (sp : Nat) (c : LlrCopy) (s : State) : State :=
  let s1 := portCount sp 0x0C s
  let live := match c.pkt with | some k => (pktOf s k).isSome | none => false
  match c.item with
  | none => if live then (match c.pkt with | some k => lostLocal k s1 | none => s1) else s1
  | some i =>
    if live then (match c.pkt with | some k => failPkt k 0x04 (portUnit sp) s1 | none => s1)
    else failLog (failRecord 1 0x04 (portUnit sp) 0 i (now s))
      (bump 0xC011 0x04 (modRow 1 (fun r => { r with comp := r.comp - 1, fail := r.fail + 1 }) s1))

/-- Release every copy and fail its frames with LINK_DOWN (R103, R104). -/
def failCopies (sp : Nat) (s : State) : State :=
  let cs := (subOf s sp).replay
  cs.foldl (fun s c => failCopy sp c s) (modSub sp (fun x => { x with replay := [], replayFrom := none }) s)

/-- Keep the copy of a packet that takes SEQ tx_next (R98). -/
def keepCopy (sp k : Nat) (p : Pkt) (s : State) : State :=
  modSub sp (fun x => { x with
    txSeq := tput x.txSeq k x.txNext
    replay := x.replay ++ [{ seq := x.txNext, bytes := p.bytes, tc := p.tc, pkt := some k,
                             item := if p.transit then some p.item else none, stomp := p.stomp,
                             sentAt := now s, tries := 0, len := copyLen p,
                             cost := if p.sp = 24 then 0 else (copyLen p + 255) / 256, paid := true }]
    txNext := x.txNext + 1 }) s

/-! ### Link down (R112-R114, R678) -/

/-- Requeue one packet of a down sub-port to another member of its group, or drop it (R112, R113, R678). -/
def reroutePkt (k : Nat) (s : State) : State :=
  match pktOf s k with
  | none => s
  | some p =>
    let r := match p.nhg with | some g => routeTo k g s | none => (none, s)
    match r.1 with
    | some sp => modQueue sp p.tc (· ++ [k]) (writeMacs k sp r.2)
    | none =>
      if p.transit then failPkt k 0x05 (portUnit p.out) (portCount p.out 0x16 s)
      else lostLocal k (bump 0xC068 0x0D s)

/-- Packets queued for a down sub-port move, in their queue order (R112 step 2; DESIGN CHOICE, log 122). -/
def rerouteQueues (sp : Nat) (s : State) : State :=
  (List.range 8).foldl (fun s tc =>
    let ks := queueOf s sp tc
    ks.foldl (fun s k => reroutePkt k s) (modQueue sp tc (fun _ => []) s)) s

/-- Frames already handed to the transmitter when the link goes down (R678): with LLR they are held in the replay
buffer; without it a transit packet fails, and a local one is lost (DESIGN CHOICE, log 47). -/
def dropTx (sp : Nat) (admin : Bool) (s : State) : State :=
  let x := subOf s sp
  let s1 := x.tx.foldl (fun s k =>
    match pktOf s k with
    | none => s
    | some p =>
      if x.llr then
        (if (tfind (subOf s sp).txSeq k).isSome then s else keepCopy sp k p s)
      else if p.transit then failPkt k (if admin then 0x05 else 0x04) (portUnit sp) (portCount sp (if admin then 0x16 else 0x0C) s)
      else lostLocal k s) s
  modSub sp (fun x => { x with tx := [], txSeq := [] }) s1

/-- The sub-port is down: state, lanes, flow control and any sequence in progress end; the replay buffer is held from when
the link went down (R104). -/
def subDown (sp : Nat) (hold : Nat) (s : State) : State :=
  modSub sp (fun x => { x with
    oper := 0, lanes := 0, downAt := if linkUp s sp then some (now s) else x.downAt, holdMs := hold, drainAt := none,
    lockDue := false, ackWait := false, lcfDue := none, badLanes := 0, paused := [], xoff := 0, xoffAt := [],
    fifoXoff := false, gotCredit := false, ctl := [] }) s

/-- The Clause 73 capability word a sub-port offers (Table 3-3). -/
def offeredCaps (s : State) (sp : Nat) : Nat :=
  let p := sp / 2
  let e := fun sub => b2n (cfgB s (0x3100 + p) sub)
  e 5 + 2 * e 6 + 4 * b2n (decide (cfg s (0x3100 + p) 4 = 2)) +
    8 * b2n (decide (cfg s 0x2003 (sp + 1) = 1)) + 16 * b2n (decide (portMode s p = 1))

/-- The PMD of a port's mode and media setting, coded as in 318ph.05 (R84). -/
def portPmd (s : State) (p : Nat) : Nat := 1 + 2 * portMode s p + cfg s (0x3100 + p) 0x03

/-- A sub-port of the port's mode starts training, with its base page, message page and unformatted page (R84). -/
def startTraining (sp : Nat) (s : State) : State :=
  if fullLanes s sp = 0 then s
  else emit (.train sp (portPmd s (sp / 2)) Config.vendorOui.toNat (offeredCaps s sp)) (modSub sp (fun x => { x with oper := 1 }) s)

/-- The link is lost without an admin write: queues move, frames at the transmitter end under R678, the replay buffer
is held, and an admitted port trains again (R114). -/
def linkLost (sp : Nat) (s : State) : State :=
  let s1 := dropTx sp false (subDown sp (cfg s (0x3100 + sp / 2) 8) (portCount sp 0x15 s))
  let s2 := rerouteQueues sp s1
  if adminUp s2 (sp / 2) then startTraining sp s2 else s2

/-- Retrain the link and keep the replay buffer and the queues (R102). -/
def retrain (sp : Nat) (s : State) : State :=
  let s1 := dropTx sp false (portCount sp 0x0B s)
  startTraining sp (modSub sp (fun x => { x with
    lanes := 0, downAt := some (now s), holdMs := cfg s (0x3100 + sp / 2) 8, gotCredit := false
    lockDue := false, ackWait := false, lcfDue := none }) s1)

end Sys2Proof.Machine
end

