-- ==== Sys2Proof/Machine/ParseVM.lean ====
section
/-! DEFINITION. The parse engine: its instructions, the four-instruction groups, the budget and the failures
(R122-R127, Tables 4-1 and 4-2). -/

namespace Sys2Proof.Machine

/-- What a parse engine holds (R122): the pc, the cursor, h0-h3, the program-written key bytes and metadata word 0. -/
structure PState where
  pc : Nat
  cursor : Nat
  h : List Nat
  key : Bytes
  m : Nat
  deriving DecidableEq, Repr

/-- What one parse instruction does. -/
inductive PStep where
  /-- go on with the next instruction -/
  | go (p : PState)
  /-- a taken branch or JMP: the target starts the next group -/
  | jump (p : PState)
  | done (p : PState)
  /-- fail with a reason of Table 4-1 and a USER value -/
  | fail (reason user : Nat)
  deriving DecidableEq, Repr

/-- How a parse ended: reason, key bytes 0-75 and metadata word 0. -/
structure ParseOut where
  reason : Nat
  key : Bytes
  m : Nat
  deriving DecidableEq, Repr

def rsWindow : Nat := 2
def rsBudget : Nat := 3
def rsIllegal : Nat := 4
def rsFailProg : Nat := 5
def rsNoProg : Nat := 6

/-- Whether an instruction is ILLEGAL as encoded (Table 4-1). -/
def parseIllegal (w : Nat) : Bool :=
  match bf w 27 5 with
  | 0x00 | 0x01 | 0x03 | 0x04 | 0x05 | 0x06 | 0x0C => false
  | 0x02 => decide (75 < bf w 20 7 + bf w 10 4)
  | 0x07 => decide (6 ≤ bf w 24 3) || decide (bf w 16 6 = 0)
  | 0x08 => decide (bf w 16 6 = 0)
  | 0x09 => decide (74 < bf w 20 7)
  | 0x0A => decide (74 < bf w 18 7)
  | 0x0B => decide (8 ≤ bf w 23 4)
  | _ => true

/-- The condition of a Bcc. -/
def parseCond (cc h imm : Nat) : Bool :=
  match cc with
  | 0 => decide (h = imm)
  | 1 => decide (h ≠ imm)
  | 2 => decide (h < imm)
  | 3 => decide (imm ≤ h)
  | 4 => decide (h &&& imm ≠ 0)
  | _ => decide (h &&& imm = 0)

/-- SETM field writes into metadata word 0 (Table 4-4). -/
def parseSetm (m fld val cursor : Nat) : Nat :=
  match fld with
  | 0 => bput (bput m 8 3 val) 11 1 1
  | 1 => bput m 12 7 cursor
  | 2 => bput m 19 7 cursor
  | 3 => bput m 26 7 cursor
  | 4 => bput m 33 3 val
  | 5 => bput m 36 1 val
  | 6 => bput m 54 8 val
  | _ => bput m 52 2 val

/-- One instruction `w` over the 64-byte window (Table 4-2). -/
def parseStep (win : Bytes) (w : Nat) (p : PState) : PStep :=
  let nx := { p with pc := p.pc + 1 }
  let hv := fun i => p.h.getD i 0
  if parseIllegal w then .fail rsIllegal 0
  else match bf w 27 5 with
  | 0x00 => .done p
  | 0x01 => .fail rsFailProg (bf w 0 8)
  | 0x02 =>
    if 64 ≤ p.cursor + bf w 14 6 + bf w 10 4 then .fail rsWindow 0
    else .go { nx with key := patch p.key (bf w 20 7) (sliceZ win (p.cursor + bf w 14 6) (bf w 10 4 + 1)) }
  | 0x03 =>
    let o := p.cursor + bf w 19 6
    let wd := bf w 18 1
    if 64 ≤ o + wd then .fail rsWindow 0
    else .go { nx with h := p.h.set (bf w 25 2) (beNat (sliceZ win o (wd + 1))) }
  | 0x04 => .go { nx with h := p.h.set (bf w 25 2) (hv (bf w 25 2) &&& bf w 0 16) }
  | 0x05 =>
    if 127 < p.cursor + bf w 0 7 then .fail rsWindow 0 else .go { nx with cursor := p.cursor + bf w 0 7 }
  | 0x06 =>
    let c := p.cursor + bf (hv (bf w 25 2)) (bf w 21 4) 8 * 2 ^ bf w 19 2 + bf w 0 7
    if 127 < c then .fail rsWindow 0 else .go { nx with cursor := c }
  | 0x07 =>
    if parseCond (bf w 24 3) (hv (bf w 22 2)) (bf w 0 16) then .jump { p with pc := p.pc + bf w 16 6 } else .go nx
  | 0x08 => .jump { p with pc := p.pc + bf w 16 6 }
  | 0x09 => .go { nx with key := patch p.key (bf w 20 7) (natBE 2 (bf w 0 16)) }
  | 0x0A => .go { nx with key := patch p.key (bf w 18 7) (natBE 2 (hv (bf w 25 2))) }
  | 0x0B => .go { nx with m := parseSetm p.m (bf w 23 4) (bf w 0 16) p.cursor }
  | _ =>
    .go { nx with m := bput (bput p.m 38 14 (min (hv (bf w 25 2) + bf w 0 16) 16383)) 37 1 1 }

/-- A failed parse: the key and metadata written before are discarded (R126). -/
def parseFailed (m0 reason user : Nat) : ParseOut := { reason := reason, key := zeros 76, m := bput m0 54 8 user }

/-- Run a program: `f` bounds the instructions, `entry` is the entry point, `grp` the PCLK of the group in hand (from 1)
and `n` the instructions it has executed. -/
def parseRun (store : Tab (BitVec 32)) (base entry : Nat) (win : Bytes) (m0 : Nat) :
    Nat → Nat → Nat → PState → ParseOut
  | 0, _, _, _ => parseFailed m0 rsIllegal 0
  | f + 1, grp, n, p =>
    let g := if n = 4 then grp + 1 else grp
    let n := if n = 4 then 0 else n
    if 15 < g then parseFailed m0 rsBudget 0
    else if entry + 64 ≤ p.pc ∨ 4095 < p.pc then parseFailed m0 rsIllegal 0
    else
      match parseStep win (tget 0 store (base + p.pc)).toNat p with
      | .go q => parseRun store base entry win m0 f g (n + 1) q
      | .jump q => parseRun store base entry win m0 f (g + 1) 0 q
      | .done q => { reason := 0, key := q.key, m := q.m }
      | .fail r u => parseFailed m0 r u

/-- The parse of a packet under its course (R121-R127): `m0` holds the metadata the hardware wrote at entry. -/
def parsePkt (s : State) (pl : Nat) (p : Pkt) : ParseOut :=
  let e := tget 0 s.cls.entry (pl * 2 + p.course % 2)
  let entry := bf e.toNat 0 12
  let win := (if p.complete then p.bytes ++ natLE 4 (ethFcs p.bytes) else p.bytes).take 64
  if !bit e.toNat 12 then parseFailed p.meta0.toNat rsNoProg 0
  else parseRun s.cls.prog (pl * 4096) entry win p.meta0.toNat 65 1 0
    { pc := entry, cursor := 0, h := [0, 0, 0, 0], key := zeros 76, m := p.meta0.toNat }

/-- Hardware key bytes 76-79 (Table 4-3) from metadata word 0 and the traffic class. -/
def hwKey (m tc : Nat) : Bytes :=
  natBE 1 (bf m 4 3 * 32 + bf m 7 1 * 16 + tc * 2) ++ natBE 1 (bf m 54 8) ++ natBE 1 (bf m 33 3 + bf m 36 1 * 8) ++ [0]

end Sys2Proof.Machine
end

