-- ==== Sys2Proof/Machine/Courses.lean ====
section
/-! DEFINITION. Courses: staging, commit, drain and reclamation, single-entry writes and counters (R143-R159). -/

namespace Sys2Proof.Machine

/-! ### Visibility and entries (R131) -/

/-- Course `a` is at or before `b`, within a window of eight. -/
def atOrBefore (a b : Nat) : Bool := decide ((b + 16 - a % 16) % 16 < 8)

/-- An entry is visible to course `c`. -/
def visible (e : ClsEntry) (c : Nat) : Bool :=
  let w := e.control.toNat
  bit w 0 && (!bit w 1 || atOrBefore (bf w 2 4) c) && (!bit w 6 || !atOrBefore (bf w 7 4) c)

/-- An entry matches a key. -/
def entryMatch (e : ClsEntry) (key : BitVec 640) : Bool := decide ((key ^^^ e.key) &&& e.mask = 0)

def clsEntry (s : State) (inst i : Nat) : ClsEntry := tget {} s.cls.ent (inst * 8192 + i)

def modEntry (inst i : Nat) (f : ClsEntry → ClsEntry) (s : State) : State :=
  modCls (fun c => { c with ent := tmod {} c.ent (inst * 8192 + i) f }) s

/-- The lowest-indexed entry of instance `inst` that is visible to `c` and matches (R131). -/
def clsSearch (s : State) (inst c : Nat) (key : BitVec 640) : Option (Nat × ClsEntry) :=
  let e := fun (i : Nat) => tget {} s.cls.ent i
  ((tkeys s.cls.ent).find? (fun i => decide (i / 8192 = inst) && visible (e i) c && entryMatch (e i) key)).map
    (fun i => (i % 8192, e i))

/-- The active course and the staged course. -/
def activeCourse (s : State) : Nat := s.cls.active.toNat
def stagedCourse (s : State) : Nat := (s.cls.active.toNat + 1) % 16

/-- Word `i` of a 640-bit field set, with byte 8i in bits 63:56 (Table 4-5). -/
def setWord640 (x : BitVec 640) (i : Nat) (v : W64) : BitVec 640 :=
  BitVec.ofNat 640 (bput x.toNat (576 - 64 * i) 64 v.toNat)

/-- An action word as it is stored: bits 63:50 are reserved (Table 4-6, R6, R8). -/
def actionOf (v : Nat) : W64 := BitVec.ofNat 64 (v % 2 ^ 50)

/-- One word of an entry written at L3 (R143, R146); words 22-31 are reserved. -/
def writeEntryWord (e : ClsEntry) (w : Nat) (v : W64) : ClsEntry :=
  if w < 10 then { e with key := setWord640 e.key w v }
  else if w < 20 then { e with mask := setWord640 e.mask (w - 10) v }
  else if w = 20 then { e with action := actionOf v.toNat }
  else if w = 21 then { e with control := v &&& 0xFFF }
  else e

/-- CLASSIFIER_ENTRY_WRITE. -/
def execClassifierEntryWrite (inst : Fin 4) (index : Fin 8192) (word : Fin 32) (v : W64) (s : State) :
    Host.Outcome State Fault Refusal :=
  .next (modEntry inst.val index.val (fun e => writeEntryWord e word.val v) s)

/-! ### Counters (R158, R159, R161) -/

/-- COUNTER_PKTS_READ: the read latches BYTES for the reading master. -/
def execCounterPktsRead (master : Nat) (pair : Fin 262144) (s : State) : Host.Outcome State Fault Refusal :=
  .next (modCls (fun c => { c with latch := tset 0 c.latch (master * 262144 + pair.val) (tget 0 c.byts pair.val) }) s)

/-- COUNTER_WRITE: a write sets the count. -/
def execCounterWrite (pair : Fin 262144) (bytes : Bool) (v : W64) (s : State) : Host.Outcome State Fault Refusal :=
  .next (modCls (fun c => if bytes then { c with byts := tset 0 c.byts pair.val v }
    else { c with pkts := tset 0 c.pkts pair.val v }) s)

/-- 5600h.01: counter pairs from 5600h.02, 5600h.03 of them, 16 bytes each. -/
def rdCounters : ReadEff := fun sid s =>
  let first := own s sid 0x5600 2
  let n := min (own s sid 0x5600 3) (262144 - first)
  (stOk, (List.range n).flatMap (fun i =>
    natLE 8 (tget 0 s.cls.pkts (first + i)).toNat ++ natLE 8 (tget 0 s.cls.byts (first + i)).toNat), s)

/-- COUNTER_READ. -/
def execCounterRead (h : DHdr) (s : State) : Host.Outcome State Fault Refusal :=
  .next (dictReadRow h 0x5600 0x01 rdCounters s)

/-! ### Slots (R152) -/

/-- Parameters of a meter slot. -/
def meterSlot (m : Meter) (slot : Nat) : MeterSlot := if slot = 0 then m.s0 else m.s1
def setMeterSlot (slot : Nat) (v : MeterSlot) (m : Meter) : Meter :=
  if slot = 0 then { m with s0 := v } else { m with s1 := v }


/-- Write one staged value into slot `n` of its table. -/
def writeSlot (slot : Nat) (v : StagedVal) (c : Cls) : Cls :=
  match v with
  | .prog p e => { c with entry := tset 0 c.entry (p * 2 + slot) e }
  | .dflt p a => { c with dflt := tset dropAction c.dflt (p * 2 + slot) a }
  | .meter m x => { c with meters := tmod {} c.meters m (setMeterSlot slot x) }

/-- Step 1: every binding, default action and meter parameter set of slot A mod 2 is copied into the other slot. -/
def copySlot (src dst : Nat) (c : Cls) : Cls :=
  { c with
    entry := (List.range 8).foldl (fun t p => tset 0 t (p * 2 + dst) (tget 0 t (p * 2 + src))) c.entry
    dflt := (List.range 8).foldl (fun t p => tset dropAction t (p * 2 + dst) (tget dropAction t (p * 2 + src))) c.dflt
    meters := (tremap {} (fun m => setMeterSlot dst (meterSlot m src) m) c.meters) }

/-- The slot of the staged course. -/
def stagedSlot (s : State) : Nat := stagedCourse s % 2

/-- Stage a slot value: written at once while the slot is free and copied, else held (R152; DESIGN CHOICE, log 50). -/
def stageVal (v : StagedVal) (s : State) : State :=
  modCls (fun c =>
    if c.older.isNone && c.slotCopied then { writeSlot (stagedSlot s) v c with slotDirty := true }
    else { c with vals := c.vals ++ [v] }) s

/-- Staging of course n begins with its first change; with one course live the slot becomes free at once. -/
def beginStaging (s : State) : State :=
  modCls (fun c => if c.staging then c
    else { c with staging := true, slotCopied := if c.older.isNone then false else c.slotCopied }) s

/-- A staging write: refused while a commit is requested (R153). -/
def stagingWrite (st : Nat) (k : State → State) (s : State) : Nat × State :=
  if s.cls.commit.isSome then (stCommitPending, s)
  else if st ≠ stOk then (st, s)
  else (stOk, k (beginStaging s))

/-! ### ADD, KILL, program load (R149) -/

/-- Instances the session's stage_target names. -/
def stageInsts (s : State) (sid : Nat) : List Nat :=
  (List.range 4).filter (fun i => bit (own s sid 0x5200 1) (16 + i))

/-- ADD and KILL on the target of the session. -/
def wrStageOp : WriteEff := fun sid v s =>
  let i := bf (own s sid 0x5200 1) 0 13
  let insts := stageInsts s sid
  let n := stagedCourse s
  if leNat v = 1 then
    let st := if insts.any (fun k => bit (clsEntry s k i).control.toNat 0) then stInUse else stOk
    stagingWrite st (fun s => insts.foldl (fun s k => modEntry k i (fun _ =>
      { key := BitVec.ofNat 640 (beNat (ownVal s sid 0x5200 2)), mask := BitVec.ofNat 640 (beNat (ownVal s sid 0x5200 3)),
        action := actionOf (own s sid 0x5200 4),
        control := BitVec.ofNat 64 (1 + 2 + n * 4 + (if insts.length = 4 then 2048 else 0)) }) s) s) s
  else
    let st := if insts.any (fun k => !visible (clsEntry s k i) (activeCourse s)) then stNotVisible
      else if insts.any (fun k => bit (clsEntry s k i).control.toNat 6) then stDying else stOk
    stagingWrite st (fun s => insts.foldl (fun s k => modEntry k i (fun e =>
      { e with control := BitVec.ofNat 64 (bput (bput e.control.toNat 6 1 1) 7 4 n) }) s) s) s

/-- STAGE_ADD: 5200h.05 = 1. -/
def execStageAdd (h : DHdr) (s : State) : Host.Outcome State Fault Refusal :=
  .next (dictWriteRow h 0x5200 0x05 [1] wrStageOp s)

/-- STAGE_KILL: 5200h.05 = 2. -/
def execStageKill (h : DHdr) (s : State) : Host.Outcome State Fault Refusal :=
  .next (dictWriteRow h 0x5200 0x05 [2] wrStageOp s)

/-- Instructions of an image. -/
def imageInsns (v : Bytes) : List Nat := (List.range (v.length / 4)).map (fun j => leAt v (4 * j) 4)

/-- The encoding checks of a program load. -/
def badProgram (ins : List Nat) : Bool :=
  decide (64 < ins.length) || ins.any parseIllegal ||
    ((List.range ins.length).any (fun j =>
      let w := ins.getD j 0
      (decide (bf w 27 5 = 7) || decide (bf w 27 5 = 8)) && decide (ins.length ≤ j + bf w 16 6)))

/-- Instruction ranges of a pipeline's store bound to a live course (R149). -/
def boundRanges (s : State) (pl : Nat) : List (Nat × Nat) :=
  let live := activeCourse s :: (match s.cls.older with | some o => [o.toNat] | none => [])
  live.flatMap (fun c =>
    let e := tget 0 s.cls.entry (pl * 2 + c % 2)
    if !bit e.toNat 12 then []
    else
      let a := bf e.toNat 0 12
      let im := s.cls.images.filter (fun x => decide (x.1 = pl ∧ x.2.1 ≤ a ∧ a < x.2.1 + x.2.2))
      if im.isEmpty then [(a, 64)] else im.map (fun x => (x.2.1, x.2.2)))

/-- Ranges overlap. -/
def overlaps (a n b m : Nat) : Bool := decide (a < b + m) && decide (b < a + n)

/-- 5300h.02: a program image is checked and loaded at prog_target (R149). -/
def wrProgImage : WriteEff := fun sid v s =>
  let t := own s sid 0x5300 1
  let a := bf t 0 12
  let pls := (List.range 8).filter (fun p => bit t (16 + p))
  let ins := imageInsns v
  let n := ins.length
  let st := if v.length = 0 ∨ v.length % 4 ≠ 0 then stType
    else if pls ≠ [] ∧ 4096 < a + n then stRange
    else if badProgram ins then stBadProg
    else if pls.any (fun p => (boundRanges s p).any (fun r => overlaps a n r.1 r.2)) then stInUse
    else stOk
  stagingWrite st (modCls (fun c => { c with
    prog := pls.foldl (fun t p => (List.range n).foldl (fun t j =>
      tset 0 t (p * 4096 + a + j) (BitVec.ofNat 32 (ins.getD j 0))) t) c.prog
    images := c.images.filter (fun x => !(decide (x.1 ∈ pls) && overlaps x.2.1 x.2.2 a n)) ++ pls.map (fun p => (p, a, n)) })) s

/-- PROGRAM_LOAD. -/
def execProgramLoad (h : DHdr) (v : Bytes) (s : State) : Host.Outcome State Fault Refusal :=
  .next (dictWriteRow h 0x5300 0x02 v wrProgImage s)

/-- The limits of R140; CIR ≤ PIR relates two entries and is judged where the four are staged together (DESIGN CHOICE, log 149). -/
def meterLegal (x : MeterSlot) : Bool :=
  decide (x.cir ≤ x.pir) && decide (x.pir.toNat ≤ 800000000) && decide (9216 ≤ x.cbs.toNat) &&
    decide (x.cbs.toNat ≤ 1073741824) && decide (9216 ≤ x.pbs.toNat) && decide (x.pbs.toNat ≤ 1073741824)

/-- 5400h.07: the session's meter parameters are staged (R140). -/
def wrMeterStage : WriteEff := fun sid _ s =>
  let g := fun sub => BitVec.ofNat 32 (own s sid 0x5400 sub)
  let x : MeterSlot := { cir := g 2, pir := g 3, cbs := g 4, pbs := g 5, ca := decide (own s sid 0x5400 6 ≠ 0) }
  stagingWrite (if meterLegal x then stOk else stRange) (stageVal (.meter (own s sid 0x5400 1) x)) s

/-- METER_STAGE. -/
def execMeterStage (h : DHdr) (v : Bytes) (s : State) : Host.Outcome State Fault Refusal :=
  .next (dictWriteRow h 0x5400 0x07 v wrMeterStage s)

/-- A write to an entry of class COURSE without a row of its own: a session parameter, a program binding, a default
action, or a value that takes force with the course (R149). -/
def wrCourseEntry (idx sub : Nat) : WriteEff := fun sid v s =>
  if sessionScoped idx sub then (stOk, storeOwn sid idx sub v s)
  else stagingWrite stOk (fun s =>
    let s1 := modDict (fun d => { d with staged := tput d.staged (ekey idx sub) v }) s
    if 0x5310 ≤ idx ∧ idx ≤ 0x5317 then
      stageVal (.prog (idx - 0x5310) (if leNat v = 0xFFFF then 0 else BitVec.ofNat 13 (leNat v % 4096 + 4096))) s1
    else if 0x5320 ≤ idx ∧ idx ≤ 0x5327 then stageVal (.dflt (idx - 0x5320) (actionOf (leNat v))) s1
    else s1) s

/-- COURSE_ENTRY_STAGE: a write to such an entry; one to any other index is no staging. -/
def execCourseEntryStage (h : DHdr) (idx : BitVec 16) (sub : BitVec 8) (v : Bytes) (s : State) :
    Host.Outcome State Fault Refusal :=
  match entFind idx.toNat sub.toNat with
  | some e =>
    if e.commit = .course ∧ ¬ (sub = 5 ∧ idx = 0x5200) ∧ ¬ (sub = 2 ∧ idx = 0x5300) ∧ ¬ (sub = 7 ∧ idx = 0x5400) then
      .next (dictWriteRow h idx.toNat sub.toNat v (wrCourseEntry idx.toNat sub.toNat) s)
    else .next s
  | none => .next s

/-! ### Commit and abort (R150-R153, R156) -/

/-- The value of 5500h.01 the commit goes by: the staged one, else the one in force. -/
def fencedValue (s : State) : Bool :=
  match tfind s.dict.staged (ekey 0x5500 1) with
  | some v => decide (leNat v ≠ 0)
  | none => cfgB s 0x5500 1

/-- Request a commit; its place among the actions of its boundary is its audit SEQ (R69). -/
def requestCommit (time : Option Nat) (s : State) : State :=
  let r : Commit :=
    { time := time, acceptedAt := now s, fenced := fencedValue s, seq := s.dict.jNext.toNat - 1, waiting := false }
  modCls (fun c => { c with commit := some r }) (beginStaging s)

/-- 5100h.02. -/
def wrCommit : WriteEff := fun _ _ s =>
  if s.cls.commit.isSome then (stCommitPending, s) else (stOk, requestCommit none s)

/-- COMMIT. -/
def execCommit (h : DHdr) (v : Bytes) (s : State) : Host.Outcome State Fault Refusal :=
  .next (dictWriteRow h 0x5100 0x02 v wrCommit s)

/-- 5100h.03 (R66, R68). -/
def wrCommitTime : WriteEff := fun _ v s =>
  let t := leNat v / 65536
  if s.cls.commit.isSome then (stCommitPending, s)
  else
    let st := timedStatus t s
    if st ≠ stOk then (st, timedCount st s) else (stOk, requestCommit (some t) s)

/-- COMMIT_TIME. -/
def execCommitTime (h : DHdr) (v : Bytes) (s : State) : Host.Outcome State Fault Refusal :=
  .next (dictWriteRow h 0x5100 0x03 v wrCommitTime s)

/-- 5100h.04: every staged change is undone; a pending commit completes with ABORTED (R150). -/
def wrAbort : WriteEff := fun _ _ s =>
  let n := stagedCourse s
  let undo := fun (e : ClsEntry) =>
    let w := e.control.toNat
    let w1 := if bit w 1 ∧ bf w 2 4 = n then bput w 0 1 0 else w
    { e with control := BitVec.ofNat 64 (if bit w1 6 ∧ bf w1 7 4 = n then bput w1 6 1 0 else w1) }
  let s1 := modCls (fun c => { c with
    ent := (tremap {} undo c.ent), vals := [], staging := false,
    slotCopied := if c.slotDirty then false else c.slotCopied, slotDirty := false,
    lastStatus := if c.commit.isSome then 3 else c.lastStatus, commit := none }) s
  (stOk, bump 0xC048 0x04 (modDict (fun d => { d with staged := [] }) s1))

/-- ABORT. -/
def execAbort (h : DHdr) (v : Bytes) (s : State) : Host.Outcome State Fault Refusal :=
  .next (dictWriteRow h 0x5100 0x04 v wrAbort s)

/-- Course n becomes active (R151): `st` is the status it completes with, `late` whether it counts as a timed action fired
LATE, `boundary` the boundary at which it fires. A drain that is already zero starts the sweep of the older course at once
(R155). -/
def fireCommit (c : Commit) (st : Nat) (late : Bool) (boundary : Nat) (s : State) : State :=
  let s1 := modCls (fun k => { k with
    older := some k.active, active := k.active + 1, commit := none, staging := false, slotCopied := false,
    slotDirty := false, fence := c.fenced, lastStatus := st, lastCommit := ofNs boundary }) s
  let s2 := modDict (fun d => { d with
    vals := d.staged.foldl (fun t e => tput t e.1 e.2) d.vals, staged := [] }) s1
  let s3 := if drainTotal s2 (activeCourse s) = 0 then modCls (fun k => { k with sweep := true }) s2 else s2
  let s4 := if st = 1 then bump 0xC048 0x02 s3 else if st = 2 then bump 0xC048 0x03 s3 else s3
  bump 0xC048 0x01 (if late then bump 0xC020 0x01 s4 else s4)

/-- A due commit fires: with one course live and the slot prepared the course changes, with two it waits. One that has
waited completes WAITED, and is counted as late when its TIME had passed at its acceptance (R67, R151, R156; DESIGN CHOICE,
log 140). -/
def commitNow (s : State) : State :=
  match commitDue s with
  | none => s
  | some c =>
    if c.waiting then
      fireCommit c 2 (match c.time with | some t => decide (t < c.acceptedAt) | none => false) (fireAt s) s
    else if s.cls.older.isSome then modCls (fun k => { k with commit := some { c with waiting := true } }) s
    else
      let late := match c.time with | some t => timedLate t c.acceptedAt s | none => false
      fireCommit c (if late then 1 else 0) late (fireAt s) s

/-- The requested commit is the next action of its boundary (R69). -/
def commitTurn (waiting : Bool) (s : State) : Bool :=
  (match nextDue s with | some e => decide (e.act = .commit) | none => false) &&
    (match s.cls.commit with | some c => c.waiting == waiting | none => false)

/-- COURSE_COMMIT_FIRE: the requested commit at its boundary (R69, R151, R156). -/
def execCourseCommitFire (s : State) : Host.Outcome State Fault Refusal :=
  .next (if commitTurn false s then commitNow s else s)

/-- SLOT_COPY_END: the copy of step 1 is complete and the values held are written (R152). -/
def execSlotCopyEnd (s : State) : Host.Outcome State Fault Refusal :=
  if s.cls.older.isNone && !s.cls.slotCopied then
    .next (modCls (fun c =>
      let c1 := copySlot (activeCourse s % 2) (stagedSlot s) c
      let c2 := c.vals.foldl (fun k v => writeSlot (stagedSlot s) v k) c1
      { c2 with vals := [], slotCopied := true, slotDirty := !c.vals.isEmpty, readyAt := now s }) s)
  else .next s

/-- One entry under the sweep of R155. -/
def sweepEntry (a : Nat) (e : ClsEntry) : ClsEntry :=
  let w := e.control.toNat
  let w1 := if bit w 0 ∧ bit w 6 ∧ atOrBefore (bf w 7 4) a then bput w 0 1 0 else w
  { e with control := BitVec.ofNat 64 (if bit w1 0 ∧ bit w1 1 ∧ atOrBefore (bf w1 2 4) a then bput w1 1 1 0 else w1) }

/-- COURSE_SWEEP_END: the sweep's effects are complete and the older course is reclaimed (R155). -/
def execCourseSweepEnd (s : State) : Host.Outcome State Fault Refusal :=
  if s.cls.sweep then
    .next (bump 0xC048 0x05 (modCls (fun c => { c with
      ent := (tremap {} (sweepEntry c.active.toNat) c.ent),
      older := none, sweep := false, slotCopied := false, readyAt := now s }) s))
  else .next s

/-- WAITED_COMMIT_FIRE: at the next DL0 boundary after reclamation and the writes of R152 (R156). -/
def execWaitedCommitFire (s : State) : Host.Outcome State Fault Refusal :=
  .next (if commitTurn true s then commitNow s else s)

end Sys2Proof.Machine
end

