-- ==== Sys2Proof/Machine/Image.lean ====
section
/-! DEFINITION. Firmware images in flash: layout, verification, and what loading one writes (R631-R633, R638-R642). -/

namespace Sys2Proof.Machine

/-! ### Flash (R631) -/

/-- First byte of an image: slots 0 and 1, 2 the recovery image. -/
def slotBase (slot : Nat) : Nat := match slot with | 0 => 0x100000 | 1 => 0x900000 | _ => 0x1100000

/-- `n` bytes of flash; an erased byte reads FFh. -/
def flashBytes (s : State) (a n : Nat) : Bytes := (List.range n).map (fun i => tget 0xFF s.dbg.flash (a + i))

/-- Write bytes into flash. -/
def flashWrite (a : Nat) (v : Bytes) (s : State) : State :=
  modDbg (fun d => { d with flash := ((List.range v.length).zip v).foldl (fun f e => tset 0xFF f (a + e.1) e.2) d.flash }) s

/-! ### Verification (R632, R633) -/

/-- The header of the image in a slot. -/
def slotHeader (s : State) (slot : Nat) : Option Config.ImageHeader := Config.imageHeader (flashBytes s (slotBase slot) 512)

/-- The bytes of a section. -/
def sectionBytes (s : State) (slot : Nat) (e : Nat × Nat × Nat × Bytes) : Bytes := flashBytes s (slotBase slot + e.2.1) e.2.2.1

/-- The first section of a type; none is empty. -/
def slotSection (s : State) (slot ty : Nat) : Bytes :=
  match slotHeader s slot with
  | some h => (match h.sections.find? (fun e => decide (e.1 = ty)) with | some e => sectionBytes s slot e | none => [])
  | none => []

/-- The header's limits: FMT 1, at most 16 sections of known types within 4 MiB. -/
def headerLegal (h : Config.ImageHeader) : Bool :=
  decide (h.fmt = 1) && decide (h.sections.length ≤ 16) &&
    h.sections.all (fun e => decide (1 ≤ e.1) && decide (e.1 ≤ 5) && decide (512 ≤ e.2.1) && decide (e.2.1 + e.2.2.1 ≤ 4194304))

/-- The signer key is the maker's image key or the one E001h.01 names. -/
def signerKnown (s : State) (key : Bytes) : Bool :=
  decide (sha384 key = natBE 48 Config.makerImageDigest.toNat) || decide (sha384 key = entVal s 0xE001 0x01)

/-- IMAGE_VERIFY: the result of E010h.03 for the image in a slot: 0 OK, 1 BAD_SIGNATURE, 2 BAD_FORMAT, 3 ROLLBACK
(DESIGN CHOICE, log 105). -/
def imageVerify (s : State) (slot : Nat) : Nat :=
  match slotHeader s slot with
  | none => 2
  | some h =>
    if !headerLegal h || h.sections.any (fun e => decide (sha384 (sectionBytes s slot e) ≠ e.2.2.2)) then 2
    else if !ecdsaVerify h.key (sha384 h.signed) h.sig || !signerKnown s h.key then 1
    else if h.svn < cfg s 0xE001 0x02 then 3
    else 0

/-! ### Code (R253, R639, R640) -/

/-- Word `i` of a code section: nine bytes a word, bits 71:64 last (Table 17-1). -/
def codeWord (code : Bytes) (i : Nat) : W72 := BitVec.ofNat 72 (leAt code (9 * i) 9)

/-- Write a code section as 72-bit words from an address on. -/
def putCode (a : Nat) (code : Bytes) (s : State) : State :=
  (List.range (code.length / 9)).foldl (fun s i => memPutWord (a + 8 * i) (codeWord code i) s) s

/-- First byte of an image's half of a code store. -/
def codeBase (tile img : Nat) : Nat := 0xE200000000 + tile * 0x80000 + img * 0x40000

/-- Write a tile's half of its code store, replacing what it held. -/
def loadTile (img : Nat) (code : Bytes) (s : State) (tile : Nat) : State :=
  putCode (codeBase tile img) code (memZero (codeBase tile img) (codeBase tile img + 0x40000) (fun _ => false) s)

/-- Write the image of a flash slot into every code store and keep its copy (R640 steps 2 and 3). -/
def loadImage (img slot : Nat) (code : Bytes) (s : State) : State :=
  modDbg (fun d => { d with copy := tset [] d.copy img code, imgSlot := tput d.imgSlot img slot }) ((List.range 12).foldl (loadTile img code) s)

/-- The flash slot whose image Dawn used. -/
def usedSlot (s : State) : Nat := if s.dbg.slot = 3 then 0 else s.dbg.slot

/-- The code of image A or B: the copy in the HBM reserve, or the flash where the stacks were off (R638). -/
def imageCode (s : State) (img : Nat) : Bytes :=
  match tfind s.dbg.copy img with
  | some c => c
  | none => slotSection s ((tfind s.dbg.imgSlot img).getD (usedSlot s)) 2

/-- Reload a tile's code store (R597, R638). -/
def reloadTile (tile : Nat) (s : State) : State := loadTile 1 (imageCode s 1) (loadTile 0 (imageCode s 0) s tile) tile

/-! ### The course load set (R148) -/

/-- Load the programs, rules and defaults of an image as the changes of the next course, and commit it (DESIGN
CHOICE, log 51). -/
def loadCourse (c : Config.ImageCourse) (s : State) : State :=
  let n := stagedCourse s
  let same := fun (k : Nat) => decide ((c.entries.filter (fun e => decide (e.1 % 8192 = k % 8192))).length = 4)
  let ents := c.entries.map (fun e => (e.1, ({
    key := e.2.1, mask := e.2.2.1, action := actionOf e.2.2.2.toNat,
    control := BitVec.ofNat 64 (1 + 2 + n * 4 + (if same e.1 then 2048 else 0)) } : ClsEntry)))
  let s1 := modCls (fun k => { k with
    ent := ents.foldl (fun t e => tset {} t e.1 e.2) k.ent,
    prog := c.programs.foldl (fun t e => tset 0 t e.1 e.2) k.prog,
    slotCopied := true }) (beginStaging s)
  let s2 := c.bindings.foldl (fun s e => stageVal (.prog e.1 e.2) s) s1
  let s3 := c.defaults.foldl (fun s e => stageVal (.dflt e.1 (actionOf e.2.toNat)) s) s2
  let s4 := c.meters.foldl (fun s e => stageVal (.meter e.1 {
    cir := BitVec.ofNat 32 e.2.1, pir := BitVec.ofNat 32 e.2.2.1, cbs := BitVec.ofNat 32 e.2.2.2.1,
    pbs := BitVec.ofNat 32 e.2.2.2.2.1, ca := e.2.2.2.2.2 }) s) s3
  fireCommit { time := none, acceptedAt := now s, fenced := false, seq := 0, waiting := false } 0 false (dlUp 0 (now s)) s4

/-- Put the values of sections 4 and 5 in force. -/
def loadValues (slot : Nat) (s : State) : State :=
  [4, 5].foldl (fun s k => (Config.imageValues k (slotSection s slot k)).foldl (fun s e => setVal (e.1 / 256) (e.1 % 256) e.2 s) s) s

end Sys2Proof.Machine
end

