-- ==== Sys2Proof/Machine/HostPost.lean ====
section
/-! DEFINITION. Host completions: what every unit posts for a host command or a lock (R530-R532). -/

namespace Sys2Proof.Machine

def cmqOf (s : State) (q : Nat) : CmQ := tget {} s.host.cmq q
def modCmq (q : Nat) (f : CmQ → CmQ) (s : State) : State := modHost (fun h => { h with cmq := tmod {} h.cmq q f }) s
def cpqOf (s : State) (j : Nat) : CpQ := tget {} s.host.cpq j
def modCpq (j : Nat) (f : CpQ → CpQ) (s : State) : State := modHost (fun h => { h with cpq := tmod {} h.cpq j f }) s
def funcOf (s : State) (f : Nat) : HFunc := tget {} s.host.func f
def modFunc (f : Nat) (g : HFunc → HFunc) (s : State) : State := modHost (fun h => { h with func := tmod {} h.func f g }) s

/-- Word 0 of a completion: CID, STATUS, REMOTE, CMQ (R530). -/
def cplWord0 (cid status : Nat) (remote : Bool) (cmq : Nat) : W64 :=
  BitVec.ofNat 64 (cid % 2 ^ 32 + status % 256 * 2 ^ 32 + b2n remote * 2 ^ 41 + cmq % 4096 * 2 ^ 44)

/-- Completions that wait for a queue. -/
def cplWaiting (s : State) (j : Nat) : Nat := (s.host.posts.filter (fun p => decide (p.cpq = j))).length

/-- Completions of a queue held because it has no free entry for them (R531). -/
def cplHeld (s : State) (j : Nat) : Nat :=
  let q := cpqOf s j
  cplWaiting s j - (2 ^ q.log2 - (q.tail - q.head))

/-- Post a completion; it is held when its queue has no free entry for it (R531). -/
def postHeld (j : Nat) (words : List W64) (led : Option (Nat × Nat)) (s : State) : State :=
  let q := cpqOf s j
  let s1 := modHost (fun h => { h with posts := h.posts ++ [{ cpq := j, words := words, led := led }] }) s
  if 2 ^ q.log2 ≤ (q.tail - q.head) + cplWaiting s j then bump (0xC0E0 + q.owner / 128) 0x06 s1 else s1

/-- Post a completion that ends no command. -/
def postCpl (j : Nat) (words : List W64) (s : State) : State := postHeld j words none s

/-- A host command leaves the ledger: reason 0 completes it (R550, R612). -/
def endHostItem (reason item : Nat) (s : State) : State :=
  let port := bf item 44 1
  if reason = 0 then bump (0xC0E0 + port) 0x02 (ledComplete 5 s)
  else bump (0xC0E0 + port) 0x03 (ledFail 5 reason 0x18 0 item s)

/-- ITEM of a host command: CID, CMQ, PORT (Table 19-2). -/
def hostItem (w0 cmq port : Nat) : Nat := bf w0 32 32 + cmq % 4096 * 2 ^ 32 + port % 2 * 2 ^ 44

/-- Ledger reason of a completion status (Table 16-7); 0 completes the command. -/
def cplReason (status brickReason : Nat) : Nat :=
  if status = 0 then 0
  else if status ≤ 2 then 0x50
  else if status = 3 then 0x51
  else if status = 4 then 0x01
  else if status = 5 then 0x02
  else if status = 6 then 0x03
  else if status = 7 then 0x52
  else if status = 8 then 0x53
  else if status = 9 then 0x54
  else if status = 0xA then 0x55
  else if status = 0xB then 0x04
  else if 0x40 ≤ status ∧ status < 0x60 then zmtReason (status - 0x40)
  else if status = 0x61 then 0x42
  else if status = 0x62 then 0x43
  else if status = 0x63 then 0x44
  else if status = 0x64 then 0x40
  else if status = 0x65 then 0x41
  else if status = 0x80 then brickReason
  else 0

/-- A command has completed: its completion is posted, and the command ends in the ledger when it is written, or at once
when NOCPL lets a success pass unposted (R529-R531, Table 19-1). -/
def cmdDone (c : HCmd) (status done : Nat) (remote : Bool) (res res2 : W64) (brickReason : Nat) (s : State) : State :=
  let q := cmqOf s c.q
  let w0 := (c.words.headD 0).toNat
  let item := hostItem w0 c.q (q.owner / 128)
  if bit w0 9 && decide (status = 0) then endHostItem 0 item s
  else postHeld q.cpq [cplWord0 (bf w0 32 32) status remote c.q, BitVec.ofNat 64 (done % 2 ^ 48), res, res2]
    (some (cplReason status brickReason, item)) s

/-- End a host command. The last command of a draining queue, but for the one that deletes it, turns it OFF, which
completes that command (R524). -/
def endCmd (id status done : Nat) (remote : Bool) (res res2 : W64) (brickReason : Nat) (s : State) : State :=
  match tfind s.host.cmds id with
  | none => s
  | some c =>
    let q := cmqOf s c.q
    let s1 := cmdDone c status done remote res res2 brickReason (modHost (fun h => { h with cmds := tdel h.cmds id }) s)
    if q.state = 3 ∧ (s1.host.cmds.all (fun e => decide (e.2.q ≠ c.q) || decide (q.delBy = some e.1))) then
      let s2 := modCmq c.q (fun x => { x with state := 0, delBy := none }) s1
      match q.delBy with
      | none => s2
      | some d =>
        match tfind s2.host.cmds d with
        | none => s2
        | some dc => cmdDone dc 0 0 false 0 0 0 (modHost (fun h => { h with cmds := tdel h.cmds d }) s2)
    else s1

/-- The command that started the brick, item or message `link` of kind OPC `opc`. -/
def cmdByLink (s : State) (opc link : Nat) : Option Nat :=
  (s.host.cmds.find? (fun e => decide (bf (e.2.words.headD 0).toNat 0 8 = opc) && decide (e.2.link = some link))).map (·.1)

end Sys2Proof.Machine
end

