-- ==== Sys2Proof/Machine/LockOps.lean ====
section
/-! DEFINITION. Locks: result words, leases, boosts, notification, breaks, and the four operations (chapter 11). -/

namespace Sys2Proof.Machine

def lockOf (s : State) (l : Nat) : Lock := tget {} s.locks.lock l
def modLock (l : Nat) (f : Lock → Lock) (s : State) : State := modLocks (fun u => { u with lock := tmod {} u.lock l f }) s

/-- Configuration of a group: rights in bits 5:0, LEASE_EN 8, LEASE_DL 10:9, LEASE_N 25:16 (Table 11-5). -/
def groupCfg (s : State) (g : Nat) : Nat := cfg s 0x8801 (g + 1)

/-- LEASE_DL as stored: 0 is 1. -/
def leaseDl (c : Nat) : Nat := if bf c 9 2 = 0 then 1 else bf c 9 2
/-- LEASE_N as stored: 1 to 1,000. -/
def leaseN (c : Nat) : Nat := if bf c 16 10 = 0 then 1 else min (bf c 16 10) 1000

/-- The result word of an operation (Table 11-2). -/
def lockWord (s : State) (l outcome : Nat) : W64 :=
  let x := lockOf s l
  BitVec.ofNat 64 (outcome + x.state.toNat * 2 ^ 4 + b2n x.pk * 2 ^ 6 + b2n x.ab * 2 ^ 7 + x.waiters.length * 2 ^ 8 +
    ((x.waiters.head?.map (·.2)).getD 0) * 2 ^ 12 + x.owner * 2 ^ 16)

/-- The right of a master class in a group: 3 all, 1 QUERY only, 0 none (R375). -/
def lockRight (s : State) (g master : Nat) : Nat :=
  let c := groupCfg s g
  let r := match bf master 14 2 with
    | 0 => bf c 0 2
    | 1 => bf c 2 2
    | 2 => bf c 4 2
    | _ => 3
  if r = 2 then 0 else r

/-- PRIO of the brick a thread runs. -/
def brickPrio (ws : List W64) : Nat := bf (ws.headD 0).toNat 4 4

/-- Effective priority of the owner's brick; a host function, DMA engine or steward runs none. -/
def ownerPrio (s : State) (owner : Nat) (pk : Bool) : Option Nat :=
  if pk then (tfind s.sched.cont owner).map (·.prio)
  else if owner < 768 then (thr s owner).brick.map (fun b => max (brickPrio b) (thr s owner).boost)
  else none

/-- start_lease (R384). -/
def startLease (l : Nat) (s : State) : State :=
  let c := groupCfg s (l / 64)
  modLock l (fun x => if bit c 8 then { x with deadline := now s + leaseN c * dlPeriod (leaseDl c), leaseAt := now s,
                                               leaseDl := leaseDl c }
    else { x with deadline := 0 }) s

/-- A lock's owner has a waiter above its brick's own PRIO on some lock it owns. -/
def boostHeld (s : State) (owner : Nat) (pk : Bool) (base : Nat) : Bool :=
  s.locks.lock.any (fun e => decide (e.2.state = 1) && decide (e.2.owner = owner) && decide (e.2.pk = pk) &&
    e.2.waiters.any (fun w => decide (base < w.2)))

/-- Report to the scheduler the boosts of an owner that a change ends (R362). -/
def endBoosts (owner : Nat) (pk : Bool) (s : State) : State :=
  if pk then
    match tfind s.sched.cont owner with
    | some c => if boostHeld s owner pk (brickPrio c.words) then s
        else modSched (fun u => { u with cont := tput u.cont owner { c with prio := brickPrio c.words } }) s
    | none => s
  else if owner < 768 then
    match (thr s owner).brick with
    | some b => if boostHeld s owner pk (brickPrio b) then s else modThr owner (fun x => { x with boost := 0 }) s
    | none => s
  else s

/-- Signal a boost of an owner to priority `p` (R361). -/
def signalBoost (owner : Nat) (pk : Bool) (p : Nat) (s : State) : State :=
  match ownerPrio s owner pk with
  | none => s
  | some e =>
    if e < p then
      bump 0xC080 0x10 (bump 0xC090 0x0F (if pk then
        modSched (fun u => { u with cont := tupd u.cont owner (fun c => { c with prio := p }) }) s
        else modThr owner (fun x => { x with boost := p }) s))
    else s

/-- Notify a master of a grant or break (R382, R383, R532; DEDUCED, log 119). -/
def lockNotify (l master : Nat) (s : State) : State :=
  match bf master 14 2 with
  | 0 =>
    let n := tget 0 s.locks.notify master
    if master < 768 ∧ n.getLsbD 8 then tecComplete (master / 64) (bf n.toNat 0 8) s else s
  | 1 =>
    let f := bf master 6 8
    let x := funcOf s f
    if x.lockEn then
      postCpl x.lockCpq.toNat [cplWord0 0xFFFFFFFF 0xFF false 0, 0, lockWord s l 0,
        BitVec.ofNat 64 (l + bf master 0 6 * 2 ^ 12)] s
    else bump (0xC0E0 + f / 128) 0x08 s
  | _ => s

/-- Give a lock to its first waiter with AB = `ab`, or leave it in the state `none`. -/
def passLock (l : Nat) (ab : Bool) (empty : BitVec 2) (s : State) : State :=
  match (lockOf s l).waiters with
  | [] => modLock l (fun x => { x with state := empty, owner := 0, pk := false, ab := false, deadline := 0 }) s
  | w :: ws =>
    lockNotify l w.1 (startLease l (modLock l (fun x =>
      { x with state := 1, owner := w.1, pk := false, ab := ab, waiters := ws }) s))

/-- grant_next (R379). -/
def grantNext (l : Nat) (s : State) : State :=
  let x := lockOf s l
  endBoosts x.owner x.pk (passLock l false 0 s)

/-- A break of a HELD lock (R385); `told` when its owner is notified. -/
def breakLock (l : Nat) (told : Bool) (s : State) : State :=
  let x := lockOf s l
  if x.state = 1 then
    let s1 := modLock l (fun x => { x with brk := some (x.owner, x.pk) }) s
    let s2 := passLock l true 2 (if told && !x.pk then lockNotify l x.owner s1 else s1)
    endBoosts x.owner x.pk s2
  else s

/-- A master waits on some lock. -/
def waitsAny (s : State) (m : Nat) : Bool := s.locks.lock.any (fun e => e.2.waiters.any (fun w => decide (w.1 = m)))

/-- Remove a master's waiter entry from a lock, and end the boost it caused. -/
def dropWaiter (l m : Nat) (s : State) : State :=
  let x := lockOf s l
  endBoosts x.owner x.pk (modLock l (fun x => { x with waiters := x.waiters.filter (fun w => decide (w.1 ≠ m)) }) s)

/-- The locks a master waits on. -/
def waitedLocks (s : State) (m : Nat) : List Nat :=
  (s.locks.lock.filter (fun e => e.2.waiters.any (fun w => decide (w.1 = m)))).map (·.1)

/-- The locks an owner holds, in ascending number. -/
def ownedLocks (s : State) (m : Nat) (pk : Bool) : List Nat :=
  (s.locks.lock.filter (fun e => decide (e.2.state = 1) && decide (e.2.owner = m) && decide (e.2.pk = pk))).map (·.1)

/-- A reset of a master, or the end of a brick: cancel its waits and break every lock it owns; `sub` counts each break
(R386, R387). -/
def breakMaster (m sub : Nat) (told : Bool) (s : State) : State :=
  let s1 := (waitedLocks s m).foldl (fun s l => dropWaiter l m s) s
  (ownedLocks s1 m false).foldl (fun s l => bump 0xC090 sub (breakLock l told s)) s1

/-- PARK: the waits of a thread are cancelled and counted, its locks pass to the parked brick (R364, R388). -/
def parkLocks (t slot : Nat) (s : State) : State :=
  let m := masterOf t
  let s1 := (waitedLocks s m).foldl (fun s l => bump 0xC090 0x0E (dropWaiter l m s)) s
  (ownedLocks s1 m false).foldl (fun s l => modLock l (fun x => { x with owner := slot, pk := true }) s) s1

/-- Resume: the locks and BRKOWN references that name a slot pass to the new thread (R388). -/
def resumeLocks (slot t : Nat) (s : State) : State :=
  let m := masterOf t
  modLocks (fun u => { u with lock := tmap (fun x =>
    let y := if x.pk && decide (x.owner = slot) then { x with owner := m, pk := false } else x
    if y.brk = some (slot, true) then { y with brk := some (m, false) } else y) u.lock }) s

/-! ### The operations (R379) -/

/-- The priority a request carries: a tile thread's is its brick's, and PRIO is ignored (R378). -/
def reqPrio (s : State) (master prio : Nat) : Nat :=
  if bf master 14 2 = 0 then (ownerPrio s master false).getD 0 else prio

/-- Insert a waiter after every waiter of its priority or more. -/
def insertWaiter (m p : Nat) : List (Nat × Nat) → List (Nat × Nat)
  | [] => [(m, p)]
  | w :: t => if p ≤ w.2 then w :: insertWaiter m p t else (m, p) :: w :: t

/-- ACQUIRE; the outcome and the next state. -/
def lockAcquire (queue : Bool) (l m prio : Nat) (s : State) : Nat × State :=
  let x := lockOf s l
  if lockRight s (l / 64) m ≠ 3 then (11, bump 0xC090 0x0A s)
  else if x.state = 0 then
    (1, bump 0xC090 0x01 (startLease l (modLock l (fun x => { x with owner := m, pk := false, state := 1, ab := false }) s)))
  else if x.state = 2 then
    (2, bump 0xC090 0x02 (startLease l (modLock l (fun x => { x with owner := m, pk := false, state := 1, ab := true }) s)))
  else if x.owner = m && !x.pk then (6, startLease l s)
  else if !queue then (4, bump 0xC090 0x04 s)
  else if x.waiters.length = 8 || waitsAny s m then (5, bump 0xC090 0x05 s)
  else
    let p := reqPrio s m prio
    let s1 := modLock l (fun x => { x with waiters := insertWaiter m p x.waiters }) s
    (3, bump 0xC090 0x03 (signalBoost x.owner x.pk p s1))

/-- RELEASE. -/
def lockRelease (l m : Nat) (s : State) : Nat × State :=
  let x := lockOf s l
  if lockRight s (l / 64) m ≠ 3 then (11, bump 0xC090 0x0A s)
  else if x.state = 1 && x.owner = m && !x.pk then (7, bump 0xC090 0x06 (grantNext l s))
  else if x.waiters.any (fun w => decide (w.1 = m)) then (10, bump 0xC090 0x09 (dropWaiter l m s))
  else if x.brk = some (m, false) then (9, bump 0xC090 0x08 (modLock l (fun x => { x with brk := none }) s))
  else
    (8, bump 0xC090 0x07 (modLocks (fun u => { u with
      lastForeign := natLE 2 l ++ natLE 2 m ++ zeros 4 ++ natLE 8 (now s) }) s))

/-- QUERY. -/
def lockQuery (l m : Nat) (s : State) : Nat × State :=
  if lockRight s (l / 64) m = 0 then (11, bump 0xC090 0x0A s) else (12, s)

/-- A request performed: its outcome and the next state. -/
def lockDo (r : LockReq) (s : State) : Nat × State :=
  match r.op.val with
  | 0 => lockAcquire false r.lock.val r.master.toNat r.prio.val s
  | 1 => lockAcquire true r.lock.val r.master.toNat r.prio.val s
  | 2 => lockRelease r.lock.val r.master.toNat s
  | _ => lockQuery r.lock.val r.master.toNat s

/-- Answer a request with the lock's result word (R377, R378). -/
def lockReply (l master : Nat) (r : Nat × State) : State := emit (.reply "LOCKS" master [(lockWord r.2 l r.1).toNat]) r.2

/-- An ACQUIRE's group and priority: the class within which the turn pointer orders; none of another operation. -/
def lockTurn (s : State) (r : LockReq) : Option (Nat × Nat) :=
  if r.op.val < 2 then some (r.lock.val / 64, reqPrio s r.master.toNat r.prio.val) else none

/-- A request's place among those of one CCLK (R391): RELEASEs by master id; ACQUIREs by descending priority, group, and
master id from the group's turn pointer; QUERYs by master id. -/
def lockPlace (s : State) (r : LockReq) : List Nat :=
  match lockTurn s r with
  | some (g, p) => [1, 15 - p, g, (r.master.toNat + 65536 - (tget 0 s.locks.tp g).toNat) % 65536]
  | none => [if r.op.val = 2 then 0 else 2, r.master.toNat]

/-- The turn pointers that ordered requests move: of each group whose ACQUIREs of one priority are two or more, to the
first of them plus 1 (R392). -/
def turnsMoved (s : State) (seen : List (Nat × Nat)) : List LockReq → List (Nat × BitVec 16)
  | [] => []
  | r :: t => match lockTurn s r with
    | some c => if !seen.contains c && t.any (fun y => decide (lockTurn s y = some c))
        then (c.1, r.master + 1) :: turnsMoved s (c :: seen) t else turnsMoved s (c :: seen) t
    | none => turnsMoved s seen t

/-- Requests that reach the unit in one CCLK, each seeing the effects of those before it (R391, R392; DESIGN
CHOICE, log 21). -/
def lockMeet (rs : List LockReq) (s : State) : State :=
  let o := sortBy (lockPlace s) rs
  let s1 := o.foldl (fun x r => lockReply r.lock.val r.master.toNat (lockDo r x)) s
  modLocks (fun u => { u with tp := (turnsMoved s [] o).foldl (fun tp m => tput tp m.1 m.2) u.tp }) s1

/-- A load of operation space at offset `off` from 80_0000h: the result word and the next state (R378). -/
def lockOp (off m : Nat) (s : State) : W64 × State :=
  let l := bf off 3 12
  let prio := bf off 15 4
  let r := match bf off 19 3 with
    | 0 => lockAcquire false l m prio s
    | 1 => lockAcquire true l m prio s
    | 2 => lockRelease l m s
    | 3 => lockQuery l m s
    | _ => (0, s)
  if 4 ≤ bf off 19 3 then (0, s) else (lockWord r.2 l r.1, r.2)

end Sys2Proof.Machine
end

