-- ==== Sys2Proof/Machine/ZmtBase.lean ====
section
/-! DEFINITION. Transport records: peers, outbound messages and how they end (R204, R232, R238, R239). -/

namespace Sys2Proof.Machine

/-! ### Transport reasons (Table 6-10) -/

def zGap : Nat := 0x00
def zBusy : Nat := 0x01
def zBadOp : Nat := 0x02
def zBeyond : Nat := 0x03
def zNoRx : Nat := 0x04
def zUnreach : Nat := 0x05
def zAborted : Nat := 0x06
def zCtrTimeout : Nat := 0x07
def zTooLong : Nat := 0x08
def zBadVersion : Nat := 0x10
def zNoWindow : Nat := 0x11
def zBadJob : Nat := 0x12
def zOutOfWindow : Nat := 0x13
def zRights : Nat := 0x14
def zAlign : Nat := 0x15
def zNoCounter : Nat := 0x16
def zCountOver : Nat := 0x17
def zPoison : Nat := 0x18
def zUnmapped : Nat := 0x19
def zXlate : Nat := 0x1A
def zAtomicUns : Nat := 0x1B
def zNoSlot : Nat := 0x1C
def zNoPeer : Nat := 0x1D

/-! ### Records -/

def peerOf (s : State) (k : Nat) : Option Peer := tfind s.zmt.peers k
def modPeer (k : Nat) (f : Peer → Peer) (s : State) : State := modZmt (fun z => { z with peers := tupd z.peers k f }) s

/-- Index of the record of an endpoint. -/
def peerIdx (s : State) (ep : Nat) : Option Nat := (s.zmt.peers.find? (fun e => decide (e.2.ep = ep))).map (·.1)

def zmsgOf (s : State) (id : Nat) : Option ZMsg := tfind s.zmt.msgs id
def modZmsg (id : Nat) (f : ZMsg → ZMsg) (s : State) : State := modZmt (fun z => { z with msgs := tupd z.msgs id f }) s

/-- A SEND takes the next MSEQ of its peer at its creation (R223); without a record yet, when the record is made. -/
def takeMseq (m : ZMsg) (s : State) : ZMsg × State :=
  match peerIdx s m.ep with
  | some k =>
    if m.op = opSend then ({ m with mseq := ((peerOf s k).map (·.mseq)).getD 0 }, modPeer k (fun p => { p with mseq := p.mseq + 1 }) s)
    else (m, s)
  | none => (m, s)

/-- The SENDs created before their peer's record take its first MSEQs in their order. -/
def numberSends (ep : Nat) (n : BitVec 32) : Tab ZMsg → Tab ZMsg
  | [] => []
  | (id, m) :: t =>
    if m.ep = ep ∧ m.op = opSend then (id, { m with mseq := n }) :: numberSends ep (n + 1) t else (id, m) :: numberSends ep n t

/-- SENDs that wait to an endpoint. -/
def sendsTo (s : State) (ep : Nat) : Nat := (s.zmt.msgs.filter (fun e => decide (e.2.ep = ep ∧ e.2.op = opSend))).length

/-- Create a message and put it behind the others; its MSG_ID is its own number unless one is given. -/
def zmsgNew (m : ZMsg) (s : State) : Nat × State :=
  let id := s.zmt.nextMsg
  let r := takeMseq (if m.id = 0 then { m with id := id } else m) s
  (id, modZmt (fun z => { z with msgs := tput z.msgs id r.1, nextMsg := id % (2 ^ 32 - 1) + 1 }) r.2)

/-- A message leaves: its response-table entries are free. Its packets already sent stay
outstanding, so that the sequence stream goes on (DESIGN CHOICE, log 76). -/
def zmsgDrop (id : Nat) (s : State) : State :=
  modZmt (fun z => { z with msgs := tdel z.msgs id,
                            peers := tmap (fun p => { p with resp := tfilter (fun _ r => decide (r.msg ≠ id)) p.resp }) z.peers }) s

/-- A message completes (R219-R224, R238). -/
def zmsgDone (id : Nat) (s : State) : State :=
  match zmsgOf s id with
  | none => s
  | some m =>
    let s1 := zmsgDrop id s
    if m.inner then s1
    else
      let s2 := bump 0xC068 0x02 (ledComplete 2 s1)
      match m.cmd with
      | some c => endCmd c 0 m.n false m.res 0 0 s2
      | none => s2

/-- A message fails with a reason of Table 6-10, raised here or (`remote`) by the peer. -/
def zmsgEndFail (id code : Nat) (remote : Bool) (s : State) : State :=
  match zmsgOf s id with
  | none => s
  | some m =>
    let s1 := zmsgDrop id s
    if m.inner then s1
    else
      let s2 := bump 0xC068 0x03 (ledFail 2 (zmtReason code) 0x0F 0 (m.id + m.ep * 2 ^ 32) s1)
      match m.cmd with
      | some c => endCmd c (0x40 + code) m.acked remote 0 0 0 s2
      | none => s2

/-- The codes of Table 6-10 by which a message fails. -/
def msgFailCodes : List Nat :=
  [zUnreach, zTooLong, zBadVersion, zNoWindow, zBadJob, zOutOfWindow, zRights, zAlign, zNoCounter, zCountOver, zPoison, zUnmapped,
   zXlate, zAtomicUns, zNoSlot, zNoPeer]

/-- The brick that carries out a REDUCE ends: its message completes with it, the end of the brick standing for its last
ATOMIC (DESIGN CHOICE, log 154), or fails. Table 6-10 has no reason for a failed brick: the code is a free one of those it has
(DESIGN CHOICE, log 155). -/
def zFallbackEnd (bid reason : Nat) (s : State) : State :=
  match s.zmt.msgs.find? (fun e => decide (e.2.bid = some bid)) with
  | none => s
  | some (id, _) =>
    if reason = 0 then zmsgDone id s
    else drawn (zmsgEndFail id (msgFailCodes.getD (freeNat s % 16) zUnreach) false s)

/-- A peer record is discarded: its messages fail with NO_PEER_STATE (R179, R204). -/
def peerDiscard (k : Nat) (s : State) : State :=
  match peerOf s k with
  | none => s
  | some p =>
    let ids := (s.zmt.msgs.filter (fun e => decide (e.2.ep = p.ep))).map (·.1)
    modZmt (fun z => { z with peers := tdel z.peers k }) (ids.foldl (fun s i => zmsgEndFail i zNoPeer false s) s)

end Sys2Proof.Machine
end

