-- ==== Sys2Proof/Machine/SchedOps.lean ====
section
/-! DEFINITION. Bricks: their fields, acceptance, ready queues, delay lists, and how they end (chapter 10). -/

namespace Sys2Proof.Machine

/-! ### Brick fields (Table 10-1) -/

def bkWord (ws : List W64) (i : Nat) : Nat := (ws.getD i 0).toNat
def bkKind (ws : List W64) : Nat := bf (bkWord ws 0) 0 4
def bkClass (ws : List W64) : Nat := bf (bkWord ws 0) 8 6
def bkPl (ws : List W64) : Nat := bf (bkWord ws 0) 14 1
def bkIdem (ws : List W64) : Bool := bit (bkWord ws 0) 15
def bkLhv (ws : List W64) : Bool := bit (bkWord ws 0) 16
def bkLockh (ws : List W64) : Nat := bf (bkWord ws 0) 20 12
def bkAff (ws : List W64) : Nat := bf (bkWord ws 0) 32 12
def bkBudget (ws : List W64) : Nat := bf (bkWord ws 0) 48 16
def bkEntry (ws : List W64) : Nat := bf (bkWord ws 1) 0 17
def bkPasid (ws : List W64) : Nat := bf (bkWord ws 1) 20 20
def bkBid (ws : List W64) : Nat := bf (bkWord ws 7) 0 32

/-- The class table: word A (Table 10-6, 400h) and word B (600h). -/
def classA (s : State) (c : Nat) : Nat := cfg s 0x8420 (c + 1)
def classB (s : State) (c : Nat) : Nat := cfg s 0x8430 (c + 1)
def classRq (s : State) (c : Nat) : Nat := bf (classA s c) 18 5
def classEvb (s : State) (c : Nat) : Nat := bf (classA s c) 32 13
def classBudget (s : State) (c : Nat) : Nat := bf (classB s c) 0 16

/-- A ready queue's configuration: RQPRIO 3:0, RQAFF 15:4, EN 16. -/
def rqCfg (s : State) (q : Nat) : Nat := cfg s 0x8410 (q + 1)

def tileEn (s : State) : Nat := cfg s 0x8402 0x01
def tileDrain (s : State) : Nat := cfg s 0x8402 0x02

/-- The budget of a brick: its own, or its class's when it carries 0 (R343). -/
def budgetOf (s : State) (ws : List W64) : Nat := if bkBudget ws = 0 then classBudget s (bkClass ws) else bkBudget ws

/-- The words of a brick that hardware creates: the class gives ENTRY, PL, PRIO, IDEM, AFF and BUDGET (R343). -/
def hwBrick (s : State) (kind cls pay0 pay1 : Nat) (arg0 arg1 : W64) : List W64 :=
  let a := classA s cls
  let b := classB s cls
  [BitVec.ofNat 64 (kind + bf a 23 4 * 2 ^ 4 + cls * 2 ^ 8 + bf a 17 1 * 2 ^ 14 + bf a 27 1 * 2 ^ 15 +
      bf b 16 12 * 2 ^ 32 + bf b 0 16 * 2 ^ 48),
   BitVec.ofNat 64 (bf a 0 17), BitVec.ofNat 64 pay0, BitVec.ofNat 64 pay1, arg0, arg1, 0, 0]

/-! ### Stores and queues -/

def rqOf (s : State) (q : Nat) : List QBrick := tget [] s.sched.rq q
def modRq (q : Nat) (f : List QBrick → List QBrick) (s : State) : State :=
  modSched (fun u => { u with rq := tset [] u.rq q (f (tget [] u.rq q)) }) s
def dlOf (s : State) (k : Nat) : List DlEnt := tget [] s.sched.dl k
def modDl (k : Nat) (f : List DlEnt → List DlEnt) (s : State) : State :=
  modSched (fun u => { u with dl := tset [] u.dl k (f (tget [] u.dl k)) }) s

/-- Bricks on chip, and bricks in the overflow (delayed ones among them). -/
def onchipCount (s : State) : Nat := (s.sched.rq.map (fun e => (e.2.filter (fun b => !b.spilled)).length)).sum
def overflowCount (s : State) : Nat :=
  (s.sched.rq.map (fun e => (e.2.filter (·.spilled)).length)).sum + (s.sched.dl.map (fun e => e.2.length)).sum

/-- Queue `q` holds a spilled brick. -/
def rqSpilled (s : State) (q : Nat) : Bool := (rqOf s q).any (·.spilled)

/-- Put a brick at the tail of a queue, on chip or in the overflow (R344, R345). -/
def rqPush (q : Nat) (words : List W64) (cont : Option Nat) (s : State) : State :=
  if onchipCount s < 16384 && !rqSpilled s q then
    modRq q (fun l => l ++ [{ words := words, cont := cont, spilled := false }]) s
  else bump 0xC080 0x0F (modRq q (fun l => l ++ [{ words := words, cont := cont, spilled := true }]) s)

/-- Insert into a delay list after every entry that falls due no later (R354). -/
def dlInsert (e : DlEnt) : List DlEnt → List DlEnt
  | [] => [e]
  | x :: t => if x.due ≤ e.due then x :: dlInsert e t else e :: x :: t

/-- The tiles a queued brick may run on while they are enabled and not draining. -/
def openTiles (s : State) (q : Nat) (words : List W64) : Nat :=
  bkAff words &&& bf (rqCfg s q) 4 12 &&& tileEn s &&& (0xFFF - tileDrain s % 4096)

/-- Count a brick that waits while the tiles it names drain or are off (R368). -/
def countWaiting (q : Nat) (words : List W64) (s : State) : State :=
  if openTiles s q words = 0 then bump 0xC080 0x11 s else s

/-- Count a refusal by its POST_STAT code. -/
def countRefusal (st : Nat) (s : State) : State :=
  match st with
  | 1 => bump 0xC080 0x09 s
  | 2 => bump 0xC080 0x0A s
  | 3 => bump 0xC080 0x0B s
  | _ => bump 0xC080 0x0C s

/-- Ledger reason of a refusal (Table 19-3). -/
def refusalReason (st : Nat) : Nat :=
  match st with
  | 1 => 0x42
  | 2 => 0x43
  | 3 => 0x44
  | 4 => 0x40
  | _ => 0x41

/-- Give an accepted brick its BID and creator, and count it in the ledger (R344). -/
def stampBrick (words : List W64) (master : Nat) (s : State) : List W64 × State :=
  let bid := s.sched.nextBid
  (words.take 7 ++ [BitVec.ofNat 64 (bid.toNat + master % 2 ^ 16 * 2 ^ 32)],
   ledAccept 3 (modSched (fun u => { u with nextBid := u.nextBid + 1 }) s))

/-- The checks of R344 that a delayed and an immediate brick share: 0, BAD_BRICK or NO_TILE. -/
def brickCheck (s : State) (words : List W64) (posterU : Bool) : Nat :=
  let c := bkClass words
  if bkKind words = 0 ∨ 4 < bkKind words ∨ (bkKind words = 4 ∧ bkPl words = 1 ∧ posterU) then 4
  else if classBudget s c = 0 ∧ bkBudget words = 0 then 4
  else if bkAff words &&& bf (rqCfg s (classRq s c)) 4 12 &&& tileEn s = 0 then 5
  else 0

/-- The brick store has room for a brick of queue `q`, on chip or in the overflow (R344). -/
def brickRoom (s : State) (q : Nat) : Bool :=
  (decide (onchipCount s < 16384) && !rqSpilled s q) || decide (overflowCount s < 1048576)

/-- BRICK_ACCEPT of an immediate brick: POST_STAT code, BID, next state (R344). -/
def acceptBrick (words : List W64) (master : Nat) (posterU : Bool) (s : State) : Nat × BitVec 32 × State :=
  let q := classRq s (bkClass words)
  let c := brickCheck s words posterU
  if c ≠ 0 then (c, 0, countRefusal c s)
  else if brickRoom s q then
    let r := stampBrick words master s
    (0, s.sched.nextBid, countWaiting q r.1 (rqPush q r.1 none r.2))
  else (1, 0, countRefusal 1 s)

/-- Whether a brick or continuation of queue `q` may go on list DLk, or into its queue at once when its due boundary has
passed: 0, TOO_FAR, DL_FULL or SCHED_FULL (R344, R354). -/
def delayCheck (s : State) (k due q : Nat) : Nat :=
  if now s + 2 ^ 40 < due then 3
  else if dlUp k due ≤ now s then (if brickRoom s q then 0 else 1)
  else if 262144 ≤ (dlOf s k).length then 2
  else if 1048576 ≤ overflowCount s then 1
  else 0

/-- Put a brick or continuation on list DLk, or queue it at once and count it late (R354). -/
def delayPush (k due q : Nat) (words : List W64) (cont : Option Nat) (s : State) : State :=
  if dlUp k due ≤ now s then bump 0xC080 0x0E (rqPush q words cont s)
  else modDl k (dlInsert { due := dlUp k due, b := { words := words, cont := cont, spilled := true } }) s

/-- BRICK_ACCEPT of a delayed brick. -/
def acceptDelayed (words : List W64) (master k due : Nat) (posterU : Bool) (s : State) : Nat × BitVec 32 × State :=
  let c := brickCheck s words posterU
  let d := if c ≠ 0 then c else delayCheck s k due (classRq s (bkClass words))
  if d ≠ 0 then (d, 0, countRefusal d s)
  else
    let r := stampBrick words master s
    (0, s.sched.nextBid, delayPush k due (classRq s (bkClass words)) r.1 none r.2)

/-! ### Ends (R359, R360) -/

/-- Ledger reason of an ENDB status; 0 completes (R359, R618). -/
def endbReason (st : Nat) : Nat :=
  if st = 0 then 0
  else if 0x100 ≤ st then 0x49
  else if 0x80 ≤ st ∨ (0x01 ≤ st ∧ st ≤ 0x0E) ∨ (0x21 ≤ st ∧ st ≤ 0x28) ∨ (0x30 ≤ st ∧ st ≤ 0x37) ∨
      (0x3B ≤ st ∧ st ≤ 0x3D) ∨ (0x40 ≤ st ∧ st ≤ 0x4B) ∨ (0x50 ≤ st ∧ st ≤ 0x56) then st
  else 0x49

/-- A brick ends: reason 0 completes it. A HOST brick completes its command with the status in RESULT (Table 16-6),
and a TRANSPORT brick the REDUCE it carries out (R207). -/
def endBrick (words : List W64) (reason status : Nat) (s : State) : State :=
  let bid := bkBid words
  let s1 := if reason = 0 then ledComplete 3 s else ledFail 3 reason 0x10 status (bf (bkWord words 7) 0 48) s
  if bkKind words = 3 then
    match cmdByLink s1 0x04 bid with
    | some id =>
      if reason = 0 then endCmd id 0 0 false 0 0 0 s1
      else endCmd id 0x80 0 false (BitVec.ofNat 64 status) 0 reason s1
    | none => s1
  else if bkKind words = 2 then zFallbackEnd bid reason s1
  else s1

/-- Every thread of a draining tile is IDLE: DRAINED is set (R368). -/
def checkDrained (tile : Nat) (s : State) : State :=
  if tile < 12 && bit (tileDrain s) tile && (tileThreads tile).all (fun t => decide ((thr s t).state = .idle)) then
    modSched (fun u => { u with drained := BitVec.ofNat 12 (bitPut u.drained.toNat tile true), drainAt := tdel u.drainAt tile }) s
  else s

/-- Discard the coprocessor instruction a thread has not committed; the thread stands at it again (R274, R429). -/
def squashCpx (t : Nat) (s : State) : State :=
  match (thr s t).cpx.find? (fun c => !c.committed) with
  | some c => armSettle t c (bump (0xC0B0 + tileOf t) 0x0B
      (modThr t (fun x => { x with cpx := x.cpx.filter (·.committed), pc := BitVec.ofNat 17 c.pc }) s))
  | none => s

/-- Leave a thread IDLE: what it held for its brick is gone, and it votes as A010h.02 says (R591). Stores of it already in
the store buffer stay there, and a committed coprocessor instruction finishes without its registers (R430). -/
def idleThread (t : Nat) (s : State) : State :=
  pairVote t (checkDrained (tileOf t) (dropHandles (masterOf t) (watchDrop t (modThr t (fun x => { x with
    state := .idle, hold := .none, brick := none, charge := 0, limit := 0, budgetTaken := false, boost := 0,
    pair := none, posted := [], poisons := [], cpx := x.cpx.map (fun c => { c with dead := true }), shadow := none, stall := false, stepLeft := none,
    halted := false, haltReq := false, prg := false }) s))))

/-- Free a thread at ENDB or at a brick failure that frees it: channel state, locks (R324, R387). -/
def freeThread (t : Nat) (s : State) : State :=
  idleThread t (breakMaster (masterOf t) 0x0D true (chanCleanup t s))

/-- Reset a thread: steps 1-3 of R358 (R324, R386). Its master id then waits on nothing and owns nothing. -/
def resetThread (t : Nat) (s : State) : State :=
  idleThread t (breakMaster (masterOf t) 0x0C true (chanCleanup t (squashCpx t s)))

/-- The brick of a thread lost without ENDB or PARK: queued again with its BID when IDEM, else failed (R360). -/
def lostBrick (words : List W64) (reason : Nat) (s : State) : State :=
  if bkIdem words then bump 0xC080 0x08 (rqPush (classRq s (bkClass words)) words none s)
  else endBrick words reason 0 s

/-! ### Continuations (R365-R367) -/

/-- The ready queue of a continuation: the lowest-numbered enabled queue of sufficient priority that meets AFF, or its
class's queue (R367). -/
def contQueue (s : State) (c : Cont) : Nat :=
  ((List.range 32).find? (fun q => bit (rqCfg s q) 16 && decide (c.prio ≤ bf (rqCfg s q) 0 4) &&
    decide (bf (rqCfg s q) 4 12 &&& bkAff c.words ≠ 0))).getD (classRq s (bkClass c.words))

/-- Queue the continuation of a slot at once. -/
def contReady (slot : Nat) (s : State) : State :=
  match tfind s.sched.cont slot with
  | some c => rqPush (contQueue s c) c.words (some slot) s
  | none => s

/-- The list of a deadline that lies `d` ns ahead (R365). -/
def contList (d : Nat) : Nat := if d < 2 ^ 16 then 0 else if d < 2 ^ 26 then 1 else if d < 2 ^ 36 then 2 else 3

/-- CONTINUATION_QUEUE after PARK or a page response (R365, R366). A page response that failed leaves XLATE_FAIL in the
restored ecause. -/
def contResponse (slot : Nat) (ok : Bool) (s : State) : State :=
  match tfind s.sched.cont slot with
  | some c =>
    if c.waitPrg then
      let e := if ok then c.ecause else BitVec.ofNat 64 (bput c.ecause.toNat 8 8 0x0C)
      contReady slot (modSched (fun u => { u with cont := tput u.cont slot { c with waitPrg := false, ecause := e } }) s)
    else s
  | none => s

end Sys2Proof.Machine
end

