-- ==== Sys2Proof/Machine/DomReset.lean ====
section
/-! DEFINITION. What a power domain loses in NIGHT or DARK (R585, R586, R593, R597), and what a Dawn leaves (R629,
R630). -/

namespace Sys2Proof.Machine

/-! ### One domain (R586) -/

/-- The byte lies in a retention bank that A020h.01 selects (R597). -/
def retained (s : State) (a : Nat) : Bool :=
  match regionOf a with
  | .tileStore t => decide (a - (0xE000000000 + t * 0x200000) < 5 * 0x40000) &&
      bit (cfg s 0xA020 0x01) (5 * t + (a - (0xE000000000 + t * 0x200000)) / 0x40000)
  | .sram => bit (cfg s 0xA020 0x01) (60 + (a - 0xE300000000) / 0x40000)
  | _ => false

/-- The registers of a thread that its pair's save area keeps (R593), in a thread whose other state is as after Dawn. -/
def savedThread (x : Thread) : Thread :=
  { w := x.w, pc := x.pc, st := x.st, cs := x.cs, spc := x.spc, sst := x.sst, ecause := x.ecause, eaddr := x.eaddr,
    einst := x.einst, enu := x.enu, scr := x.scr, state := x.state, hold := x.hold, brick := x.brick, charge := x.charge,
    limit := x.limit, budgetTaken := x.budgetTaken, boost := x.boost, wctl := x.wctl, sig := x.sig, watch := x.watch,
    timer := x.timer, stall := x.stall, tdl := x.tdl, tdlSet := x.tdlSet, evbase := x.evbase, chsel := x.chsel,
    charm := x.charm, wstat := x.wstat, chEmpty := x.chEmpty, chLast := x.chLast, rlen := x.rlen, loads := x.loads,
    haltReq := x.haltReq, halted := x.halted, haltAt := x.haltAt, shadow := x.shadow, cpx := x.cpx }

/-- A core pair: near stores, shared registers, caches and store buffers are lost; its threads are saved when it slept by
votes. -/
def losePair (d : Nat) (s : State) : State :=
  let c := d / 5 * 8 + d % 5 * 2
  let keepThreads := (domOf s d).saved
  let s1 := (pairThreads d).foldl (fun s t => modThr t (fun x => if keepThreads then savedThread x else {}) s) s
  let s2 := modCpu (fun u => { u with core := tdel (tdel u.core c) (c + 1) }) s1
  memZero (0xE100000000 + c * 0x10000) (0xE100000000 + (c + 2) * 0x10000) (fun _ => false) s2

/-- CP_EN_S of a tile takes the value of 8001h.01 (R279). -/
def tileImage (tile : Nat) (s : State) : State :=
  modTile tile (fun x => { x with cpEn := BitVec.ofNat 3 (cfg s 0x8001 0x01) }) s

/-- AGE_TICKS takes the value of 6020h.02 (R177). -/
def ageImage (s : State) : State := modFwd (fun f => { f with ageTicks := agePeriod (cfg s 0x6020 0x02) }) s

/-- Tile services: the tile store outside its retained banks, the code store, the event controller, channels,
coprocessors, trace buffer and save area. In DARK nothing is retained. -/
def loseTile (tile : Nat) (night : Bool) (s : State) : State :=
  let keep := fun (a : Nat) => night && retained s a
  let s1 := memZero (0xE000000000 + tile * 0x200000) (0xE000000000 + (tile + 1) * 0x200000) keep s
  let s2 := memZero (0xE200000000 + tile * 0x80000) (0xE200000000 + (tile + 1) * 0x80000) (fun _ => false) s1
  let s3 := modDbg (fun d => { d with trace := tdel d.trace tile })
    (modCops (fun c => { c with tile := tdel c.tile tile }) (modCpu (fun u => { u with tile := tdel u.tile tile }) s2))
  tileImage tile ((List.range 4).foldl (fun s i => modDom (5 * tile + i) (fun x => { x with saved := false }) s) s3)

/-- A port: both sub-ports and the program store and bindings of its pipeline. -/
def losePort (p : Nat) (s : State) : State :=
  let s1 := modFab (fun f => { f with sub := tdel (tdel f.sub (2 * p)) (2 * p + 1) }) s
  modCls (fun c => { c with
    prog := tfilter (fun k _ => decide (k / 4096 ≠ p)) c.prog,
    entry := tfilter (fun k _ => decide (k / 2 ≠ p)) c.entry,
    images := c.images.filter (fun e => decide (e.1 ≠ p)) }) s1

/-- The blocks of a stack, by byte address. -/
def onStack (s : State) (k a : Nat) : Bool := decide (a < 0x2A00000000) && decide ((hbmPlace s.hbm.order a).stack = k)

/-- A stack that is powered off: its data and tags read 0 after the zero fill (R508), and its controller starts again. -/
def loseStack (k : Nat) (s : State) : State :=
  let s1 := modMem (fun m => {
    byte := tfilter (fun a _ => !onStack s k a) m.byte, tag := tfilter (fun w _ => !onStack s k (w * 8)) m.tag }) s
  modHbm (fun h => { h with
    pc := tfilter (fun p _ => decide (p / 32 ≠ k)) h.pc, tc := tfilter (fun n _ => decide (n / 2048 ≠ k)) h.tc,
    ownCfg := tfilter (fun n _ => decide (n / 8 ≠ k)) h.ownCfg }) s1

/-- Both copies of the items on HS0 and HS2 are gone: the endpoint table and the peer records (Table 15-3). -/
def loseEndpoints (s : State) : State :=
  modZmt (fun z => { z with peers := [] }) (modFwd (fun f => { f with et := [], cache := [] }) s)

/-- Both copies of the items on HS1 and HS3 are gone: lock state, ready queues and delay lists, continuation slots, windows and
counters, what the receivers keep, and the image copies. -/
def loseHeads (s : State) : State :=
  modDbg (fun d => { d with copy := [] })
    (modLocks (fun l => { l with lock := [] })
      (modSched (fun u => { u with rq := [], dl := [], cont := [] })
        (modZmt (fun z => { z with win := [], ctr := [], asm := [], peers := tmap (fun p => { p with seen := [], resp := [] }) z.peers }) s)))

/-- The contents of a stack are lost: its pieces of the reference records, and the mirrored items whose other copy is gone too
(R494; DESIGN CHOICE, log 97). -/
def loseMetadata (k : Nat) (s : State) : State :=
  let s1 := modHbm (fun h => { h with metaGone := k :: h.metaGone.filter (· ≠ k) }) s
  let s2 := if tget 0 s.hbm.retire k = 2 then s1
    else modBufs (fun b => { b with recs := tfilter (fun n _ => decide (stripeStack s (8 * n) ≠ k)) b.recs }) s1
  if (k + 2) % 4 ∈ s.hbm.metaGone then (if k % 2 = 0 then loseEndpoints s2 else loseHeads s2) else s2

/-- A domain has switched off: it comes back as after Dawn but for what its state keeps. -/
def loseDomain (d : Nat) (night : Bool) (s : State) : State :=
  if d < 60 then (if d % 5 = 4 then loseTile (d / 5) night s else losePair d s)
  else if d < 68 then losePort (d - 60) s
  else if d < 72 then
    (if night && decide (cfg s 0x9404 (d - 67) = 1) then stackSelfRefresh (d - 68) (stackDrain (d - 68) s)
     else loseMetadata (d - 68) (loseStack (d - 68) s))
  else if d < 76 then
    modCls (fun c => { c with
      ent := tfilter (fun k _ => decide (k / 8192 ≠ d - 72)) c.ent,
      pkts := tfilter (fun k _ => decide (k / 65536 ≠ d - 72)) c.pkts,
      byts := tfilter (fun k _ => decide (k / 65536 ≠ d - 72)) c.byts,
      meters := tfilter (fun k _ => decide (k / 4096 ≠ d - 72)) c.meters }) s
  else if d = 76 then modMat (fun _ => {}) s
  else if d = 77 then ageImage (modFwd (fun f => { et := f.et }) s)
  else if d = 78 then modHost (fun h => { cmq := h.cmq, items := h.items }) s
  else
    modBufs (fun b => { recs := b.recs, lastError := b.lastError, plog := b.plog })
      (modLocks (fun l => { lock := l.lock }) (modSched (fun u => { cont := u.cont, nextBid := u.nextBid, dl := u.dl, rq := u.rq }) s))

/-! ### Dawn (R629, R630) -/

/-- Stores and units as a Dawn leaves them: every domain except AON is reset, every item in flight has ended without a
record, ledger rows and counters are 0, and every entry that is not persistent is at its default (R554). Steward SRAM is
kept until Dawn-0 zeroes it (DESIGN CHOICE, log 100). -/
def dawnReset (s : State) : State :=
  { clk := { s.clk with frozen := none, sub := [], ptp := [] }
    dict := { s.dict with vals := [], staged := [], inbox := [], fabTx := [], eid := [], alertLedger := false, alertDawn := false }
    mem := { byte := tfilter (fun a _ => decide (regionOf a = .sram)) s.mem.byte,
             tag := tfilter (fun w _ => decide (regionOf (w * 8) = .sram)) s.mem.tag }
    power := { wsrc := s.power.wsrc, wgroup := s.power.wgroup, wakeAt := s.power.wakeAt }
    hbm := { repairs := s.hbm.repairs }
    dbg := { flash := s.dbg.flash, bootSel := s.dbg.bootSel, cpos := s.dbg.cpos, pwrGood := s.dbg.pwrGood,
             dawnCount := s.dbg.dawnCount, lastReset := s.dbg.lastReset, pushed := s.dbg.pushed,
             bp := s.dbg.bp, wp := s.dbg.wp, nonce := s.dbg.nonce, scope := s.dbg.scope, maker := s.dbg.maker,
             fails := s.dbg.fails, failAt := s.dbg.failAt, cause := s.dbg.cause, fAt := s.dbg.fAt, sAt := s.dbg.sAt,
             relAt := s.dbg.relAt, phaseAt := now s }
    out := s.out
    free := s.free
    pending := s.pending }

/-- Dawn begins again at Dawn-0: the reset above, and one more Dawn counted (R630). -/
def dawnStart (s : State) : State :=
  bump 0xC110 0x01 (modDbg (fun d => { d with dawnCount := d.dawnCount + 1 }) (dawnReset s))

end Sys2Proof.Machine
end

