-- ==== Sys2Proof/Machine/Dawn.lean ====
section
/-! DEFINITION. Dawn, firmware images A and B, resets (R629-R642). -/

namespace Sys2Proof.Machine

/-! ### Reset inputs (R629, R662) -/

/-- Dawn restarts with the straps sampled. -/
def strapped (bootSel cpos : BitVec 2) (why : Nat) (s : State) : State :=
  modDbg (fun d => { d with bootSel := bootSel, cpos := cpos, lastReset := why }) s

/-- PWR_GOOD_RISE: AON powers up, the FTC starts from 0, and the journal goes on from flash (R43, R579). Its Dawn is counted
when Dawn-0 ends: 1001h.01 reads 0 until then. -/
def execPwrGoodRise (bootSel cpos : BitVec 2) (s : State) : Host.Outcome State Fault Refusal :=
  .next (if s.dbg.pwrGood then s
    else modPower (fun p => { p with dom := [] })
      (strapped bootSel cpos 0 (modClk (fun _ => {}) (modDbg (fun d => { d with pwrGood := true, phase := 0, phaseAt := 0 }) s))))

/-- What AON keeps without power: flash, fuses and keys, the persistent configuration's flash mirror, the journal's flash
ring. The journal goes on from the last SEQ in flash plus 1, with a GAP record (R554, R579; DESIGN CHOICE, log 101). -/
def powerLost (d : Dict) : Dict :=
  { persist := d.persist, installerKey := d.installerKey, operatorKeys := d.operatorKeys, claimFuses := d.claimFuses,
    jFlash := d.jFlash, jGap := true,
    jNext := BitVec.ofNat 64 ((d.jFlash.getLast?.map (fun e => e.1 + 1)).getD 0) }

/-- PWR_GOOD_FALL: every domain goes off, AON included, and every item in flight ends without a record. -/
def execPwrGoodFall (s : State) : Host.Outcome State Fault Refusal :=
  .next { dict := powerLost s.dict
          power := { dom := (List.range 80).map (fun d => (d, { state := 3 })) }
          hbm := { repairs := s.hbm.repairs }
          dbg := { flash := s.dbg.flash, pwrGood := false }
          out := s.out
          free := s.free
          pending := s.pending }

/-- RESET_N_ASSERT. A freeze is abandoned (R654). -/
def execResetNAssert (bootSel cpos : BitVec 2) (s : State) : Host.Outcome State Fault Refusal :=
  .next (if s.dbg.pwrGood then strapped bootSel cpos 1 (dawnStart s) else s)

/-! ### Dawn phases (R634-R637) -/

/-- A phase ends and the next begins. -/
def phaseNext (s : State) : State :=
  modDbg (fun d => { d with times := d.times.set d.phase s.clk.ftc, phase := d.phase + 1, phaseAt := now s }) s

/-- The images Dawn tries, in order (R635). A pushed image is in slot 0 (DESIGN CHOICE, log 103). -/
def bootOrder (s : State) : List Nat :=
  let b := cfg s 0xE000 0x01
  match s.dbg.bootSel.toNat with
  | 0 => [b, 1 - b, 2]
  | 1 => [2, b, 1 - b]
  | _ => if s.dbg.pushed then [0] else []

/-- Try images until one is accepted, counting failures and fallbacks. -/
def tryImages : List Nat → State → Option Nat × State
  | [], s => (none, s)
  | k :: t, s =>
    if imageVerify s k = 0 then (some k, s)
    else
      let s1 := bump 0xC110 0x02 s
      tryImages t (if t.isEmpty then s1 else bump 0xC110 0x03 s1)

/-- Dawn-0 ends: steward SRAM is zeroed (R480). The first Dawn after power-up is counted (DESIGN CHOICE, log 102). -/
def dawn0End (s : State) : State :=
  let s1 := memZero 0xE300000000 0xE300100000 (fun _ => false) s
  let s2 := if s1.dbg.dawnCount = 0 then bump 0xC110 0x01 (modDbg (fun d => { d with dawnCount := 1 }) s1) else s1
  phaseNext s2

/-- Dawn-1 ends: the persistent configuration is in force, and the steward code of an accepted image is in SRAM; with no
image Dawn waits, and ALERT_N is asserted (R554, R635, R676). -/
def dawn1End (s : State) : State :=
  let s1 := modDict (fun d => { d with vals := d.persist.foldl (fun t e => tput t e.1 e.2) d.vals }) s
  match tryImages (bootOrder s1) s1 with
  | (some k, s2) =>
    let s3 := putCode 0xE300000000 (slotSection s2 k 1) (loadValues k s2)
    phaseNext (modDict (fun d => { d with alertDawn := false }) (modDbg (fun d => { d with
      slot := if d.bootSel = 2 then 3 else k, stuck := false, pushed := false }) s3))
  | (none, s2) =>
    if s2.dbg.stuck then s2
    else emit (.ibi 2) (modDict (fun d => { d with alertDawn := true }) (modDbg (fun d => { d with stuck := true }) s2))

/-- Dawn-2 ends: HBM holds zeros in the order selected, both halves of every code store are loaded, and the course load
set is course 1 (R148, R490, R496, R508). -/
def dawn2End (trained : BitVec 4) (s : State) : State :=
  let code := slotSection s (usedSlot s) 2
  let s1 := modHbm (fun h => { h with
    order := cfg s 0x9400 0x03,
    state := (List.range 4).foldl (fun t k => tset 0 t k (if trained.getLsbD k then 2 else 0)) h.state }) s
  let s2 := loadImage 1 (usedSlot s) code (loadImage 0 (usedSlot s) code s1)
  let s3 := loadCourse (Config.imageCourse (slotSection s (usedSlot s) 3)) s2
  phaseNext (modCls (fun c => { c with meterDawn := now s }) s3)

/-- Dawn-3 ends and Dawn-4 begins: registers that hold images of entries take their values; tile and port domains whose target is not DAY stay asleep, and admin-up ports start to
train. -/
def dawn3End (s : State) : State :=
  let s0 := ageImage ((List.range 12).foldl (fun s t => tileImage t s) s)
  let s1 := (List.range 68).foldl (fun s d =>
    if 2 ≤ cfg s 0xA002 (d + 1) then modDom d (fun x => { x with state := cfg s 0xA002 (d + 1) }) s else s) s0
  phaseNext ((List.range 16).foldl (fun s sp =>
    if adminUp s (sp / 2) && decide (domState s (60 + sp / 2) = 0) && decide ((subOf s sp).oper = 0) then startTraining sp s else s) s1)

/-- Every admin-up port has finished its first training, and the time state has left FREE_RUN (R636; DESIGN CHOICE,
log 104). -/
def dawn4Ready (s : State) : Bool :=
  (List.range 16).all (fun sp => !adminUp s (sp / 2) || decide ((subOf s sp).oper ≠ 1)) && decide (s.clk.state ≠ 0)

/-- DAWN_PHASE_END: the phase in progress ends. The maker test halts at the end of Dawn-0. -/
def execDawnPhaseEnd (trained : BitVec 4) (s : State) : Host.Outcome State Fault Refusal :=
  .next (if !s.dbg.pwrGood then s
    else match s.dbg.phase with
    | 0 => if s.dbg.bootSel = 3 then s else dawn0End s
    | 1 => dawn1End s
    | 2 => dawn2End trained s
    | 3 => dawn3End s
    | 4 => if dawn4Ready s then phaseNext s else s
    | _ => s)

/-- DAWN4_TIMEOUT: Dawn-4 ends 2 s after it began. -/
def execDawn4Timeout (s : State) : Host.Outcome State Fault Refusal :=
  .next (if s.dbg.phase = 4 ∧ s.dbg.phaseAt + 2000000000 ≤ now s then phaseNext s else s)

/-! ### Images A and B (R640-R642) -/

/-- IMG_USE: bricks queued, delayed, running or parked whose ENTRY, pc or EVBASE lies in an image. -/
def imgUse (s : State) (img : Nat) : Nat :=
  let queued := (s.sched.rq.map (·.2)).flatten ++ (s.sched.dl.map (fun e => e.2.map (·.b))).flatten
  let q := (queued.filter (fun b => b.cont.isNone && decide (bkEntry b.words / 65536 = img))).length
  let r := ((List.range 768).filter (fun t =>
    let x := thr s t
    match x.brick with
    | some ws => decide (bkEntry ws / 65536 = img) || decide (x.pc.toNat / 65536 = img) || decide (x.evbase.toNat / 4096 = img)
    | none => false)).length
  let p := (s.sched.cont.filter (fun e =>
    decide (bkEntry e.2.words / 65536 = img) || decide (e.2.pc.toNat / 65536 = img))).length
  q + r + p

/-- E010h.02: load the image of slot E010h.01 into the inactive image. -/
def wrImageLoad : WriteEff := fun _ v s =>
  if leNat v ≠ 1 then (stRange, s)
  else if s.dbg.load.isSome ∨ imgUse s (1 - s.dbg.active) ≠ 0 then (stBusy, s)
  else (stOk, modDbg (fun d => { d with load := some (cfg s 0xE010 0x01), loadResult := 5 }) s)

/-- IMAGE_LOAD. -/
def execImageLoad (h : DHdr) (v : Bytes) (s : State) : Host.Outcome State Fault Refusal :=
  .next (dictWriteRow h 0xE010 0x02 v wrImageLoad s)

/-- Every class entry moves into the other image, and it becomes active (R641). -/
def doSwap (back : Bool) (s : State) : State :=
  let n := 1 - s.dbg.active
  let move := fun (s : State) (c : Nat) =>
    setVal 0x8420 (c + 1) (natLE 8 (bput (bput (classA s c) 16 1 n) 44 1 n)) s
  let s1 := (List.range 64).foldl move s
  bump 0xC110 (if back then 0x06 else 0x05) (modDbg (fun d => { d with active := n, rollback := true, swapWait := none }) s1)

/-- A swap fires: it waits while a load is in progress. -/
def fireSwap (back : Bool) (s : State) : State :=
  if s.dbg.load.isSome then modDbg (fun d => { d with swapWait := some back }) s else doSwap back s

/-- IMAGE_LOAD_END: the result, and on success the inactive image of every code store and its copy; a waiting swap then
fires. `err`: the flash could not be read. -/
def execImageLoadEnd (err : Bool) (s : State) : Host.Outcome State Fault Refusal :=
  .next (match s.dbg.load with
    | none => s
    | some slot =>
      let r := if err then 4 else imageVerify s slot
      let s1 := modDbg (fun d => { d with load := none, loadResult := r }) s
      let s2 := if r = 0 then
          bump 0xC110 0x04 (modDbg (fun d => { d with rollback := false })
            (loadImage (1 - s.dbg.active) slot (slotSection s slot 2) s1))
        else if err then s1 else bump 0xC110 0x02 s1
      match s2.dbg.swapWait with
      | some back => doSwap back s2
      | none => s2)

/-- E011h.01: bytes for slot E010h.01; BUSY for the slot Dawn used. A push while Dawn waits is remembered. -/
def wrImageChunk : WriteEff := fun _ v s =>
  let slot := cfg s 0xE010 0x01
  let off := leAt v 0 4
  let b := v.drop 4
  if v.length < 4 ∨ 3072 < b.length ∨ 8388608 < off + b.length then (stRange, s)
  else if 2 ≤ s.dbg.phase ∧ usedSlot s = slot then (stBusy, s)
  else (stOk, modDbg (fun d => { d with pushed := d.pushed || (d.stuck && decide (slot = 0)) }) (flashWrite (slotBase slot + off) b s))

/-- IMAGE_CHUNK. -/
def execImageChunk (h : DHdr) (v : Bytes) (s : State) : Host.Outcome State Fault Refusal :=
  .next (dictWriteRow h 0xE011 0x01 v wrImageChunk s)

/-- E020h.02 swaps. -/
def wrSwap : WriteEff := fun _ v s => if leNat v = 1 then (stOk, fireSwap false s) else (stRange, s)

/-- SWAP. -/
def execSwap (h : DHdr) (v : Bytes) (s : State) : Host.Outcome State Fault Refusal :=
  .next (dictWriteRow h 0xE020 0x02 v wrSwap s)

/-- E020h.03 swaps at a fabric time. -/
def wrSwapTime : WriteEff := fun _ v s =>
  let t := leNat v / 65536
  let st := timedStatus t s
  if st ≠ stOk then (st, timedCount st s) else (stOk, modDbg (fun d => { d with swapAt := some (t, now s) }) s)

/-- SWAP_TIME. -/
def execSwapTime (h : DHdr) (v : Bytes) (s : State) : Host.Outcome State Fault Refusal :=
  .next (dictWriteRow h 0xE020 0x03 v wrSwapTime s)

/-- A timed swap fires (R641). -/
def swapNow (s : State) : State :=
  match s.dbg.swapAt with
  | some (t, acc) =>
    let s1 := modDbg (fun d => { d with swapAt := none }) s
    fireSwap false (if timedLate t acc s then bump 0xC020 0x01 s1 else s1)
  | none => s

/-- SWAP_FIRE: the timed swap that is the next action of its boundary (R69, R641). -/
def execSwapFire (s : State) : Host.Outcome State Fault Refusal :=
  .next (if (nextDue s).map (·.act) = some .swap then swapNow s else s)

/-- E020h.04 swaps back to the image active before the last swap, unless a load has overwritten it (R642). -/
def wrRollback : WriteEff := fun _ v s =>
  if leNat v ≠ 1 then (stRange, s) else if s.dbg.rollback then (stOk, fireSwap true s) else (stNotFound, s)

/-- ROLLBACK. -/
def execRollback (h : DHdr) (v : Bytes) (s : State) : Host.Outcome State Fault Refusal :=
  .next (dictWriteRow h 0xE020 0x04 v wrRollback s)

/-! ### Reset by the dictionary -/

/-- E030h.01 asks for a Dawn, which follows the response. -/
def wrDeviceReset : WriteEff := fun _ v s =>
  if leNat v = 1 then (stOk, modDbg (fun d => { d with resetReq := true }) s) else (stRange, s)

/-- A Dawn asked for by E030h.01 begins, with the straps as they were. -/
def takeReset (s : State) : State :=
  if s.dbg.resetReq then strapped s.dbg.bootSel s.dbg.cpos 2 (dawnStart s) else s

/-- DEVICE_RESET. -/
def execDeviceReset (h : DHdr) (v : Bytes) (s : State) : Host.Outcome State Fault Refusal :=
  .next (takeReset (dictWriteRow h 0xE030 0x01 v wrDeviceReset s))

end Sys2Proof.Machine
end

