-- ==== Sys2Proof/Machine/Operands.lean ====
section
/-! DEFINITION. Ikievo-72 instruction words by format (Table 7-4), pairing classes (Table 7-6) and the pairing rule
(Table 8-2). -/

namespace Sys2Proof.Machine

/-! ### Formats -/

/-- Opcode in bits 35:28, the field of bits 27:23, the field of bits 22:18, bits 17:0. -/
def insWord (op f1 f2 low : Nat) : BitVec 36 := BitVec.ofNat 36 (op * 2 ^ 28 + f1 * 2 ^ 23 + f2 * 2 ^ 18 + low)

/-- Format R. -/
def wordR (op rd ra rb : Nat) : BitVec 36 := insWord op rd ra (rb * 2 ^ 13)
/-- Formats I and M. -/
def wordI (op rd ra imm : Nat) : BitVec 36 := insWord op rd ra imm
/-- Format F. -/
def wordF (op rd ra pos len : Nat) : BitVec 36 := insWord op rd ra (pos * 2 ^ 11 + len * 2 ^ 4)
/-- Formats J and U. -/
def wordJ (op rd imm : Nat) : BitVec 36 := BitVec.ofNat 36 (op * 2 ^ 28 + rd * 2 ^ 23 + imm)
/-- Format SR. -/
def wordSR (op rd ra sn : Nat) : BitVec 36 := insWord op rd ra (sn * 2 ^ 14)
/-- Format C. -/
def wordC (op rd ra rb unit fn : Nat) : BitVec 36 := insWord op rd ra (rb * 2 ^ 13 + unit * 2 ^ 10 + fn)
/-- Format Y. -/
def wordY (op rd ra idx : Nat) : BitVec 36 := insWord op rd ra idx

/-! ### Reserved words (R255-R257, R428) -/

/-- A CPX word that its unit's table does not give (Tables 13-2, 13-3, 13-5). -/
def cpxReserved (w : Nat) : Bool :=
  let ra := bf w 18 5
  let rb := bf w 13 5
  let fn := bf w 0 10
  match bf w 10 3 with
  | 0 => decide (3 ≤ fn / 64) || bit fn 3 || (decide (fn / 64 ≤ 1) && decide (bf fn 4 2 ≠ 0))
  | 1 => bit fn 6 || decide (4 ≤ fn / 128) || (decide (fn / 128 = 3) && decide (bf fn 0 6 ≠ 0)) ||
      decide (ra = 0) || decide (28 < ra) || decide (rb = 0) || decide (30 < rb)
  | 2 =>
    let op := fn / 64
    let var := bf fn 0 2
    decide (10 ≤ op) || ((decide (op = 1) || decide (op = 2)) && decide (var = 3)) || (decide (op = 3) && decide (2 ≤ var)) ||
      (decide (op = 0 ∨ 4 ≤ op) && decide (var ≠ 0)) || (decide (op ≠ 2 ∧ op ≠ 5) && decide (rb ≠ 0)) ||
      (decide (op = 0 ∨ op = 4 ∨ op = 5 ∨ op = 9) && decide (ra ≠ 0))
  | _ => true

/-- A word that raises RESERVED_OP at decode: a reserved or user opcode, or a reserved or unused field that is not 0. -/
def reservedWord (word : BitVec 36) : Bool :=
  let w := word.toNat
  let op := bf w 28 8
  let rd := bf w 23 5
  let ra := bf w 18 5
  let low := bf w 0 18
  let f := bf w 0 28
  if op = 0 ∨ op = 0xFF then false
  else if op ≤ 0x16 then decide (bf w 0 13 ≠ 0)
  else if op = 0x17 then true
  else if op ≤ 0x1B then decide (low ≠ 0)
  else if op ≤ 0x1D then decide (bf w 0 4 ≠ 0)
  else if op = 0x1E then decide (bf w 0 11 ≠ 0)
  else if op = 0x1F then true
  else if 0x24 ≤ op ∧ op ≤ 0x26 then decide (bf w 7 11 ≠ 0)
  else if op ≤ 0x29 then false
  else if op ≤ 0x2F then true
  else if op ≤ 0x3B then false
  else if op ≤ 0x3F then true
  else if op ≤ 0x52 then false
  else if op ≤ 0x57 then true
  else if op = 0x58 then decide (f ≠ 0)
  else if op ≤ 0x5F then true
  else if op = 0x60 then decide (ra ≠ 0) || decide (bf w 0 14 ≠ 0)
  else if op = 0x61 then decide (rd ≠ 0) || decide (bf w 0 14 ≠ 0)
  else if op ≤ 0x64 then decide (bf w 0 14 ≠ 0)
  else if op = 0x65 then decide (rd ≠ 0) || decide (low ≠ 0)
  else if op = 0x66 then decide (low ≠ 0)
  else if op = 0x67 then decide (rd ≠ 0) || decide (bf w 0 13 ≠ 0)
  else if op = 0x68 then decide (ra ≠ 0) || decide (bf w 8 10 ≠ 0)
  else if op = 0x69 then decide (rd ≠ 0) || decide (bf w 8 10 ≠ 0)
  else if op ≤ 0x6B then decide (ra ≠ 0) || decide (low ≠ 0)
  else if op = 0x6C then decide (f ≠ 0)
  else if op = 0x6D then decide (rd ≠ 0) || decide (low ≠ 0)
  else if op = 0x6E then decide (f ≠ 0)
  else if op = 0x6F then decide (rd ≠ 0) || decide (ra ≠ 0)
  else if op = 0x70 then cpxReserved w
  else if op = 0x71 then decide (ra ≠ 0) || decide (bf w 13 5 ≠ 0) || decide (bf w 0 10 ≠ 0) || decide (3 ≤ bf w 10 3)
  else true

/-! ### Pairing (R259, R289) -/

def clsA : Nat := 0
def clsX : Nat := 1
def clsM : Nat := 2
def clsB : Nat := 3
def clsC : Nat := 4
def clsS : Nat := 5

/-- Slot 0 of class `c0` writing `rd0` and slot 1 of class `c1` touching the registers `regs` issue together
(Table 8-2). -/
def pairs (c0 rd0 c1 : Nat) (regs : List Nat) : Bool :=
  (decide (c1 = clsA) || decide (c1 = clsB) || decide (c1 = clsC)) &&
  (decide (c0 = clsA) ||
   ((decide (c0 = clsX) || decide (c0 = clsM)) && (decide (rd0 = 0) || !decide (rd0 ∈ regs))))

/-! ### Values -/

/-- Sign extension of an 18-bit immediate to 72 bits. -/
def imm72 (i : BitVec 18) : W72 := i.signExtend 72
/-- Zero extension of an 18-bit immediate. -/
def immZ (i : BitVec 18) : W72 := i.zeroExtend 72
/-- A Boolean as a 72-bit value. -/
def b72 (b : Bool) : W72 := if b then 1 else 0

end Sys2Proof.Machine
end

