-- ==== Sys2Proof/Machine/ThreadOps.lean ====
section
/-! DEFINITION. How a thread issues an instruction, and how it takes an event: eligibility, turns, the mode shadow,
trace, breakpoints, FAULT and event entry (chapters 07-09, 20). -/

namespace Sys2Proof.Machine

/-! ### Freeze triggers (R647, R72) -/

/-- A trigger of a freeze by cause: one that arrives while the device is freezing or frozen is ignored and counted;
triggers of one boundary make one freeze. -/
def freezeTrigger (cause : Nat) (s : State) : State :=
  if s.dbg.fstate ≠ 0 then bump 0xC110 0x08 s
  else if s.dbg.freezeDue.isSome then s
  else modDbg (fun d => { d with freezeDue := some (dlUp 0 ((now80 s + 65535) / 65536)), cause := cause }) s

/-- An event of D000h.06 that triggers a freeze. -/
def freezeEvent (b : Nat) (s : State) : State := if bit (cfg s 0xD000 0x06) b then freezeTrigger (3 + b) s else s

/-! ### Trace (R646, Table 20-5) -/

/-- The 16 bytes of a trace record. -/
def traceRec (s : State) (t pc : Nat) (paired entry : Bool) (cls : Nat) (x : Nat) : Bytes :=
  natLE 3 (pc + b2n paired * 2 ^ 17 + b2n entry * 2 ^ 18 + cls * 2 ^ 19) ++
    natLE 1 (coreOf t % 8 + thrOf t * 8) ++ natLE 4 (bf (now s) 6 32) ++ natLE 8 x

/-- Write a record of a traced thread: a ring keeps the newest 16,384, stop mode stops when full. -/
def tracePut (t : Nat) (rec : Bytes) (s : State) : State :=
  if t < 768 then
    let x := tget {} s.dbg.trace (tileOf t)
    if x.on && x.mask.getLsbD (t % 64) then
      if x.recs.length < 16384 then
        modDbg (fun d => { d with trace := tmod {} d.trace (tileOf t) (fun x => { x with recs := x.recs ++ [rec] }) }) s
      else if x.mode = 0 then
        modDbg (fun d => { d with trace := tmod {} d.trace (tileOf t) (fun x => { x with recs := x.recs.drop 1 ++ [rec] }) }) s
      else s
    else s
  else s

/-! ### Event entry (R276, R336) -/

/-- ecause: class, cause, slot, shadow (Table 7-3). -/
def mkCause (cls cause slot : Nat) (shadow : Bool) : BitVec 64 :=
  BitVec.ofNat 64 (cls + cause * 2 ^ 8 + slot * 2 ^ 16 + b2n shadow * 2 ^ 17)

/-- The st in force when an entry saves it: a shadow that a fault meets ends with its new st (R252). -/
def sstFor (x : Thread) : BitVec 64 := match x.shadow with | some (_, st, _) => st | none => x.st

/-- Enter an event of class `cls` at index `at`: spc, sst, ecause, the new st, the vector; six turns (R276, R305, R307,
R336). -/
def enterEvent (t cls cause slot spc : Nat) (s : State) : State :=
  let x := thr s t
  let sh := x.shadow.isSome && decide (cls = 0)
  let st := sstFor x
  let pl := if isSteward t then 2 else 1
  let st2 := BitVec.ofNat 64 (bitPut (bitPut (bput st.toNat 0 2 pl) 3 true) 2 false)
  let ec := mkCause cls cause slot sh
  tracePut t (traceRec s t spc false true cls ec.toNat)
    (modThr t (fun x => { x with
      spc := BitVec.ofNat 17 spc, sst := stPlaced t st, ecause := ec, st := st2,
      enu := (match x.shadow with | some (_, _, e) => e | none => x.enu),
      shadow := none, state := .entry, hold := .none, pair := none, bpSkip := false,
      pc := BitVec.ofNat 17 (x.evbase.toNat * 16 + 16 * cls), charge := x.charge + 6 }) s)

/-- A double fault: the thread halts, its brick fails, its locks break (R277, R360, R386, R647; DEDUCED, log 118). -/
def doubleFault (t : Nat) (s : State) : State :=
  let b := (thr s t).brick
  let s1 := freezeEvent 1 (bumpTile t 0x07 s)
  if isSteward t then modThr t (fun x => { x with halted := true }) s1
  else
    let s2 := modThr t (fun x => { x with halted := true, haltAt := now s }) (resetThread t s1)
    match b with | some ws => endBrick ws 0x46 0 s2 | none => s2

/-- Count a fault by its cause, and one in a mode shadow (R281). -/
def countFault (t cause : Nat) (shadow : Bool) (s : State) : State :=
  let s2 := match cause with
    | 1 => bumpTile t 0x02 s
    | 2 => bumpTile t 0x03 s
    | 14 => bumpTile t 0x05 s
    | 16 => bumpTile t 0x0A s
    | _ => s
  if shadow then bumpTile t 0x06 s2 else s2

/-- Take FAULT `cause` with spc at index `spc`, or a double fault when st.IH is 1 (R276, R277). -/
def takeFault (t cause spc : Nat) (s : State) : State :=
  let s1 := countFault t cause (thr s t).shadow.isSome s
  if stIH (thr s t).st then doubleFault t s1
  else bumpTile t 0x04 (enterEvent t 0 cause ((thr s t).pc.toNat % 2) spc s1)

/-- FAULT at the instruction itself. -/
def faultAt (t cause : Nat) (s : State) : State := takeFault t cause (thr s t).pc.toNat s

/-- FAULT with an address. -/
def faultAddr (t cause ea : Nat) (s : State) : State :=
  faultAt t cause (modThr t (fun x => { x with eaddr := BitVec.ofNat 48 ea }) s)

/-- FAULT with an instruction word in einst. -/
def faultInst (t cause : Nat) (w : BitVec 36) (s : State) : State :=
  faultAt t cause (modThr t (fun x => { x with einst := w }) s)

/-! ### Eligibility (R286) -/

/-- The registers a coprocessor instruction writes (R438, R449). -/
def cpxRegs (c : Cpx) : List Nat :=
  match c.unit with
  | 0 => [c.rd]
  | 1 => if c.fn / 128 ≤ 1 then [c.rd, c.rb, c.rb + 1, c.ra + 3] else [c.rd, c.rb, c.rb + 1]
  | _ => if c.fn / 64 = 5 then [c.rd, c.rb] else [c.rd]

/-- The registers that a posted load or a coprocessor instruction still holds. -/
def heldRegs (x : Thread) : List Nat :=
  x.posted.map (·.rd) ++ (x.cpx.map (fun c => if c.dead then [] else cpxRegs c)).flatten

/-- A breakpoint of the core matches the thread's pc (R645). -/
def bpMatch (s : State) (t : Nat) : Bool :=
  let x := thr s t
  !x.bpSkip && (List.range 4).any (fun i =>
    let b := tget {} s.dbg.bp (coreOf t * 4 + i)
    b.en && b.mask.getLsbD (thrOf t) && decide (b.index = x.pc))

/-- The instruction continues the issue group of the slot 0 before it: it was ready when that one issued (R288, R289). -/
def joins (x : Thread) (cls : Nat) (regs : List Nat) : Bool :=
  match x.pair with
  | some (c0, rd0, held) => decide (x.pc.toNat % 2 = 1) && pairs c0 rd0 cls regs &&
      regs.all (fun r => decide (r = 0) || !decide (r ∈ held))
  | none => false

/-- A fault that was deferred, or the end of the budget, comes before the next issue group (R294, R357). -/
def faultDue (x : Thread) : Bool :=
  !stIH x.st && (!x.poisons.isEmpty || (x.brick.isSome && !x.budgetTaken && decide (x.limit ≤ x.charge)))

/-- One instruction of a mode shadow has passed; the change applies after the second (R251). -/
def shadowStep (x : Thread) : Thread :=
  match x.shadow with
  | none => x
  | some (n, st, e) => if n ≤ 1 then { x with shadow := none, st := st, enu := e } else { x with shadow := some (n - 1, st, e) }

/-- A coprocessor instruction of the thread is accepted and not committed. -/
def uncommitted (x : Thread) : Bool := x.cpx.any (fun c => !c.committed)

/-- The thread once its accepted coprocessor instruction, if any, has committed (R429). -/
def commitThr (x : Thread) : Thread :=
  if uncommitted x then { shadowStep x with cpx := x.cpx.map (fun c => { c with committed := true }) } else x

/-- The core commits the coprocessor instruction the thread has in flight: it retires now (R281, R429). -/
def commitCpx (t : Nat) (s : State) : State :=
  if uncommitted (thr s t) then bumpTile t 0x01 (modThr t commitThr s) else s

/-- An asynchronous event comes before the next issue group of `x`, thread `t`; a shadow holds it back (R251, R305). -/
def eventDueAt (s : State) (t : Nat) (x : Thread) : Bool := x.shadow.isNone && !(deliverable s t x.st).isEmpty

/-- An asynchronous event comes before the next issue group. -/
def eventDue (s : State) (t : Nat) : Bool := eventDueAt s t (thr s t)

/-- Thread `t` may issue an instruction of class `cls` that touches the registers `regs`; a coprocessor instruction before
it has committed by then (R283, R429; DESIGN CHOICE, log 20; DESIGN CHOICE, log 23). -/
def canIssue (s : State) (t cls : Nat) (regs : List Nat) : Bool :=
  let x := commitThr (thr s t)
  decide (x.state ≠ .idle) && decide (x.hold = .none) && !x.halted && !x.wpHit && clocked s && pairDay s t && !bpMatch s t &&
    regs.all (fun r => decide (r = 0) || !decide (r ∈ heldRegs x)) &&
    (joins x cls regs || (!isHalted x && !faultDue x && !eventDueAt s t x && !(x.haltReq && x.shadow.isNone)))

/-! ### Issue -/

/-- The bookkeeping of an issue: a coprocessor instruction before it commits; turn charge, pair and single counts, trace,
the debugger's step (R307, R308, R429, R646). -/
def issue (t cls rd : Nat) (regs : List Nat) (ea : Nat) (s : State) : State :=
  let s := commitCpx t s
  let x := thr s t
  let j := joins x cls regs
  let s1 := if j then bumpTile t 0x0B (if t < 768 then bumpBy (0xC070 + tileOf t) 0x0C (2 ^ 64 - 1) s else s)
    else bumpTile t 0x0C (if x.pair.isSome && decide (x.pc.toNat % 2 = 1) then bumpTile t 0x0E s else s)
  let s2 := if j then s1 else tracePut t (traceRec s t x.pc.toNat false false 0 ea) s1
  modThr t (fun x => { x with
    state := .run, bpSkip := false,
    charge := if j then x.charge else x.charge + 1,
    stepLeft := if j then x.stepLeft else x.stepLeft.map (· - 1),
    haltAt := if !j && decide (x.stepLeft = some 1) then now s else x.haltAt,
    pair := if x.pc.toNat % 2 = 0 then some (cls, rd, heldRegs x) else none }) s2

/-- The instruction commits and the thread goes on at `pc`. -/
def retire (t : Nat) (pc : BitVec 17) (s : State) : State :=
  bumpTile t 0x01 (modThr t (fun x => { shadowStep x with pc := pc }) s)

/-- The next instruction index. -/
def nextPc (s : State) (t : Nat) : BitVec 17 := (thr s t).pc + 1

/-- Run an instruction that writes `v` of the state to `rd` and goes on. -/
def runWrite (t cls rd : Nat) (regs : List Nat) (v : W72) (s : State) : State :=
  if canIssue s t cls (rd :: regs) then
    retire t (nextPc s t) (setReg t rd v (issue t cls rd (rd :: regs) 0 s))
  else s

/-- Run an instruction with an effect of its own: `body` starts from the state after issue and commits by itself. -/
def runIns (t cls rd : Nat) (regs : List Nat) (body : State → State) (s : State) : State :=
  if canIssue s t cls (rd :: regs) then body (issue t cls rd (rd :: regs) 0 s) else s

/-- Run an instruction that only the levels S and M may execute: at U it faults PRIV (Table 7-7). -/
def runPriv (t cls rd : Nat) (regs : List Nat) (body : State → State) (s : State) : State :=
  runIns t cls rd regs (fun s => if level s t = 0 then faultAt t 0x03 s else body s) s

end Sys2Proof.Machine
end

