-- ==== Sys2Proof/Machine/IkSys.lean ====
section
/-! DEFINITION. Ikievo-72: system registers, channels, waits, PARK and ENDB, FENCE, event entry, deadlines and the stall
detector (chapters 07-09). -/

namespace Sys2Proof.Machine

/-! ### System registers (Tables 7-3, 9-3) -/

/-- Index of Table 7-3 or Table 9-3. -/
def srKnown (i : Nat) : Bool := decide (i ≤ 0x13)

/-- Registers that only S and M read; all but 0Dh and 0Eh of the same are written by S and M only. -/
def srReadPriv (i : Nat) : Bool := decide (2 ≤ i ∧ i ≤ 6) || decide (i = 0x0B) || decide (0x10 ≤ i ∧ i ≤ 0x13)
def srWritePriv (i : Nat) : Bool := srReadPriv i || decide (i = 7)

/-- The instruction keeps its unit busy: units 0 and 1 until its commit, the exact-sum unit until its work is done
(R427, R453; DESIGN CHOICE, log 26). -/
def Cpx.busy (c : Cpx) : Bool := !c.committed || decide (c.unit = 2)

/-- Units of the thread's tile that are busy: cs.BUSYU, and what rejects a CPX (R273). -/
def busyUnits (s : State) (t : Nat) : Nat :=
  if t < 768 then
    (List.range 3).foldl (fun a u =>
      if (tileThreads (tileOf t)).any (fun v => (thr s v).cpx.any (fun c => decide (c.unit = u) && c.busy))
      then a + 2 ^ u else a) 0
  else 0

/-- CHSTAT (Table 9-4). -/
def chstat (s : State) (t : Nat) : Nat :=
  let x := thr s t
  let tile := tileOf t
  let me := t % 64
  let r := if t < 768 then rsvChan s tile me else none
  let c := if t < 768 then claimChan s tile me else none
  let words := match r with | some k => (((chanOf s tile k).rsv.map (fun p => p.2.length)).getD 0) | none => 0
  let rem := match c with
    | some k => (((chanOf s tile k).claimed.find? (fun m => decide (m.1 = me))).map (fun m => m.2.1.length)).getD 0
    | none => 0
  x.wstat + b2n r.isSome * 2 ^ 3 + r.getD 0 * 2 ^ 4 + words * 2 ^ 10 + b2n x.chEmpty * 2 ^ 14 + b2n x.chLast * 2 ^ 15 +
    b2n c.isSome * 2 ^ 16 + c.getD 0 * 2 ^ 17 + x.rlen * 2 ^ 23 + rem * 2 ^ 27

/-- The value of a system register, but for CHGET. -/
def srValue (s : State) (t i : Nat) : W72 :=
  let x := thr s t
  match i with
  | 0x00 => (stOf s t).zeroExtend 72
  | 0x01 => BitVec.ofNat 72 ((x.cs.toNat &&& 0xFFFF000F) + busyUnits s t * 2 ^ 8)
  | 0x02 => x.spc.zeroExtend 72
  | 0x03 => x.sst.zeroExtend 72
  | 0x04 => x.ecause.zeroExtend 72
  | 0x05 => x.eaddr.zeroExtend 72
  | 0x06 => x.einst.zeroExtend 72
  | 0x07 => BitVec.ofNat 72 ((ensOf s t).toNat + x.enu.toNat * 2 ^ 8)
  | 0x08 => x.wctl.zeroExtend 72
  | 0x09 => BitVec.ofNat 72 (wpend s t)
  | 0x0A => x.tdl.zeroExtend 72
  | 0x0B => BitVec.ofNat 72 (x.evbase.toNat * 16)
  | 0x0C => x.chsel.zeroExtend 72
  | 0x0D => BitVec.ofNat 72 (chstat s t)
  | 0x0F => x.charm.zeroExtend 72
  | 0x10 => tget 0 x.scr 0
  | 0x11 => tget 0 x.scr 1
  | 0x12 => tget 0 x.scr 2
  | 0x13 => tget 0 x.scr 3
  | _ => 0

/-- CHGET: the word read and the next state (R322). One that finds no message leaves EMPTY 1 and LAST 0 (Table 9-4;
DEDUCED, log 159). -/
def chget (t : Nat) (s : State) : W72 × State :=
  let tile := tileOf t
  let me := t % 64
  if t < 768 then
    let claimed := match claimChan s tile me with
      | some k => some (k, s)
      | none =>
        let k := bf (thr s t).chsel.toNat 8 6
        match (chanOf s tile k).sealed with
        | [] => none
        | m :: ms =>
          some (k, modThr t (fun x => { x with rlen := m.length })
            (modChan tile k (fun c => { c with sealed := ms, claimed := c.claimed ++ [(me, m, m.length)] }) s))
    match claimed with
    | none => (0, modThr t (fun x => { x with chEmpty := true, chLast := false }) s)
    | some (k, s1) =>
      match (chanOf s1 tile k).claimed.find? (fun m => decide (m.1 = me)) with
      | some (_, w :: ws, n) =>
        let s2 := modChan tile k (fun c => { c with
          claimed := (c.claimed.filter (fun m => decide (m.1 ≠ me))) ++ (if ws.isEmpty then [] else [(me, ws, n)]),
          ptr := (coreOf t % 8 + 1) % 8 }) s1
        (w, modThr t (fun x => { x with chEmpty := false, chLast := ws.isEmpty }) s2)
      | _ => (0, s1)
  else (0, modThr t (fun x => { x with chEmpty := true, chLast := false }) s)

/-- CHPUT, and CHSEAL when `done`: the message of the thread on channel WCH (R320). A steward thread has no channels
and finds none free. -/
def chput (t : Nat) (v : W72) (done : Bool) (s : State) : State :=
  let tile := tileOf t
  let me := t % 64
  let wch := bf (thr s t).chsel.toNat 0 6
  let refuse := fun (code sub : Nat) (s : State) => bumpTile t sub (modThr t (fun x => { x with wstat := code }) s)
  if t < 768 then
    let held := rsvChan s tile me
    if held.isSome && decide (held ≠ some wch) then refuse 4 0x1A s
    else
      let c := chanOf s tile wch
      if held.isNone && c.rsv.isSome then refuse 1 0x19 s
      else if held.isNone && decide (4 ≤ c.used) then refuse 2 0x1A s
      else
        let words := match c.rsv with | some (_, ws) => ws | none => []
        if words.length = 8 then refuse 3 0x1A s
        else
          let m := words ++ [v]
          modThr t (fun x => { x with wstat := 0 }) (modChan tile wch (fun c =>
            { (if done then { c with rsv := none, sealed := c.sealed ++ [m] } else { c with rsv := some (me, m) }) with
              ptr := (coreOf t % 8 + 1) % 8 }) s)
  else refuse 2 0x1A s

/-- The FAULT cause of a SETSR of st, if any (R248, R250). -/
def stFault (s : State) (t : Nat) (v : BitVec 64) : Option Nat :=
  let old := (thr s t).st
  if level s t = 0 ∧ (old ^^^ v) &&& stMask &&& 0xFFFFFFFFFFFFFE3B ≠ 0 then some 0x03
  else if plOf v = 2 ∧ t < 768 then some 0x03
  else if plOf v = 3 ∨ stPM v = 3 then some 0x04
  else none

/-- Write st: a change of PL or PASID waits for its shadow (R251). -/
def writeSt (v : BitVec 64) (x : Thread) : Thread :=
  let v := v &&& stMask
  if plOf v ≠ plOf x.st ∨ pasidOf v ≠ pasidOf x.st then
    { x with shadow := some (2, v, match x.shadow with | some (_, _, e) => e | none => x.enu) }
  else match x.shadow with
    | some (n, w, e) => { x with st := v, shadow := some (n, (w &&& 0x000FFFFF00000003) ||| (v &&& 0x1FC), e) }
    | none => { x with st := v }

/-- Write a system register whose write passed its checks. -/
def srWrite (t i : Nat) (w : W72) (s : State) : State :=
  let v : BitVec 64 := w.truncate 64
  match i with
  | 0x00 => modThr t (writeSt v) s
  | 0x01 => if v.getLsbD 0 then s else modThr t (fun x => { x with cs := x.cs &&& 0xFFFFFFFFFFFFFFFE }) s
  | 0x02 => modThr t (fun x => { x with spc := w.truncate 17 }) s
  | 0x03 => modThr t (fun x => { x with sst := v &&& sstMask }) s
  | 0x04 => modThr t (fun x => { x with ecause := v &&& 0x3FF07 }) s
  | 0x05 => modThr t (fun x => { x with eaddr := w.truncate 48 }) s
  | 0x06 => modThr t (fun x => { x with einst := w.truncate 36 }) s
  | 0x07 =>
    let e : BitVec 3 := v.extractLsb' 8 3
    modThr t (fun x => if e = x.enu then x
      else { x with shadow := some (2, (match x.shadow with | some (_, st, _) => st | none => x.st), e) }) s
  | 0x08 => modThr t (fun x => { x with wctl := v &&& 0xF1F }) s
  | 0x09 => modThr t (fun x => { x with sig := x.sig && !v.getLsbD 0, watch := x.watch && !v.getLsbD 1 }) s
  | 0x0A => modThr t (fun x => { x with tdl := v, tdlSet := now s, timer := false }) s
  | 0x0B => modThr t (fun x => { x with evbase := v.extractLsb' 4 13 }) s
  | 0x0C => modThr t (fun x => { x with chsel := v &&& 0x3F3F }) s
  | 0x0D => chput t w false s
  | 0x0E => chput t w true s
  | 0x0F => modThr t (fun x => { x with charm := v }) s
  | 0x10 => modThr t (fun x => { x with scr := tset 0 x.scr 0 w }) s
  | 0x11 => modThr t (fun x => { x with scr := tset 0 x.scr 1 w }) s
  | 0x12 => modThr t (fun x => { x with scr := tset 0 x.scr 2 w }) s
  | 0x13 => modThr t (fun x => { x with scr := tset 0 x.scr 3 w }) s
  | _ => s

/-- The FAULT cause of a SETSR, if any. -/
def setsrFault (s : State) (t i : Nat) (w : W72) : Option Nat :=
  if !srKnown i then some 0x01
  else if level s t = 0 && srWritePriv i then some 0x03
  else if i = 0 then stFault s t (w.truncate 64)
  else if i = 3 && decide (plOf (w.truncate 64) = 2) && decide (t < 768) then some 0x03
  else none

/-- GETSR. -/
def execGetsr (t : Fin 776) (rd : Fin 32) (idx : Fin 256) (s : State) : Host.Outcome State Fault Refusal :=
  let t := t.val
  .next (runIns t clsS rd.val [] (fun s1 =>
    if !srKnown idx.val then faultInst t 0x01 (wordY 0x68 rd.val 0 idx.val) s1
    else if level s1 t = 0 && srReadPriv idx.val then faultAt t 0x03 s1
    else if idx.val = 0x0E then
      let r := chget t s1
      retire t (nextPc s t) (setReg t rd.val r.1 r.2)
    else retire t (nextPc s t) (setReg t rd.val (srValue (commitCpx t s) t idx.val) s1)) s)

/-- SETSR: the shadow of a mode change starts after it (R251). -/
def execSetsr (t : Fin 776) (ra : Fin 32) (idx : Fin 256) (s : State) : Host.Outcome State Fault Refusal :=
  let t := t.val
  let w := getReg s t ra.val
  .next (runIns t clsS 0 [ra.val] (fun s1 =>
    match setsrFault s1 t idx.val w with
    | some 0x01 => faultInst t 0x01 (wordY 0x69 0 ra.val idx.val) s1
    | some c => faultAt t c s1
    | none => srWrite t idx.val w (retire t (nextPc s t) s1)) s)

/-- CHPUT. -/
def execChput (t : Fin 776) (ra : Fin 32) (s : State) : Host.Outcome State Fault Refusal :=
  .next (runIns t.val clsS 0 [ra.val] (fun s1 =>
    chput t.val (getReg s t.val ra.val) false (retire t.val (nextPc s t.val) s1)) s)

/-- CHSEAL. -/
def execChseal (t : Fin 776) (ra : Fin 32) (s : State) : Host.Outcome State Fault Refusal :=
  .next (runIns t.val clsS 0 [ra.val] (fun s1 =>
    chput t.val (getReg s t.val ra.val) true (retire t.val (nextPc s t.val) s1)) s)

/-- CHGET. -/
def execChget (t : Fin 776) (rd : Fin 32) (s : State) : Host.Outcome State Fault Refusal :=
  .next (runIns t.val clsS rd.val [] (fun s1 =>
    let r := chget t.val s1
    retire t.val (nextPc s t.val) (setReg t.val rd.val r.1 r.2)) s)

/-- CPTEST: READY in bit 0 and ENABLED in bit 1 (R273, R427). -/
def execCptest (t : Fin 776) (rd : Fin 32) (u : Fin 3) (s : State) : Host.Outcome State Fault Refusal :=
  let s1 := commitCpx t.val s
  .next (runWrite t.val clsC rd.val []
    (BitVec.ofNat 72 (b2n (decide (t.val < 768) && !bit (busyUnits s1 t.val) u.val) + 2 * b2n (cpEnabled s1 t.val u.val))) s)

/-! ### Waits -/

/-- Complete a WFE or WAIT: rd takes the pending armed sources, and the SIG and WATCH it reports are cleared (R311). -/
def wakeDone (t rd : Nat) (s : State) : State :=
  let b := wakeBits s t
  retire t (nextPc s t) (setReg t rd (BitVec.ofNat 72 b)
    (modCore (coreOf t) (fun c => { c with fired := false })
      (modThr t (fun x => { x with hold := .none, sig := x.sig && !bit b 0, watch := x.watch && !bit b 1 }) s)))

/-- WFE, or WAIT with the vote `vote` (R311, R312). -/
def waitFor (t rd vote : Nat) (s : State) : State :=
  if (thr s t).wctl.toNat % 32 = 0 then bumpTile t 0x17 (wakeDone t rd s)
  else if wakeBits s t ≠ 0 then wakeDone t rd s
  else pairVote t (modThr t (fun x => { x with hold := .wake rd vote, waitAt := now s }) s)

/-- WFE. -/
def execWfe (t : Fin 776) (rd : Fin 32) (s : State) : Host.Outcome State Fault Refusal :=
  .next (runIns t.val clsS rd.val [] (waitFor t.val rd.val 0) s)

/-- WAIT: as WFE, and the thread offers its vote for the power state st.PM (R275, R591). -/
def execWait (t : Fin 776) (rd : Fin 32) (s : State) : Host.Outcome State Fault Refusal :=
  .next (runIns t.val clsS rd.val [] (fun s1 => waitFor t.val rd.val (stPM (thr s1 t.val).st) s1) s)

/-- WAIT_WAKE. -/
def execWaitWake (t : Fin 776) (s : State) : Host.Outcome State Fault Refusal :=
  .next (match (thr s t.val).hold with
    | .wake rd _ =>
      if wakeBits s t.val ≠ 0 && !isHalted (thr s t.val) && pairDay s t.val && clocked s then wakeDone t.val rd s else s
    | _ => s)

/-- THREAD_DEADLINE: TDL sets TIMER at the first DL0 boundary at or after it (R316). -/
def execThreadDeadline (t : Fin 776) (s : State) : Host.Outcome State Fault Refusal :=
  let x := thr s t.val
  .next (if x.tdl ≠ 0 && !x.timer && reached (timedBoundary x.tdl.toNat x.tdlSet) s then
    modThr t.val (fun x => { x with timer := true }) s else s)

/-! ### PARK, ENDB, FENCE, STF (R275, R364, R359, R271, R268) -/

/-- The thread's stores still in its core's store buffer. -/
def storesOf (s : State) (t : Nat) : List SbEnt := (coreSt s (coreOf t)).sb.filter (fun e => decide (e.thr = thrOf t))

/-- The scoreboard holds no register. -/
def boardEmpty (s : State) (t : Nat) : Bool := (thr s t).posted.isEmpty && (thr s t).cpx.all (·.dead)

/-- The master of a continuation fails: its locks break and its slot is freed. -/
def contFail (slot reason : Nat) (s : State) : State :=
  match tfind s.sched.cont slot with
  | some c =>
    let s1 := (ownedLocks s slot true).foldl (fun s l => bump 0xC090 0x0D (breakLock l false s)) s
    endBrick c.words reason 0 (modSched (fun u => { u with cont := tdel u.cont slot }) s1)
  | none => s

/-- PARK once its waits have ended (R364, R365). A thread that runs no brick goes on. A change of st that its shadow
still held goes into the slot (R251; DEDUCED, log 157). -/
def parkThread (t : Nat) (s0 : State) : State :=
  let x := thr s0 t
  match x.brick with
  | none => retire t (nextPc s0 t) (modThr t (fun x => { x with hold := .none }) s0)
  | some ws =>
    let s := bumpTile t 0x01 s0
    if 262144 ≤ s.sched.cont.length then
      bump 0xC080 0x0D (endBrick ws 0x48 0 (freeThread t s))
    else
      let slot := tfresh s.sched.cont
      let c : Cont := { words := ws, w := x.w, pc := x.pc + 1, st := sstFor x, spc := x.spc, sst := x.sst, ecause := x.ecause,
                        prio := max (brickPrio ws) x.boost, tdl := x.tdl, waitPrg := x.prg }
      let s1 := modSched (fun u => { u with cont := tput u.cont slot c }) s
      let s2 := modHost (fun h => { h with xl := h.xl.map (fun r =>
        { r with reqs := r.reqs.map (fun q => if q = .thread t then .cont slot else q) }) }) s1
      let s3 := idleThread t (chanCleanup t (parkLocks t slot (bump 0xC080 0x03 s2)))
      if x.prg then s3
      else if x.tdl = 0 then contReady slot s3
      else
        let k := contList (x.tdl.toNat - now s3)
        let d := delayCheck s3 k x.tdl.toNat (contQueue s3 c)
        if d ≠ 0 then contFail slot (refusalReason d) (countRefusal d s3)
        else delayPush k x.tdl.toNat (contQueue s3 c) ws (some slot) s3

/-- ENDB once its waits have ended (R359). A thread that runs no brick goes on. -/
def endThread (t status : Nat) (s : State) : State :=
  match (thr s t).brick with
  | none => retire t (nextPc s t) (modThr t (fun x => { x with hold := .none }) s)
  | some ws => endBrick ws (endbReason status) status (freeThread t (bumpTile t 0x01 s))

/-- Let a thread that waits on its own loads and stores go on when they have ended (DESIGN CHOICE, log 36). -/
def settle (t : Nat) (s : State) : State :=
  match (thr s t).hold with
  | .fence =>
    if (thr s t).posted.isEmpty && (storesOf s t).isEmpty then
      retire t (nextPc s t) (modThr t (fun x => { x with hold := .none }) s)
    else s
  | .stf ea v =>
    if (storesOf s t).isEmpty && decide ((coreSt s (coreOf t)).sb.length < 8) then
      let e : SbEnt := { thr := thrOf t, addr := ea, kind := 3, mask := 0xFF, data := v, lvl := level s t,
                         pasid := pasidOf (thr s t).st }
      retire t (nextPc s t) (modThr t (fun x => { x with hold := .none })
        (modCore (coreOf t) (fun c => { c with sb := c.sb ++ [e] }) s))
    else s
  | .park => if boardEmpty s t && (storesOf s t).isEmpty then parkThread t s else s
  | .endb st => if boardEmpty s t && (storesOf s t).isEmpty then endThread t st s else s
  | _ => s

/-- FENCE. -/
def execFence (t : Fin 776) (s : State) : Host.Outcome State Fault Refusal :=
  .next (runIns t.val clsS 0 [] (fun s => settle t.val (modThr t.val (fun x => { x with hold := .fence }) s)) s)

/-- PARK. -/
def execPark (t : Fin 776) (s : State) : Host.Outcome State Fault Refusal :=
  .next (runPriv t.val clsS 0 [] (fun s => settle t.val (modThr t.val (fun x => { x with hold := .park }) s)) s)

/-- ENDB. -/
def execEndb (t : Fin 776) (ra : Fin 32) (s : State) : Host.Outcome State Fault Refusal :=
  let st := (getReg s t.val ra.val).toNat % 2 ^ 16
  .next (runIns t.val clsS 0 [ra.val] (fun s => settle t.val (modThr t.val (fun x => { x with hold := .endb st }) s)) s)

/-! ### Event entry (R276, R305) -/

/-- A higher-priority event takes over an entry in progress; the displaced one stays pending (R305). -/
def takeover (t : Nat) (s : State) : State :=
  let x := thr s t
  let cur := bf x.ecause.toNat 0 3
  match (deliverable s t x.sst).find? (fun c => decide (c < cur)) with
  | some c =>
    bumpTile t 0x15 (modThr t (fun x => { x with
      ecause := mkCause c 0 (bf x.ecause.toNat 16 1) false, pc := BitVec.ofNat 17 (x.evbase.toNat * 16 + 16 * c),
      stall := (if c = 1 then false else x.stall || decide (cur = 1)) }) s)
  | none => s

/-- The asynchronous events the thread may take now, lowest class first: none in a mode shadow (R251, R276). -/
def eventNow (s : State) (t : Nat) : List Nat := if (thr s t).shadow.isSome then [] else deliverable s t (thr s t).st

/-- Take the asynchronous event of class `c` at index `spc`. -/
def takeEvent (t c spc : Nat) (s : State) : State :=
  enterEvent t c 0 ((thr s t).pc.toNat % 2) spc
    (if c = 1 then modThr t (fun x => { x with stall := false }) s else s)

/-- EVENT_ENTRY: a deferred POISON first (R294), then the pending event of highest priority (R276). A mode shadow holds
back every event but the fault (R251). -/
def execEventEntry (t : Fin 776) (s : State) : Host.Outcome State Fault Refusal :=
  let t := t.val
  let x := thr s t
  .next (
    if x.state = .idle || isHalted x || !clocked s || !pairDay s t then s
    else if x.state = .entry && stIH x.st then takeover t s
    else match x.hold with
      | .none =>
        match x.poisons with
        | p :: ps =>
          if stIH x.st then s
          else
            let s1 := squashCpx t s
            bumpTile t 0x14 (takeFault t 0x0E (thr s1 t).pc.toNat
              (modThr t (fun x => { x with poisons := ps, eaddr := BitVec.ofNat 48 p.1, einst := p.2.1 }) s1))
        | [] =>
          match eventNow s t with
          | c :: _ => let s1 := squashCpx t s; takeEvent t c (thr s1 t).pc.toNat s1
          | [] => s
      | .wake rd _ =>
        match eventNow s t with
        | c :: _ => let s1 := wakeDone t rd s; takeEvent t c (thr s1 t).pc.toNat s1
        | [] => s
      | .full _ _ _ =>
        match eventNow s t with
        | c :: _ => takeEvent t c x.pc.toNat (watchDrop t s)
        | [] => s
      | .stf _ _ =>
        match eventNow s t with
        | c :: _ => takeEvent t c x.pc.toNat s
        | [] => s
      | _ => s)

/-! ### The stall detector (R334, R335) -/

/-- The time of a STALL report runs out (R623). -/
def stallExpiry (s : State) (t0 : Nat) : Nat := expiryAt 1 (t0 + 1024 * cfg s 0xC019 0x01) t0

/-- The steward takes a STALL report: the first of a core, or another within the time of the first (R623). -/
def stallReport (c : Nat) (s : State) : State :=
  let e := match tfind s.led.stallAt c with
    | some (t0, r) => if now s < stallExpiry s t0 then (t0, true) else if r then (t0, r) else (now s, false)
    | none => (now s, false)
  modLed (fun l => { l with stallAt := tput l.stallAt c e }) s

/-- The detector of a core has counted 4,096 CCLK, 2,048 ns at 2.0 GHz: all its threads have waited that long (R334;
DEDUCED, log 160). -/
def stallCounted (s : State) (c : Nat) : Bool :=
  stallCounting s c && (coreThreads c).all (fun t => decide ((thr s t).waitAt + 2048 ≤ now s) && pairDay s t)

/-- STALL_DETECT. -/
def execStallDetect (core : Fin 96) (s : State) : Host.Outcome State Fault Refusal :=
  let c := core.val
  .next (if stallCounted s c && !(coreSt s c).fired && clocked s then
    let rec24 := natLE 1 (c / 8) ++ natLE 1 (c % 8) ++ zeros 6 ++ natLE 8 (now s) ++
      (coreThreads c).map (fun t => BitVec.ofNat 8 (thr s t).wctl.toNat)
    bump (0xC070 + c / 8) 0x1F (setVal 0x8002 0x01 rec24
      (stallReport c
        (modTile (c / 8) (fun x => { x with stalled := BitVec.ofNat 8 (bitPut x.stalled.toNat (c % 8) true) })
          (modCore c (fun x => { x with fired := true })
            (modThr (8 * c) (fun x => { x with stall := true }) s)))))
  else s)

end Sys2Proof.Machine
end

