-- ==== Sys2Proof/Machine/UnitPerm.lean ====
section
/-! DEFINITION. Which accesses to unit space a level may not make: they raise FAULT PRIV at the instruction (R33, R118,
R193, R279, R353, R370, R393, R423, R474, R487, R514, R548, R608, R655). -/

namespace Sys2Proof.Machine

/-- Area index of a thread: 768 for the steward (R353). -/
def areaOf (t : Nat) : Nat := if t < 768 then t else 768

/-- The offset lies in an area of another thread: areas of `size` bytes from `base` on, 769 of them. -/
def foreignArea (t off base size : Nat) : Bool :=
  decide (base ≤ off) && decide (off < base + 769 * size) && decide ((off - base) / size ≠ areaOf t)

/-- The offset holds a register of an array of `n` elements of `stride` bytes at `base`, the first `used` bytes of each; the
rest of an element holds none, and an access there raises no event (R36). -/
def inArray (off base stride n used : Nat) : Bool :=
  decide (base ≤ off) && decide (off < base + n * stride) && decide ((off - base) % stride < used)

/-- A store of thread `t` at level `lvl` (1 S, 2 M) to offset `off` of unit `u` is not permitted. -/
def unitStorePriv (t lvl u off : Nat) : Bool :=
  let s := decide (lvl = 1)
  if 2 ≤ u ∧ u ≤ 9 then s && (decide (off = 0x10) || decide (off = 0x38))
  else if u = 0x0E then
    (s && decide (0x28 ≤ off) && decide (off ≤ 0x48)) || (!s && decide (0x80 ≤ off) && decide (off ≤ 0xA0))
  else if u = 0x10 then (s && decide (0x10 ≤ off) && decide (off ≤ 0x7F8)) || foreignArea t off 0x10000 0x80
  else if u = 0x11 then
    (s && decide (0x100 ≤ off) && decide (off < 0x300)) || (s && foreignArea t off 0x1000 8)
  else if u = 0x12 then (s && decide (0x10 ≤ off) && decide (off ≤ 0x2FF)) || (s && foreignArea t off 0x10000 0x80)
  else if u = 0x13 then (s && inArray off 0x100 0x40 64 0x30) || foreignArea t off 0x10000 0x80
  else if 0x14 ≤ u ∧ u ≤ 0x17 then s && (decide (off = 0x28) || decide (off = 0x30))
  else if u = 0x18 then s && (inArray off 0x100000 0x20 4096 0x20 || inArray off 0x200000 0x20 4096 0x18)
  else if u = 0x19 then
    (s && (inArray off 0x100000 0x20 1024 0x18 || inArray off 0x200000 8 16384 8)) || foreignArea t off 0x400000 0x40
  else if u = 0x1A then s && (decide (off = 0x28) || (decide (0x100 ≤ off) && decide (off < 0x380)))
  else if 0x20 ≤ u then s && decide (off = 0x10)
  else false

/-- A load of thread `t` at level `lvl` from offset `off` of unit `u` is not permitted: S reads no register of Table 20-8;
UNIT_IDENT stands outside that table and S reads it as R40 has it (R655; DEDUCED, log 158). -/
def unitLoadPriv (t lvl u off : Nat) : Bool := decide (u = 0x1B) && decide (lvl = 1) && inArray off 0x10 8 6 8 && decide (t < 776)

end Sys2Proof.Machine
end

