-- ==== Sys2Proof/Machine/Xlate.lean ====
section
/-! DEFINITION. Host windows: apertures, PASIDs, the address translation cache and what waits for it (chapter 16). -/

namespace Sys2Proof.Machine

/-- A place in host memory: function (128 * PORT + FUNC), PASID, host address. -/
structure HPlace where
  func : Nat
  pasid : Option Nat
  addr : Nat
  deriving DecidableEq, Repr

/-- Aperture `a` (Table 16-12). -/
def aperOf (s : State) (a : Nat) : Aper := tget {} s.host.aper a

/-- The slot of a function that holds a PASID. -/
def pasidSlot (s : State) (f pasid : Nat) : Option Nat :=
  (List.range 64).find? (fun k => match tfind s.host.pslot (64 * f + k) with | some (p, _) => decide (p = pasid) | none => false)

/-- Expected service time of a PASID, or 8401h.02 when it has none (R363, R541). -/
def estOf (s : State) (f : Nat) (pasid : Option Nat) : Nat :=
  match pasid with
  | some p =>
    match pasidSlot s f p with
    | some k => ((tfind s.host.pslot (64 * f + k)).map (·.2)).getD (cfg s 0x8401 0x02)
    | none => cfg s 0x8401 0x02
  | none => cfg s 0x8401 0x02

/-- A requester's PASID when it has none, and when it names a slot that is not registered: neither is a 20-bit value, and
no slot ever holds the second. -/
def noPasid : Nat := 2 ^ 20
def badPasid : Nat := 2 ^ 20 + 1

/-- The place a host-window address names, and what fails: 0 nothing, 07h ADDR_UNMAPPED, 03h NOT_PERMITTED, 0Ch
XLATE_FAIL (R535). `user` is an access of a core at level U. -/
def apCheck (s : State) (wr user : Bool) (pasid : Nat) (a : Nat) : Nat × HPlace :=
  let e := aperOf s (a / 2 ^ 36 % 1024)
  let c := e.ctl.toNat
  let o := a % 2 ^ 36
  let p : HPlace := { func := 128 * bf c 1 1 + bf c 2 7, pasid := if bit c 9 ∨ pasid = noPasid then none else some pasid,
                      addr := (e.hbase.toNat + o) % 2 ^ 64 }
  if !bit c 0 || decide (e.len * 4096 ≤ o) then (0x07, p)
  else if (wr && !bit c 11) || (!wr && !bit c 10) || (user && !bit c 12) then (0x03, p)
  else if !bit c 9 && decide (pasid ≠ noPasid) && (pasidSlot s p.func pasid).isNone then (0x0C, p)
  else (0, p)

/-- The ATC entry that translates a place, with the right it needs (R536). -/
def atcEntry (s : State) (p : HPlace) (wr : Bool) : Option AtcEnt :=
  s.host.atc.find? (fun e => decide (e.func = p.func) && decide (e.pasid = p.pasid) &&
    decide (e.base ≤ p.addr) && decide (p.addr < e.base + 2 ^ e.log2) && (if wr then e.wr else e.rd))

/-- The translated address of a place, if the ATC holds it; a function with ATS disabled sends untranslated addresses
(R540). -/
def translate (s : State) (p : HPlace) (wr : Bool) : Option Nat :=
  if (funcOf s p.func).ats then (atcEntry s p wr).map (fun e => e.phys + (p.addr - e.base)) else some p.addr

/-- A hit makes its entry the most recently used one, and is counted. -/
def atcTouch (p : HPlace) (wr : Bool) (s : State) : State :=
  match atcEntry s p wr with
  | some e => bump 0xC0E8 0x05 (modHost (fun h => { h with atc := e :: h.atc.filter (fun x => decide (x ≠ e)) }) s)
  | none => s

/-- Install an entry: eight ways, the least recently used one of its set makes room (R536). The set is chosen by the
low 11 bits of the page number of its base (DESIGN CHOICE, log 40). -/
def atcInstall (e : AtcEnt) (s : State) : State :=
  let set := fun (x : AtcEnt) => x.base / 4096 % 2048
  modHost (fun h =>
    let rest := h.atc.filter (fun x => !(decide (x.func = e.func) && decide (x.pasid = e.pasid) && decide (x.base = e.base)))
    let same := rest.filter (fun x => decide (set x = set e))
    let out := if 8 ≤ same.length then same.getLast? else none
    { h with atc := e :: (match out with | some o => rest.filter (fun x => decide (x ≠ o)) | none => rest) }) s

/-- PASID and NOPASID of what is sent: a translated address carries no PASID. -/
def sentPasid (s : State) (p : HPlace) : Option Nat := if (funcOf s p.func).ats then none else p.pasid

/-- Ask for a translation, or join a request for the same page (R536). -/
def requestXlate (p : HPlace) (wr : Bool) (r : XReq) (s : State) : State :=
  let page := p.addr / 4096 * 4096
  let same := fun (x : Xlate) => decide (x.func = p.func) && decide (x.pasid = p.pasid) && decide (x.addr = page) && decide (x.wr = wr)
  if s.host.xl.any (fun x => same x && decide (r ∈ x.reqs)) then s
  else if s.host.xl.any same then
    bump 0xC0E8 0x06 (modHost (fun h => { h with xl := h.xl.map (fun x => if same x then { x with reqs := x.reqs ++ [r] } else x) }) s)
  else
    bump 0xC0E8 0x06 <| emit (.hostMsg (p.func / 128) "ATS_REQUEST" (p.func % 128) [(p.pasid.map (· + 1)).getD 0, page, b2n wr])
      (modHost (fun h => { h with xl := h.xl ++ [{ func := p.func, pasid := p.pasid, addr := page, wr := wr, reqs := [r],
                                                   prgAt := none, waiting := false }] }) s)

/-- Write bytes to a place in host memory whose translation is at hand. -/
def hostPut (p : HPlace) (data : Bytes) (s : State) : State :=
  match translate s p true with
  | some phys => emit (.hostWrite (p.func / 128) (p.func % 128) (sentPasid s p) phys data) s
  | none => s

end Sys2Proof.Machine
end

