-- ==== Sys2Proof/Machine/IkMem.lean ====
section
/-! DEFINITION. Ikievo-72 loads and stores: checks, store-buffer forwarding, posted loads, full/empty (chapters 07, 08,
15, 16). -/

namespace Sys2Proof.Machine

/-! ### Shape of an access (Table 7-7, R263, R264) -/

/-- Bytes an instruction of opcodes 40h-52h reads or writes. -/
def memWidth (op : Nat) : Nat :=
  match op with
  | 0x40 => 1 | 0x41 => 1 | 0x42 => 2 | 0x43 => 2 | 0x44 => 4 | 0x45 => 4
  | 0x49 => 1 | 0x4A => 2 | 0x4B => 4
  | _ => 8

/-- ST8 to STW, STTAG and STF. -/
def memIsStore (op : Nat) : Bool := (decide (0x49 ≤ op) && decide (op ≤ 0x4D)) || decide (op = 0x4F) || decide (op = 0x52)

/-- LDW, STW, LDTAG, STTAG, LDF, LDFE and STF need a multiple of 8. -/
def memAligned (op : Nat) : Bool := decide (op = 0x48) || decide (0x4D ≤ op)

/-- LDTAG, STTAG, LDF, LDFE and STF need tags. -/
def memNeedsTag (op : Nat) : Bool := decide (0x4E ≤ op)

/-- The access, or its two halves when it crosses a word boundary: address and bytes. -/
def memParts (op ea : Nat) : List (Nat × Nat) :=
  let w := memWidth op
  if ea % 8 + w ≤ 8 then [(ea, w)] else [(ea, 8 - ea % 8), ((ea + (8 - ea % 8)) % 2 ^ 48, w - (8 - ea % 8))]

/-! ### Checks (R31, R33, R35-R39, R264, R269, R270, R278, R535) -/

/-- Rank and cause of what is wrong with one half, if anything. Steward ROM stands in the code store's column (R282), and
the code region of steward SRAM takes no store but STW (R639; DEDUCED, log 35). -/
def partFault (s : State) (t op a : Nat) : Option (Nat × Nat) :=
  let p := unalias (coreOf t) a
  let lvl := level s t
  let st := memIsStore op
  match regionOf p with
  | .unmapped => some (6, 0x07)
  | .hbm => if hbmRetired s p then some (6, 0x07) else none
  | .tileStore _ => none
  | .nearStore _ => none
  | .codeStore _ =>
    if lvl = 0 then some (7, 0x03) else if memNeedsTag op then some (8, 0x08)
    else if st && decide (op ≠ 0x4D) then some (9, 0x09) else none
  | .sram =>
    if lvl ≠ 2 then some (7, 0x03)
    else if st && decide (op ≠ 0x4D) && decide (p - 0xE300000000 < 0x40000) then some (9, 0x09) else none
  | .rom =>
    if lvl ≠ 2 then some (7, 0x03) else if memNeedsTag op then some (8, 0x08)
    else if st && decide (op ≠ 0x4D) then some (9, 0x09) else none
  | .unitSpace u off =>
    if !unitAssigned u then some (6, 0x07)
    else if lvl = 0 || (st && unitStorePriv t lvl u off) || (!st && unitLoadPriv t lvl u off) then some (7, 0x03)
    else if memNeedsTag op then some (8, 0x08)
    else if a % 8 ≠ 0 || memWidth op ≠ 8 then some (10, 0x0A)
    else if unitOff s u off then some (11, 0x0B) else none
  | .hostWin =>
    let r := (apCheck s st (decide (lvl = 0)) (pasidOf (thr s t).st) p).1
    if r = 0x07 then some (6, 0x07) else if r = 0x03 then some (7, 0x03)
    else if memNeedsTag op then some (8, 0x08) else if r = 0x0C then some (12, 0x0C) else none

/-- The fault of lowest rank, with the address of the half that meets it. -/
def memFault (s : State) (t op ea : Nat) : Option (Nat × Nat) :=
  if memAligned op && decide (ea % 8 ≠ 0) then some (0x06, ea)
  else
    match memParts op ea with
    | [(a, _)] => (partFault s t op a).map (fun f => (f.2, a))
    | [(a, _), (b, _)] =>
      match partFault s t op a, partFault s t op b with
      | none, none => none
      | some f, none => some (f.2, a)
      | none, some g => some (g.2, b)
      | some f, some g => if g.1 < f.1 then some (g.2, b) else some (f.2, a)
    | _ => none

/-- The first half that lies in a host window and whose translation is not at hand (R296). -/
def memMiss (s : State) (t op ea : Nat) : Option HPlace :=
  ((memParts op ea).filterMap (fun p =>
    if regionOf p.1 = .hostWin then
      let h := (apCheck s (memIsStore op) (decide (level s t = 0)) (pasidOf (thr s t).st) p.1).2
      if (translate s h (memIsStore op)).isNone then some h else none
    else none)).head?

/-! ### The store buffer as a load sees it (R301) -/

/-- Bytes of its word that a half reads. -/
def partMask (a w : Nat) : BitVec 8 := BitVec.ofNat 8 ((2 ^ w - 1) * 2 ^ (a % 8))

/-- The load also reads, or acts on, the tag. -/
def readsTag (op : Nat) : Bool := decide (op = 0x48) || decide (0x4E ≤ op)

/-- A store-buffer entry shares a byte, or the tag, with a half of a load. A tag store touches every access of its word,
since a load checks P (R266, R271). -/
def sbTouches (e : SbEnt) (op p w : Nat) : Bool :=
  decide (e.addr = p / 8 * 8) &&
    (decide (e.kind ≠ 0) || decide (e.mask &&& partMask p w ≠ 0) || readsTag op)

/-- The entry holds everything the half reads. -/
def sbCovers (e : SbEnt) (op p w : Nat) : Bool :=
  if op = 0x48 then decide (e.kind = 1)
  else if op = 0x4E then decide (e.kind = 1) || decide (e.kind = 2)
  else if 0x50 ≤ op then false
  else if e.kind = 2 then false
  else decide (e.mask &&& partMask p w = partMask p w)

/-- The youngest entry of the thread that touches a half: nothing when there is none. -/
def sbYoungest (s : State) (t op p w : Nat) : Option SbEnt :=
  ((storesOf s t).filter (fun e => sbTouches e op p w)).getLast?

/-- Some half of the load overlaps an entry that does not cover it. -/
def memReplay (s : State) (t op ea : Nat) : Bool :=
  (memParts op ea).any (fun x =>
    let p := unalias (coreOf t) x.1
    match sbYoungest s t op p x.2 with
    | some e => !sbCovers e op p x.2
    | none => false)

/-- Every half comes from the store buffer. -/
def memForwarded (s : State) (t op ea : Nat) : Bool :=
  (memParts op ea).all (fun x => (sbYoungest s t op (unalias (coreOf t) x.1) x.2).isSome)

/-- What a tag store leaves: at U it may set P and keeps a P of 1 (R267). -/
def sttagValue (lvl : Nat) (old new : Byte) : Byte := if lvl = 0 then new ||| (old &&& 0x80) else new

/-- The tag that an entry leaves over `old` (R265, R267, R268). -/
def sbTag (old : Byte) (e : SbEnt) : Byte :=
  match e.kind with
  | 0 => if e.mask = 0xFF then tagSetP false old else old
  | 1 => e.data.extractLsb' 64 8
  | 2 => sttagValue e.lvl old (e.data.extractLsb' 0 8)
  | _ => tagSetP false (tagSetF true old)

/-- The tag of a word as the thread's own undrained stores leave it over `old`, oldest first (R271). -/
def ownTag (s : State) (t p : Nat) (old : Byte) : Byte :=
  ((storesOf s t).filter (fun e => decide (e.addr = p / 8 * 8))).foldl sbTag old

/-- The word a half reads: forwarded, or at its home. A forwarded tag is what the thread's own stores make of the home's,
and a forwarded load checks the P that they set. -/
def partWord (s : State) (t op a w : Nat) : W72 :=
  let p := unalias (coreOf t) a
  match sbYoungest s t op p w with
  | some e =>
    if regionOf p = .hostWin then (0 : Byte) ++ e.data.extractLsb' 0 64
    else if op = 0x4E then ownTag s t p (memTag s p) ++ (0 : W64)
    else ownTag s t p 0 ++ e.data.extractLsb' 0 64
  | none => if regionOf p = .hostWin then 0 else memWord s p

/-- A half reads a word whose P is 1. -/
def partPoison (s : State) (t op a w : Nat) : Bool :=
  (regionOf (unalias (coreOf t) a)).tagged && (partWord s t op a w).getLsbD 71

/-- The bytes a load reads, as a number; the whole word for LDW and LDTAG. -/
def memRaw (s : State) (t op ea : Nat) : Nat :=
  if readsTag op then (partWord s t op ea 8).toNat
  else ((memParts op ea).foldl (fun (acc : Nat × Nat) x =>
    (acc.1 + bf (partWord s t op x.1 x.2).toNat (8 * (x.1 % 8)) (8 * x.2) * 2 ^ (8 * acc.2), acc.2 + x.2)) (0, 0)).1

/-- The register value a load makes of what it read (Table 7-7). -/
def loadValue (op raw : Nat) : W72 :=
  match op with
  | 0x40 => BitVec.ofInt 72 (sxt raw 8)
  | 0x42 => BitVec.ofInt 72 (sxt raw 16)
  | 0x44 => BitVec.ofInt 72 (sxt raw 32)
  | 0x46 => BitVec.ofInt 72 (sxt raw 64)
  | 0x48 => BitVec.ofNat 72 raw
  | 0x4E => BitVec.ofNat 72 (raw / 2 ^ 64)
  | _ => BitVec.ofNat 72 (raw % 2 ^ (8 * memWidth op))

/-! ### Commit -/

/-- An enabled watchpoint of the core matches the access (R645). -/
def wpMatch (s : State) (t op ea : Nat) : Bool :=
  (List.range 4).any (fun i =>
    let w := tget {} s.dbg.wp (coreOf t * 4 + i)
    w.en && w.thr.getLsbD (thrOf t) && (if memIsStore op then w.wr else w.rd) &&
      (memParts op ea).any (fun x => decide ((BitVec.ofNat 48 x.1 ^^^ w.base) &&& w.mask = 0)))

/-- A memory instruction commits. -/
def memDone (t op ea : Nat) (s : State) : State :=
  let s1 := if 1 < (memParts op ea).length then bumpTile t 0x12 s else s
  retire t (nextPc s t) (modThr t (fun x => { x with hold := .none, wpHit := x.wpHit || wpMatch s t op ea }) s1)

/-- The SRAM that a word lies in, by its tile; steward SRAM is numbered 12 (R484; DESIGN CHOICE, log 161). -/
def sramPlace (p : Nat) : Option Nat :=
  match regionOf p with
  | .tileStore k => some k
  | .nearStore c => some (c / 8)
  | .sram => some 12
  | _ => none

/-- SECDED of the SRAM words that a load reads: an error is corrected and counted, or it poisons the word (R481). -/
def sramError (t : Nat) (m : MemOp) (s : State) : State :=
  if m.ecc = 0 then s
  else (memParts m.op m.ea).foldl (fun s x =>
    let p := unalias (coreOf t) x.1
    match sramPlace p with
    | some k =>
      if (sbYoungest s t m.op p x.2).isSome then s
      else if m.ecc = 1 then bump 0xC0C0 0x10 s
      else bump 0xC0C0 0x11 (poisonWord p 1 k s)
    | none => s) s

/-- A load commits with its value, or meets poison at its own instruction: einst is written 0 (R266, R294). -/
def loadDone (t : Nat) (m : MemOp) (s0 : State) : State :=
  let s := sramError t m s0
  match if m.op = 0x48 || m.op = 0x4E then none else (memParts m.op m.ea).find? (fun x => partPoison s t m.op x.1 x.2) with
  | some (a, _) => faultAddr t 0x0E a (modThr t (fun x => { x with einst := 0, hold := .none }) s)
  | none => memDone t m.op m.ea (setReg t m.rd (loadValue m.op (memRaw s t m.op m.ea)) s)

/-! ### Posted loads (R293) -/

/-- The load is answered later: HBM and host windows, unless the store buffer holds all of it. -/
def memPosted (s : State) (t op ea : Nat) : Bool :=
  !memIsStore op && decide (op < 0x50) && !memForwarded s t op ea &&
    (memParts op ea).any (fun x => let r := regionOf (unalias (coreOf t) x.1); decide (r = .hbm) || decide (r = .hostWin))

/-- At most 8 posted loads of a thread and 32 of a core. -/
def postedRoom (s : State) (t : Nat) : Bool :=
  decide ((thr s t).posted.length < 8) &&
    decide (((coreThreads (coreOf t)).map (fun v => (thr s v).posted.length)).sum < 32)

/-- Bytes of a load that came from the store buffer, by position in the load. -/
def ownBytes (s : State) (t op ea : Nat) : Nat :=
  ((memParts op ea).foldl (fun (acc : Nat × Nat) x =>
    (if (sbYoungest s t op (unalias (coreOf t) x.1) x.2).isSome then acc.1 + (2 ^ x.2 - 1) * 2 ^ acc.2 else acc.1, acc.2 + x.2))
    (0, 0)).1

/-- Send the reads of a posted host load. -/
def sendHostReads (t : Nat) (m : MemOp) (s : State) : State :=
  (memParts m.op m.ea).foldl (fun s x =>
    if regionOf x.1 = .hostWin && (sbYoungest s t m.op x.1 x.2).isNone then
      let h := (apCheck s false (decide (level s t = 0)) (pasidOf (thr s t).st) x.1).2
      atcTouch h false (emit (.hostRead (h.func / 128) (h.func % 128) (sentPasid s h) ((translate s h false).getD 0) x.2
        (32 * t + m.rd)) s)
    else s) s

/-- Issue a posted load: an HBM load reads its words at their homes now (DEDUCED, log 28). -/
def postLoad (t : Nat) (m : MemOp) (s : State) : State :=
  let host := decide (regionOf m.ea = .hostWin)
  let p : Posted := { rd := m.rd, op := m.op, ea := m.ea, pc := (thr s t).pc.toNat, word := m.word, host := host,
                      val := BitVec.ofNat 72 (memRaw s t m.op m.ea),
                      poison := decide (m.op ≠ 0x48) && decide (m.op ≠ 0x4E) && (memParts m.op m.ea).any (fun x => partPoison s t m.op x.1 x.2),
                      own := ownBytes s t m.op m.ea, seq := (thr s t).loads }
  memDone t m.op m.ea (bumpTile t 0x13 (modThr t (fun x => { x with posted := x.posted ++ [p], loads := x.loads + 1 })
    (if host then sendHostReads t m s else s)))

/-! ### Full and empty (R268, R501) -/

/-- LDF or LDFE at its word's home: poison faults; a full word answers and LDFE empties it; an empty word makes the
thread wait, on a watch when the word is HBM data. -/
def feAnswer (t rd ea : Nat) (take : Bool) (s : State) : State :=
  let p := unalias (coreOf t) ea
  let tag := memTag s p
  if tagP tag then faultAddr t 0x0E ea (modThr t (fun x => { x with einst := 0, hold := .none }) (watchDrop t s))
  else
    let s1 := setReg t rd ((0 : Byte) ++ memData s p) (watchDrop t s)
    memDone t (if take then 0x51 else 0x50) ea (if take then tagPut (p / 8) (tagSetF false tag) s1 else s1)

/-- The home of the word that a thread waits on in LDF or LDFE. -/
def feHome (s : State) (t : Nat) : Option Nat :=
  match (thr s t).hold with
  | .full _ e _ => some (unalias (coreOf t) e)
  | _ => none

/-- The thread whose request stands first at the home of word `p`; one that found no watch entry has not reached it
(R268, R501). -/
def feHead (s : State) (p : Nat) : Option Nat :=
  s.cpu.fe.find? (fun t => decide (feHome s t = some p) && !decide (t ∈ s.hbm.noWatch.map (·.2)))

/-- The home answers now: the word is full or poisoned, and no older request stands before this one (R268). -/
def feReady (s : State) (p : Nat) : Bool := (tagF (memTag s p) || tagP (memTag s p)) && (feHead s p).isNone

/-- Wait on an empty word. -/
def feWait (t rd ea : Nat) (take : Bool) (s : State) : State :=
  let p := unalias (coreOf t) ea
  let s1 := bumpTile t 0x09 (modCpu (fun c => { c with fe := c.fe ++ [t] })
    (modThr t (fun x => { x with hold := .full rd ea take }) (watchDrop t s)))
  if regionOf p = .hbm then
    let k := (hbmPlace s.hbm.order p).stack
    if (s.hbm.watch.filter (fun w => decide (w.1 = k))).length < 1024 then modHbm (fun h => { h with watch := h.watch ++ [(k, t)] }) s1
    else modHbm (fun h => { h with noWatch := h.noWatch ++ [(k, t)] }) s1
  else s1

/-- LDF or LDFE, once its thread's older stores to the word are out of the way: requests to one word are answered in the
order they reach its home (R268). -/
def feGo (t : Nat) (m : MemOp) (s : State) : State :=
  if feReady s (unalias (coreOf t) m.ea) then feAnswer t m.rd m.ea (decide (m.op = 0x51)) s
  else feWait t m.rd m.ea (decide (m.op = 0x51)) s

/-- The home answers the requests to word `p` that stand in order while the word is full; at most `n` (R268). -/
def feServe (p : Nat) : Nat → State → State
  | 0, s => s
  | n + 1, s =>
    if tagF (memTag s p) || tagP (memTag s p) then
      match feHead s p with
      | some t =>
        (match (thr s t).hold with
         | .full rd ea take => feServe p n (feAnswer t rd ea take s)
         | _ => s)
      | none => s
    else s

/-! ### Stores (R265, R299) -/

/-- The store-buffer entries of a store. -/
def storeEntries (s : State) (t : Nat) (m : MemOp) : List SbEnt :=
  let c := coreOf t
  let mk := fun (a : Nat) (kind : Nat) (mask : BitVec 8) (d : W72) =>
    ({ thr := thrOf t, addr := unalias c a / 8 * 8, kind := kind, mask := mask, data := d, lvl := level s t,
       pasid := pasidOf (thr s t).st } : SbEnt)
  if m.op = 0x4D then [mk m.ea 1 0xFF m.val]
  else if m.op = 0x4F then [mk m.ea 2 0 m.val]
  else
    ((memParts m.op m.ea).foldl (fun (acc : List SbEnt × Nat) x =>
      (acc.1 ++ [mk x.1 0 (partMask x.1 x.2)
        (BitVec.ofNat 72 (bf m.val.toNat (8 * acc.2) (8 * x.2) * 2 ^ (8 * (x.1 % 8))))], acc.2 + x.2)) ([], 0)).1

/-- Entries a memory instruction needs at issue. -/
def sbNeeds (op ea : Nat) : Nat := if memIsStore op && decide (op ≠ 0x52) then (memParts op ea).length else 0

/-- The store buffer has room for the entries. -/
def sbRoom (s : State) (t op ea : Nat) : Bool := decide ((coreSt s (coreOf t)).sb.length + sbNeeds op ea ≤ 8)

/-! ### One memory instruction -/

/-- Act on a memory instruction that has issued: faults, a translation to wait for (R296), older stores to wait for
(R301), then the access. It is also what a retry does. -/
def memGo (t : Nat) (m : MemOp) (s : State) : State :=
  match memFault s t m.op m.ea with
  | some (c, a) => faultAddr t c a (modThr t (fun x => { x with hold := .none }) s)
  | none =>
    match memMiss s t m.op m.ea with
    | some h => requestXlate h (memIsStore m.op) (.thread t) (modThr t (fun x => { x with hold := .xlate m }) s)
    | none =>
      if m.op = 0x52 then settle t (modThr t (fun x => { x with hold := .stf (unalias (coreOf t) m.ea) m.val }) s)
      else if memIsStore m.op then
        let es := storeEntries s t m
        memDone t m.op m.ea (modCore (coreOf t) (fun c => { c with sb := c.sb ++ es }) s)
      else
        match regionOf (unalias (coreOf t) m.ea) with
        | .unitSpace _ _ => modThr t (fun x => { x with hold := .unit m }) s
        | _ =>
          if memReplay s t m.op m.ea then bumpTile t 0x11 (modThr t (fun x => { x with hold := .replay m }) s)
          else if 0x50 ≤ m.op then feGo t m s
          else if memPosted s t m.op m.ea then postLoad t m s
          else loadDone t m s

/-- The memory instruction could issue but for the store buffer or the posted loads (R293, R300). -/
def memReady (s : State) (t op ea : Nat) : Bool := sbRoom s t op ea && (!memPosted s t op ea || postedRoom s t)

/-- The effective address (R263). -/
def memEa (s : State) (t ra : Nat) (disp : BitVec 18) : Nat := (getReg s t ra + imm72 disp).toNat % 2 ^ 48

/-- Issue a load of opcode `op`; `ecc` is what the SRAM word it reads proves to be. -/
def runLoad (op t rd ra : Nat) (disp : BitVec 18) (s : State) (ecc : Nat := 0) : State :=
  let ea := memEa s t ra disp
  if canIssue s t clsM [rd, ra] && memReady s t op ea then
    memGo t { op := op, rd := rd, ea := ea, val := 0, word := wordI op rd ra disp.toNat, ecc := ecc } (issue t clsM rd [rd, ra] ea s)
  else s

/-- Issue a store of opcode `op`; one that lacks store-buffer entries is counted (R308). -/
def runStore (op t rs ra : Nat) (disp : BitVec 18) (s : State) : State :=
  let ea := memEa s t ra disp
  if canIssue s t clsM [rs, ra] then
    if sbRoom s t op ea then
      memGo t { op := op, rd := 0, ea := ea, val := getReg s t rs, word := wordI op rs ra disp.toNat }
        (issue t clsM 0 [rs, ra] ea s)
    else bumpTile t 0x10 s
  else s

/-! ### The instructions -/

/-- LD8. -/
def execLd8 (t : Fin 776) (rd ra : Fin 32) (disp : BitVec 18) (s : State) : Host.Outcome State Fault Refusal :=
  .next (runLoad 0x40 t.val rd.val ra.val disp s)
/-- LD8U. -/
def execLd8u (t : Fin 776) (rd ra : Fin 32) (disp : BitVec 18) (s : State) : Host.Outcome State Fault Refusal :=
  .next (runLoad 0x41 t.val rd.val ra.val disp s)
/-- LD16. -/
def execLd16 (t : Fin 776) (rd ra : Fin 32) (disp : BitVec 18) (s : State) : Host.Outcome State Fault Refusal :=
  .next (runLoad 0x42 t.val rd.val ra.val disp s)
/-- LD16U. -/
def execLd16u (t : Fin 776) (rd ra : Fin 32) (disp : BitVec 18) (s : State) : Host.Outcome State Fault Refusal :=
  .next (runLoad 0x43 t.val rd.val ra.val disp s)
/-- LD32. -/
def execLd32 (t : Fin 776) (rd ra : Fin 32) (disp : BitVec 18) (s : State) : Host.Outcome State Fault Refusal :=
  .next (runLoad 0x44 t.val rd.val ra.val disp s)
/-- LD32U. -/
def execLd32u (t : Fin 776) (rd ra : Fin 32) (disp : BitVec 18) (s : State) : Host.Outcome State Fault Refusal :=
  .next (runLoad 0x45 t.val rd.val ra.val disp s)
/-- LD64, which meets what the SRAM word it reads proves to be (R481). -/
def execLd64 (t : Fin 776) (rd ra : Fin 32) (src : Ld64At) (s : State) : Host.Outcome State Fault Refusal :=
  .next (runLoad 0x46 t.val rd.val ra.val src.disp s src.ecc.val)
/-- LD64U. -/
def execLd64u (t : Fin 776) (rd ra : Fin 32) (disp : BitVec 18) (s : State) : Host.Outcome State Fault Refusal :=
  .next (runLoad 0x47 t.val rd.val ra.val disp s)
/-- LDW. -/
def execLdw (t : Fin 776) (rd ra : Fin 32) (disp : BitVec 18) (s : State) : Host.Outcome State Fault Refusal :=
  .next (runLoad 0x48 t.val rd.val ra.val disp s)
/-- LDTAG. -/
def execLdtag (t : Fin 776) (rd ra : Fin 32) (disp : BitVec 18) (s : State) : Host.Outcome State Fault Refusal :=
  .next (runLoad 0x4E t.val rd.val ra.val disp s)
/-- LDF. -/
def execLdf (t : Fin 776) (rd ra : Fin 32) (disp : BitVec 18) (s : State) : Host.Outcome State Fault Refusal :=
  .next (runLoad 0x50 t.val rd.val ra.val disp s)
/-- LDFE. -/
def execLdfe (t : Fin 776) (rd ra : Fin 32) (disp : BitVec 18) (s : State) : Host.Outcome State Fault Refusal :=
  .next (runLoad 0x51 t.val rd.val ra.val disp s)

/-- ST8. -/
def execSt8 (t : Fin 776) (rs ra : Fin 32) (disp : BitVec 18) (s : State) : Host.Outcome State Fault Refusal :=
  .next (runStore 0x49 t.val rs.val ra.val disp s)
/-- ST16. -/
def execSt16 (t : Fin 776) (rs ra : Fin 32) (disp : BitVec 18) (s : State) : Host.Outcome State Fault Refusal :=
  .next (runStore 0x4A t.val rs.val ra.val disp s)
/-- ST32. -/
def execSt32 (t : Fin 776) (rs ra : Fin 32) (disp : BitVec 18) (s : State) : Host.Outcome State Fault Refusal :=
  .next (runStore 0x4B t.val rs.val ra.val disp s)
/-- ST64. -/
def execSt64 (t : Fin 776) (rs ra : Fin 32) (disp : BitVec 18) (s : State) : Host.Outcome State Fault Refusal :=
  .next (runStore 0x4C t.val rs.val ra.val disp s)
/-- STW. -/
def execStw (t : Fin 776) (rs ra : Fin 32) (disp : BitVec 18) (s : State) : Host.Outcome State Fault Refusal :=
  .next (runStore 0x4D t.val rs.val ra.val disp s)
/-- STTAG. -/
def execSttag (t : Fin 776) (rs ra : Fin 32) (disp : BitVec 18) (s : State) : Host.Outcome State Fault Refusal :=
  .next (runStore 0x4F t.val rs.val ra.val disp s)
/-- STF. -/
def execStf (t : Fin 776) (rs ra : Fin 32) (disp : BitVec 18) (s : State) : Host.Outcome State Fault Refusal :=
  .next (runStore 0x52 t.val rs.val ra.val disp s)

/-! ### Answers -/

/-- The bytes of a host load: its own bytes from the store buffer, the others from the completion. -/
def mixBytes (own mine data : Nat) : Nat :=
  ((List.range 8).map (fun i => (if bit own i then bf mine (8 * i) 8 else bf data (8 * i) 8) * 2 ^ (8 * i))).sum

/-- Insert a deferred fault in the order the loads issued (R294). -/
def poisonInsert (p : Nat × BitVec 36 × Nat) : List (Nat × BitVec 36 × Nat) → List (Nat × BitVec 36 × Nat)
  | [] => [p]
  | q :: ps => if q.2.2 < p.2.2 then q :: poisonInsert p ps else p :: q :: ps

/-- POSTED_LOAD_RETURN: the oldest posted load of the thread to register `rd` is answered; for a host load with `data`,
or with an error (R294; DEDUCED, log 29). -/
def execPostedLoadReturn (t : Fin 776) (rd : Fin 32) (data : W64) (err : Bool) (s : State) :
    Host.Outcome State Fault Refusal :=
  let t := t.val
  .next (match (thr s t).posted.find? (fun p => decide (p.rd = rd.val)) with
    | none => s
    | some p =>
      if !clocked s then s
      else
        let s1 := modThr t (fun x => { x with posted := x.posted.filter (fun q => decide (q.seq ≠ p.seq)) }) s
        let raw := if p.host then mixBytes p.own p.val.toNat data.toNat else p.val.toNat
        if p.poison || (p.host && err) then
          settle t (modThr t (fun x => { x with poisons := poisonInsert (p.ea, p.word, p.seq) x.poisons }) s1)
        else settle t (setReg t p.rd (loadValue p.op raw) s1))

/-- FULL_EMPTY_ANSWER: the home answers a waiting LDF or LDFE whose word is full, the requests to one word in the order
they came (R268). -/
def execFullEmptyAnswer (t : Fin 776) (s : State) : Host.Outcome State Fault Refusal :=
  let t := t.val
  .next (match (thr s t).hold with
    | .full rd ea take =>
      let p := unalias (coreOf t) ea
      let tag := memTag s p
      if clocked s && (tagF tag || tagP tag) && decide (feHead s p = some t) then feAnswer t rd ea take s else s
    | _ => s)

/-- WATCH_RETRY: a request that found no watch entry tries again (R501); it reaches its home only now, behind those that
wait there (R268). -/
def execWatchRetry (t : Fin 776) (s : State) : Host.Outcome State Fault Refusal :=
  let t := t.val
  .next (match s.hbm.noWatch.find? (fun w => decide (w.2 = t)), (thr s t).hold with
    | some (k, _), .full rd ea take =>
      let s1 := bump (0xC0D0 + k) 0x15 s
      if feReady s (unalias (coreOf t) ea) then feAnswer t rd ea take s1
      else if (s.hbm.watch.filter (fun w => decide (w.1 = k))).length < 1024 then
        modCpu (fun c => { c with fe := c.fe.filter (fun v => decide (v ≠ t)) ++ [t] })
          (modHbm (fun h => { h with watch := h.watch ++ [(k, t)], noWatch := h.noWatch.filter (fun w => decide (w.2 ≠ t)) }) s1)
      else s1
    | _, _ => s)

/-- LOAD_REPLAY: the older stores that met the load have drained, and it is done again (R301). -/
def execLoadReplay (t : Fin 776) (s : State) : Host.Outcome State Fault Refusal :=
  let t := t.val
  .next (match (thr s t).hold with
    | .replay m =>
      if clocked s && (!memPosted s t m.op m.ea || postedRoom s t) &&
          (memParts m.op m.ea).all (fun x => (sbYoungest s t m.op (unalias (coreOf t) x.1) x.2).isNone) then memGo t m s
      else s
    | _ => s)

/-- ICACHE_FILL: a line of the core's code store, by its line number pc / 16, enters the core's instruction cache: 128
sets of four ways, the least recently used one of the set makes room (R303). -/
def execIcacheFill (core : Fin 97) (line : BitVec 13) (s : State) : Host.Outcome State Fault Refusal :=
  let c := core.val
  let n := line.toNat
  let ways := tget [] (coreSt s c).ic (n % 128)
  .next (if n ∈ ways || !clocked s then s
    else
      let s1 := if c < 96 then bump (0xC070 + c / 8) 0x0F s else s
      modCore c (fun x => { x with ic := tset [] x.ic (n % 128) ((n :: ways).take 4) }) s1)

end Sys2Proof.Machine
end

