-- ==== Sys2Proof/Machine/LockCmd.lean ====
section
/-! DEFINITION. The lock unit's commands (chapter 11). -/

namespace Sys2Proof.Machine

/-- ACQUIRE_TRY. -/
def execAcquireTry (lock : Fin 4096) (master : BitVec 16) (prio : Fin 16) (s : State) : Host.Outcome State Fault Refusal :=
  .next (lockReply lock.val master.toNat (lockAcquire false lock.val master.toNat prio.val s))

/-- ACQUIRE_QUEUE, with the other requests that reach the unit in the same CCLK (R391). -/
def execAcquireQueue (lock : Fin 4096) (master : BitVec 16) (req : LockCome) (s : State) :
    Host.Outcome State Fault Refusal :=
  .next (lockMeet (⟨1, lock, master, req.prio⟩ :: req.same) s)

/-- RELEASE. -/
def execRelease (lock : Fin 4096) (master : BitVec 16) (s : State) : Host.Outcome State Fault Refusal :=
  .next (lockReply lock.val master.toNat (lockRelease lock.val master.toNat s))

/-- LOCK_QUERY. -/
def execLockQuery (lock : Fin 4096) (master : BitVec 16) (s : State) : Host.Outcome State Fault Refusal :=
  .next (lockReply lock.val master.toNat (lockQuery lock.val master.toNat s))

/-- The lease of a halted owner is paused while 8800h.02 is 1 (R389). -/
def leasePaused (s : State) (x : Lock) : Bool :=
  cfgB s 0x8800 0x02 && !x.pk &&
    ((decide (x.owner < 768) && isHalted (thr s x.owner)) ||
     (decide (0xC000 ≤ x.owner ∧ x.owner < 0xC008) && isHalted (thr s (768 + (x.owner - 0xC000)))))

/-- LEASE_EXPIRY: a lease expires at its boundary and the lock breaks (R384, R385). -/
def execLeaseExpiry (lock : Fin 4096) (s : State) : Host.Outcome State Fault Refusal :=
  let x := lockOf s lock.val
  .next (if x.state = 1 && decide (x.deadline ≠ 0) && !leasePaused s x && reached (expiryAt x.leaseDl x.deadline x.leaseAt) s then
    bump 0xC090 0x0B (breakLock lock.val true s) else s)

/-- 8804h.01 breaks a HELD lock (R385). -/
def wrBreakLock : WriteEff := fun _ v s =>
  let l := leNat v
  if (lockOf s l).state = 1 then (stOk, bump 0xC090 0x10 (breakLock l true s)) else (stNotHeld, s)

/-- BREAK_LOCK. -/
def execBreakLock (h : DHdr) (v : Bytes) (s : State) : Host.Outcome State Fault Refusal :=
  .next (dictWriteRow h 0x8804 0x01 v wrBreakLock s)

/-- A 2-bit right at `b` as it is stored: 10b is 00b (R375). -/
def rightNorm (c b : Nat) : Nat := if bf c b 2 = 2 then 0 else bf c b 2 * 2 ^ b

/-- A group's configuration as it is stored (Table 11-5). -/
def groupNorm (c : Nat) : Nat := rightNorm c 0 + rightNorm c 2 + rightNorm c 4 + bf c 8 1 * 2 ^ 8 + leaseDl c * 2 ^ 9 + leaseN c * 2 ^ 16

/-- Write a group's configuration; leases start or end when LEASE_EN changes (R390). -/
def groupWrite (g c : Nat) (s : State) : State :=
  let was := bit (groupCfg s g) 8
  let s1 := setVal 0x8801 (g + 1) (natLE 4 (groupNorm c)) s
  let held := (s1.locks.lock.filter (fun e => decide (e.1 / 64 = g) && decide (e.2.state = 1))).map (·.1)
  if bit c 8 && !was then held.foldl (fun s l => startLease l s) s1
  else if !bit c 8 && was then held.foldl (fun s l => modLock l (fun x => { x with deadline := 0 }) s) s1
  else s1

def wrGroup (g : Nat) : WriteEff := fun _ v s => (stOk, groupWrite g (leNat v) s)

/-- LOCK_GROUP_CONFIG. -/
def execLockGroupConfig (h : DHdr) (g : Fin 64) (v : Bytes) (s : State) : Host.Outcome State Fault Refusal :=
  .next (dictWriteRow h 0x8801 (g.val + 1) v (wrGroup g.val) s)

/-- 8802h.02: LSTATE, LDEADLINE, BRKOWN and BRKPK of the lock that 8802h.01 selects. -/
def rdLockState : ReadEff := fun sid s =>
  let l := own s sid 0x8802 0x01
  let x := lockOf s l
  let b := match x.brk with | some (o, pk) => o + b2n pk * 2 ^ 18 | none => 0
  (stOk, natLE 8 (lockWord s l 0).toNat ++ natLE 8 x.deadline ++ natLE 8 b, s)

/-- LOCK_STATE_READ. -/
def execLockStateRead (h : DHdr) (s : State) : Host.Outcome State Fault Refusal :=
  .next (dictReadRow h 0x8802 0x02 rdLockState s)

end Sys2Proof.Machine
end

