-- ==== Sys2Proof/Machine/Debug.lean ====
section
/-! DEFINITION. The debug unit: unlocking, debug commands, halts, breakpoints, watchpoints, trace (R642-R646). -/

namespace Sys2Proof.Machine

/-! ### Unlocking over JTAG (R642) -/

/-- DBG_NONCE: a fresh nonce of 32 bytes is shifted out; each is used once. -/
def execDbgNonce (s : State) : Host.Outcome State Fault Refusal :=
  let n : BitVec 256 := BitVec.ofNat 256 (freeNat s)
  .next (emit (.jtag (natLE 32 n.toNat)) (modDbg (fun d => { d with nonce := some n }) (drawn s)))

/-- The backoff of R564 after wrong proofs. -/
def unlockBackoff (s : State) : Bool :=
  decide (0 < s.dbg.fails) && decide (now s < expiryAt 2 (s.dbg.failAt + min (2 ^ (s.dbg.fails - 1)) 256 * 1000000000) s.dbg.failAt)

/-- The proof that unlocks: HMAC-SHA-384 of the token key over "ZYDT", the serial and the nonce. -/
def unlockProof (key : Bytes) (nonce : BitVec 256) : Bytes :=
  hmac384 key (ascii "ZYDT" ++ natLE 8 Config.serial.toNat ++ natLE 32 nonce.toNat)

/-- DBG_UNLOCK: a correct proof before the expiry unlocks the tiles in scope; a wrong one is counted and starts the backoff.
Either way the nonce is used. A proof in the backoff, or with no nonce or no key, unlocks nothing and is counted. -/
def execDbgUnlock (proof : Bytes) (s : State) : Host.Outcome State Fault Refusal :=
  let key := entVal s 0xD020 0x01
  let s1 := modDbg (fun d => { d with nonce := none }) s
  .next (if unlockBackoff s then bump 0xC110 0x0C s1
    else
      let good := match s.dbg.nonce with
        | some n => decide (key ≠ []) && decide (proof = unlockProof key n) && decide (now s ≤ cfg s 0xD020 0x03 / 65536)
        | none => false
      if good then
        bump 0xC110 0x0B (modDbg (fun d => { d with scope := BitVec.ofNat 12 (cfg s 0xD020 0x02), fails := 0 }) s1)
      else bump 0xC110 0x0C (modDbg (fun d => { d with fails := d.fails + 1, failAt := now s }) s1))

/-! ### Running a debug command (R643) -/

/-- What a debug command answers and leaves: status, result bytes, next state. -/
abbrev DbgEff := Nat → State → Nat × Bytes × State

/-- The target is within the unlocked scope: an installer session reaches every tile, JTAG the tiles unlocked; the steward
needs a maker unlock (DESIGN CHOICE, log 108). -/
def dbgAllowed (s : State) (jtag : Bool) (tile : Nat) : Bool :=
  if tile = 15 then s.dbg.maker else !jtag || s.dbg.maker || s.dbg.scope.getLsbD tile

/-- The thread a command names: TILE 15 is the steward. -/
def dbgThread (tile core th : Nat) : Option Nat :=
  if 8 ≤ th then none
  else if tile = 15 then (if core < 2 then some (768 + th) else none)
  else if tile < 12 ∧ core < 8 then some (64 * tile + 8 * core + th) else none

/-- Check scope and target, then act. -/
def dbgAct (jtag : Bool) (tile core th : Nat) (eff : DbgEff) (s : State) : Nat × Bytes × State :=
  match dbgThread tile core th with
  | none => (stRange, [], s)
  | some t => if dbgAllowed s jtag tile then eff t s else (stDenied, [], s)

/-- D100h.01: the command acts and its result waits in the session's D100h.02. -/
def dbgWrite (tile core th : Nat) (eff : DbgEff) : WriteEff := fun sid _ s =>
  let r := dbgAct false tile core th eff s
  (r.1, modSess sid (fun e => { e with dbgResult := r.2.1 }) r.2.2)

/-- Run a debug command with the ARG bytes `arg`: over a session its result waits in D100h.02, over JTAG the status and the
result are shifted out. -/
def dbgRun (via : DbgVia) (cmd : Nat) (tile core th : BitVec 8) (arg : Bytes) (eff : DbgEff) (s : State) : State :=
  match via with
  | .session h => dictWriteRow h 0xD100 0x01 (natLE 1 cmd ++ [tile, core, th] ++ arg) (dbgWrite tile.toNat core.toNat th.toNat eff) s
  | .jtag =>
    let r := dbgAct true tile.toNat core.toNat th.toNat eff s
    emit (.jtag (natLE 1 r.1 ++ r.2.1)) r.2.2

/-- HALT asks for a halt. -/
def dbgHalt : DbgEff := fun t s =>
  (stOk, [], if isHalted (thr s t) then s else modThr t (fun x => { x with haltReq := true }) s)

/-- HALT. -/
def execHalt (via : DbgVia) (tile core th : BitVec 8) (s : State) : Host.Outcome State Fault Refusal :=
  .next (dbgRun via 0x01 tile core th [] dbgHalt s)

/-- A thread becomes HALTED: the stall detector of its core counts from 0 again (R334). -/
def haltThread (t : Nat) (s : State) : State :=
  modCore (coreOf t) (fun c => { c with fired := false })
    (modThr t (fun x => { x with halted := true, haltReq := false, stepLeft := none, haltAt := now s, pair := none }) s)

/-- HALT_EFFECT: the halt takes effect where an asynchronous event could be taken and none is due; a thread in LDF or LDFE
leaves the wait and runs the instruction again on resume, one in STF likewise (R268, R644). -/
def execHaltEffect (t : Fin 776) (s : State) : Host.Outcome State Fault Refusal :=
  let t := t.val
  let x := thr s t
  let stop := fun (s : State) => bump 0xC110 0x0D (haltThread t s)
  .next (if !x.haltReq || x.halted || !clocked s then s
    else if x.state = .idle then stop s
    else if x.shadow.isSome || eventDue s t || faultDue x then s
    else match x.hold with
      | .none => if uncommitted x then s else stop s
      | .wake _ _ => stop s
      | .full _ _ _ => stop (modThr t (fun x => { x with hold := .none }) (watchDrop t s))
      | .stf _ _ => stop (modThr t (fun x => { x with hold := .none }) s)
      | _ => s)

/-- The master id of a thread. -/
def threadMaster (t : Nat) : Nat := if t < 768 then t else 0xC000 + (t - 768)

/-- The leases that a halt paused grow by the halted interval (R389). -/
def resumeLeases (t : Nat) (dur : Nat) (s : State) : State :=
  if cfgB s 0x8800 0x02 then
    modLocks (fun u => { u with lock := tmap (fun l =>
      if l.state = 1 ∧ l.owner = threadMaster t ∧ l.pk = false ∧ l.deadline ≠ 0 then { l with deadline := l.deadline + dur } else l) u.lock }) s
  else s

/-- A thread leaves HALTED: its leases go on, and a drain timeout of its tile starts again (R369, R644). -/
def unhalt (t : Nat) (steps : Option Nat) (s : State) : State :=
  let x := thr s t
  let s1 := if isHalted x then
      let s2 := resumeLeases t (now s - x.haltAt) s
      if t < 768 && (tfind s2.sched.drainAt (tileOf t)).isSome then
        modSched (fun u => { u with drainAt := tput u.drainAt (tileOf t) (now s) }) s2 else s2
    else s
  modThr t (fun x => { x with
    halted := false, haltReq := false, stepLeft := steps, bpSkip := isHalted x || x.bpSkip,
    waitAt := if isHalted x then now s else x.waitAt }) s1

/-- RESUME: the thread leaves HALTED. -/
def dbgResume : DbgEff := fun t s => (stOk, [], unhalt t none s)

/-- RESUME. -/
def execResume (via : DbgVia) (tile core th : BitVec 8) (s : State) : Host.Outcome State Fault Refusal :=
  .next (dbgRun via 0x02 tile core th [] dbgResume s)

/-- STEP: `n` issue groups, then HALTED. -/
def dbgStep (n : Nat) : DbgEff := fun t s => if n = 0 then (stRange, [], s) else (stOk, [], unhalt t (some n) s)

/-- STEP. -/
def execStep (via : DbgVia) (tile core th : BitVec 8) (n : BitVec 16) (s : State) : Host.Outcome State Fault Refusal :=
  .next (dbgRun via 0x03 tile core th (natLE 2 n.toNat) (dbgStep n.toNat) s)

/-! ### Registers and memory -/

/-- READ_REGS: w0-w31 of 9 bytes, pc, st, cs of 8, and system registers 02h-0Fh of 9 each. -/
def regsBytes (s : State) (t : Nat) : Bytes :=
  (List.range 32).flatMap (fun r => natLE 9 (getReg s t r).toNat) ++ natLE 8 (thr s t).pc.toNat ++
    natLE 8 (srValue s t 0).toNat ++ natLE 8 (srValue s t 1).toNat ++
    (List.range 14).flatMap (fun i => natLE 9 (srValue s t (i + 2)).toNat)

/-- READ_REGS. -/
def execReadRegs (via : DbgVia) (tile core th : BitVec 8) (s : State) : Host.Outcome State Fault Refusal :=
  .next (dbgRun via 0x04 tile core th [] (fun t s => (stOk, regsBytes s t, s)) s)

/-- WRITE_REG: 0-31 a general register, 32 pc, 64 + n system register n; BUSY unless the thread is HALTED. -/
def writeReg (t reg : Nat) (v : W72) (s : State) : Nat × Bytes × State :=
  if !isHalted (thr s t) then (stBusy, [], s)
  else if reg < 32 then (stOk, [], setReg t reg v s)
  else if reg = 32 then (stOk, [], modThr t (fun x => { x with pc := v.truncate 17 }) s)
  else if 64 ≤ reg ∧ reg ≤ 79 then (stOk, [], srWrite t (reg - 64) v s)
  else (stRange, [], s)

/-- WRITE_REG. -/
def execWriteReg (via : DbgVia) (tile core th : BitVec 8) (reg : BitVec 8) (v : W72) (s : State) : Host.Outcome State Fault Refusal :=
  .next (dbgRun via 0x05 tile core th ([reg] ++ natLE 9 v.toNat) (fun t s => writeReg t reg.toNat v s) s)

/-- Words that `n` bytes from `a` touch. -/
def wordsTouched (a n : Nat) : List Nat := (List.range ((a + n + 7) / 8 - a / 8)).map (fun i => a / 8 + i)

/-- The whole range lies in one memory of the device. -/
def inStore (core a n : Nat) : Bool :=
  (regionOf (unalias core a)).isStore && decide (n = 0 ∨ regionOf (unalias core a) = regionOf (unalias core a + n - 1))

/-- READ_MEM: the bytes, then the tags of the words they lie in. -/
def dbgReadMem (addr len : Nat) : DbgEff := fun t s =>
  let a := unalias (coreOf t) addr
  if inStore (coreOf t) addr len && decide (len ≤ 64) then
    (stOk, memBytes s a len ++ (wordsTouched a len).map (fun w => memTag s (w * 8)), s)
  else (stRange, [], s)

/-- READ_MEM. -/
def execReadMem (via : DbgVia) (tile core th : BitVec 8) (addr : BitVec 48) (len : Fin 65) (s : State) :
    Host.Outcome State Fault Refusal :=
  .next (dbgRun via 0x06 tile core th (natLE 8 addr.toNat ++ natLE 1 len.val) (dbgReadMem addr.toNat len.val) s)

/-- WRITE_MEM: the bytes, then a tag for each word touched as far as tags are given. -/
def dbgWriteMem (addr : Nat) (data tags : Bytes) : DbgEff := fun t s =>
  let a := unalias (coreOf t) addr
  if inStore (coreOf t) addr data.length && decide (data.length ≤ 64) then
    (stOk, [], ((wordsTouched a data.length).zip tags).foldl (fun s e => tagPut e.1 e.2 s) (memWrite a data s))
  else (stRange, [], s)

/-- WRITE_MEM. -/
def execWriteMem (via : DbgVia) (tile core th : BitVec 8) (addr : BitVec 48) (data tags : Bytes) (s : State) :
    Host.Outcome State Fault Refusal :=
  .next (dbgRun via 0x07 tile core th (natLE 8 addr.toNat ++ natLE 1 data.length ++ data ++ tags) (dbgWriteMem addr.toNat data tags) s)

/-! ### Breakpoints, watchpoints, channels, trace -/

/-- SET_BP: a breakpoint of the core. -/
def dbgSetBp (slot : Nat) (b : Bp) : DbgEff := fun t s =>
  if slot < 4 then (stOk, [], modDbg (fun d => { d with bp := tset {} d.bp (coreOf t * 4 + slot) b }) s) else (stRange, [], s)

/-- SET_BP. -/
def execSetBp (via : DbgVia) (tile core th : BitVec 8) (slot : Fin 4) (index : BitVec 17) (mask : BitVec 8) (en : Bool) (s : State) :
    Host.Outcome State Fault Refusal :=
  .next (dbgRun via 0x08 tile core th (natLE 1 slot.val ++ natLE 3 index.toNat ++ [mask] ++ natLE 1 (b2n en))
    (dbgSetBp slot.val { index := index, mask := mask, en := en }) s)

/-- SET_WP: a watchpoint of the core. -/
def dbgSetWp (slot : Nat) (w : Wp) : DbgEff := fun t s =>
  if slot < 4 then (stOk, [], modDbg (fun d => { d with wp := tset {} d.wp (coreOf t * 4 + slot) w }) s) else (stRange, [], s)

/-- SET_WP. -/
def execSetWp (via : DbgVia) (tile core th : BitVec 8) (slot : Fin 4) (base mask : BitVec 48) (rd wr : Bool) (thr : BitVec 8)
    (en : Bool) (s : State) : Host.Outcome State Fault Refusal :=
  .next (dbgRun via 0x09 tile core th (natLE 1 slot.val ++ natLE 6 base.toNat ++ natLE 6 mask.toNat ++
      natLE 1 (b2n rd + 2 * b2n wr) ++ [thr] ++ natLE 1 (b2n en))
    (dbgSetWp slot.val { base := base, mask := mask, rd := rd, wr := wr, thr := thr, en := en }) s)

/-- CHAN_ABORT: the thread's reservation on the channel goes, and the abort is counted (R325). -/
def dbgChanAbort (chan : Nat) : DbgEff := fun t s =>
  if 64 ≤ chan then (stRange, [], s)
  else (stOk, [], if t < 768 ∧ rsvChan s (tileOf t) (t % 64) = some chan then bump 0xC110 0x10 (abortRsv t s) else s)

/-- CHAN_ABORT. -/
def execChanAbort (via : DbgVia) (tile core th : BitVec 8) (chan : Fin 64) (s : State) : Host.Outcome State Fault Refusal :=
  .next (dbgRun via 0x0A tile core th (natLE 1 chan.val) (dbgChanAbort chan.val) s)

/-- TRACE: configure the trace of a tile and start it, or let it wait for its start breakpoint. -/
def dbgTrace (masks : BitVec 64) (mode first last : Nat) : DbgEff := fun t s =>
  let x : Trace := { mask := masks, mode := mode, start := first, stop := last, on := decide (first = 4), recs := [] }
  if t < 768 ∧ mode < 2 ∧ first < 5 ∧ last < 5 then (stOk, [], modDbg (fun d => { d with trace := tset {} d.trace (tileOf t) x }) s)
  else (stRange, [], s)

/-- A breakpoint slot of a TRACE, or 4 for none. -/
def slotNo (o : Option (Fin 4)) : Nat := match o with | some i => i.val | none => 4

/-- TRACE. -/
def execTrace (via : DbgVia) (tile core th : BitVec 8) (masks : BitVec 64) (stop : Bool) (first last : Option (Fin 4)) (s : State) :
    Host.Outcome State Fault Refusal :=
  .next (dbgRun via 0x0B tile core th (natLE 8 masks.toNat ++ natLE 1 (b2n stop) ++ natLE 1 (slotNo first) ++ natLE 1 (slotNo last))
    (dbgTrace masks (b2n stop) (slotNo first) (slotNo last)) s)

/-- TRACE_READ: up to four records from `first`. -/
def dbgTraceRead (first : Nat) : DbgEff := fun t s =>
  if t < 768 then (stOk, (((tget {} s.dbg.trace (tileOf t)).recs.drop first).take 4).flatten, s) else (stRange, [], s)

/-- TRACE_READ. -/
def execTraceRead (via : DbgVia) (tile core th : BitVec 8) (first : BitVec 16) (s : State) : Host.Outcome State Fault Refusal :=
  .next (dbgRun via 0x0C tile core th (natLE 2 first.toNat) (dbgTraceRead first.toNat) s)

/-- The effect a record of Table 20-4 asks for, by its CMD and ARG bytes (DESIGN CHOICE, log 107). -/
def dbgEffOf (cmd : Nat) (arg : Bytes) : Option DbgEff :=
  match cmd with
  | 0x01 => some dbgHalt
  | 0x02 => some dbgResume
  | 0x03 => some (dbgStep (leAt arg 0 2))
  | 0x04 => some (fun t s => (stOk, regsBytes s t, s))
  | 0x05 => some (fun t s => writeReg t (leAt arg 0 1) (BitVec.ofNat 72 (leAt arg 1 9)) s)
  | 0x06 => some (dbgReadMem (leAt arg 0 8 % 2 ^ 48) (leAt arg 8 1))
  | 0x07 => some (dbgWriteMem (leAt arg 0 8 % 2 ^ 48) (slice arg 9 (leAt arg 8 1)) (arg.drop (9 + leAt arg 8 1)))
  | 0x08 => some (dbgSetBp (leAt arg 0 1)
      { index := BitVec.ofNat 17 (leAt arg 1 3), mask := BitVec.ofNat 8 (leAt arg 4 1), en := bit (leAt arg 5 1) 0 })
  | 0x09 => some (dbgSetWp (leAt arg 0 1)
      { base := BitVec.ofNat 48 (leAt arg 1 6), mask := BitVec.ofNat 48 (leAt arg 7 6), rd := bit (leAt arg 13 1) 0,
        wr := bit (leAt arg 13 1) 1, thr := BitVec.ofNat 8 (leAt arg 14 1), en := bit (leAt arg 15 1) 0 })
  | 0x0A => some (dbgChanAbort (leAt arg 0 1))
  | 0x0B => some (dbgTrace (BitVec.ofNat 64 (leAt arg 0 8)) (leAt arg 8 1) (leAt arg 9 1) (leAt arg 10 1))
  | 0x0C => some (dbgTraceRead (leAt arg 0 2))
  | _ => none

/-- A write of D100h.01 by its bytes: a record shorter than its head is TYPE, an unknown CMD RANGE. -/
def wrDebugCmd : WriteEff := fun sid v s =>
  if v.length < 4 then (stType, s)
  else match dbgEffOf (leAt v 0 1) (v.drop 4) with
    | some eff => dbgWrite (leAt v 1 1) (leAt v 2 1) (leAt v 3 1) eff sid v s
    | none => (stRange, s)

/-- The breakpoint slots of a core that match a thread's pc. -/
def bpSlots (s : State) (t : Nat) : List Nat :=
  (List.range 4).filter (fun i =>
    let b := tget {} s.dbg.bp (coreOf t * 4 + i)
    b.en && b.mask.getLsbD (thrOf t) && decide (b.index = (thr s t).pc))

/-- A matched breakpoint starts or stops the trace of its tile (R643). -/
def traceMark (t : Nat) (slots : List Nat) (s : State) : State :=
  if t < 768 then
    modDbg (fun d => { d with trace := tmod {} d.trace (tileOf t) (fun x =>
      if x.stop ∈ slots then { x with on := false } else if x.start ∈ slots then { x with on := true } else x) }) s
  else s

/-- BREAKPOINT_HIT: the thread halts before an instruction that would issue and whose index matches (R645; DESIGN
CHOICE, log 109). -/
def execBreakpointHit (t : Fin 776) (s : State) : Host.Outcome State Fault Refusal :=
  let t := t.val
  let x := thr s t
  .next (if x.state ≠ .idle ∧ x.hold = .none ∧ uncommitted x = false ∧ isHalted x = false ∧ clocked s = true ∧ bpMatch s t = true ∧
      eventDue s t = false ∧ faultDue x = false then
      bump 0xC110 0x0E (haltThread t (traceMark t (bpSlots s t) s))
    else s)

/-- WATCHPOINT_HIT: the thread halts after the instruction whose access matched has committed (R645). -/
def execWatchpointHit (t : Fin 776) (s : State) : Host.Outcome State Fault Refusal :=
  .next (if (thr s t.val).wpHit then
      bump 0xC110 0x0F (haltThread t.val (modThr t.val (fun x => { x with wpHit := false }) s))
    else s)

end Sys2Proof.Machine
end

