-- ==== Sys2Proof/Machine/Sched.lean ====
section
/-! DEFINITION. The scheduler's commands: posting, dispatch, delay lists, budgets, drains (chapter 10). -/

namespace Sys2Proof.Machine

/-! ### Posting (R353) -/

def postOf (s : State) (m : Nat) : PostArea := tget {} s.sched.post m
def modPost (m : Nat) (f : PostArea → PostArea) (s : State) : State :=
  modSched (fun u => { u with post := tmod {} u.post m f }) s

/-- The master that owns a post area. -/
def areaMaster (m : Nat) : Nat := if m < 768 then m else 0xC000

/-- Report a post in its area; BID names the last accepted post. -/
def postDone (m : Nat) (r : Nat × BitVec 32 × State) : State :=
  modPost m (fun x => { x with status := r.1, bid := if r.1 = 0 then r.2.1 else x.bid }) r.2.2

/-- GO in a post area by `master`: an immediate brick, or a delayed one on list `k`. Before Dawn-4 ends no brick is accepted: SCHED_FULL
(R636; DESIGN CHOICE, log 19). -/
def postGo (m master : Nat) (delay : Option Nat) (s : State) : State :=
  let x := postOf s m
  postDone m (if !awake s then (1, 0, countRefusal 1 s) else match delay with
    | none => acceptBrick x.w master false s
    | some k => acceptDelayed x.w master k x.due.toNat false s)

/-- POST_IMMEDIATE (DESIGN CHOICE, log 39). -/
def execPostImmediate (area : Fin 769) (s : State) : Host.Outcome State Fault Refusal := .next (postGo area.val (areaMaster area.val) none s)

/-- POST_DELAYED. -/
def execPostDelayed (area : Fin 769) (list : Fin 4) (s : State) : Host.Outcome State Fault Refusal :=
  .next (postGo area.val (areaMaster area.val) (some list.val) s)

/-! ### Overflow and delay lists (R345, R355) -/

/-- Bring the oldest spilled brick of a queue on chip. -/
def unspill : List QBrick → List QBrick
  | [] => []
  | b :: t => if b.spilled then { b with spilled := false } :: t else b :: unspill t

/-- SPILL_REFILL: one brick, queues in rotating order. -/
def execSpillRefill (s : State) : Host.Outcome State Fault Refusal :=
  .next (if 16384 ≤ onchipCount s then s
    else match ((List.range 32).map (fun i => (s.sched.refillPtr + i) % 32)).find? (fun q => rqSpilled s q) with
      | some q => modSched (fun u => { u with refillPtr := (q + 1) % 32 }) (modRq q unspill s)
      | none => s)

/-- Release one delayed brick into its ready queue. -/
def releaseOne (e : DlEnt) (s : State) : State :=
  match e.b.cont with
  | some k => contReady k s
  | none => rqPush (classRq s (bkClass e.b.words)) e.b.words none s

/-- The delayed bricks whose boundary has been reached, in the order of R355. -/
def dueEntries (s : State) : List DlEnt :=
  (List.range 4).foldl (fun acc k => ((dlOf s k).filter (fun e => reached e.due s)).foldl (fun a e => dlInsert e a) acc) []

/-- Release every entry whose due boundary has been reached (R355). -/
def releaseDue (s : State) : State :=
  let es := dueEntries s
  let s1 := (List.range 4).foldl (fun s k => modDl k (fun l => l.filter (fun e => !reached e.due s)) s) s
  es.foldl (fun s e => releaseOne e s) s1

/-- DELAY_LIST_RELEASE. -/
def execDelayListRelease (s : State) : Host.Outcome State Fault Refusal := .next (releaseDue s)

/-! ### Dispatch (R347-R351, R367) -/

/-- A core takes bricks: it is not excluded, under self-test or stopped (R620). -/
def coreUsable (s : State) (c : Nat) : Bool := !tget false s.led.excluded c && (tfind s.led.selfTest c).isNone

/-- A pair domain counts as in DAY: it is, or it is in DUSK with all its threads IDLE (R592). -/
def pairReady (s : State) (d : Nat) : Bool :=
  decide (domState s d = 0) || (decide (domState s d = 1) && (pairThreads d).all (fun t => decide ((thr s t).state = .idle)))

/-- The tile's domains count as in DAY. -/
def tileDay (s : State) (tile : Nat) : Bool :=
  decide (domState s (5 * tile + 4) = 0) && (List.range 4).all (fun i => pairReady s (5 * tile + i))

/-- IDLE threads of a core that takes bricks. -/
def idleThreads (s : State) (c : Nat) : List Nat :=
  if coreUsable s c then (coreThreads c).filter (fun t => decide ((thr s t).state = .idle) && !(thr s t).halted) else []

/-- The core of a tile with the most IDLE threads, the lowest on a tie, and its lowest IDLE thread. -/
def pickThread (s : State) (tile : Nat) : Option Nat :=
  ((List.range 8).foldl (fun (best : List Nat) k =>
    let l := idleThreads s (8 * tile + k)
    if best.length < l.length then l else best) []).head?

/-- A queued brick is eligible for a tile (R347). -/
def eligible (s : State) (q tile : Nat) (b : QBrick) : Bool :=
  bit (bkAff b.words) tile && bit (rqCfg s q) (4 + tile) && bit (tileEn s) tile && bit (rqCfg s q) 16 &&
    !bit (tileDrain s) tile && tileDay s tile && !b.spilled

/-- Queues in order of priority, then number. -/
def queueOrder (s : State) : List Nat :=
  ((List.range 16).map (fun i => (List.range 32).filter (fun q => decide (bf (rqCfg s q) 0 4 = 15 - i)))).flatten

/-- The first brick of a queue, among its first `n`, that is eligible for the tile: its position. -/
def queuePick (s : State) (q tile n : Nat) : Option (Nat × QBrick) :=
  findIdxVal (eligible s q tile) ((rqOf s q).take n) 0

/-- Lock hint: a try ACQUIRE for the thread; the outcome code (R351). -/
def lockHint (t : Nat) (words : List W64) (s : State) : Nat × State :=
  if bkLhv words then
    let r := lockAcquire false (bkLockh words) (masterOf t) 0 s
    (r.1, if r.1 = 1 ∨ r.1 = 2 ∨ r.1 = 6 then r.2 else bump 0xC080 0x13 r.2)
  else (0, s)

/-- The registers w1-w8 of a dispatched brick. -/
def brickRegs (words : List W64) : Tab W72 :=
  ((List.range 8).map (fun i => (i + 1, (words.getD i 0).zeroExtend 72))).foldl (fun t e => tset 0 t e.1 e.2) []

/-- A thread takes a brick of KIND 1-4 (R350). -/
def startBrick (t : Nat) (words : List W64) (s : State) : State :=
  let st : BitVec 64 := BitVec.ofNat 64 ((if bkPl words = 1 then 0 else 1) + bkPasid words * 2 ^ 32)
  let x : Thread := { w := brickRegs words, pc := BitVec.ofNat 17 (bkEntry words), st := st, state := .run,
                      brick := some words, limit := budgetOf s words, evbase := BitVec.ofNat 13 (classEvb s (bkClass words)),
                      cpx := (thr s t).cpx, haltReq := (thr s t).haltReq }
  let s1 := bump 0xC080 0x01 (modThr t (fun _ => x) s)
  let r := lockHint t words s1
  setReg t 9 (BitVec.ofNat 72 r.1) r.2

/-- A thread resumes a parked brick from its slot (R367, R388). -/
def startCont (t slot : Nat) (s : State) : State :=
  match tfind s.sched.cont slot with
  | none => s
  | some c =>
    let x : Thread := { w := c.w, pc := c.pc, st := c.st, spc := c.spc, sst := c.sst, ecause := c.ecause, state := .run,
                        brick := some c.words, limit := budgetOf s c.words,
                        evbase := BitVec.ofNat 13 (classEvb s (bkClass c.words)),
                        boost := if brickPrio c.words < c.prio then c.prio else 0,
                        cpx := (thr s t).cpx, haltReq := (thr s t).haltReq }
    bump 0xC080 0x02 (resumeLocks slot t (modSched (fun u => { u with cont := tdel u.cont slot }) (modThr t (fun _ => x) s)))

/-- Dispatch a brick to a thread: its pair wakes when it is in DUSK, its core is no longer stalled. -/
def dispatchTo (t : Nat) (b : QBrick) (s : State) : State :=
  let s1 := modCore (coreOf t) (fun c => { c with fired := false })
    (if domState s (pairDomain t) = 1 then wakeDomain (pairDomain t) s else s)
  match b.cont with
  | some k => startCont t k s1
  | none => startBrick t b.words s1

/-- At most one dispatch to a tile; `left` counts what stays visible of each queue. -/
def dispatchTile (tile : Nat) (left : Tab Nat) (s : State) : Option (Tab Nat × State) :=
  match pickThread s tile with
  | none => none
  | some t =>
    ((queueOrder s).map (fun q => (q, queuePick s q tile (tget 32 left q)))).findSome? (fun e =>
      match e.2 with
      | some (i, b) => some (tset 32 left e.1 (tget 32 left e.1 - 1), dispatchTo t b (modRq e.1 (fun l => l.eraseIdx i) s))
      | none => none)

/-- DISPATCH: one CCLK of the scheduler (R348; DESIGN CHOICE, log 38). -/
def execDispatch (s : State) : Host.Outcome State Fault Refusal :=
  let order := (List.range 12).map (fun i => (s.sched.tilePtr + i) % 12)
  let r := order.foldl (fun (acc : Tab Nat × Option Nat × State) tile =>
    match dispatchTile tile acc.1 acc.2.2 with
    | some (l, s') => (l, acc.2.1 <|> some tile, s')
    | none => acc) ([], none, s)
  .next (if clocked s then match r.2.1 with
    | some first => modSched (fun u => { u with tilePtr := (first + 1) % 12 }) r.2.2
    | none => s
  else s)

/-! ### Budgets (R357, R358) -/

/-- BUDGET_FAULT. -/
def execBudgetFault (t : Fin 776) (s : State) : Host.Outcome State Fault Refusal :=
  let t := t.val
  let x := thr s t
  .next (if x.brick.isSome && !x.budgetTaken && decide (x.limit ≤ x.charge) && !stIH x.st && decide (x.hold = .none) &&
      decide (x.state ≠ .idle) && !isHalted x && clocked s then
    bump 0xC080 0x05 (faultAt t 0x0F (modThr t (fun x => { x with budgetTaken := true }) (squashCpx t s)))
  else s)

/-- BUDGET_RESET. -/
def execBudgetReset (t : Fin 776) (s : State) : Host.Outcome State Fault Refusal :=
  let t := t.val
  let x := thr s t
  .next (match x.brick with
    | some ws =>
      if budgetOf s ws + cfg s 0x8401 0x03 ≤ x.charge then bump 0xC080 0x06 (endBrick ws 0x45 0 (resetThread t s)) else s
    | none => s)

/-! ### Draining (R368, R369) -/

/-- The charge limits of a tile's running bricks shorten. -/
def shortenLimits (tile : Nat) (s : State) : State :=
  let d := cfg s 0x8402 0x03
  (tileThreads tile).foldl (fun s t =>
    if (thr s t).brick.isSome then modThr t (fun x => { x with limit := min x.limit (x.charge + d) }) s else s) s

/-- Queued bricks whose affinity allows only draining or disabled tiles. -/
def shutBricks (s : State) : Nat :=
  (s.sched.rq.map (fun e => (e.2.filter (fun b => decide (openTiles s e.1 b.words = 0))).length)).sum

/-- Change what tiles are open, and count the queued bricks that are left with none (R368). -/
def openChange (f : State → State) (s : State) : State := bumpBy 0xC080 0x11 (shutBricks (f s) - shutBricks s) (f s)

/-- A write of SCHED_DRAIN. -/
def drainWrite (v : Nat) (s : State) : State :=
  let old := tileDrain s
  let s2 := openChange (setVal 0x8402 0x02 (natLE 2 v)) s
  (List.range 12).foldl (fun s t =>
    if bit v t && !bit old t then
      checkDrained t (modSched (fun u => { u with drainAt := tput u.drainAt t (now s) }) (shortenLimits t s))
    else if !bit v t && bit old t then
      modSched (fun u => { u with drainAt := tdel u.drainAt t, drained := BitVec.ofNat 12 (bitPut u.drained.toNat t false) }) s
    else s) s2

/-- A queue or class entry in the layout of Table 10-6: reserved bits read 0 and ignore a write (R6, R8). -/
def schedLayout (idx v : Nat) : Bytes :=
  if idx = 0x8410 then natLE 4 (v % 2 ^ 17)
  else if idx = 0x8420 then natLE 8 (bf v 0 28 + bf v 32 13 * 2 ^ 32)
  else natLE 4 (v % 2 ^ 28)

def wrTileDrain : WriteEff := fun _ v s => (stOk, drainWrite (leNat v) s)

/-- TILE_DRAIN. -/
def execTileDrain (h : DHdr) (v : Bytes) (s : State) : Host.Outcome State Fault Refusal :=
  .next (dictWriteRow h 0x8402 0x02 v wrTileDrain s)

/-- DRAIN_TIMEOUT: the threads of a draining tile still busy are reset (R369). -/
def execDrainTimeout (tile : Fin 12) (s : State) : Host.Outcome State Fault Refusal :=
  let k := tile.val
  .next (match tfind s.sched.drainAt k with
    | some a =>
      if reached (expiryAt 1 (a + 1024 * cfg s 0x8402 0x04) a) s then
        (tileThreads k).foldl (fun s t =>
          if (thr s t).state = .idle ∨ isHalted (thr s t) = true then s
          else
            let s1 := bump 0xC080 0x07 (resetThread t s)
            match (thr s t).brick with | some ws => lostBrick ws 0x47 s1 | none => s1) s
      else s
    | none => s)

end Sys2Proof.Machine
end

