-- ==== Sys2Proof/Machine/Faults.lean ====
section
/-! DEFINITION. The ledger check, and the faults of cores, event controllers and the steward (chapter 19). -/

namespace Sys2Proof.Machine

/-! ### The ledger (R613-R616, R676) -/

/-- A row keeps R613. -/
def LRow.balanced (r : LRow) : Bool := decide (r.acc = r.comp + r.fail + r.infl)

/-- Rows that fail R613. -/
def unbalanced (s : State) : List Nat := [1, 2, 3, 4, 5, 6].filter (fun r => !(ledRow s r).balanced)

/-- The record of C000h.03. -/
def mismatchRecord (s : State) (r ns : Nat) : Bytes :=
  let x := ledRow s r
  natLE 1 r ++ zeros 5 ++ natLE 8 ns ++ natLE 8 x.acc.toNat ++ natLE 8 x.comp.toNat ++ natLE 8 x.fail.toNat ++ natLE 8 x.infl.toNat

/-- The balance of every row at a DL2 boundary (R614). -/
def checkLedger (s : State) : State :=
  let b := checkNow s * dlPeriod 2
  let s1 := bump 0xC018 0x0A (modLed (fun l => { l with checkIdx := checkNow s, lastCheck := ofNs b }) s)
  match unbalanced s with
  | [] => s1
  | bad =>
    let s2 := modLed (fun l => { l with
      mismatches := l.mismatches + BitVec.ofNat 32 bad.length, lastMismatch := mismatchRecord s (bad.getLast?.getD 1) b }) s1
    freezeEvent 0 (if s2.dict.alertLedger then s2 else emit (.ibi 1) (modDict (fun d => { d with alertLedger := true }) s2))

/-- LEDGER_CHECK: the check, after the other actions of classes 1 and 2 of its boundary (R69, R614). -/
def execLedgerCheck (s : State) : Host.Outcome State Fault Refusal :=
  .next (if (nextDue s).map (·.act) = some .check then checkLedger s else s)

/-- C000h.02: the count, and the ledger cause of ALERT_N ends. -/
def rdMismatches : ReadEff := fun _ s =>
  (stOk, natLE 4 s.led.mismatches.toNat, modDict (fun d => { d with alertLedger := false }) s)

/-- LEDGER_ALERT_CLEAR. -/
def execLedgerAlertClear (h : DHdr) (s : State) : Host.Outcome State Fault Refusal :=
  .next (dictReadRow h 0xC000 0x02 rdMismatches s)

/-- C017h.01 pops up to 64 records. -/
def rdFailureLog : ReadEff := fun _ s => (stOk, (s.led.log.take 64).flatten, modLed (fun l => { l with log := l.log.drop 64 }) s)

/-- FAILURE_LOG_READ. -/
def execFailureLogRead (h : DHdr) (s : State) : Host.Outcome State Fault Refusal :=
  .next (dictReadRow h 0xC017 0x01 rdFailureLog s)

/-! ### Core faults (R620, R621) -/

/-- Reset the busy threads of a core: each brick is queued again when IDEM, else fails with the reason (R360). -/
def resetCore (c reason : Nat) (s : State) : State :=
  (coreThreads c).foldl (fun s t =>
    if (thr s t).state = .idle then s
    else
      let s1 := resetThread t s
      match (thr s t).brick with
      | some ws => lostBrick ws reason (if bkIdem ws then bump 0xC018 0x07 s1 else s1)
      | none => s1) s

/-- The self-test of 40 us begins. -/
def beginSelfTest (c : Nat) (s : State) : State := modLed (fun l => { l with selfTest := tput l.selfTest c (now s + 40000) }) s

/-- A core fault: store-buffer entries, posted loads and watches go, the threads are reset, the shared registers
cleared (DESIGN CHOICE, log 112). -/
def faultCore (c : Nat) (s : State) : State :=
  let s1 := (coreThreads c).foldl (fun s t => watchDrop t (modThr t (fun x => { x with posted := [] }) s))
    (modCore c (fun x => { x with sb := [] }) (bump 0xC018 0x01 s))
  freezeEvent 2 (beginSelfTest c (modCore c (fun x => { x with sr := [] }) (resetCore c 0x4A s1)))

/-- CORE_FAULT. -/
def execCoreFault (core : Fin 96) (s : State) : Host.Outcome State Fault Refusal := .next (faultCore core.val s)

/-- TEC_CHANNEL_FAULT: a core fault on all eight cores; PEND, ACTIVE, DELIV, counts and channel slots are cleared. -/
def execTecChannelFault (tile : Fin 12) (s : State) : Host.Outcome State Fault Refusal :=
  let s1 := (List.range 8).foldl (fun s k => faultCore (8 * tile.val + k) s) (bump 0xC018 0x03 s)
  .next (modTile tile.val (fun x => { x with
    pend := 0, active := 0,
    grp := (tremap {} (fun g => { g with deliv := false, count := 0, start := none, expired := false }) x.grp),
    chan := (tremap {} (fun c => { c with rsv := none, sealed := [], claimed := [] }) x.chan) }) s1)

/-- SELF_TEST_END: a core that passes is admitted again; one that fails is excluded until the next Dawn or C019h.03. -/
def execSelfTestEnd (core : Fin 96) (pass : Bool) (s : State) : Host.Outcome State Fault Refusal :=
  .next (match tfind s.led.selfTest core.val with
    | some e =>
      if s.clk.frozen.isNone && decide (e ≤ now s) then
        let s1 := modLed (fun l => { l with selfTest := tdel l.selfTest core.val, excluded := tset false l.excluded core.val (!pass) }) s
        if pass then s1 else bump 0xC018 0x02 s1
      else s
    | none => s)

/-- C019h.03: an excluded core runs its self-test; BUSY while one runs. -/
def wrCoreReadmit : WriteEff := fun _ v s =>
  let c := leNat v
  if 96 ≤ c then (stRange, s)
  else if (tfind s.led.selfTest c).isSome then (stBusy, s)
  else (stOk, if tget false s.led.excluded c then beginSelfTest c s else s)

/-- CORE_READMIT. -/
def execCoreReadmit (h : DHdr) (v : Bytes) (s : State) : Host.Outcome State Fault Refusal :=
  .next (dictWriteRow h 0xC019 0x03 v wrCoreReadmit s)

/-! ### The steward (R622) -/

/-- STEWARD_MISMATCH: both steward cores are reset and a warm restart begins. -/
def execStewardMismatch (s : State) : Host.Outcome State Fault Refusal :=
  .next (if s.led.restart.isSome then s
    else
      let s1 := (List.range 8).foldl (fun s i => modThr (768 + i) (fun _ => threadInit (768 + i)) (resetThread (768 + i) s)) s
      let s2 := modCore 96 (fun _ => {}) s1
      freezeEvent 3 (bump 0xC018 0x05 (modLed (fun l => { l with restart := some (now s) }) s2)))

/-- WARM_RESTART_END: held services resume. -/
def execWarmRestartEnd (s : State) : Host.Outcome State Fault Refusal :=
  .next (match s.led.restart with
    | some a => modLed (fun l => { l with restart := none, restarted := some (a, now s) }) s
    | none => s)

/-! ### Stalls (R623) -/

/-- STALL_RESET: another firing came in time, or STALL is still pending on thread 0 when the time expires. A stall that
was cleared in time is forgotten. -/
def execStallReset (core : Fin 96) (s : State) : Host.Outcome State Fault Refusal :=
  let c := core.val
  .next (match tfind s.led.stallAt c with
    | none => s
    | some (t0, again) =>
      let gone := modLed (fun l => { l with stallAt := tdel l.stallAt c }) s
      if s.led.restart.isSome then s
      else if again || (reached (stallExpiry s t0) s && (thr s (8 * c)).stall) then resetCore c 0x4B (bump 0xC018 0x06 gone)
      else if reached (stallExpiry s t0) s then gone
      else s)

end Sys2Proof.Machine
end

