-- ==== Sys2Proof/Machine/Power.lean ====
section
/-! DEFINITION. The power unit's commands: targets, wakes, soft starts, governor windows, device NIGHT (chapter 18). -/

namespace Sys2Proof.Machine

/-! ### Refusals (R588-R590) -/

/-- An action names a counter or meter of bank `k`. -/
def namesBank (k : Nat) (a : W64) : Bool :=
  (bit a.toNat 18 && decide (bf a.toNat 0 18 / 65536 = k)) || (bit a.toNat 33 && decide (bf a.toNat 19 14 / 4096 = k))

/-- A live course sees an entry, or a default action, that names bank `k` (R160). -/
def bankNamed (s : State) (k : Nat) : Bool :=
  let live := activeCourse s :: (match s.cls.older with | some c => [c.toNat] | none => [])
  live.any (fun c => s.cls.ent.any (fun e => visible e.2 c && namesBank k e.2.action) ||
    (List.range 8).any (fun p => namesBank k (tget dropAction s.cls.dflt (2 * p + c % 2))))

/-- A slot of a tile is armed (R456). -/
def slotArmed (s : State) (tile : Nat) : Bool := (tget {} s.cops.tile tile).slot.any (fun e => e.2.armed.isSome || e.2.arming.isSome)

/-- The domain's own chapter, or R588 and R590, refuse to take it out of DAY. -/
def leaveRefused (s : State) (d st : Nat) : Bool :=
  (decide (2 ≤ st) && usersUp s d) ||
  (if d < 60 then
     (if d % 5 = 4 then slotArmed s (d / 5) || !s.sched.drained.getLsbD (d / 5)
      else decide (2 ≤ st) && !s.sched.drained.getLsbD (d / 5))
   else if d < 68 then adminUp s (d - 60)
   else if d < 72 then s.hbm.watch.any (fun w => decide (w.1 = d - 68))
   else if d < 76 then bankNamed s (d - 72)
   else false)

/-- The waking target: DAY, and every other state once the domain has left it. -/
def applyTarget (d st : Nat) (s : State) : State :=
  match st with
  | 0 => wakeDomain d s
  | 1 => if domState s d = 0 then s else wakeDomain d s
  | _ => requestLeave d st s

/-- A002h: RANGE for a state the domain is not allowed, BUSY when refused, else the target stands (R588-R590, R609). -/
def wrDomainTarget (d : Nat) : WriteEff := fun _ v s =>
  let st := leNat v
  if !domAllows d st then (stRange, s)
  else if decide (st ≠ 0) && leaveRefused s d st then (stBusy, bump 0xC100 0x0D s)
  else (stOk, applyTarget d st (setVal 0xA002 (d + 1) v s))

/-- DOMAIN_TARGET_WRITE. -/
def execDomainTargetWrite (h : DHdr) (dom : Fin 80) (v : Bytes) (s : State) : Host.Outcome State Fault Refusal :=
  .next (dictWriteRow h 0xA002 (dom.val + 1) v (wrDomainTarget dom.val) s)

/-! ### Waking a group (R596-R601) -/

/-- Domains of a group of Table 18-3; none for an unassigned one. -/
def groupDomains (s : State) (g : Nat) : Option (List Nat) :=
  if g = 0 then some ((List.range 80).filter (fun d => decide (cfg s 0xA002 (d + 1) ≤ 1)))
  else if g ≤ 0x0C then some ((List.range 5).map (fun i => 5 * (g - 1) + 4 - i))
  else if 0x10 ≤ g ∧ g ≤ 0x17 then some [60 + (g - 0x10)]
  else if 0x18 ≤ g ∧ g ≤ 0x1B then some (if stackGone s (g - 0x18) then [] else [68 + (g - 0x18)])
  else if 0x1C ≤ g ∧ g ≤ 0x1F then some [72 + (g - 0x1C)]
  else if 0x20 ≤ g ∧ g ≤ 0x23 then some [76 + (g - 0x20)]
  else none

/-- A wake from device NIGHT first wakes the steward: it goes on from its SRAM when RB60-RB63 are all selected, else it
runs Dawn (R596). -/
def deviceWake (s : State) : State :=
  if s.power.dmode = 2 then
    let s1 := setVal 0xA010 0x01 [0] (modPower (fun p => { p with dmode := 0 }) s)
    if bf (cfg s 0xA020 0x01) 60 4 = 15 then s1 else dawnStart s1
  else s

/-- Wake domains for a source. -/
def wakeDomains (src group : Nat) (ds : List Nat) (s : State) : State :=
  ds.foldl (fun s d => wakeDeps 4 d s) (recordWake src group (deviceWake s))

/-- Act on a wake of a group, or of a single domain (64 + domain). -/
def wakeNow (src g : Nat) (s : State) : State :=
  if 64 ≤ g then wakeDomains src (domGroup (g - 64)) [g - 64] s
  else match groupDomains s g with
    | some ds => wakeDomains src g ds s
    | none => s

/-- Wake a group; a freeze holds the wake (R601). -/
def wakeGroupFor (src g : Nat) (s : State) : State :=
  if s.clk.frozen.isSome then modPower (fun p => { p with held := p.held ++ [(src, g)] }) s else wakeNow src g s

/-- The wakes a freeze held are acted on, in arrival order (R601, R654). -/
def runHeld (s : State) : State :=
  s.power.held.foldl (fun s e => wakeNow e.1 e.2 s) (modPower (fun p => { p with held := [] }) s)

/-- A003h.01: the group's domains get target DAY and wake. -/
def wrWakeGroup : WriteEff := fun _ v s =>
  match groupDomains s (leNat v) with
  | none => (stRange, s)
  | some ds => (stOk, wakeGroupFor 4 (leNat v) (ds.foldl (fun s d => setVal 0xA002 (d + 1) [0] s) s))

/-- WAKE_GROUP. -/
def execWakeGroup (h : DHdr) (v : Bytes) (s : State) : Host.Outcome State Fault Refusal :=
  .next (dictWriteRow h 0xA003 0x01 v wrWakeGroup s)

/-- The domains in reverse dependency order (R596 step 2). -/
def nightOrder : List Nat :=
  (List.range 60).filter (fun d => d % 5 ≠ 4) ++ (List.range 12).map (fun t => 5 * t + 4) ++
    (List.range 8).map (· + 60) ++ (List.range 7).map (· + 72) ++ [79] ++ (List.range 4).map (· + 68)

/-- What device NIGHT asks for first: ports down, command queues OFF, tiles DRAINED (R596 step 1). -/
def nightReady (s : State) : Bool :=
  (List.range 8).all (fun p => !adminUp s p) && s.host.cmq.all (fun e => decide (e.2.state = 0)) &&
    decide (s.sched.drained = 0xFFF)

/-- Where a domain goes in device NIGHT: a stack without self-refresh is powered off (R507). -/
def nightGoal (s : State) (d : Nat) : Nat := if 68 ≤ d ∧ d < 72 ∧ cfg s 0x9404 (d - 67) = 0 then 3 else 2

/-- A010h.01: NIGHT puts every domain in NIGHT, the device following once the steward threads vote for it; DAY wakes
what has target DAY or DUSK. -/
def wrDeviceMode : WriteEff := fun _ v s =>
  if leNat v = 2 then
    if nightReady s then
      let s1 := setVal 0xA010 0x01 v s
      (stOk, nightCheck (nightOrder.foldl (fun s d => if 2 ≤ domState s d ∧ domState s d ≤ 3 then s else requestLeave d (nightGoal s d) s) s1))
    else (stBusy, bump 0xC100 0x0D s)
  else if cfg s 0xA010 0x01 = 2 then (stOk, wakeGroupFor 4 0 (setVal 0xA010 0x01 v s))
  else (stOk, setVal 0xA010 0x01 v s)

/-- DEVICE_MODE_WRITE. -/
def execDeviceModeWrite (h : DHdr) (v : Bytes) (s : State) : Host.Outcome State Fault Refusal :=
  .next (dictWriteRow h 0xA010 0x01 v wrDeviceMode s)

/-- A030h.02 arms the alarm, or disarms it with 0 (R66, R600). -/
def wrWakeAlarm : WriteEff := fun _ v s =>
  let t := leNat v / 65536
  if t = 0 then (stOk, modPower (fun p => { p with alarm := none }) s)
  else
    let st := timedStatus t s
    if st ≠ stOk then (st, timedCount st s) else (stOk, modPower (fun p => { p with alarm := some (t, now s) }) s)

/-- WAKE_ALARM. -/
def execWakeAlarm (h : DHdr) (v : Bytes) (s : State) : Host.Outcome State Fault Refusal :=
  .next (dictWriteRow h 0xA030 0x02 v wrWakeAlarm s)

/-- WAKE_ALARM_FIRE: the alarm wakes the group in A030h.03 (R65, R600). -/
def execWakeAlarmFire (s : State) : Host.Outcome State Fault Refusal :=
  .next (match s.power.alarm with
    | some (t, acc) =>
      if reached (timedBoundary t acc) s then
        bump 0xC100 0x08 (wakeGroupFor 3 (cfg s 0xA030 0x03) (modPower (fun p => { p with alarm := none }) s))
      else s
    | none => s)

/-- The address the wake logic answers to (R598; DESIGN CHOICE, log 58). -/
def mgmtAddr (s : State) : Nat :=
  match s.dict.i3cAddr with
  | some a => a.toNat
  | none => match tfind s.dict.vals (ekey 0xB030 0x02) with | some v => leNat v | none => 0x60 + s.dbg.cpos.toNat

/-- MGMT_WAKE_BYTE: a wake byte to the device address wakes its group when A030h.01 is 1. An unassigned group is counted. -/
def execMgmtWakeByte (addr : BitVec 7) (first : BitVec 8) (s : State) : Host.Outcome State Fault Refusal :=
  let g := first.toNat % 64
  .next (if addr.toNat = mgmtAddr s ∧ first.toNat / 64 = 2 then
      match groupDomains s g with
      | none => bump 0xC100 0x0C s
      | some _ => if cfgB s 0xA030 0x01 then bump 0xC100 0x06 (wakeGroupFor 1 g s) else s
    else s)

/-- SIGNAL_DETECT_WAKE: the comparator has seen a differential peak amplitude of `rx.mv` on lane 0 for 1 µs. It reports signal
present above the threshold 310ph.0B, and wakes a sleeping port with 310ph.0C set (R115-R117, R599). -/
def execSignalDetectWake (rx : RxLevel) (s : State) : Host.Outcome State Fault Refusal :=
  let port := rx.port
  let d := 60 + port.val
  let present := decide (cfg s (0x3100 + port.val) 0x0B < rx.mv)
  let mark := fun (f : Port → Port) => modFab (fun x => { x with port := tmod {} x.port port.val f })
  .next (if present && cfgB s (0x3100 + port.val) 0x0C && (decide (domState s d = 2) || decide (domState s d = 3)) &&
        s.clk.frozen.isNone then
      bump (0xC030 + port.val) 0x17 (bump 0xC100 0x07 (wakeGroupFor 2 (0x10 + port.val)
        (mark (fun x => { x with level := true, wakePend := true, wakeTrain := true }) s)))
    else mark (fun x => { x with level := present }) s)

/-- PAIR_WAKE: a wake source of a thread of a pair that sleeps, or is leaving DAY, becomes pending (R593, R594). -/
def execPairWake (t : Fin 768) (s : State) : Host.Outcome State Fault Refusal :=
  let d := pairDomain t.val
  .next (match (thr s t.val).hold with
    | .wake _ _ => if wakeBits s t.val ≠ 0 ∧ domState s d ≠ 0 ∧ domState s d ≠ 4 then wakeFor 5 d s else s
    | _ => s)

/-- DUSK_IDLE_ENTRY: an idle-gated domain has been without requests for A004h.01 CCLK (R594; DESIGN CHOICE, log 96). -/
def execDuskIdleEntry (dom : Fin 80) (s : State) : Host.Outcome State Fault Refusal :=
  .next (if cfg s 0xA002 (dom.val + 1) = 1 ∧ domState s dom.val = 0 ∧ dom.val ∉ s.power.queue ∧ s.clk.frozen = none then
      requestLeave dom.val 1 s else s)

/-- DUSK_UNGATE: a request reaches a domain in DUSK (R38, R594). -/
def execDuskUngate (dom : Fin 80) (s : State) : Host.Outcome State Fault Refusal :=
  let x := domOf s dom.val
  .next (if x.state = 1 ∨ (x.state = 5 ∧ x.goal = 1) then wakeDomain dom.val s else s)

/-! ### Soft start, restore, clock stages (R585, R602-R606) -/

/-- Domains in soft start: each holds a wake token. -/
def softStarts (s : State) : Nat := (s.power.dom.filter (fun e => decide (e.2.state = 4) && decide (e.2.phase = 1))).length

/-- A waiting wake from NIGHT or DARK that may take a token now. -/
def tokenReady (s : State) (d : Nat) : Bool :=
  let x := domOf s d
  decide (x.state = 4) && decide (x.phase = 0) && decide (x.goal ≠ 1) &&
    (match x.elig with | some e => reached e s | none => false) && domMayStart s d

/-- Oldest request first, then ascending domain number. -/
def oldestWake (s : State) : List Nat → Option Nat → Option Nat
  | [], best => best
  | d :: t, none => oldestWake s t (some d)
  | d :: t, some b =>
    oldestWake s t (some (if (domOf s d).reqAt < (domOf s b).reqAt ∨ ((domOf s d).reqAt = (domOf s b).reqAt ∧ d < b) then d else b))

/-- SOFT_START_BEGIN: at a DL0 boundary the oldest waiting domain takes a free token (R604). -/
def execSoftStartBegin (s : State) : Host.Outcome State Fault Refusal :=
  .next (if softStarts s < cfg s 0xA040 0x02 ∧ dlUp 0 s.power.tokenAt ≤ fireAt s then
      match oldestWake s (s.power.queue.filter (tokenReady s)) none with
      | some d =>
        modPower (fun p => { p with queue := p.queue.filter (· ≠ d) })
          (modDom d (fun x => { x with phase := 1, since := fireAt s }) (addM d (countDelay d (fireAt s) s)))
      | none => s
    else s)

/-- SOFT_START_END: after 2,048 ns the token is released and the restore phase begins. -/
def execSoftStartEnd (dom : Fin 80) (s : State) : Host.Outcome State Fault Refusal :=
  let x := domOf s dom.val
  .next (if x.state = 4 ∧ x.phase = 1 ∧ domainsRun s = true ∧ reached (x.since + 2048) s then
      modPower (fun p => { p with tokenAt := x.since + 2048 }) (modDom dom.val (fun x => { x with phase := 2, since := x.since + 2048 }) s)
    else s)

/-- What the restore phase brings back: a tile's code store is reloaded, a stack retrains (R597, R638). -/
def restoreDomain (d : Nat) (s : State) : State :=
  if d < 60 then (if d % 5 = 4 then reloadTile (d / 5) s else s)
  else if 68 ≤ d ∧ d < 72 then modHbm (fun h => { h with state := tset 0 h.state (d - 68) 1 }) s
  else s

/-- RESTORE_END: after 78 DL0 ticks the clock stages begin. -/
def execRestoreEnd (dom : Fin 80) (s : State) : Host.Outcome State Fault Refusal :=
  let d := dom.val
  let x := domOf s d
  .next (if x.state = 4 ∧ x.phase = 2 ∧ domainsRun s = true ∧ reached (x.since + 4992) s then
      beginStages d (stepMa d) (restoreDomain d s)
    else s)

/-- The classifiers that a device wake brought back hold the course load set again, as a new course, once the last of them is in
DAY (R638). -/
def reloadCourse (s : State) : State :=
  if (List.range 4).any (fun k => decide ((domOf s (72 + k)).state = 4)) then s
  else loadCourse (Config.imageCourse (slotSection s (usedSlot s) 3)) s

/-- A domain has reached DAY: counts, a sleep request that still stands, a port that trains, a stack that is active and holds
its copies of the metadata again (DESIGN CHOICE, log 97). -/
def reachDay (d : Nat) (s : State) : State :=
  let x := domOf s d
  let s1 := bumpIf (decide (x.goal ≠ 0)) 0xC100 (if x.goal = 1 then 0x01 else 0x02)
    (modDom d (fun x => { x with state := 0, goal := 0, phase := 0, left := 0, elig := none, sleepReq := none, saved := false, byVote := false }) s)
  let s2 := if 60 ≤ d ∧ d < 68 ∧ 2 ≤ x.goal then
      let wake := (portSt s1 (d - 60)).wakeTrain
      [2 * (d - 60), 2 * (d - 60) + 1].foldl (fun s sp =>
        if (adminUp s (d - 60) || wake) && decide ((subOf s sp).oper = 0) then startTraining sp s else s)
        (modPort (d - 60) (fun q => { q with wakeTrain := false }) s1)
    else if 68 ≤ d ∧ d < 72 ∧ 2 ≤ x.goal then
      stackWake (d - 68) (modHbm (fun h => { h with
        state := tset 0 h.state (d - 68) 2, metaGone := h.metaGone.filter (· ≠ d - 68) }) s1)
    else if 72 ≤ d ∧ d < 76 ∧ 2 ≤ x.goal then reloadCourse s1
    else s1
  let s3 := s2.power.queue.foldl (fun s u => setElig u s) s2
  match x.sleepReq with
  | some g => requestLeave d g s3
  | none => s3

/-- A domain's clocks have stopped: DUSK is reached, or its supply is to switch off. -/
def clocksStopped (d : Nat) (s : State) : State :=
  if (domOf s d).goal = 1 then
    bump 0xC100 0x03 (modDom d (fun x => { x with state := 1, phase := 0, left := 0, byVote := false }) s)
  else modDom d (fun x => { x with phase := 4, since := now s, left := 0 }) s

/-- One domain's stage of a window, out of the budget that is left. -/
def windowStage (a : Nat × State) (d : Nat) : Nat × State :=
  let s := a.2
  let x := domOf s d
  let amt := min x.left a.1
  if x.left ≤ a.1 then
    let s1 := modPower (fun p => { p with stages := p.stages.filter (· ≠ d), quietAt := now s }) s
    (a.1 - amt, if x.state = 4 then reachDay d s1 else clocksStopped d s1)
  else (a.1 - amt, modDom d (fun x => { x with left := x.left - amt }) s)

/-- Waiting stages that may start now: wakes from DUSK and leaves. -/
def startWaiting (s : State) : State :=
  s.power.queue.foldl (fun s d =>
    let x := domOf s d
    if (decide (x.state = 0) || (decide (x.state = 4) && decide (x.goal = 1) && decide (x.phase = 0))) && domMayStart s d then
      startStages d s else s) s

/-- A window while the clocks are stopped: the current falls at the slew limit from the later of S + 64 ns and F + 2,048 ns,
and rises back to E from 2,048 ns after the thaw fired (R649, R653). -/
def ballastWindow (s : State) : State :=
  let b := cfg s 0xA040 0x01 * 20
  if s.dbg.fstate = 2 ∧ max (s.dbg.sAt + 64) (s.dbg.fAt + 2048) ≤ now s then
    modPower (fun p => { p with ballast := p.ballast - b }) s
  else if s.dbg.fstate = 3 ∧ s.dbg.relAt + 2048 ≤ now s then
    modPower (fun p => { p with ballast := min p.holdE (p.ballast + b) }) s
  else s

/-- GOVERNOR_WINDOW: the budget of A040h.01 x 0.02 A, less 0.5 A a soft start, goes to the stages in their order. -/
def execGovernorWindow (s : State) : Host.Outcome State Fault Refusal :=
  .next (if s.clk.frozen.isSome then ballastWindow s
    else if s.led.restart.isSome then s
    else
      let s1 := startWaiting s
      (s1.power.stages.foldl windowStage (cfg s 0xA040 0x01 * 20 - 500 * softStarts s1, s1)).2)

/-- The stores of a pair have left its store buffers, so that its state can be saved (DESIGN CHOICE, log 95). -/
def pairQuiet (s : State) (d : Nat) : Bool :=
  let c := d / 5 * 8 + d % 5 * 2
  (coreSt s c).sb.isEmpty && (coreSt s (c + 1)).sb.isEmpty

/-- DOMAIN_LEAVE_END: kept state is saved and the supply switches off; a wake that came meanwhile then wakes the domain
(R595). Slots and arming are lost with the tile services (R457). -/
def execDomainLeaveEnd (dom : Fin 80) (s : State) : Host.Outcome State Fault Refusal :=
  let d := dom.val
  let x := domOf s d
  .next (if x.state = 5 ∧ x.phase = 4 ∧ domainsRun s = true ∧ (d < 60 ∧ d % 5 ≠ 4 → pairQuiet s d = true) then
      let night := decide (x.goal = 2)
      let s1 := modDom d (fun x => { x with saved := x.byVote && night }) s
      let s2 := bump 0xC100 (if night then 0x04 else 0x05) (loseDomain d night s1)
      let s3 := if night && x.byVote then bump 0xC100 0x0F s2 else s2
      let s4 := if 68 ≤ d ∧ d < 72 ∧ stackGone s3 (d - 68) = false then
          modHbm (fun h => { h with state := tset 0 h.state (d - 68) (if night && decide (cfg s 0x9404 (d - 67) = 1) then 3 else 0) }) s3
        else s3
      let s5 := modDom d (fun x => { x with state := x.goal, phase := 0, rewake := false, byVote := false, since := now s }) s4
      let s6 := modPower (fun p => { p with quietAt := now s }) s5
      nightCheck (if x.rewake then wakeDeps 4 d s6 else s6)
    else s)

/-- LSTEP_DEASSERT: no transition has been in progress for 2,048 ns; at the next DL0 boundary the sequence ends (R605). -/
def execLstepDeassert (s : State) : Host.Outcome State Fault Refusal :=
  let busy := s.power.dom.any (fun e =>
    (decide (e.2.state = 4) && decide (e.2.phase ≠ 0)) || (decide (e.2.state = 5)))
  .next (if !busy && reached (dlUp 0 (s.power.quietAt + 2048)) s && (s.power.lstep.isSome || decide (s.power.m ≠ 0)) then
      let s1 := modPower (fun p => { p with lstep := none, m := 0 }) s
      if s.power.lstep.isSome then emit (.pin "LSTEP_N" true) s1 else s1
    else s)

end Sys2Proof.Machine
end

