-- ==== Sys2Proof/Machine/Freeze.lean ====
section
/-! DEFINITION. Midnight: freeze triggers, the freeze and thaw sequences, the read-out (R647-R654). -/

namespace Sys2Proof.Machine

/-! ### Triggers (R647, R668) -/

/-- FREEZE_N_EDGE: a qualified falling edge (DESIGN CHOICE, log 132). -/
def execFreezeNEdge (s : State) : Host.Outcome State Fault Refusal := .next (freezeTrigger 0 s)

/-- D000h.02 freezes; BUSY while the device is freezing or frozen, and the trigger is counted. -/
def wrFreeze : WriteEff := fun _ v s =>
  if leNat v ≠ 1 then (stRange, s)
  else if s.dbg.fstate ≠ 0 then (stBusy, freezeTrigger 1 s)
  else (stOk, freezeTrigger 1 s)

/-- FREEZE. -/
def execFreeze (h : DHdr) (v : Bytes) (s : State) : Host.Outcome State Fault Refusal :=
  .next (dictWriteRow h 0xD000 0x02 v wrFreeze s)

/-- D000h.03 schedules a freeze (R66, R68). -/
def wrFreezeTime : WriteEff := fun _ v s =>
  let t := leNat v / 65536
  let st := timedStatus t s
  if st ≠ stOk then (st, timedCount st s) else (stOk, modDbg (fun d => { d with freezeAt := some (t, now s) }) s)

/-- FREEZE_TIME. -/
def execFreezeTime (h : DHdr) (v : Bytes) (s : State) : Host.Outcome State Fault Refusal :=
  .next (dictWriteRow h 0xD000 0x03 v wrFreezeTime s)

/-! ### The freeze (R72, R648) -/

/-- The frozen interval begins at the boundary `f`: delay lists stop, LSTEP_N is asserted (Table 20-6). -/
def beginFreeze (f : Nat) (timed : Bool) (s : State) : State :=
  let late := timed && (match s.dbg.freezeAt with | some (t, acc) => timedLate t acc s | none => false)
  let s1 := modDbg (fun d => { d with
    fstate := 1, fAt := f, sAt := 0, cause := if timed then 2 else d.cause, freezeDue := none,
    freezeAt := if timed then none else d.freezeAt.filter (fun e => decide (f < stewardBoundary e.1 e.2 s)) }) s
  let s2 := bump 0xC110 0x07 (assertLstep (modClk (fun c => { c with frozen := some f }) s1))
  if late then bump 0xC020 0x01 s2 else s2

/-- A due freeze fires at the boundary now in force. A timed freeze that falls due while the device is freezing or frozen is
ignored and counted (R72, R647). -/
def freezeNow (timed : Bool) (s : State) : State :=
  if s.dbg.fstate = 0 then beginFreeze (fireAt s) timed s
  else bump 0xC110 0x08 (modDbg (fun d => { d with freezeAt := if timed then none else d.freezeAt, freezeDue := none }) s)

/-- FREEZE_FIRE: the freeze that is the next action of its boundary (R69). -/
def execFreezeFire (s : State) : Host.Outcome State Fault Refusal :=
  .next (match nextDue s with
    | some e => (match e.act with | .freeze timed => freezeNow timed s | _ => s)
    | none => s)

/-- A stack enters self-refresh: its banks are precharged; queues, tag cache and watches are kept (R506). -/
def selfRefresh (s : State) : State :=
  modHbm (fun h => { h with state := tmap (fun st => if st = 2 then 3 else st) h.state })
    (((List.range 4).filter (fun k => decide (tget 0 s.hbm.state k = 2 ∨ tget 0 s.hbm.state k = 4))).foldl
      (fun s k => stackSelfRefresh k s) s)

/-- Frames in progress when the receivers stop are discarded and never accepted (R22, R154). -/
def dropPartial (s : State) : State :=
  (s.fab.pkts.filter (fun e => decide (e.2.sp < 16) && !e.2.complete)).foldl (fun s e => releaseQuiet e.1 e.2 s) s

/-- The governor holds the current at its estimate E with the clock trees and the ballast (R649). -/
def holdCurrent (s : State) : State := modPower (fun p => { p with holdE := governorE s, ballast := governorE s }) s

/-- FREEZE_STOP: every stack is in self-refresh, receivers stop, clocks stop in stages to FROZEN (R648; DESIGN
CHOICE, log 111). -/
def execFreezeStop (s : State) : Host.Outcome State Fault Refusal :=
  .next (if s.dbg.fstate = 1 then
      dropPartial (selfRefresh (modDbg (fun d => { d with fstate := 2, sAt := now s }) (holdCurrent s)))
    else s)

/-! ### Read-out (R651, R652) -/

/-- Blocks of 4,096 bytes of a section (Table 20-7); reference records take 8 bytes a configured buffer. -/
def sectionBlocks (s : State) (i : Nat) : Nat :=
  match i with
  | 0 => 16 | 1 => 2048 | 2 => 288 | 3 => 11200 | 4 => 24576 | 5 => 3360 | 6 => 4352 | 7 => 640 | 8 => 4096 | 9 => 46080
  | 10 => 19968 | 11 => 65536 | 12 => 8192 | 13 => 8320
  | _ => ((s.bufs.pool.map (fun e => if e.2.on then e.2.count else 0)).sum * 8 + 4095) / 4096

/-- Bytes on the wire for the scope: each block has a 32-byte frame header. Bit 0 of the scope is forced to 1. -/
def dumpBytes (s : State) : Nat :=
  ((List.range 15).map (fun i => if i = 0 ∨ bit (cfg s 0xD010 0x01) i = true then sectionBlocks s i * 4128 else 0)).sum

/-- A read-out starts: only while the device is frozen, and one at a time (DESIGN CHOICE, log 110). -/
def startDump (jtag : Bool) (s : State) : Nat × State :=
  if s.dbg.fstate = 2 ∧ s.dbg.dumping = false then
    (stOk, modDbg (fun d => { d with dumping := true, dumpJtag := jtag, sent := 0 }) s)
  else (stBusy, s)

/-- DUMP_START. -/
def execDumpStart (via : DumpVia) (s : State) : Host.Outcome State Fault Refusal :=
  .next (match via with
    | .session h v => dictWriteRow h 0xD010 0x04 v (fun _ v s => if leNat v = 1 then startDump false s else (stRange, s)) s
    | .jtag => (startDump true s).2)

/-- DUMP_END: every selected section has gone out. -/
def execDumpEnd (s : State) : Host.Outcome State Fault Refusal :=
  .next (if s.dbg.dumping then
      bump 0xC110 0x0A (emit (.dump s.dbg.dumpJtag (dumpBytes s)) (modDbg (fun d => { d with dumping := false, sent := dumpBytes s }) s))
    else s)

/-! ### Thaw (R653, R654) -/

/-- A thaw is turned away while the device is not frozen or a read-out runs. -/
def thawBusy (s : State) : Bool := decide (s.dbg.fstate ≠ 2) || s.dbg.dumping

/-- D000h.04 thaws at the next DL0 boundary. -/
def wrThaw : WriteEff := fun _ v s =>
  if leNat v ≠ 1 then (stRange, s)
  else if thawBusy s then (stBusy, s)
  else (stOk, modDbg (fun d => { d with thawDue := some (dlUp 0 ((now80 s + 65535) / 65536)) }) s)

/-- THAW. -/
def execThaw (h : DHdr) (v : Bytes) (s : State) : Host.Outcome State Fault Refusal :=
  .next (dictWriteRow h 0xD000 0x04 v wrThaw s)

/-- D000h.05 thaws at a fabric time. -/
def wrThawTime : WriteEff := fun _ v s =>
  let t := leNat v / 65536
  let st := timedStatus t s
  if thawBusy s then (stBusy, s)
  else if st ≠ stOk then (st, timedCount st s)
  else (stOk, modDbg (fun d => { d with thawAt := some (t, now s) }) s)

/-- THAW_TIME. -/
def execThawTime (h : DHdr) (v : Bytes) (s : State) : Host.Outcome State Fault Refusal :=
  .next (dictWriteRow h 0xD000 0x05 v wrThawTime s)

/-- A thaw is due; the frozen interval does not hold it back. -/
def thawReady (s : State) : Bool :=
  (match s.dbg.thawDue with | some b => decide (b ≤ fireAt s) | none => false) ||
  (match s.dbg.thawAt with
   | some (t, acc) => s.led.restart.isNone && decide (stewardBoundary t acc s ≤ fireAt s)
   | none => false)

/-- Time the ramp back to E takes at the slew limit A040h.01, in A/µs (R653). -/
def rampTime (s : State) : Nat :=
  let slew := cfg s 0xA040 0x01
  (s.power.holdE - s.power.ballast + slew - 1) / slew

/-- THAW_FIRE: stacks leave self-refresh, LSTEP_N is asserted. A timed thaw that meets a read-out is turned away. -/
def execThawFire (s : State) : Host.Outcome State Fault Refusal :=
  let clear := fun (s : State) => modDbg (fun d => { d with thawDue := none, thawAt := none }) s
  .next (if s.dbg.fstate = 2 && thawReady s then
      if s.dbg.dumping then clear s
      else
        let late := match s.dbg.thawAt with
          | some (t, acc) => timedLate t acc s && decide (stewardBoundary t acc s ≤ fireAt s)
          | none => false
        let s1 := modHbm (fun h => { h with
          state := (List.range 4).foldl (fun t k => if tget 0 t k = 3 ∧ domState s (68 + k) = 0 then tset 0 t k 2 else t) h.state })
          ((List.range 4).foldl (fun s k => if domState s (68 + k) = 0 then stackWake k s else s) s)
        let s2 := assertLstep (modDbg (fun d => { d with fstate := 3, relAt := fireAt s, rampNs := rampTime s }) (clear s1))
        if late then bump 0xC020 0x01 s2 else s2
    else s)

/-- Leases and retransmit timers lose the frozen interval (R74 step 1). -/
def shiftTimers (dur : Nat) (s : State) : State :=
  let s1 := modLocks (fun u => { u with lock := tmap (fun l =>
    if l.state = 1 ∧ l.deadline ≠ 0 then { l with deadline := l.deadline + dur } else l) u.lock }) s
  modZmt (fun z => { z with peers := tmap (fun p => { p with outs := p.outs.map (fun o => { o with armed := o.armed + dur }) }) z.peers }) s1

/-- The cores counted nothing while their clocks stood, and a halted thread's paused leases have had the frozen interval
already (R74, R334, R389). -/
def shiftThreads (dur : Nat) (s : State) : State :=
  modCpu (fun c => { c with thr := tmap (fun x => { x with
    waitAt := x.waitAt + dur, haltAt := if x.halted then x.haltAt + dur else x.haltAt }) c.thr }) s

/-- The soft starts of a freeze go on where they stood, and restore phases begin again (R648). -/
def shiftPower (dur rel : Nat) (s : State) : State :=
  modPower (fun p => { p with quietAt := rel, dom := tmap (fun x =>
    if x.state = 4 ∧ x.phase = 1 then { x with since := x.since + dur }
    else if x.state = 4 ∧ x.phase = 2 then { x with since := rel } else x) p.dom }) s

/-- A port trains after the freeze: its acknowledgement timers start again, its hold is 250 ms, and the frames its transmitter held
end under R678 (R654). -/
def thawPort (rel sp : Nat) (s : State) : State :=
  let x := subOf s sp
  let s1 := modSub sp (fun x => { x with replay := x.replay.map (fun c => { c with sentAt := rel }) }) s
  if x.oper = 0 ∧ x.downAt = none then s1
  else
    let down := modSub sp (fun x => { x with
      lanes := 0, gotCredit := false, downAt := some rel, holdMs := 250, lockDue := false, ackWait := false, lcfDue := none })
    if x.oper = 0 then down s1 else startTraining sp (down (dropTx sp false s1))

/-- The clocks run again: the ramp of R653 back to E has ended, and 64 ns have passed. -/
def thawRunsAt (s : State) : Nat := s.dbg.relAt + 2048 + s.dbg.rampNs + 64

/-- The frozen interval ends at the boundary `rel`: it enters the FIA, leases and retransmit timers shift, ports train and held
wakes are acted on (R71, R74, R653, R654). -/
def endFreeze (rel : Nat) (s : State) : State :=
  let dur := rel - s.dbg.fAt
  let s1 := modClk (fun c => { c with frozen := none, fia := c.fia + BitVec.ofNat 64 dur })
    (modPower (fun p => { p with ballast := 0 }) (modDbg (fun d => { d with fstate := 0, relAt := rel }) s))
  let s2 := shiftPower dur rel (shiftThreads dur (shiftTimers dur s1))
  let s3 := (List.range 16).foldl (fun s sp => thawPort rel sp s) s2
  let s4 := modMat (fun m => { m with heard := m.heard.map (fun e => (e.1, rel)) }) s3
  bump 0xC110 0x09 (runHeld s4)

end Sys2Proof.Machine
end

