-- ==== Sys2Proof/Machine/Dispose.lean ====
section
/-! DEFINITION. How a packet leaves the transit class for another unit: handed to the transport slice, or to the
scheduler as a TRAP brick (R134, R463, Table 10-2). -/

namespace Sys2Proof.Machine

/-- A value the spec leaves open, of 16 bits: the SRC of a brick that a unit without a master id creates (DESIGN CHOICE, log 1). -/
def unitMaster (s : State) : Nat := freeNat s % 65536

/-- Accept a brick that a pipeline or a slice creates; its SRC is a free value. -/
def acceptUnitBrick (words : List W64) (s : State) : Nat × BitVec 32 × State :=
  let r := acceptBrick words (unitMaster s) false s
  (r.1, r.2.1, drawn r.2.2)

/-- Keep a copy of bytes for a brick to read, at an address that is a free value (DESIGN CHOICE, log 1). -/
def copyAddr (s : State) : Nat := freeNat s % 2 ^ 48
def placeCopy (b : Bytes) (s : State) : State := drawn (storeBytes (copyAddr s) b s)

/-- Bytes of whole frames in a slice's 16 KiB buffer (Table 1-6): not yet checked, waiting to be placed or served, and
REDUCE payloads waiting at a deposit port (R25). -/
def sliceBytes (s : State) (ts : Nat) : Nat :=
  ((tget [] s.zmt.inq ts ++ tget [] s.zmt.ready ts).map (fun z => z.bytes.length + 4)).sum +
    ((List.range 12).map (fun t => (((tget {} s.cops.tile t).dep.filter (fun d => decide (d.slice = ts))).map (·.bytes)).sum)).sum

/-- Hand a complete packet to the transport slice of its pipeline: it leaves transit as completed and enters the
inbound ledger row (R134). -/
def intoSlice (k : Nat) (p : Pkt) (s : State) : State :=
  let ts := p.sp / 2
  let z : ZIn := { id := s.zmt.nextIn, bytes := p.bytes, hofs := p.hofs, tc := p.tc }
  let s1 := completePkt k p s
  modZmt (fun x => { x with inq := tmod [] x.inq ts (· ++ [z]), nextIn := x.nextIn + 1 })
    (bump (0xC060 + ts) 0x01 (ledAccept 6 s1))

/-- Complete packets of a pipeline that wait for room in its slice's buffer, oldest first. -/
def sliceWaiting (s : State) (ts : Nat) : List (Nat × Pkt) :=
  s.fab.pkts.filter (fun e => decide (e.2.sp < 16 ∧ e.2.sp / 2 = ts ∧ e.2.phase = 9) && e.2.complete)

/-- A packet whose disposition is the slice: handed over while its buffer has room and no earlier packet waits, else it stays in
the pipeline until it has (R27). -/
def toSlice (k : Nat) (p : Pkt) (s : State) : State :=
  if (sliceWaiting s (p.sp / 2)).head?.all (fun e => decide (e.1 = k)) ∧ sliceBytes s (p.sp / 2) + p.len ≤ 16384 then intoSlice k p s
  else modPkt k (fun p => { p with phase := 9 }) s

/-- Packets that waited for room enter the slice's buffer, in their order (R27). -/
def feedSlice (ts : Nat) (s : State) : State :=
  (sliceWaiting s ts).foldl (fun s e => toSlice e.1 e.2 s) s

/-- The cell reference of the chain with head cell `c` (R463). -/
def cellRef (c : Nat) : Nat := 0xFF0000000000 + 0x100 * c

/-- A PAY0 or PAY1 word: address and length (Table 10-1). -/
def payWord (a n : Nat) : Nat := a % 2 ^ 48 + n % 65536 * 2 ^ 48

/-- Hand a complete packet to the scheduler as a TRAP brick that owns its cells; a refusal fails the packet with its
reason and frees the cells (R134, Table 10-2, Table 10-3). -/
def toTrap (k : Nat) (p : Pkt) (s : State) : State :=
  let u := 0x0A + p.sp / 4
  match chainAlloc p.bytes 3 s.sched.nextBid.toNat s with
  | none => failPkt k 0x0D u (bump 0xC0C0 0x02 s)
  | some (c, s1) =>
    let ws := hwBrick s 1 (bf p.act.toNat 36 6) (payWord (cellRef c) p.bytes.length) 0 p.meta0 p.meta1
    let r := acceptUnitBrick ws s1
    if r.1 = 0 then completePkt k p (bump (0xC040 + p.sp / 2) 0x0E r.2.2)
    else failPkt k (refusalReason r.1) u (chainGone (modBufs (fun b => { b with chain := tdel b.chain c }) r.2.2))

end Sys2Proof.Machine
end

