-- ==== Sys2Proof/Machine/FabricPorts.lean ====
section
/-! DEFINITION. Fabric ports, links and lane shedding: the events of chapter 03. -/

namespace Sys2Proof.Machine

/-! ### Acting on a received control frame -/

/-- Act on a link control frame only where LLR runs; else discard and count it (R97). -/
def onLcf (sp : Nat) (k : State → State) (s : State) : State :=
  if (subOf s sp).llr && linkUp s sp then k s else portCount sp 0x18 s

/-- A port that went down for a change of mode trains in the new mode once both its sub-ports are down (R83). -/
def modeSettle (p : Nat) (s : State) : State :=
  if (portSt s p).oldMode.isSome && (subOf s (2 * p)).drainAt.isNone && (subOf s (2 * p + 1)).drainAt.isNone then
    let s1 := modPort p (fun q => { q with oldMode := none }) s
    if adminUp s1 p then startTraining (2 * p + 1) (startTraining (2 * p) s1) else s1
  else s

/-- The drain of a port that goes down ends when nothing is left to acknowledge (R112 step 3). -/
def drainCheck (sp : Nat) (s : State) : State :=
  let x := subOf s sp
  if x.drainAt.isSome ∧ x.replay.isEmpty ∧ x.tx.isEmpty then modeSettle (sp / 2) (subDown sp x.holdMs s) else s

/-- A frame is in progress at the transmitter. -/
def inProgress (s : State) (sp : Nat) : Bool :=
  let x := subOf s sp
  match x.tx with
  | k :: _ => !x.llr || (tfind x.txSeq k).isSome
  | [] => false

/-- SHED or RESTORE goes out once no frame is in progress (R107 steps 1 and 2). -/
def laneLcf (sp : Nat) (s : State) : State :=
  let x := subOf s sp
  match x.lcfDue with
  | some t => if inProgress s sp then s else sendLcf sp t 0 x.lanes.toNat 0 [] (modSub sp (fun x => { x with lcfDue := none }) s)
  | none => s

/-- Replay from `n`; the eighth replay of one SEQ retrains the link (R98, R102). The count of a SEQ is kept over the
retrain, so that its next replay retrains again (DESIGN CHOICE, log 147). -/
def replayOrRetrain (sp : Nat) (n : BitVec 16) (s : State) : State :=
  let s1 := replayAll sp n s
  if (subOf s1 sp).replay.any (fun c => decide (c.seq = n) && decide (8 ≤ c.tries)) then retrain sp s1 else s1

/-- NACK n: what is before it is acknowledged, and the rest is replayed (R98). -/
def onNack (sp : Nat) (n : BitVec 16) (s : State) : State :=
  let s1 := llrAcked sp n s
  if (subOf s1 sp).replay.isEmpty then drainCheck sp s1 else replayOrRetrain sp n s1

/-- SHED or RESTORE from the peer: both directions restart on the lanes it names; a SHED during a sequence leaves out the
lanes this end declared failed too (R108); too few lanes are a link loss (R106, R107). -/
def onLanes (sp : Nat) (lanes : BitVec 4) (restore : Bool) (s : State) : State :=
  let full := fullLanes s sp
  let x := subOf s sp
  let keep := if !restore && (x.lockDue || x.ackWait) then lanes &&& full &&& ~~~x.badLanes else lanes &&& full
  let least := if portMode s (sp / 2) = 0 then 2 else 1
  if !x.shedOn then portCount sp 0x18 s
  else if popcnt keep.toNat 4 < least then linkLost sp s
  else
    portCount sp (if restore then 0x14 else 0x13)
      (modSub sp (fun x => { x with
        lanes := keep, badLanes := full &&& ~~~keep, oper := if keep = full then 2 else 3,
        lockDue := true, ackWait := true }) s)

/-- SHED_ACK: replay from the peer's rx_expect, and send again (R107 step 6). -/
def onShedAck (sp : Nat) (lseq : BitVec 16) (s : State) : State :=
  if (subOf s sp).ackWait then
    let s1 := modSub sp (fun x => { x with ackWait := false }) (llrAcked sp lseq s)
    if (subOf s1 sp).replay.isEmpty then s1 else replayOrRetrain sp lseq s1
  else s

/-- CREDIT: the cumulative grants replace the ones held, and a waiting replay goes on (R92-R94). -/
def onCredit (sp : Nat) (grants : List (BitVec 32)) (s : State) : State :=
  if (subOf s sp).cbfc then
    runReplay sp (modSub sp (fun x => { x with
      gotCredit := true, granted := (List.range 8).foldl (fun t c => tset 0 t c (grants.getD c 0)) x.granted }) s)
  else s

/-- SYNC: with STATE_LOST every copy fails and numbering restarts at 0; else the replay runs from LSEQ (R103). -/
def onSync (sp : Nat) (lseq : BitVec 16) (lost : Bool) (s : State) : State :=
  if lost then
    modSub sp (fun x => { x with txNext := 0, txAcked := 0, rxExpect := 0, nackSent := false, txSeq := [] })
      (failCopies sp s)
  else
    runReplay sp (modSub sp (fun x => { x with replayFrom := if x.replay.isEmpty then none else some lseq })
      (llrAcked sp lseq s))

/-- Act on the link control frame `f`, FCS included (Table 3-5). -/
def lcfAct (sp : Nat) (f : Bytes) (s : State) : State :=
  let lseq := BitVec.ofNat 16 (beAt f 16 2)
  let lanes := BitVec.ofNat 4 (beAt f 18 1)
  let lost := bit (beAt f 19 1) 1
  let grants := (List.range 8).map (fun c => BitVec.ofNat 32 (beAt f (20 + 4 * c) 4))
  match beAt f 15 1 with
  | 1 => s
  | 2 => onNack sp lseq s
  | 3 => onLanes sp lanes false s
  | 4 => onShedAck sp lseq s
  | 5 => onLanes sp lanes true s
  | 6 => onCredit sp grants s
  | 7 => onSync sp lseq lost s
  | _ => portCount sp 0x18 s

/-- The pauses of a sub-port after a PFC frame: bit i with timer i sets or clears the pause of priority i; a quantum is
512 bit times at the nominal rate (R90, R91; DESIGN CHOICE, log 121). -/
def pausesAfter (now80 rate vec : Nat) (timers : List (BitVec 16)) (t : Tab Nat) : Tab Nat :=
  (List.range 8).foldl (fun t i =>
    if bit vec i then
      (if timers.getD i 0 = 0 then tdel t i
       else tput t i (now80 + ((timers.getD i 0).toNat * 512 * 65536 + rate - 1) / rate))
    else t) t

/-- A received PFC frame: counted, and acted on where PFC is the flow control in force (R90, R91). -/
def pfcReceived (sp vec : Nat) (timers : List (BitVec 16)) (s : State) : State :=
  let s1 := portCount sp 0x10 s
  if flowCtl s sp ≠ 1 then s1
  else modSub sp (fun x => { x with paused := pausesAfter (now80 s) (nominalRate s sp) vec timers x.paused }) s1

/-! ### Receiving a frame -/

/-- The packet of a sub-port whose frame is still arriving. -/
def openPkt (s : State) (sp : Nat) : Option (Nat × Pkt) :=
  s.fab.pkts.find? (fun e => decide (e.2.sp = sp) && !e.2.complete && !e.2.stomp)

/-- Unit that failed a packet, by the reason (Table 19-3). -/
def fateUnit (p : Pkt) (r : Nat) : Nat :=
  if r = 4 ∨ r = 5 then portUnit p.out else if r < 0x0A then 0x0A + p.sp / 4 else 0x0E

/-- The frame of a packet has ended: its copy holds all of it, and a replay that waited for it goes on (R98, R678). -/
def endCopies (k : Nat) (p : Pkt) (s : State) : State :=
  if (subOf s p.out).replay.any (fun c => decide (c.pkt = some k)) then
    runReplay p.out (fillCopies p.out k p.bytes p.stomp s) else s

/-- The frame of an open packet has ended (R21, R22): a good one is accepted into the transit ledger and handed over where
its action says so (R134); a bad one is discarded, or stomped at egress when it is already being sent. -/
def endOpen (k : Nat) (p : Pkt) (body : Bytes) (good : Bool) (s : State) : State :=
  let b := p.bytes ++ body.drop p.bytes.length
  if good then
    let n := (b.length + 4 + 2047) / 2048
    let p1 := { p with bytes := b, complete := true, gran := p.gran.take n }
    let s0 := granulesFree (p.gran.drop n) (ledAccept 1 s)
    let s1 := endCopies k p1 (modPkt k (fun _ => p1) (if p.onChip then bumpBy 0xC0C0 0x01 (p1.cells - p.cells) s0 else s0))
    match p.fate with
    | none => if p.phase = 9 then toSlice k p1 s1 else if p.phase = 10 then toTrap k p1 s1 else s1
    | some 0 => completePkt k p1 s1
    | some r => failPkt k r (fateUnit p r) s1
  else if p.phase = 6 then
    let p1 := { p with bytes := b, stomp := true }
    endCopies k p1 (modPkt k (fun _ => p1) s)
  else releaseQuiet k p s

/-- Queue a learn request for a good frame on a learning port (R171-R173; DESIGN CHOICE, log 43). -/
def learnRequest (sp : Nat) (f : Bytes) (s : State) : State :=
  if !cfgB s (0x6500 + sp / 2) 3 || bit (beAt f 0 12 / 2 ^ 40) 0 then s
  else if 1024 ≤ s.fwd.learnQ.length then bump 0xC058 0x09 s
  else modFwd (fun x => { x with learnQ := x.learnQ ++ [(sp, frameSa f, outerVid f, now s / 2 ^ 20 % 2 ^ 24)] }) s

/-- A frame with a tag outside the subset of R81: a third tag, or tags in another order. -/
def tagsUnsupported (f : Bytes) : Bool := decide (frameType f = 0x88A8 ∨ frameType f = 0x8100)

/-- A frame that carries a ZMT TIME message: UDP over IPv4 or IPv6 to the ZMT port, OP Bh (R46). -/
def isTimeMsg (s : State) (f : Bytes) : Bool :=
  let l3 := l3Start f
  let o := if frameType f = 0x86DD then l3 + 40 else l3 + 20
  (if frameType f = 0x86DD then decide (beAt f (l3 + 6) 1 = 17) else decide (frameType f = 0x0800) && decide (beAt f (l3 + 9) 1 = 17)) &&
    decide (beAt f (o + 2) 2 = cfg s 0x7000 0x02) && decide (beAt f (o + 8) 1 % 16 = opTime)

/-- The frame may become an item: any frame once Dawn-4 has ended, and the TIME messages by which Dawn-4 acquires fabric time
(R634, R636; DESIGN CHOICE, log 19). -/
def mayEnter (s : State) (f : Bytes) : Bool := awake s || isTimeMsg s f

/-- A good frame, FCS removed: MAC control is acted on or ignored; any other frame completes the packet it began, or
goes to the ingress FIFO (R81, R86, R87). -/
def acceptFrame (sp : Nat) (body : Bytes) (s : State) : State :=
  let s1 := bumpBy (0xC030 + sp / 2) 0x03 (body.length + 4) (portCount sp 0x01 s)
  if beAt body 12 2 = 0x8808 then
    if beAt body 14 2 = 0x0101 then
      pfcReceived sp (beAt body 16 2) ((List.range 8).map (fun i => BitVec.ofNat 16 (beAt body (18 + 2 * i) 2))) s1
    else if beAt body 14 2 = 0x0001 then portCount sp 0x11 s1
    else portCount sp 0x18 s1
  else
    match openPkt s1 sp with
    | some (k, p) => endOpen k p body true (learnRequest sp body s1)
    | none =>
      if tagsUnsupported body then
        grantCells sp (frameTc s1 (sp / 2) body) (frameCells body) (portCount sp 0x18 s1)
      else if !mayEnter s1 body then grantCells sp (frameTc s1 (sp / 2) body) (frameCells body) s1
      else
        fifoPfcs (sp / 2) (modPort (sp / 2) (fun q => { q with fifo := q.fifo ++ [(sp, body)] })
          (ledAccept 1 (learnRequest sp body s1)))

/-- A bad frame ends the packet it began and, with LLR, is answered with NACK once (R99). -/
def badFrame (sp : Nat) (body : Bytes) (s : State) : State :=
  let s1 := match openPkt s sp with | some (k, p) => endOpen k p body false s | none => s
  let x := subOf s1 sp
  if x.llr ∧ !x.nackSent then
    portCount sp 0x09 (sendLcf sp 2 x.rxExpect.toNat 0 0 [] (modSub sp (fun x => { x with nackSent := true }) s1))
  else s1

/-- A stomped frame: discarded and counted in .0E; under credit its cells are returned (R86, R94, R100). -/
def stompedFrame (sp : Nat) (body : Bytes) (s : State) : State :=
  let s1 := match openPkt s sp with
    | some (k, p) => grantCells sp p.tc (frameCells body) (endOpen k p body false s)
    | none => grantCells sp (frameTc s (sp / 2) body) (frameCells body) s
  portCount sp 0x0E s1

/-- Whether a frame finds no room in the ingress FIFO at one of its bytes (R87). -/
def cutOff (s : State) (sp : Nat) (frame : Bytes) : Bool :=
  (openPkt s sp).isNone && decide (16384 < fifoBytes s (sp / 2) + frame.length) && decide (beAt frame 12 2 ≠ 0x8808)

/-- The body of a frame and what its FCS says: good, stomped, or bad (R86, R100). -/
def frameBody (f : Bytes) : Bytes := f.take (f.length - 4)
def frameFcs (f : Bytes) : Nat := leNat (f.drop (f.length - 4))
def fcsGood (f : Bytes) : Bool := decide (frameFcs f = ethFcs (frameBody f))
def fcsStomped (f : Bytes) : Bool := decide (frameFcs f = ethFcs (frameBody f) ^^^ 0xFFFFFFFF)

/-- Whether a frame's length lies outside 64 to 9,216 bytes. -/
def badLength (f : Bytes) : Bool := decide (f.length < 64) || decide (9216 < f.length)

/-- The counter of a frame the MAC discards: its length in .06, a stomped FCS in .0E, a bad FCS in .05; none for a frame
with nothing wrong (R86). -/
def badCount (f : Bytes) : Option Nat :=
  if badLength f then some 0x06 else if fcsStomped f then some 0x0E else if fcsGood f then none else some 0x05

/-- Count why the MAC discards a frame. -/
def countBad (sp : Nat) (f : Bytes) (s : State) : State :=
  match badCount f with | some c => portCount sp c s | none => s

/-- A sequenced frame under the LLR receiver rules (R99). -/
def llrReceive (sp : Nat) (seq : BitVec 16) (f : Bytes) (s : State) : State :=
  let stomp := fcsStomped f && !badLength f
  if badLength f || (!fcsGood f && !stomp) then badFrame sp (frameBody f) (countBad sp f s)
  else if cutOff s sp f then badFrame sp [] (portCount sp 0x19 s)
  else if seq ≠ (subOf s sp).rxExpect then
    (match openPkt s sp with | some (k, p) => endOpen k p (frameBody f) false s | none => s)
  else
    let s1 := modSub sp (fun x => { x with nackSent := false, rxExpect := x.rxExpect + 1, ackDue := true }) s
    if stomp then stompedFrame sp (frameBody f) s1 else acceptFrame sp (frameBody f) s1

/-- A frame with the address and EtherType of a link control frame (R97). -/
def lcfAddressed (f : Bytes) : Bool := decide (frameDa f = 0x0180C200000E) && decide (beAt f 12 2 = 0x88B5)

/-- FRAME_RECEIVE: the MAC's checks and the LLR receiver's (R86, R87, R97, R99); the PCS counts the FEC codewords it
corrected and could not correct (R120). A frozen device's receivers stand (R648). -/
def execFrameReceive (sp : Fin 16) (rx : RxLine) (frame : Bytes) (s : State) : Host.Outcome State Fault Refusal :=
  let p := sp.val
  let pre := rx.pre
  .next (
    if !linkUp s p || !clocked s then s
    else
      let s := bumpBy (0xC030 + p / 2) 0x08 rx.fecBad (bumpBy (0xC030 + p / 2) 0x07 rx.fecOk s)
      if (subOf s p).llr then
        if pre.length ≠ 6 ∨ beAt pre 5 1 ≠ crc8 (pre.take 5) then badFrame p (frameBody frame) (countBad p frame s)
        else
          let s1 := drainCheck p (llrAcked p (BitVec.ofNat 16 (beAt pre 3 2)) s)
          if beAt pre 0 1 = 0xA6 then llrReceive p (BitVec.ofNat 16 (beAt pre 1 2)) frame s1
          else if (badCount frame).isSome then countBad p frame s1
          else if beAt pre 0 1 = 0xA9 ∧ frame.length = 64 then lcfAct p frame s1
          else portCount p 0x18 s1
      else if badLength frame then badFrame p (frameBody frame) (countBad p frame s)
      else if fcsStomped frame then stompedFrame p (frameBody frame) s
      else if !fcsGood frame then badFrame p (frameBody frame) (countBad p frame s)
      else if lcfAddressed frame then portCount p 0x18 s
      else if cutOff s p frame then portCount p 0x19 s
      else acceptFrame p (frameBody frame) s)

/-! ### Flow control -/

/-- 32,768 pause quanta in 2^-16 ns (R89, R91). -/
def pfcPeriod (s : State) (sp : Nat) : Nat := (32768 * 512 * 65536 + nominalRate s sp - 1) / nominalRate s sp

/-- The classes whose XOFF is due again: the condition still holds, and 32,768 quanta have passed since the last (R87, R89). -/
def pfcAgain (s : State) (sp : Nat) : Nat :=
  let x := subOf s sp
  let holds := (x.xoff.toNat &&& overXoff s sp) |||
    (if x.fifoXoff && decide (4096 < fifoBytes s (sp / 2)) then cfg s (0x3120 + sp / 2) 3 else 0)
  ((List.range 8).map (fun c =>
    if bit holds c && decide (tget 0 x.xoffAt c + pfcPeriod s sp ≤ now80 s) then 2 ^ c else 0)).sum

/-- PFC_REFRESH: the changes due, and XOFF again for the classes whose condition still holds after 32,768 quanta (R87,
R89). -/
def execPfcRefresh (sp : Fin 16) (s : State) : Host.Outcome State Fault Refusal :=
  let s1 := fifoPfc sp.val (pfcCheck sp.val s)
  if flowCtl s1 sp.val = 1 ∧ linkUp s1 sp.val then .next (sendXoff sp.val (pfcAgain s1 sp.val) s1)
  else .next s1

/-- PFC_FRAME_RECEIVE (R90, R91). -/
def execPfcFrameReceive (sp : Fin 16) (vector : BitVec 8) (timers : List (BitVec 16)) (s : State) :
    Host.Outcome State Fault Refusal :=
  .next (if linkUp s sp.val then
      pfcReceived sp.val vector.toNat timers (bumpBy (0xC030 + sp.val / 2) 0x03 64 (portCount sp.val 0x01 s)) else s)

/-- PAUSE_EXPIRY: a pause that has run out ends (R90). -/
def execPauseExpiry (sp : Fin 16) (prio : Fin 8) (s : State) : Host.Outcome State Fault Refusal :=
  match tfind (subOf s sp.val).paused prio.val with
  | some e => .next (if e ≤ now80 s then modSub sp.val (fun x => { x with paused := tdel x.paused prio.val }) s else s)
  | none => .next s

/-- A CREDIT is due: the first after a training, one after 3140h.02 DL0 ticks, or one after 64 freed cells (R64, R92). -/
def creditDue (s : State) (sp : Nat) : Bool :=
  let x := subOf s sp
  match x.creditAt with
  | none => true
  | some t => decide (64 ≤ x.freedSince) || reached (expiryAt 0 (t + cfg s (0x3140 + sp / 2) 2 * 64) t) s

/-- CREDIT_LCF_SEND: the cumulative grants of all classes (R92). -/
def execCreditLcfSend (sp : Fin 16) (s : State) : Host.Outcome State Fault Refusal :=
  let x := subOf s sp.val
  if x.cbfc && linkUp s sp.val && creditDue s sp.val then
    .next (sendLcf sp.val 6 0 0 0 (grantWords x)
      (modSub sp.val (fun x => { x with freedSince := 0, creditAt := some (now s) }) s))
  else .next s

/-- CREDIT_LCF_RECEIVE (R93, R97). -/
def execCreditLcfReceive (sp : Fin 16) (grants : List (BitVec 32)) (s : State) : Host.Outcome State Fault Refusal :=
  .next (onLcf sp.val (onCredit sp.val grants) s)

/-! ### Link-level retry -/

/-- New frames may start: the link is up and no shed sequence or replay holds the transmitter. -/
def txFree (s : State) (sp : Nat) : Bool :=
  let x := subOf s sp
  linkUp s sp && !x.lockDue && !x.ackWait && x.replayFrom.isNone

/-- The oldest packet at the transmitter that has no SEQ yet. -/
def unsequenced (s : State) (sp : Nat) : Option (Nat × Pkt) :=
  match (subOf s sp).tx.find? (fun k => (tfind (subOf s sp).txSeq k).isNone) with
  | some k => (pktOf s k).map (fun p => (k, p))
  | none => none

/-- LLR_FRAME_SEND: the next frame takes tx_next once its copy has room, and its preamble goes out (R96, R98). -/
def execLlrFrameSend (sp : Fin 16) (s : State) : Host.Outcome State Fault Refusal :=
  let x := subOf s sp.val
  match unsequenced s sp.val with
  | some (k, p) =>
    if x.llr && txFree s sp.val && decide (replayBytes x + copyLen p ≤ replayCap s sp.val) &&
        decide ((x.txNext - x.txAcked).toNat < 8192) then
      .next (keepCopy sp.val k p (modSub sp.val (fun x => { x with ackDue := false })
        (emit (.llrPreamble sp.val (llrPre 0xA6 x.txNext.toNat x.rxExpect.toNat)) s)))
    else .next s
  | none => .next s

/-- LLR_ACK_RECEIVE: copies before the acknowledgement are released (R98). -/
def execLlrAckReceive (sp : Fin 16) (ack : BitVec 16) (s : State) : Host.Outcome State Fault Refusal :=
  .next (onLcf sp.val (fun s => drainCheck sp.val (llrAcked sp.val ack s)) s)

/-- LLR_NACK_RECEIVE (R98, R102). -/
def execLlrNackReceive (sp : Fin 16) (n : BitVec 16) (s : State) : Host.Outcome State Fault Refusal :=
  .next (onLcf sp.val (onNack sp.val n) s)

/-- LLR_ACK_TIMEOUT: the oldest copy has waited 3100h.07 DL0 ticks; the replay runs from tx_acked (R98). -/
def execLlrAckTimeout (sp : Fin 16) (s : State) : Host.Outcome State Fault Refusal :=
  let x := subOf s sp.val
  match x.replay with
  | c :: _ =>
    if x.llr && linkUp s sp.val && reached (dlUp 0 (c.sentAt + cfg s (0x3100 + sp.val / 2) 7 * 64)) s then
      .next (replayOrRetrain sp.val x.txAcked s)
    else .next s
  | [] => .next s

/-- ACK_LCF_SEND: nothing else has carried the changed rx_expect (R99). -/
def execAckLcfSend (sp : Fin 16) (s : State) : Host.Outcome State Fault Refusal :=
  let x := subOf s sp.val
  if x.llr && linkUp s sp.val && x.ackDue && x.tx.isEmpty then .next (sendLcf sp.val 1 0 0 0 [] s) else .next s

/-! ### Training -/

/-- The features both ends offer (R85). -/
def qualifies (oui : BitVec 24) : Bool := decide (oui = Config.vendorOui)

/-- LINK_TRAINING_END: the link is up, the peer fixes the features, credit restarts and SYNC goes out
(R85, R92, R93, R103). A failed training goes on; pages outside the subset are counted (R81; DESIGN CHOICE, log 130). -/
def execLinkTrainingEnd (sp : Fin 16) (lanes : BitVec 4) (oui : BitVec 24) (caps : BitVec 11) (s : State) :
    Host.Outcome State Fault Refusal :=
  let p := sp.val
  let x := subOf s p
  if x.oper ≠ 1 ∨ fullLanes s p = 0 ∨ lanes ≠ fullLanes s p then .next s
  else
    let mine := offeredCaps s p
    let on := fun i => qualifies oui && bit caps.toNat i && bit mine i
    let s0 := modPort (p / 2) (fun q => { q with lol := q.lol &&& ~~~lanes }) s
    let s1 := if qualifies oui ∧ 32 ≤ caps.toNat then portCount p 0x18 s0 else s0
    let s2 := modSub p (fun x => { x with
      oper := 2, lanes := lanes, peerZy := qualifies oui, peerCaps := caps, llr := on 0, shedOn := on 1, cbfc := on 2,
      downAt := none, badLanes := 0, lockDue := false, ackWait := false, lcfDue := none,
      replay := x.replay.map (fun c => { c with paid := false }), consumed := [], granted := [],
      gotCredit := false, freedSince := 0, creditAt := none, nackSent := false, ackDue := false
      grantTx := if on 2 then (List.range 8).foldl (fun t c =>
        tset 0 t c (BitVec.ofNat 32 (cfg s (0x3140 + p / 2) 1 - cellsHeld s p c))) [] else [] }) s1
    if on 0 then
      let y := subOf s2 p
      let s3 := if y.stateLost then
          modSub p (fun x => { x with txNext := 0, txAcked := 0, rxExpect := 0, txSeq := [] }) (failCopies p s2) else s2
      .next (modSub p (fun x => { x with stateLost := false })
        (sendLcf p 7 (subOf s3 p).rxExpect.toNat 0 (b2n y.stateLost) [] s3))
    else .next (failCopies p s2)

/-- SYNC_RECEIVE (R103). -/
def execSyncReceive (sp : Fin 16) (lseq : BitVec 16) (lost : Bool) (s : State) : Host.Outcome State Fault Refusal :=
  .next (onLcf sp.val (onSync sp.val lseq lost) s)

/-- LLR_HOLD_EXPIRY: the link has not come up in time and every copy fails (R104); the drain of an admin-down port
ends (R112). -/
def execLlrHoldExpiry (sp : Fin 16) (s : State) : Host.Outcome State Fault Refusal :=
  let x := subOf s sp.val
  match x.drainAt with
  | some t =>
    if reached (dlUp 2 (t + x.holdMs * 1000000)) s then
      .next (modeSettle (sp.val / 2) (subDown sp.val x.holdMs (dropTx sp.val true s)))
    else .next s
  | none =>
    match x.downAt with
    | some t =>
      if !linkUp s sp.val && reached (dlUp 2 (t + x.holdMs * 1000000)) s then .next (failCopies sp.val s) else .next s
    | none => .next s

/-! ### Lane shedding -/

/-- Sub-port that owns a lane in the port's mode. -/
def laneSub (s : State) (p lane : Nat) : Nat := if portMode s p = 1 ∧ 2 ≤ lane then 2 * p + 1 else 2 * p

/-- LANE_FAILURE_DECLARE: the port sheds the lane, with the union of the failed lanes when a sequence is running, or
loses the link (R105-R108, R110). -/
def execLaneFailureDeclare (port : Fin 8) (lane : Fin 4) (lol : Bool) (s : State) : Host.Outcome State Fault Refusal :=
  let sp := laneSub s port.val lane.val
  let m : BitVec 4 := BitVec.ofNat 4 (2 ^ lane.val)
  let s1 := modPort port.val (fun q => { q with
    failed := q.failed ||| m, lol := if lol then q.lol ||| m else q.lol, failAt := tput q.failAt lane.val (now s) }) s
  if !linkUp s sp ∨ (subOf s sp).badLanes &&& m ≠ 0 then .next s1
  else if !(subOf s sp).shedOn then .next (linkLost sp s1)
  else
    let bad := (subOf s sp).badLanes ||| m
    let keep := fullLanes s sp &&& ~~~bad
    if popcnt keep.toNat 4 < (if portMode s port.val = 0 then 2 else 1) then .next (linkLost sp s1)
    else
      .next (portCount sp 0x13 (laneLcf sp (modSub sp (fun x => { x with
          badLanes := bad, lanes := keep, oper := 3, lockDue := true, ackWait := true, lcfDue := some 3 }) s1)))

/-- SHED (R106, R107). -/
def execShed (sp : Fin 16) (lanes : BitVec 4) (s : State) : Host.Outcome State Fault Refusal :=
  .next (onLcf sp.val (onLanes sp.val lanes false) s)

/-- RECEIVER_LOCK: two alignment markers are locked and SHED_ACK goes out with rx_expect (R107 step 5). -/
def execReceiverLock (sp : Fin 16) (s : State) : Host.Outcome State Fault Refusal :=
  let x := subOf s sp.val
  if linkUp s sp.val && x.lockDue && x.lcfDue.isNone && !inProgress s sp.val then
    .next (sendLcf sp.val 4 x.rxExpect.toNat 0 0 [] (modSub sp.val (fun x => { x with lockDue := false }) s))
  else .next s

/-- SHED_ACK (R107 step 6). -/
def execShedAck (sp : Fin 16) (lseq : BitVec 16) (s : State) : Host.Outcome State Fault Refusal :=
  .next (onLcf sp.val (onShedAck sp.val lseq) s)

/-- RESTORE_HOLD_EXPIRY: a failed lane has stayed clean for 3100h.0A DL2 ticks since a condition was last declared, and the
sequence runs with RESTORE (R64, R109). -/
def execRestoreHoldExpiry (port : Fin 8) (lane : Fin 4) (s : State) : Host.Outcome State Fault Refusal :=
  let sp := laneSub s port.val lane.val
  let x := subOf s sp
  let m : BitVec 4 := BitVec.ofNat 4 (2 ^ lane.val)
  let since := tget 0 (portSt s port.val).failAt lane.val
  if linkUp s sp && x.shedOn && decide (x.badLanes &&& m ≠ 0) &&
      reached (expiryAt 2 (since + cfg s (0x3100 + port.val) 0x0A * 1048576) since) s then
    let bad := x.badLanes &&& ~~~m
    let keep := fullLanes s sp &&& ~~~bad
    .next (portCount sp 0x14 (laneLcf sp (modSub sp (fun x => { x with
        badLanes := bad, lanes := keep, oper := if bad = 0 then 2 else 3, lockDue := true, ackWait := true, lcfDue := some 5 })
      (modPort port.val (fun q => { q with lol := q.lol &&& ~~~m }) s))))
  else .next s

/-- RESTORE (R109). -/
def execRestore (sp : Fin 16) (lanes : BitVec 4) (s : State) : Host.Outcome State Fault Refusal :=
  .next (onLcf sp.val (onLanes sp.val lanes true) s)

/-! ### Port down and up -/

/-- One sub-port goes down by an admin write: queues move, the LLR window drains or the transmitter idles at once; a
shed sequence is abandoned (R111, R112). -/
def subAdminDown (sp : Nat) (s : State) : State :=
  let hold := cfg s (0x3100 + sp / 2) 8
  let s1 := rerouteQueues sp (modSub sp (fun x => { x with lockDue := false, ackWait := false, lcfDue := none }) s)
  let x := subOf s1 sp
  if linkUp s1 sp && x.llr && !(x.replay.isEmpty && x.tx.isEmpty) then
    modSub sp (fun x => { x with drainAt := some (now s), holdMs := hold }) s1
  else subDown sp hold (dropTx sp true s1)

/-- 310ph.01: take the port down, or bring it up to train (R112). -/
def wrPortAdmin (p : Nat) : WriteEff := fun _ v s =>
  let s1 := setVal (0x3100 + p) 0x01 v s
  if leNat v = 0 then (stOk, subAdminDown (2 * p + 1) (subAdminDown (2 * p) s1))
  else
    let up := fun sp s => if (portSt s p).oldMode.isSome then s
      else if (subOf s sp).drainAt.isSome then modSub sp (fun x => { x with drainAt := none }) s
      else if (subOf s sp).oper = 0 then startTraining sp s else s
    (stOk, up (2 * p + 1) (up (2 * p) s1))

/-- PORT_ADMIN_WRITE. -/
def execPortAdminWrite (h : DHdr) (port : Fin 8) (v : Bytes) (s : State) : Host.Outcome State Fault Refusal :=
  .next (dictWriteRow h (0x3100 + port.val) 0x01 v (wrPortAdmin port.val) s)

/-- 310ph.02: the port goes down as for an admin write and then trains in the new mode (R83, R112). -/
def wrPortMode (p : Nat) : WriteEff := fun _ v s =>
  let s1 := modPort p (fun q => { q with oldMode := some (portMode s p) }) (setVal (0x3100 + p) 0x02 v s)
  (stOk, modeSettle p (subAdminDown (2 * p + 1) (subAdminDown (2 * p) s1)))

/-- PORT_MODE_WRITE. -/
def execPortModeWrite (h : DHdr) (port : Fin 8) (v : Bytes) (s : State) : Host.Outcome State Fault Refusal :=
  .next (dictWriteRow h (0x3100 + port.val) 0x02 v (wrPortMode port.val) s)

/-- LINK_LOSS (R114). -/
def execLinkLoss (sp : Fin 16) (s : State) : Host.Outcome State Fault Refusal :=
  .next (if linkUp s sp.val then linkLost sp.val s else s)

end Sys2Proof.Machine
end

