-- ==== Sys2Proof/Machine/Egress.lean ====
section
/-! DEFINITION. The egress scheduler and the end of transmission (R20, R91-R95, R135, R191, R192). -/

namespace Sys2Proof.Machine

/-! ### Frames of the time engine (R46, R47) -/

/-- The MAC inserts the transmit timestamp into a TIME payload at `pofs`: T1 in a REQ (kind 1), T3 in a RESP (kind 2),
and CKCOMP, so that the UDP checksum stays valid. -/
def stampTime (kind pofs : Nat) (t : BitVec 80) (f : Bytes) : Bytes :=
  let ts := natBE 10 t.toNat
  let at1 := if kind = 1 then pofs + 16 else pofs + 36
  patch (patch f at1 ts) (pofs + 46) (natBE 2 (cksum (sum16 ts)))

/-- Put a frame of the time engine at the transmitter: a packet of origin 24, without cells, credit or pause. -/
def sendCtl (sp kind : Nat) (b : Bytes) (s : State) : State :=
  let k := s.fab.nextPkt
  let f := if kind = 0 then b else stampTime kind (zmtOfs s + 40) s.clk.ftc b
  let p : Pkt :=
    { sp := 24, bytes := f, complete := true, stomp := false, course := 0, engine := none, phase := 6, key := [],
      meta0 := 0, meta1 := 0, act := 0, tc := 7, out := sp, spilled := false, cut := false, fate := none, nhg := none }
  let s1 := modFab (fun x => { x with pkts := tput x.pkts k p, nextPkt := k + 1 }) s
  let s2 := modSub sp (fun x => { x with ctl := x.ctl.drop 1, tx := x.tx ++ [k] }) s1
  if kind = 1 then
    modClk (fun c => { c with sub := tmod {} c.sub sp (fun y =>
      { y with lastReq := some (BitVec.ofNat 16 (beAt b (zmtOfs s + 42) 2), c.ftc), answered := false, missed := false }) }) s2
  else s2

/-! ### Choosing a queue (R192) -/

/-- A class is paused while some pause of a priority that maps to it runs (R90). -/
def classPaused (s : State) (sp tc : Nat) : Bool :=
  decide (flowCtl s sp = 1) &&
    (subOf s sp).paused.any (fun e => decide (pcpTc s (sp / 2) e.1 = tc) && decide (now80 s < e.2))

/-- Credit covers the packet (R93). -/
def creditFor (s : State) (sp tc : Nat) (p : Pkt) : Bool :=
  let x := subOf s sp
  decide (flowCtl s sp ≠ 2) ||
    (x.gotCredit && match knownLen p with | some n => decide ((n + 255) / 256 ≤ creditLeft x tc) | none => false)

/-- A packet may start: it is whole, or cut-through is allowed by the rates (R20, R191). -/
def mayStart (s : State) (sp : Nat) (p : Pkt) : Bool :=
  p.complete || !p.transit || (!p.spilled && decide (rateOf s p.sp ≤ rateOf s sp))

/-- The packet a class would send now, if it may send. -/
def readyHead (s : State) (sp tc : Nat) : Option (Nat × Pkt) :=
  match queueOf s sp tc with
  | [] => none
  | k :: _ =>
    match pktOf s k with
    | some p => if !classPaused s sp tc && creditFor s sp tc p && mayStart s sp p then some (k, p) else none
    | none => none

/-- A class is strict (641ph MODE). -/
def isStrict (s : State) (sp tc : Nat) : Bool := bit (cfg s (0x6410 + sp / 2) (1 + tc)) 0

/-- The quantum of a weighted class in bytes; a QUANTUM of 0, the default, counts as 9,216 (DESIGN CHOICE, log 10). -/
def quantumOf (s : State) (sp tc : Nat) : Nat :=
  let q := cfg s (0x6410 + sp / 2) (1 + tc) / 256
  if q = 0 then 9216 else q

/-- The strict class to serve: the highest that is ready. -/
def pickStrict (s : State) (sp : Nat) : Option Nat :=
  [7, 6, 5, 4, 3, 2, 1, 0].find? (fun c => isStrict s sp c && (readyHead s sp c).isSome)

/-- Deficit round robin over the weighted classes from the class the pointer stands at: `f` visits are left and `first`
says that the visit in hand began earlier. Answers the class, the deficits and the pointer. -/
def pickDrr (s : State) (sp : Nat) : Nat → Nat → Bool → Tab Nat → Option Nat × Tab Nat × Nat
  | 0, c, _, d => (none, d, c)
  | f + 1, c, first, d =>
    let skip := fun d => pickDrr s sp f ((c + 1) % 8) false d
    if isStrict s sp c then skip d
    else if (queueOf s sp c).isEmpty then skip (tdel d (sp * 8 + c))
    else
      match readyHead s sp c with
      | none => skip d
      | some (_, p) =>
        let dv := tget 0 d (sp * 8 + c) + (if first then 0 else quantumOf s sp c)
        if p.len ≤ dv then (some c, tset 0 d (sp * 8 + c) (dv - p.len), c)
        else skip (tset 0 d (sp * 8 + c) dv)

/-! ### Starting a packet -/

/-- Mark the packet CE with the probability its queue's depth sets (R95); the random value is a free value (DESIGN CHOICE, log 1;
DESIGN CHOICE, log 48). -/
def ceMark (sp tc k : Nat) (s : State) : State :=
  match pktOf s k with
  | none => s
  | some p =>
    let q := 0x3120 + sp / 2
    let d := queueDepth s sp tc
    let kmin := cfg s q 7
    let kmax := cfg s q 8
    let go := markCe p.bytes
    if !bit (cfg s q 6) tc || !go.2 || decide (d ≤ kmin) then s
    else
      let hit := decide (kmax ≤ d) ||
        decide (freeNat s % 2 ^ 32 * (100 * (kmax - kmin)) < cfg s q 9 * (d - kmin) * 2 ^ 32)
      let s1 := if kmax ≤ d then s else drawn s
      if hit then portCount sp 0x12 (modPkt k (fun p => { p with bytes := go.1 }) s1) else s1

/-- The head packet of class `tc` leaves its queue for the transmitter. -/
def startPkt (sp tc k : Nat) (p : Pkt) (s : State) : State :=
  let s1 := ceMark sp tc k s
  let cut := p.transit && !p.complete
  let s2 := modQueue sp tc (fun l => l.drop 1) (modPkt k (fun p => { p with phase := 6, cut := cut, out := sp }) s1)
  let s3 := modSub sp (fun x =>
    let x1 := if flowCtl s sp = 2 then chargeCredit tc (((knownLen p).getD p.len + 255) / 256) x else x
    { x1 with tx := x1.tx ++ [k] }) s2
  if p.transit then bump (0xC050 + p.sp / 2) (if cut then 0x0A else 0x0B) s3 else s3

/-- EGRESS_DEQUEUE: a TIME frame goes first, then the strict classes, then the weighted ones (R46, R191, R192). -/
def execEgressDequeue (sp : Fin 16) (s : State) : Host.Outcome State Fault Refusal :=
  let x := subOf s sp.val
  if !txFree s sp.val || !x.tx.isEmpty then .next s
  else
    match x.ctl with
    | (kind, b) :: _ => .next (sendCtl sp.val kind b s)
    | [] =>
      if x.cbfc && !x.gotCredit then .next s
      else
        match pickStrict s sp.val with
        | some c =>
          match readyHead s sp.val c with
          | some (k, p) => .next (startPkt sp.val c k p s)
          | none => .next s
        | none =>
          let r := pickDrr s sp.val 17 (tget 0 s.fab.drr sp.val) true s.fab.deficit
          match r.1 with
          | some c =>
            match readyHead s sp.val c with
            | some (k, p) =>
              .next (startPkt sp.val c k p (modFab (fun f => { f with
                deficit := r.2.1, drr := tset 0 f.drr sp.val r.2.2 }) s))
            | none => .next s
          | none => .next s

/-! ### The last byte -/

/-- PACKET_LAST_BYTE_SENT: the frame is out; a transit packet charges its counter, frees its cells, lowers its drain
count and completes; a stomped one only frees and lowers (R21, R22, R135). -/
def execPacketLastByteSent (sp : Fin 16) (s : State) : Host.Outcome State Fault Refusal :=
  let x := subOf s sp.val
  match x.tx with
  | [] => .next s
  | k :: _ =>
    match pktOf s k with
    | none => .next (modSub sp.val (fun x => { x with tx := x.tx.drop 1, txSeq := tdel x.txSeq k }) s)
    | some p =>
      if !linkUp s sp.val || !(p.complete || p.stomp || !p.transit) || (x.llr && (tfind x.txSeq k).isNone) then .next s
      else
        let fcs := ethFcs p.bytes ^^^ (if p.stomp then 0xFFFFFFFF else 0)
        let s1 := emit (.frame sp.val (p.bytes ++ natLE 4 fcs) p.stomp) s
        let s2 := bumpBy (0xC030 + sp.val / 2) 0x04 p.len (portCount sp.val 0x02 s1)
        let s3 := if p.stomp then portCount sp.val 0x0D s2 else s2
        let s4 := modSub sp.val (fun x => { x with tx := x.tx.drop 1, txSeq := tdel x.txSeq k }) (fillCopies sp.val k p.bytes p.stomp s3)
        .next (drainCheck sp.val (laneLcf sp.val (
          if !p.transit then purgePkt k s4
          else if p.stomp then releaseQuiet k p s4
          else completePkt k p s4)))

end Sys2Proof.Machine
end

