-- ==== Sys2Proof/Machine/Classify.lean ====
section
/-! DEFINITION. A packet from its entry into a pipeline to the end of classification (R121-R142, R154, R157). -/

namespace Sys2Proof.Machine

/-! ### Order and engines (R121) -/

/-- Packets of a pipeline in entry order, until they have left classification. -/
def orderOf (s : State) (pl : Nat) : List Nat := tget [] s.fab.order pl

def modOrder (pl : Nat) (f : List Nat → List Nat) (s : State) : State :=
  modFab (fun x => { x with order := tmod [] x.order pl f }) s

/-- Engines of a pipeline that hold a packet. -/
def busyEngines (s : State) (pl : Nat) : List Nat := ((orderOf s pl).filterMap (pktOf s)).filterMap (·.engine)

/-- The lowest-numbered free engine of a pipeline. -/
def freeEngine (s : State) (pl : Nat) : Option Nat :=
  (List.range 24).find? (fun e => decide (e ∉ busyEngines s pl))

/-- Metadata word 0 as the hardware writes it at entry: COURSE, PORT, SUB (Table 4-4). -/
def metaAtEntry (course sp : Nat) : BitVec 64 := BitVec.ofNat 64 (course + sp / 2 * 2 ^ 4 + sp % 2 * 2 ^ 7)

/-! ### Meters (R137, R140) -/

/-- The colour of a charge of `b` bytes and the meter after it, in units of 1/8,000,000 byte. -/
def meterCharge (m : Meter) (p : MeterSlot) (dawn ns b pcolor : Nat) : Nat × Meter :=
  let dt := ns - m.last.getD dawn
  let tc := min (p.cbs.toNat * 8000000) (m.tc + p.cir.toNat * dt)
  let tp := min (p.pbs.toNat * 8000000) (m.tp + p.pir.toNat * dt)
  let need := b * 8000000
  let m1 := { m with last := some ns, tc := tc, tp := tp }
  if (p.ca ∧ pcolor = 2) ∨ tp < need then (2, m1)
  else if (p.ca ∧ pcolor = 1) ∨ tc < need then (1, { m1 with tp := tp - need })
  else (0, { m1 with tp := tp - need, tc := tc - need })

/-! ### Carrying out the applied action (R134, R141, R142) -/

/-- Ledger reason and counter of a drop by rule: RULE_DROP, NO_MATCH_DROP or PARSE_DROP. -/
def dropReason (p : Pkt) : Nat × Nat :=
  let r := bf p.meta1.toNat 0 4
  if bit p.meta1.toNat 17 then (if r = 1 then (0x07, 0x0C) else (0x08, 0x0C)) else (0x06, 0x0B)

/-- Drop a packet with a reason and a counter of its pipeline. -/
def dropPkt (k pl : Nat) (reason sub : Nat) (s : State) : State :=
  failPkt k reason (0x0A + pl / 2) (bump (0xC040 + pl) sub s)

/-- The disposition of the applied action; a frame that is still arriving is handed over when it ends. -/
def dispose (k pl : Nat) (s : State) : State :=
  match pktOf s k with
  | none => s
  | some p =>
    match bf p.act.toNat 34 2 with
    | 0 => modPkt k (fun p => { p with phase := 3 }) s
    | 1 => if p.complete then toSlice k p s else modPkt k (fun p => { p with phase := 9 }) s
    | 2 => if p.complete then toTrap k p s else modPkt k (fun p => { p with phase := 10 }) s
    | _ => dropPkt k pl (dropReason p).1 (dropReason p).2 s

/-- The yellow or red action (R137): pass, mark CE if ECT, drop, or demote to TC0. -/
def colorAct (k pl act : Nat) (s : State) : State :=
  match act with
  | 0 => dispose k pl s
  | 1 => dispose k pl (modPkt k (fun p => { p with bytes := (markCe p.bytes).1 }) s)
  | 2 => dropPkt k pl 0x09 0x0D s
  | _ => dispose k pl (modPkt k (fun p => { p with tc := 0, meta0 := BitVec.ofNat 64 (bput p.meta0.toNat 8 3 0) }) s)

/-- The bytes a meter is charged: DLEN when LENV is set, else the frame length at its end; absent while it must wait. -/
def meterBytes (p : Pkt) : Option Nat :=
  if bit p.meta0.toNat 37 then some (bf p.meta0.toNat 38 14) else if p.complete then some p.len else none

/-- Charge the meter of the applied action, record the colour, and act on it (DESIGN CHOICE, log 49). -/
def meterPkt (k pl b : Nat) (p : Pkt) (s : State) : State :=
  let i := bf p.act.toNat 19 14
  let m := tget {} s.cls.meters i
  let r := meterCharge m (meterSlot m (p.course % 2)) s.cls.meterDawn (now s) b (bf p.meta0.toNat 52 2)
  let s1 := modCls (fun c => { c with meters := tset {} c.meters i r.2 }) s
  let s2 := modPkt k (fun p => { p with meta1 := BitVec.ofNat 64 (bput p.meta1.toNat 18 2 r.1) }) s1
  let s3 := bump (0xC040 + pl) (0x08 + r.1) s2
  colorAct k pl (if r.1 = 0 then 0 else if r.1 = 1 then bf p.act.toNat 46 2 else bf p.act.toNat 48 2) s3

/-- Leave classification with the applied action: TCO, the meter, the disposition. A packet whose meter waits for its
length keeps its place (R138). -/
def applyAction (k pl : Nat) (s : State) : State :=
  let s1 := modPkt k (fun p =>
    let t := bf p.act.toNat 42 3
    let q := { p with engine := none }
    if bit p.act.toNat 45 then { q with tc := t, meta0 := BitVec.ofNat 64 (bput p.meta0.toNat 8 3 t) } else q) s
  match pktOf s1 k with
  | none => s1
  | some p =>
    let leave := modOrder pl (fun l => l.filter (· ≠ k))
    if bit p.act.toNat 33 then
      match meterBytes p with
      | some b => meterPkt k pl b p (leave s1)
      | none => bump (0xC040 + pl) 0x0F (modPkt k (fun p => { p with phase := 2 }) s1)
    else dispose k pl (leave s1)

/-- Take the port's default action with a reason (R141). -/
def applyDefault (k pl reason : Nat) (p : Pkt) (s : State) : State :=
  let a := tget dropAction s.cls.dflt (pl * 2 + p.course % 2)
  applyAction k pl (modPkt k (fun p => { p with
    act := a, meta1 := BitVec.ofNat 64 (reason + 2 ^ 17 + 3 * 2 ^ 18) }) s)

/-- The search of R131 and the action it chooses (R133). -/
def searchPkt (k pl : Nat) (p : Pkt) (s : State) : State :=
  match clsSearch s (pl / 2) p.course (BitVec.ofNat 640 (beNat p.key)) with
  | some (i, e) =>
    applyAction k pl (modPkt k (fun p => { p with
      act := e.action, meta1 := BitVec.ofNat 64 (i * 2 ^ 4 + 3 * 2 ^ 18) }) s)
  | none => applyDefault k pl 1 p (bump (0xC040 + pl) 0x07 s)

/-! ### The fence (R157) -/

/-- Packets of the older course that have not completed their search and meter charge. -/
def olderPending (s : State) : Bool :=
  (List.range 8).any (fun pl => ((orderOf s pl).filterMap (pktOf s)).any (fun p => decide (p.course ≠ activeCourse s)))

/-- A packet of the fenced course must wait. -/
def fenced (s : State) (p : Pkt) : Bool := s.cls.fence && decide (p.course = activeCourse s) && olderPending s

/-- REASON of a parsed packet: 0 when it goes to the search. -/
def Pkt.parseReason (p : Pkt) : Nat := bf p.meta1.toNat 0 4

/-- The packet at the head of a pipeline's order leaves for classification: a search, or the default action for a
failed parse; a fence holds it (R121, R124, R157). -/
def classifyHead (k pl : Nat) (p : Pkt) (s : State) : State :=
  if fenced s p then bump (0xC040 + pl) 0x10 (modPkt k (fun p => { p with phase := 8 }) s)
  else if p.parseReason = 0 then searchPkt k pl p s
  else applyDefault k pl p.parseReason p s

/-- Failed parses at the head of the order take their default action at once, in order (R124). -/
def flushFailed : Nat → Nat → State → State
  | 0, _, s => s
  | f + 1, pl, s =>
    match orderOf s pl with
    | [] => s
    | k :: _ =>
      match pktOf s k with
      | some p => if p.phase = 1 ∧ p.parseReason ≠ 0 then flushFailed f pl (classifyHead k pl p s) else s
      | none => s

def flushHeads (pl : Nat) (s : State) : State := flushFailed (orderOf s pl).length pl s

/-! ### The commands -/

/-- Record how a parse ended: key, metadata, traffic class, counters (R88, R124, R127). -/
def endParse (k pl : Nat) (o : ParseOut) (s : State) : State :=
  let s1 := modPkt k (fun p =>
    let tc := if bit o.m 11 then bf o.m 8 3 else p.tc
    { p with phase := 1, tc := tc, key := o.key ++ hwKey o.m tc,
             meta0 := BitVec.ofNat 64 (bput o.m 8 3 tc), meta1 := BitVec.ofNat 64 o.reason }) s
  let s2 := bump (0xC040 + pl) 0x01 s1
  flushHeads pl (if o.reason = 0 then s2 else bump (0xC040 + pl) o.reason s2)

/-- A frame enters pipeline `pl`: it takes the active course, an engine, a place in the order; a missing program fails
its parse at once (R121, R124, R147, R154). -/
def enterPkt (sp e : Nat) (b : Bytes) (complete : Bool) (s : State) : State :=
  let pl := sp / 2
  let k := s.fab.nextPkt
  let c := activeCourse s
  let p : Pkt :=
    { sp := sp, bytes := b, complete := complete, stomp := false, course := c, engine := some e, phase := 0, key := [],
      meta0 := metaAtEntry c sp, meta1 := 0, act := 0, tc := frameTc s pl b, out := 0, spilled := false, cut := false,
      fate := none, nhg := none }
  let s1 := modFab (fun x => { x with pkts := tput x.pkts k p, nextPkt := k + 1 }) s
  let s2 := modCls (fun x => { x with drain := tmod 0 x.drain (c * 8 + pl) (· + 1) }) (modOrder pl (· ++ [k]) s1)
  if bit (tget 0 s.cls.entry (pl * 2 + c % 2)).toNat 12 then s2 else endParse k pl (parsePkt s2 pl p) s2

/-- Bytes of a pipeline's frames in the frame-body store: until they are classified or handed on (Table 1-6). -/
def bodyBytes (s : State) (pl : Nat) : Nat :=
  (s.fab.pkts.map (fun e =>
    if e.2.sp < 16 ∧ e.2.sp / 2 = pl ∧ e.2.phase ∈ [0, 1, 2, 8, 9, 10] then e.2.len else 0)).sum

/-- The frame-body store has room for the bytes of a frame that are there; the ones that follow go on as they come (R27; DESIGN
CHOICE, log 148). -/
def bodyRoom (s : State) (pl : Nat) (b : Bytes) : Bool := decide (bodyBytes s pl + b.length + 4 ≤ 16384)

/-- FRAME_ENTER_PIPELINE: the oldest frame of the ingress FIFO enters, or with an empty FIFO one whose first bytes have
arrived; it needs a free engine and room in the frame-body store (R27, R87, R121). A frame that R81 or MAC control turns away does not enter. -/
def execFrameEnterPipeline (sp : Fin 16) (head : Bytes) (s : State) : Host.Outcome State Fault Refusal :=
  let pl := sp.val / 2
  match if clocked s then freeEngine s pl else none with
  | none => .next s
  | some e =>
    match (portSt s pl).fifo with
    | (q, b) :: rest =>
      if q = sp.val ∧ bodyRoom s pl b = true then .next (fifoPfcs pl (enterPkt q e b true (modPort pl (fun x => { x with fifo := rest }) s)))
      else .next s
    | [] =>
      if !mayEnter s head ∨ head.length < 64 ∨ 9212 < head.length ∨ !bodyRoom s pl head ∨ !linkUp s sp.val ∨ (openPkt s sp.val).isSome ∨
          beAt head 12 2 = 0x8808 ∨ tagsUnsupported head ∨ (!(subOf s sp.val).llr && lcfAddressed head) then .next s
      else .next (enterPkt sp.val e head false s)

/-- The packet an engine of a pipeline is parsing. -/
def parsing (s : State) (pl e : Nat) : Option (Nat × Pkt) :=
  ((orderOf s pl).filterMap (fun k => (pktOf s k).map (fun p => (k, p)))).find? (fun x =>
    decide (x.2.phase = 0) && decide (x.2.engine = some e))

/-- PARSE_END: the program reaches END or fails (R123-R128). -/
def execParseEnd (pl : Fin 8) (engine : Fin 24) (s : State) : Host.Outcome State Fault Refusal :=
  match parsing s pl.val engine.val with
  | some (k, p) =>
    let o := parsePkt s pl.val p
    .next (if o.reason = rsBudget then s else endParse k pl.val o s)
  | none => .next s

/-- PARSE_BUDGET_EXPIRY: the program has not ended by its 15th PCLK (R124). -/
def execParseBudgetExpiry (pl : Fin 8) (engine : Fin 24) (s : State) : Host.Outcome State Fault Refusal :=
  match parsing s pl.val engine.val with
  | some (k, p) =>
    let o := parsePkt s pl.val p
    .next (if o.reason = rsBudget then endParse k pl.val o s else s)
  | none => .next s

/-- CLASSIFIER_SEARCH: the packet at the head of the order, once parsed, is searched and its action carried out
(R129-R134, R157). -/
def execClassifierSearch (pl : Fin 8) (s : State) : Host.Outcome State Fault Refusal :=
  match orderOf s pl.val with
  | [] => .next s
  | k :: _ =>
    match pktOf s k with
    | some p => .next (if p.phase = 1 then flushHeads pl.val (classifyHead k pl.val p s) else s)
    | none => .next s

/-- METER_LENGTH_RELEASE: the last byte has come and the meter is charged (R138). -/
def execMeterLengthRelease (pl : Fin 8) (s : State) : Host.Outcome State Fault Refusal :=
  match orderOf s pl.val with
  | [] => .next s
  | k :: _ =>
    match pktOf s k with
    | some p =>
      if p.phase = 2 ∧ p.complete then
        .next (flushHeads pl.val (meterPkt k pl.val p.len p (modOrder pl.val (fun l => l.filter (· ≠ k)) s)))
      else .next s
    | none => .next s

/-- FENCE_RELEASE: every packet of the previous course has been searched and metered; the packets held go on (R157). -/
def execFenceRelease (s : State) : Host.Outcome State Fault Refusal :=
  if s.cls.fence && !olderPending s then
    .next ((List.range 8).foldl (fun s pl =>
      match orderOf s pl with
      | [] => s
      | k :: _ =>
        match pktOf s k with
        | some p => if p.phase = 8 then flushHeads pl (classifyHead k pl p s) else s
        | none => s) (modCls (fun c => { c with fence := false }) s))
  else .next s

end Sys2Proof.Machine
end

