-- ==== Sys2Proof/Machine/FwdTab.lean ====
section
/-! DEFINITION. The forwarding tables: endpoint table and its cache, learn table, notification queue, aging, longest-prefix
match and its length filter (R166-R187). -/

namespace Sys2Proof.Machine

/-! ### Learn notification queue (R180) -/

def lnLearn : Nat := 1
def lnMove : Nat := 2
def lnEvict : Nat := 3
def lnAgeOut : Nat := 4
def lnInsertFail : Nat := 5

/-- Queue a record, or count it when the queue is full; source 0 of the named tile follows (R180). -/
def lnqPut (kind : Nat) (lt : Bool) (slot : Nat) (e : W64 × W64) (s : State) : State :=
  if 4096 ≤ s.fwd.lnq.length then bump 0xC058 0x08 s
  else
    let w0 := kind + b2n lt * 2 ^ 3 + slot % 4 * 2 ^ 4 + slot / 4 * 2 ^ 6
    tecLearn (modFwd (fun x => { x with
      lnq := x.lnq ++ [[BitVec.ofNat 64 w0, e.1, e.2, BitVec.ofNat 64 (now s)]] }) s)

/-! ### Endpoint table (R166-R168) -/

/-- The hash of an endpoint id. -/
def etHash (s : State) (ep : Nat) : Nat := crc32c (cfg s 0x6010 3) (natBE 4 ep)

def etBucket (s : State) (ep : Nat) : Nat := etHash s ep % 2 ^ 19

def etSlot (s : State) (i : Nat) : W64 × W64 := tget (0, 0) s.fwd.et i

def modEt (i : Nat) (f : W64 × W64 → W64 × W64) (s : State) : State :=
  modFwd (fun x => { x with et := tmod (0, 0) x.et i f }) s

/-- A write of an entry: both mirror copies of its bucket are written (R174, R494). HIT and AGED, which lookups and sweeps
change, go to the array with the entry's next write (DESIGN CHOICE, log 150). -/
def writeEt (i : Nat) (f : W64 × W64 → W64 × W64) (s : State) : State := metaWrite .endpoints (i / 4) (modEt i f s)

/-- Fields of word 0 and word 1 of an ET entry (Table 5-1). -/
def etV (e : W64 × W64) : Bool := bit e.1.toNat 46
def etStatic (e : W64 × W64) : Bool := bit e.1.toNat 47
def etPv (e : W64 × W64) : Bool := bit e.2.toNat 21
def etPeer (e : W64 × W64) : Nat := bf e.2.toNat 0 21
def etVer (e : W64 × W64) : Nat := bf e.1.toNat 50 2
def etNhg (e : W64 × W64) : Option Nat := if bit e.1.toNat 52 then some (bf e.1.toNat 32 14) else none

/-- A DL2 tick count as BIRTH holds it. -/
def birthNow (s : State) (bits : Nat) : Nat := now s / 2 ^ 20 % 2 ^ bits

/-- The slots of bucket `b`, in way order. -/
def bucketSlots (b : Nat) : List Nat := (List.range 4).map (fun w => 4 * b + w)

/-- The slot that holds an endpoint id. -/
def etFind (s : State) (ep : Nat) : Option Nat :=
  (bucketSlots (etBucket s ep)).find? (fun i => etV (etSlot s i) && decide (bf (etSlot s i).1.toNat 0 32 = ep % 2 ^ 32))

/-- A lookup that finds the entry sets HIT and clears AGED of the sweep in progress (R166, R176). -/
def etTouch (i : Nat) (s : State) : State :=
  modEt i (fun e => (BitVec.ofNat 64 (bput e.1.toNat 48 1 1), e.2)) s

/-- The cache set of a slot: the low 15 bits of its bucket. -/
def cacheSet (slot : Nat) : Nat := slot / 4 % 32768

/-- Whether a slot is cached; a slot at the front of its set; a slot no longer cached. -/
def cached (s : State) (slot : Nat) : Bool := decide (slot ∈ tget [] s.fwd.cache (cacheSet slot))
def cacheFill (slot : Nat) (s : State) : State :=
  modFwd (fun x => { x with cache := tmod [] x.cache (cacheSet slot) (fun l => (slot :: l.filter (· ≠ slot)).take 4) }) s
def cacheDrop (slot : Nat) (s : State) : State :=
  modFwd (fun x => { x with cache := tmod [] x.cache (cacheSet slot) (fun l => l.filter (· ≠ slot)) }) s

/-- A slot is cleared; its peer record, if it has one, is discarded (R179). -/
def etClear (i : Nat) (s : State) : State :=
  let e := etSlot s i
  let s1 := cacheDrop i (writeEt i (fun _ => (0, 0)) s)
  if etPv e then peerDiscard (etPeer e) s1 else s1

/-- Of the ways that may be evicted, the one to evict: a free choice, or the oldest (R174). -/
def pickVictim (c : List (Nat × Nat)) (oldest : Bool) (s : State) : Option Nat × State :=
  if oldest then ((c.foldl (fun b x => match b with
    | none => some x
    | some y => if y.2 < x.2 then some x else some y) none).map (·.1), s)
  else ((c.drop (freeNat s % c.length)).head?.map (·.1), drawn s)

/-- How an insertion ended. -/
inductive InsRes where
  | exists
  | full
  | ok (slot : Nat) (evicted : Bool)
  deriving DecidableEq, Repr

/-- INSERT into the ET; word 1 without BIRTH (R174). -/
def insertEt (w0 w1 : Nat) (s : State) : InsRes × State :=
  let ep := bf w0 0 32
  let b := etBucket s ep
  let e := (BitVec.ofNat 64 (bput w0 46 1 1), BitVec.ofNat 64 (bput w1 32 32 (birthNow s 32)))
  if (etFind s ep).isSome then (.exists, s)
  else match (bucketSlots b).find? (fun i => !etV (etSlot s i)) with
    | some i => (.ok i false, bump 0xC058 0x01 (writeEt i (fun _ => e) s))
    | none =>
      let c := (bucketSlots b).filter (fun i => !etStatic (etSlot s i) && !etPv (etSlot s i))
      let r := pickVictim (c.map (fun i => (i, (birthNow s 32 + 2 ^ 32 - bf (etSlot s i).2.toNat 32 32) % 2 ^ 32)))
        (cfg s 0x6010 1 = 1) s
      if c = [] then (.full, bump 0xC058 0x07 (lnqPut lnInsertFail false (4 * b) e s))
      else match r.1 with
        | some i =>
          let s1 := bump 0xC058 0x02 (lnqPut lnEvict false i (etSlot s i) r.2)
          (.ok i true, bump 0xC058 0x01 (writeEt i (fun _ => e) (etClear i s1)))
        | none => (.full, s)

/-! ### Learn table (R170-R175) -/

def ltBucket (s : State) (vid mac : Nat) : Nat := crc32c (cfg s 0x6010 4) (natBE 2 (vid % 4096) ++ natBE 6 mac) % 2 ^ 16

def ltSlot (s : State) (i : Nat) : W64 × W64 := tget (0, 0) s.fwd.lt i

def modLt (i : Nat) (f : W64 × W64 → W64 × W64) (s : State) : State :=
  modFwd (fun x => { x with lt := tmod (0, 0) x.lt i f }) s

def ltV (e : W64 × W64) : Bool := bit e.1.toNat 60
def ltStatic (e : W64 × W64) : Bool := bit e.1.toNat 61
/-- Sub-port an entry names. -/
def ltSp (e : W64 × W64) : Nat := bf e.2.toNat 0 3 * 2 + bf e.2.toNat 3 1

/-- The slot of a VID and MAC address. -/
def ltFind (s : State) (vid mac : Nat) : Option Nat :=
  (bucketSlots (ltBucket s vid mac)).find? (fun i =>
    ltV (ltSlot s i) && decide (bf (ltSlot s i).1.toNat 0 60 = mac % 2 ^ 48 + vid % 4096 * 2 ^ 48))

def ltTouch (i : Nat) (s : State) : State := modLt i (fun e => (BitVec.ofNat 64 (bput e.1.toNat 62 1 1), e.2)) s

/-- INSERT into the LT; word 1 holds PORT, SUB and BIRTH (R174). -/
def insertLt (w0 w1 : Nat) (s : State) : InsRes × State :=
  let vid := bf w0 48 12
  let mac := bf w0 0 48
  let b := ltBucket s vid mac
  let e := (BitVec.ofNat 64 (bput w0 60 1 1), BitVec.ofNat 64 w1)
  if (ltFind s vid mac).isSome then (.exists, s)
  else match (bucketSlots b).find? (fun i => !ltV (ltSlot s i)) with
    | some i => (.ok i false, modLt i (fun _ => e) s)
    | none =>
      let c := (bucketSlots b).filter (fun i => !ltStatic (ltSlot s i))
      let r := pickVictim (c.map (fun i => (i, (birthNow s 24 + 2 ^ 24 - bf (ltSlot s i).2.toNat 8 24) % 2 ^ 24)))
        (cfg s 0x6010 2 = 1) s
      if c = [] then (.full, bump 0xC058 0x07 (lnqPut lnInsertFail true (4 * b) e s))
      else match r.1 with
        | some i => (.ok i true, modLt i (fun _ => e) (bump 0xC058 0x05 (lnqPut lnEvict true i (ltSlot s i) r.2)))
        | none => (.full, s)

/-- PORT and SUB of a sub-port with a BIRTH, as word 1 of an LT entry. -/
def ltWord1 (sp birth : Nat) : Nat := sp / 2 + sp % 2 * 2 ^ 3 + birth % 2 ^ 24 * 2 ^ 8

/-- A learn request reaches the insertion engine (R171, R173). -/
def learnDo (sp mac vid birth : Nat) (s : State) : State :=
  match ltFind s vid mac with
  | some i =>
    let e := ltSlot s i
    if ltSp e = sp then ltTouch i s
    else if ltStatic e then bump 0xC058 0x0B s
    else
      let s1 := ltTouch i (modLt i (fun e => (e.1, BitVec.ofNat 64 (bput e.2.toNat 0 4 (sp / 2 + sp % 2 * 8)))) s)
      bump 0xC058 0x04 (lnqPut lnMove true i (ltSlot s1 i) s1)
  | none =>
    match insertLt (mac % 2 ^ 48 + vid % 4096 * 2 ^ 48) (ltWord1 sp birth) s with
    | (.ok i _, s1) => bump 0xC058 0x03 (lnqPut lnLearn true i (ltSlot s1 i) s1)
    | (_, s1) => s1

/-! ### Aging (R177, R178) -/

/-- An entry under a sweep: `hit` and `aged` are its HIT and AGED bits in word 0; none when it is removed. -/
def ageEntry (hit aged : Nat) (e : W64 × W64) : Option (W64 × W64) :=
  let w := e.1.toNat
  if bit w hit then some (BitVec.ofNat 64 (bput (bput w hit 1 0) aged 1 0), e.2)
  else if bit w aged then none
  else some (BitVec.ofNat 64 (bput w aged 1 1), e.2)

/-- One entry of the ET, then of the LT, under a sweep. -/
def sweepEtSlot (i : Nat) (s : State) : State :=
  let e := etSlot s i
  if !etV e || etStatic e || etPv e then s
  else match ageEntry 48 49 e with
    | some f => modEt i (fun _ => f) s
    | none => bump 0xC058 0x06 (lnqPut lnAgeOut false i e (etClear i s))
def sweepLtSlot (i : Nat) (s : State) : State :=
  let e := ltSlot s i
  if !ltV e || ltStatic e then s
  else match ageEntry 62 63 e with
    | some f => modLt i (fun _ => f) s
    | none => bump 0xC058 0x06 (lnqPut lnAgeOut true i e (modLt i (fun _ => (0, 0)) s))

/-- A sweep of a table starts and visits every bucket in order. -/
def sweepEt (s : State) : State :=
  (tkeys s.fwd.et).foldl (fun s i => sweepEtSlot i s) (modFwd (fun x => { x with etSweep := true, etHeld := false }) s)
def sweepLt (s : State) : State :=
  (tkeys s.fwd.lt).foldl (fun s i => sweepLtSlot i s) (modFwd (fun x => { x with ltSweep := true, ltHeld := false }) s)

/-- The slots of both tables in the order two sweeps side by side visit them: bucket by bucket, the ET's ways first. -/
def sweepKeys (s : State) : List Nat :=
  tkeys ((tkeys s.fwd.lt).foldl (fun t i => tput t (i / 4 * 8 + 4 + i % 4) ()) ((tkeys s.fwd.et).map (fun i => (i / 4 * 8 + i % 4, ()))))

/-- Both sweeps start together and visit one bucket of each table at a time (R177). -/
def sweepBoth (s : State) : State :=
  (sweepKeys s).foldl (fun s k => if k / 4 % 2 = 0 then sweepEtSlot (k / 8 * 4 + k % 4) s else sweepLtSlot (k / 8 * 4 + k % 4) s)
    (modFwd (fun x => { x with etSweep := true, etHeld := false, ltSweep := true, ltHeld := false }) s)

/-- A sweep falls due: it starts, or is held while the last one runs and counted (R178). -/
def dueEt (s : State) : State :=
  if s.fwd.etSweep then bump 0xC058 0x0A (modFwd (fun x => { x with etHeld := true }) s) else sweepEt s
def dueLt (s : State) : State :=
  if s.fwd.ltSweep then bump 0xC058 0x0A (modFwd (fun x => { x with ltHeld := true }) s) else sweepLt s

/-! ### Longest-prefix match (R181-R187) -/

/-- Address bits of a family (0 IPv4, 1 IPv6). -/
def famBits (af : Nat) : Nat := if af = 0 then 32 else 128

def lcfgOf (s : State) (af len : Nat) : Nat := (tget 0 s.fwd.lcfg (af * 129 + len)).toNat

/-- The first `len` bits of an address, the rest 0. -/
def maskPfx (af a len : Nat) : Nat := a / 2 ^ (famBits af - len) * 2 ^ (famBits af - len)

/-- XOR of the 16-bit groups of an address (R182). -/
def foldGroups (af a : Nat) : Nat := (List.range (famBits af / 16)).foldl (fun x i => x ^^^ bf a (16 * i) 16) 0

/-- The bucket probed for an address at a length (R182). -/
def lpmBucket (s : State) (af len a : Nat) : Nat :=
  let c := lcfgOf s af len
  bf c 0 16 + (foldGroups af (maskPfx af a len) ^^^ bf c 32 16) % 2 ^ bf c 16 5

def lpmSlot (s : State) (i : Nat) : LpmSlot := tget {} s.fwd.lpm i

/-- Fields of word 2 of a slot (R183). -/
def lpmNhg (x : LpmSlot) : Nat := bf x.w2.toNat 0 14
def lpmLen (x : LpmSlot) : Nat := bf x.w2.toNat 14 8
def lpmAf (x : LpmSlot) : Nat := bf x.w2.toNat 22 1

/-- The slot that matches an address at a length. -/
def lpmProbe (s : State) (af len a : Nat) : Option Nat :=
  if !bit (lcfgOf s af len) 21 then none
  else (bucketSlots (lpmBucket s af len a)).find? (fun i =>
    let x := lpmSlot s i
    x.v && decide (lpmAf x = af ∧ lpmLen x = len ∧ x.pfx.toNat = maskPfx af a len))

/-- The 16-bit block of an address, and its filter mask. -/
def lpmBlock (af a : Nat) : Nat := a / 2 ^ (famBits af - 16)
/-- Bit 0 of every block of a family, as its last change by a default route left it. -/
def filt0Of (f : Fwd) (af : Nat) : BitVec 129 := if f.filt0.getLsbD af then 1 else 0
def filtOf (s : State) (af blk : Nat) : Nat := (tget 0 s.fwd.filt (af * 65536 + blk) ^^^ filt0Of s.fwd af).toNat
/-- Write the mask of a block. -/
def filtPut (af blk : Nat) (v : Nat) (s : State) : State :=
  modFwd (fun f => { f with filt := tset 0 f.filt (af * 65536 + blk) (BitVec.ofNat 129 v ^^^ filt0Of f af) }) s

/-- The default route of a family. -/
def defRoute (s : State) (af : Nat) : W64 := if af = 0 then s.fwd.def4 else s.fwd.def6

/-- Candidate lengths, longest first. -/
def lpmCands (s : State) (af a : Nat) : List Nat :=
  ((List.range (famBits af)).map (fun i => famBits af - i)).filter (fun l => bit (filtOf s af (lpmBlock af a)) l)

/-- A lookup: the group, whether the default route gave it, and the rounds used (R186, R187). -/
def lpmLookup (s : State) (af a : Nat) : Option Nat × Bool × Nat :=
  let c := lpmCands s af a
  match findIdxVal (fun l => (lpmProbe s af l a).isSome) c 0 with
  | some (i, l) => ((lpmProbe s af l a).map (fun x => lpmNhg (lpmSlot s x)), false, i / 4 + 1)
  | none =>
    let d := (defRoute s af).toNat
    (if bit d 14 then some (bf d 0 14) else none, bit d 14, (c.length + 3) / 4)

/-- A lookup of an address with its counters, of the pipeline `pl` (C050h). -/
def lpmRoute (pl af a : Nat) (s : State) : Option Nat × State :=
  let r := lpmLookup s af a
  let s1 := bumpBy (0xC050 + pl) 0x0C (r.2.2 - 4) s
  (r.1, if r.1.isNone then s1 else bump (0xC050 + pl) (if r.2.1 then 0x04 else 0x03) s1)

/-- The filter bit of a length over every block a prefix covers (R184). -/
def filtBlocks (af len pfx : Nat) : List Nat :=
  if 16 ≤ len then [lpmBlock af pfx] else (List.range (2 ^ (16 - len))).map (fun i => lpmBlock af pfx + i)
def filtSet (af len pfx : Nat) (b : Bool) (s : State) : State :=
  modFwd (fun x => { x with filt := (filtBlocks af len pfx).foldl (fun t k =>
    tmod 0 t (af * 65536 + k) (fun m => BitVec.ofNat 129 (bitPut m.toNat len b))) x.filt }) s

/-- The bit of length 0 over every block of a family (R184). -/
def filtSet0 (af : Nat) (b : Bool) (s : State) : State :=
  modFwd (fun f => { f with
    filt := ((f.filt.map (fun e => if e.1 / 65536 = af then (e.1, BitVec.ofNat 129 (bitPut e.2.toNat 0 false)) else e)).filter
      (fun e => decide (e.2 ≠ 0))),
    filt0 := BitVec.ofNat 2 (bitPut f.filt0.toNat af b) }) s

/-- Slots that hold a prefix of a family and length. -/
def lpmHeld (s : State) (af len : Nat) : List LpmSlot :=
  (s.fwd.lpm.map (·.2)).filter (fun x => x.v && decide (lpmAf x = af ∧ lpmLen x = len))

/-- lpm_op 1: add a prefix, the filter bit before word 3 (R185). Length 0 is the default route (DESIGN CHOICE, log 45). -/
def lpmAdd (af len pfx nhg : Nat) (s : State) : Nat × State :=
  if famBits af < len then (stRange, s)
  else if len = 0 then
    if bit (defRoute s af).toNat 14 then (stExists, s)
    else
      let d := BitVec.ofNat 64 (nhg % 16384 + 16384)
      (stOk, modFwd (fun x => if af = 0 then { x with def4 := d } else { x with def6 := d }) (filtSet0 af true s))
  else if !bit (lcfgOf s af len) 21 then (stRange, s)
  else
    let a := maskPfx af pfx len
    if (lpmProbe s af len a).isSome then (stExists, s)
    else match (bucketSlots (lpmBucket s af len a)).find? (fun i => !(lpmSlot s i).v) with
      | none => (stBucketFull, s)
      | some i =>
        let x : LpmSlot :=
          { pfx := BitVec.ofNat 128 a, w2 := BitVec.ofNat 64 (nhg % 16384 + len * 2 ^ 14 + af * 2 ^ 22), v := true }
        (stOk, modFwd (fun f => { f with lpm := tset {} f.lpm i x }) (filtSet af len a true s))

/-- lpm_op 2: delete a prefix, then the filter bit of the blocks no other prefix of the length covers (R185). -/
def lpmDelete (af len pfx : Nat) (s : State) : Nat × State :=
  if famBits af < len then (stRange, s)
  else if len = 0 then
    if bit (defRoute s af).toNat 14 then
      (stOk, filtSet0 af false (modFwd (fun x => if af = 0 then { x with def4 := 0 } else { x with def6 := 0 }) s))
    else (stNotFound, s)
  else
    let a := maskPfx af pfx len
    match lpmProbe s af len a with
    | none => (stNotFound, s)
    | some i =>
      let s1 := modFwd (fun f => { f with lpm := tdel f.lpm i }) s
      if 16 ≤ len ∧ (lpmHeld s1 af len).any (fun x => decide (lpmBlock af x.pfx.toNat = lpmBlock af a)) then (stOk, s1)
      else (stOk, filtSet af len a false s1)

/-- The defined bits of an LCFG word: BASE, SZ, EN, SEED. -/
def lcfgMask : W64 := 0x0000FFFF003FFFFF

/-- Configure a length (R181, R195). -/
def lpmConfig (af len : Nat) (v : W64) (s : State) : Nat × State :=
  let c := (v &&& lcfgMask).toNat
  let lo := bf c 0 16
  let n := 2 ^ bf c 16 5
  let clash := bit c 21 && s.fwd.lcfg.any (fun e =>
    decide (e.1 ≠ af * 129 + len) && bit e.2.toNat 21 &&
      decide (lo < bf e.2.toNat 0 16 + 2 ^ bf e.2.toNat 16 5) && decide (bf e.2.toNat 0 16 < lo + n))
  if len = 0 ∨ famBits af < len ∨ 16 < bf c 16 5 ∨ 65536 < lo + n ∨ !(lpmHeld s af len).isEmpty ∨ clash then (stRange, s)
  else (stOk, modFwd (fun x => { x with lcfg := tset 0 x.lcfg (af * 129 + len) (v &&& lcfgMask) }) s)

end Sys2Proof.Machine
end

