-- ==== Sys2Proof/Machine/Forward.lean ====
section
/-! DEFINITION. Transit forwarding: the decision, ET misses, table commands and the tables' dictionary writes
(R163-R195). -/

namespace Sys2Proof.Machine

/-! ### The decision (R163) -/

/-- Fail a packet of pipeline `pl` in forwarding, with the counter of C050h. -/
def failFwd (k pl reason sub : Nat) (s : State) : State := failPkt k reason 0x0E (bump (0xC050 + pl) sub s)

def Pkt.l3ofs (p : Pkt) : Nat := bf p.meta0.toNat 12 7

/-- TTL or hop limit of a routed packet. -/
def Pkt.ttl (p : Pkt) : Nat := beAt p.bytes (p.l3ofs + (if p.l3t = 1 then 8 else 7)) 1

/-- One hop less: the TTL with the header checksum, or the hop limit (R164). -/
def decTtl (p : Pkt) : Bytes :=
  let o := p.l3ofs
  if p.l3t = 1 then
    let old := beAt p.bytes (o + 8) 2
    patch (patch p.bytes (o + 8) (natBE 2 (old - 256))) (o + 10) (natBE 2 (cksumUpdate (beAt p.bytes (o + 10) 2) old (old - 256)))
  else patch p.bytes (o + 7) (natBE 1 (p.ttl - 1))

/-- Queue a packet for its egress sub-port, or fail it with BUFFER_FULL (R190); the pause of its class is checked. -/
def queuePkt (k pl sp : Nat) (s : State) : State :=
  let r := admitPkt k sp s
  if r.1 then (match pktOf r.2 k with | some p => pfcCheck p.sp r.2 | none => r.2) else failFwd k pl 0x0D 0x08 r.2

/-- A group is known or not: choose a member, rewrite, queue (R163, R164). -/
def forwardGroup (k pl : Nat) (g : Option Nat) (s : State) : State :=
  match g with
  | none => failFwd k pl 0x0C 0x05 s
  | some g =>
    match routeTo k g s with
    | (none, s1) => failFwd k pl 0x0C 0x05 s1
    | (some sp, s1) => queuePkt k pl sp (writeMacs k sp (modPkt k (fun p => { p with bytes := decTtl p }) s1))

/-- The address the LPM looks up, from the key (650ph.02). -/
def lpmKey (s : State) (p : Pkt) : Nat :=
  let o := cfg s (0x6500 + p.sp / 2) 2
  if p.l3t = 1 then beAt p.key (bf o 16 8) 4 else beAt p.key (bf o 8 8) 16

/-- Route by the LPM. -/
def forwardLpm (k pl : Nat) (p : Pkt) (s : State) : State :=
  let r := lpmRoute pl (p.l3t - 1) (lpmKey s p) s
  forwardGroup k pl r.1 r.2

/-- The ET lookup of a packet is complete with the slot found or none (R163, R166). -/
def forwardEt (k pl : Nat) (p : Pkt) (slot : Option Nat) (s : State) : State :=
  match slot with
  | some i =>
    let s1 := bump (0xC050 + pl) 0x01 (cacheFill i (etTouch i s))
    (match etNhg (etSlot s i) with
     | some g => forwardGroup k pl (some g) s1
     | none => forwardLpm k pl p s1)
  | none => forwardLpm k pl p s

/-- A bridged frame: the learn table names its sub-port (R163, R165). -/
def forwardBridge (k pl : Nat) (p : Pkt) (s : State) : State :=
  match ltFind s (outerVid p.bytes) (frameDa p.bytes) with
  | none => failFwd k pl 0x0A 0x06 s
  | some i =>
    if bit (frameDa p.bytes) 40 && !ltStatic (ltSlot s i) then failFwd k pl 0x0A 0x06 s
    else queuePkt k pl (ltSp (ltSlot s i)) (ltTouch i s)

/-- Endpoint id of a packet, from the key. -/
def fwdEp (s : State) (p : Pkt) : Nat := beAt p.key (bf (cfg s (0x6500 + p.sp / 2) 2) 0 8) 4

/-- Outstanding misses of a pipeline, and whether one is for bucket `b`. -/
def missesOf (s : State) (pl : Nat) : List (Nat × Nat × List Nat) := s.fwd.misses.filter (fun m => decide (m.1 = pl))
def missFor (s : State) (pl b : Nat) : Bool := (missesOf s pl).any (fun m => decide (m.2.1 = b))

/-- Make a packet wait for the miss of a bucket, which is read from the mirror copy with the shorter read queue (R168,
R169). -/
def waitMiss (k pl b : Nat) (s : State) : State :=
  let s1 := modPkt k (fun p => { p with phase := 4 }) s
  if missFor s pl b then
    modFwd (fun x => { x with misses := x.misses.map (fun m =>
      if m.1 = pl ∧ m.2.1 = b then (m.1, m.2.1, m.2.2 ++ [k]) else m) }) s1
  else metaRead .endpoints b pl (bump (0xC050 + pl) 0x02 (modFwd (fun x => { x with misses := x.misses ++ [(pl, b, [k])] }) s1))

/-- The header bytes the decision reads have arrived (DESIGN CHOICE, log 123). -/
def headerHere (p : Pkt) : Bool := p.complete || decide (p.l3ofs + 20 ≤ p.bytes.length)

/-- FORWARD_DECISION: the oldest packet of a pipeline that is to be forwarded (R163-R169, R186-R190). -/
def execForwardDecision (pl : Fin 8) (s : State) : Host.Outcome State Fault Refusal :=
  match s.fab.pkts.find? (fun e => decide (e.2.sp / 2 = pl.val) && decide (e.2.phase = 3)) with
  | none => .next s
  | some (k, p) =>
    .next (
      if p.l3t = 0 ∨ 3 ≤ p.l3t then forwardBridge k pl.val p s
      else if !headerHere p then s
      else if p.ttl ≤ 1 then failFwd k pl.val 0x0B 0x07 s
      else if p.zmt && cfgB s (0x6500 + pl.val) 1 then
        let ep := fwdEp s p
        let b := etBucket s ep
        let hit := (etFind s ep).any (cached s)
        if missFor s pl.val b then waitMiss k pl.val b s
        else if hit then forwardEt k pl.val p (etFind s ep) s
        else if 256 ≤ (missesOf s pl.val).length ∨ !metaRoom s .endpoints b then s
        else waitMiss k pl.val b s
      else forwardLpm k pl.val p s)

/-- ET_MISS_COMPLETE: the read of the bucket has returned; the packets that wait for it proceed in order (R168, R169). -/
def execEtMissComplete (pl : Fin 8) (bucket : Nat) (s : State) : Host.Outcome State Fault Refusal :=
  match s.fwd.misses.find? (fun m => decide (m.1 = pl.val ∧ m.2.1 = bucket)) with
  | none => .next s
  | some m =>
    if metaPending s .endpoints bucket pl.val then .next s else
    let s1 := modFwd (fun x => { x with misses := x.misses.filter (fun m => !(decide (m.1 = pl.val ∧ m.2.1 = bucket))) }) s
    .next (m.2.2.foldl (fun s k =>
      match pktOf s k with
      | some p => forwardEt k pl.val p (if metaDead s .endpoints bucket then none else etFind s (fwdEp s p)) (modPkt k (fun p => { p with phase := 3 }) s)
      | none => s) s1)

/-! ### Learning and aging -/

/-- LEARN_INSERT: the oldest learn request reaches the insertion engine (R171-R175). -/
def execLearnInsert (s : State) : Host.Outcome State Fault Refusal :=
  match s.fwd.learnQ with
  | (sp, mac, vid, birth) :: rest => .next (learnDo sp mac vid birth (modFwd (fun x => { x with learnQ := rest }) s))
  | [] => .next s

/-- AGING_SWEEP_START: P DL2 ticks have passed since the last sweep fell due (R177, R178). -/
def execAgingSweepStart (s : State) : Host.Outcome State Fault Refusal :=
  let t := now s / dlPeriod 2
  if cfgB s 0x6020 1 && s.clk.frozen.isNone && decide (s.fwd.lastSweep + s.fwd.ageTicks ≤ t) then
    let s1 := modFwd (fun x => { x with lastSweep := t }) s
    .next (if s.fwd.etSweep || s.fwd.ltSweep then dueLt (dueEt s1) else sweepBoth s1)
  else .next s

/-- AGING_SWEEP_END: the sweep of a table is over, and one that was held starts (R178). -/
def execAgingSweepEnd (lt : Bool) (s : State) : Host.Outcome State Fault Refusal :=
  if lt then
    if s.fwd.ltSweep then
      let s1 := modFwd (fun x => { x with ltSweep := false }) s
      .next (if s.fwd.ltHeld then sweepLt s1 else s1)
    else .next s
  else if s.fwd.etSweep then
    let s1 := modFwd (fun x => { x with etSweep := false }) s
    .next (if s.fwd.etHeld then sweepEt s1 else s1)
  else .next s

/-- LNQ_POP: word 0 of the oldest record, removed; words 1-3 are latched for the reading master (R193). -/
def lnqPop (master : Nat) (s : State) : W64 × State :=
  match s.fwd.lnq with
  | r :: rest =>
    (r.headD 0, tecLearn (modFwd (fun x => { x with
      lnq := rest, lnqLatch := tset [0, 0, 0] x.lnqLatch master (r.drop 1) }) s))
  | [] => (0, s)

def execLnqPop (master : Nat) (s : State) : Host.Outcome State Fault Refusal :=
  let r := lnqPop master s
  .next (emit (.reply "LNQ" master [r.1.toNat]) r.2)

/-- 6600h.01: up to 64 records (R195). -/
def rdLnq : ReadEff := fun _ s =>
  (stOk, (s.fwd.lnq.take 64).flatMap (fun r => r.flatMap (fun w => natLE 8 w.toNat)),
   tecLearn (modFwd (fun x => { x with lnq := x.lnq.drop 64 }) s))

/-- LNQ_READ. -/
def execLnqRead (h : DHdr) (s : State) : Host.Outcome State Fault Refusal :=
  .next (dictReadRow h 0x6600 0x01 rdLnq s)

/-! ### The command interface (R193) -/

/-- The data registers of a command interface. -/
def fwdCmd (s : State) (m : Bool) : FwdCmd := if m then s.fwd.cmdM else s.fwd.cmdS
def modFwdCmd (m : Bool) (f : FwdCmd → FwdCmd) (s : State) : State :=
  modFwd (fun x => if m then { x with cmdM := f x.cmdM } else { x with cmdS := f x.cmdS }) s

/-- The slot CMD_D0 names: an endpoint id, or MAC and VID as in word 0 of an LT entry. -/
def fwdKeySlot (s : State) (lt : Bool) (d0 : Nat) : Option Nat :=
  if lt then ltFind s (bf d0 48 12) (bf d0 0 48) else etFind s (bf d0 0 32)

/-- Words of a slot of a table. -/
def fwdSlot (s : State) (lt : Bool) (i : Nat) : W64 × W64 := if lt then ltSlot s i else etSlot s i

/-- The status of a finished command, and its results in D1 and D2. -/
def fwdDone (m : Bool) (st : Nat) (s : State) : State := modFwdCmd m (fun c => { c with status := BitVec.ofNat 4 st }) s
def fwdGive (m : Bool) (e : W64 × W64) (s : State) : State := modFwdCmd m (fun c => { c with d1 := e.1, d2 := e.2 }) s

/-- OP 1 LOOKUP: the entry found, HIT set. -/
def fwdLookupOp (m lt : Bool) (s : State) : State :=
  match fwdKeySlot s lt (fwdCmd s m).d0.toNat with
  | none => fwdDone m 3 s
  | some i =>
    let s1 := if lt then ltTouch i s else etTouch i s
    fwdDone m 0 (fwdGive m (fwdSlot s1 lt i) s1)

/-- OP 2 INSERT: the entry of D1 and D2 under the key of D0. BIRTH, HIT, AGED and what the transport owns (VER, PEER,
PV) are the device's own (DESIGN CHOICE, log 44). -/
def fwdInsertOp (m lt : Bool) (s : State) : State :=
  let c := fwdCmd s m
  let r := if lt then
      insertLt (c.d0.toNat % 2 ^ 60 + b2n (bit c.d1.toNat 61) * 2 ^ 61)
        (bf c.d2.toNat 0 4 + birthNow s 24 * 2 ^ 8) s
    else insertEt (c.d0.toNat % 2 ^ 32 + bf c.d1.toNat 32 14 * 2 ^ 32 + b2n (bit c.d1.toNat 47) * 2 ^ 47 +
        b2n (bit c.d1.toNat 52) * 2 ^ 52) 0 s
  match r.1 with
  | .exists => fwdDone m 1 r.2
  | .full => fwdDone m 2 r.2
  | .ok _ ev => fwdDone m (if ev then 4 else 0) r.2

/-- OP 3 DELETE; an ET entry with PV = 1 discards its peer record (R179). -/
def fwdDeleteOp (m lt : Bool) (s : State) : State :=
  match fwdKeySlot s lt (fwdCmd s m).d0.toNat with
  | none => fwdDone m 3 s
  | some i => fwdDone m 0 (if lt then modLt i (fun _ => (0, 0)) s else etClear i s)

/-- OP 4 READ_WAY: the words of one way, whatever they hold. -/
def fwdReadWayOp (m lt : Bool) (way bucket : Nat) (s : State) : State :=
  fwdDone m 0 (fwdGive m (fwdSlot s lt ((if lt then bucket % 65536 else bucket % 524288) * 4 + way)) s)

def execFwdLookup (levelM lt : Bool) (s : State) : Host.Outcome State Fault Refusal := .next (fwdLookupOp levelM lt s)
def execFwdInsert (levelM lt : Bool) (s : State) : Host.Outcome State Fault Refusal := .next (fwdInsertOp levelM lt s)
def execFwdDelete (levelM lt : Bool) (s : State) : Host.Outcome State Fault Refusal := .next (fwdDeleteOp levelM lt s)
def execReadWay (levelM lt : Bool) (way : Fin 4) (bucket : Nat) (s : State) : Host.Outcome State Fault Refusal :=
  .next (fwdReadWayOp levelM lt way.val bucket s)

/-! ### Dictionary writes (R195) -/

/-- 6100h.05: insert or delete the session's endpoint id. -/
def wrEtOp : WriteEff := fun sid v s =>
  let ep := own s sid 0x6100 1
  if leNat v = 1 then
    let g := own s sid 0x6100 2
    let w := ep + (if g = 0xFFFF then 0 else g % 16384 * 2 ^ 32 + 2 ^ 52) + b2n (decide (own s sid 0x6100 3 ≠ 0)) * 2 ^ 47
    match insertEt w 0 s with
    | (.exists, s1) => (stExists, s1)
    | (.full, s1) => (stFull, s1)
    | (.ok _ _, s1) => (stOk, s1)
  else match etFind s ep with
    | none => (stNotFound, s)
    | some i => (stOk, etClear i s)

/-- ET_INSERT. -/
def execEtInsert (h : DHdr) (s : State) : Host.Outcome State Fault Refusal :=
  .next (dictWriteRow h 0x6100 0x05 [1] wrEtOp s)

/-- ET_DELETE. -/
def execEtDelete (h : DHdr) (s : State) : Host.Outcome State Fault Refusal :=
  .next (dictWriteRow h 0x6100 0x05 [2] wrEtOp s)

/-- 6200h.05: add or delete the session's prefix. -/
def wrLpmOp : WriteEff := fun sid v s =>
  let af := own s sid 0x6200 3
  let len := own s sid 0x6200 2
  let b := ownVal s sid 0x6200 1
  let pfx := if af = 0 then beAt b 12 4 else beAt b 0 16
  if leNat v = 1 then lpmAdd af len pfx (own s sid 0x6200 4) s else lpmDelete af len pfx s

/-- LPM_ADD. -/
def execLpmAdd (h : DHdr) (s : State) : Host.Outcome State Fault Refusal :=
  .next (dictWriteRow h 0x6200 0x05 [1] wrLpmOp s)

/-- LPM_DELETE. -/
def execLpmDelete (h : DHdr) (s : State) : Host.Outcome State Fault Refusal :=
  .next (dictWriteRow h 0x6200 0x05 [2] wrLpmOp s)

/-- 6210h.01: the LCFG of the session's family and length; its read. -/
def wrLpmLenCfg : WriteEff := fun sid v s =>
  lpmConfig (own s sid 0x6200 3) (own s sid 0x6200 2) (BitVec.ofNat 64 (leNat v)) s
def rdLpmLenCfg : ReadEff := fun sid s =>
  (stOk, natLE 8 (lcfgOf s (own s sid 0x6200 3) (own s sid 0x6200 2)), s)

/-- LPM_LEN_CFG. -/
def execLpmLenCfg (h : DHdr) (v : Bytes) (s : State) : Host.Outcome State Fault Refusal :=
  .next (dictWriteRow h 0x6210 0x01 v wrLpmLenCfg s)

/-- 6300h.03: the session's group takes its sixteen member bytes, member 0 first (R188, R194). -/
def wrNhg : WriteEff := fun sid _ s =>
  let b := ownVal s sid 0x6300 2
  (stOk, modFwd (fun x => { x with nhg := tmod {} x.nhg (own s sid 0x6300 1) (fun n =>
    { n with memb := membOf (leNat b) }) }) s)

/-- NHG_WRITE. -/
def execNhgWrite (h : DHdr) (v : Bytes) (s : State) : Host.Outcome State Fault Refusal :=
  .next (dictWriteRow h 0x6300 0x03 v wrNhg s)

end Sys2Proof.Machine
end

