-- ==== Sys2Proof/Machine/Hbm.lean ====
section
/-! DEFINITION. The HBM controllers: queues, command selection, page policy, tag cache, refresh, power-down, errors and
retirement (chapter 15). A write is in memory, and a read has its bytes, from the acceptance on: that is the order the
controller must show (R498). The queues say which commands go to the array, and when. -/

namespace Sys2Proof.Machine

/-- `n` HCLK have passed since `t`; an HCLK is 5/6 ns. -/
def hclkPassed (s : State) (t n : Nat) : Bool := decide (5 * n ≤ 6 * (now s - t))

/-- Address of a block at a place, in an order (R495). -/
def hbmAddr (order : Nat) (p : HbmPlace) : Nat :=
  let sid := p.bank / 16
  let bg := p.bank / 4 % 4
  let ba := p.bank % 4
  let ch := p.pc / 2
  64 * (match order with
    | 0 => ch + p.pc % 2 * 2 ^ 4 + p.stack * 2 ^ 5 + bg * 2 ^ 7 + p.col * 2 ^ 9 + ba * 2 ^ 13 + sid * 2 ^ 15 + p.row * 2 ^ 17
    | 1 => p.col + ch * 2 ^ 4 + p.pc % 2 * 2 ^ 8 + p.stack * 2 ^ 9 + bg * 2 ^ 11 + ba * 2 ^ 13 + sid * 2 ^ 15 + p.row * 2 ^ 17
    | 2 => p.stack * 704643072 + ch + p.pc % 2 * 2 ^ 4 + bg * 2 ^ 5 + p.col * 2 ^ 7 + ba * 2 ^ 11 + sid * 2 ^ 13 + p.row * 2 ^ 15
    | _ => (ch ^^^ bf p.row 4 4) + p.pc % 2 * 2 ^ 4 + p.stack * 2 ^ 5 + (bg ^^^ bf p.row 0 2) * 2 ^ 7 + p.col * 2 ^ 9 +
        (ba ^^^ bf p.row 2 2) * 2 ^ 13 + sid * 2 ^ 15 + p.row * 2 ^ 17)

/-- A field of 9402h as a stack has it: its window's own value, or the entry's (Table 15-7). -/
def hbmCfg (s : State) (k sub : Nat) : Nat := (tfind s.hbm.ownCfg (k * 8 + sub)).getD (cfg s 0x9402 sub)

/-! ### The tag cache (R493) -/

/-- The set of a line in its stack's tag cache (DESIGN CHOICE, log 90). -/
def tagSet (s : State) (p : HbmPlace) : List (Nat × Bool) := tget [] s.hbm.tc (2048 * p.stack + tagLine p % 2048)

/-- The line of a place is cached. -/
def tagHit (s : State) (p : HbmPlace) : Bool := (tagSet s p).any (fun e => decide (e.1 = tagLine p))

/-- A command to the array for a tag line: it takes no entry of the two queues (DESIGN CHOICE, log 90). -/
def tagQueue (stack line : Nat) (write : Bool) (s : State) : State :=
  modHbmPc (32 * stack + (tagPlace stack line).pc) (fun x => { x with side := x.side ++ [tagReq stack line write s] }) s

/-- Use a line of a stack's tag cache, with a write or not: a missed line is fetched, and a dirty line it replaces is
written back. -/
def tagTouch (p : HbmPlace) (wr : Bool) (s : State) : State :=
  let l := tagLine p
  let set := tagSet s p
  let old := set.find? (fun e => decide (e.1 = l))
  let d := match old with | some e => e.2 | none => false
  let all := (l, d || wr) :: set.filter (fun e => decide (e.1 ≠ l))
  let s1 := modHbm (fun h => { h with tc := tset [] h.tc (2048 * p.stack + l % 2048) (all.take 8) }) s
  if old.isSome then bumpHbm p.stack 0x07 s1
  else bumpHbm p.stack 0x08 (((all.drop 8).filter (·.2)).foldl (fun s e => tagQueue p.stack e.1 true s) (tagQueue p.stack l false s1))

/-- Dirty lines of a stack. -/
def tagDirty (s : State) (k : Nat) : Nat :=
  ((s.hbm.tc.filter (fun e => decide (e.1 / 2048 = k))).map (fun e => (e.2.filter (·.2)).length)).sum

/-! ### Requests (R497-R499) -/

/-- Bytes of a block, and the eight tags of its words. -/
def blockBytes (s : State) (a : Nat) : Bytes := memBytes s a 64
def blockTags (s : State) (a : Nat) : Bytes := (List.range 8).map (fun i => memTag s (a + 8 * i))

/-- The effect of an accepted write on data and tags: a tag that is written whole, else P 0 where all eight bytes are
written (Table 14-7). -/
def blockWrite (a : Nat) (mask : BitVec 64) (data : Bytes) (tsel : BitVec 8) (tags : Bytes) (s : State) : State :=
  let s1 := (List.range 64).foldl (fun s i => if mask.getLsbD i then memPut (a + i) (lget 0 data i) s else s) s
  (List.range 8).foldl (fun s i =>
    let w := a / 8 + i
    if tsel.getLsbD i then tagPut w (lget 0 tags i) s
    else if bf mask.toNat (8 * i) 8 = 255 then tagPut w (tagSetP false (memTag s (8 * w))) s
    else s) s1

/-- Bytes of a block that queued writes hold. -/
def queuedMask (x : HbmPc) (block : Nat) : BitVec 64 :=
  (x.wq.filter (fun q => decide (q.block = block))).foldl (fun m q => m ||| q.mask) 0

/-- Queue a write: it joins a queued entry of its block unless an older read of the block is still to be performed
(DESIGN CHOICE, log 89). -/
def queueWrite (q : HbmReq) (x : HbmPc) : HbmPc :=
  let held := x.rq.any (fun r => decide (r.block = q.block) && !r.issued)
  if !held && x.wq.any (fun w => decide (w.block = q.block)) then
    { x with wq := x.wq.map (fun w => if w.block = q.block then { w with mask := w.mask ||| q.mask } else w) }
  else { x with wq := x.wq ++ [q] }

/-- HBM_REQUEST_ACCEPT. -/
def execHbmRequestAccept (tag : Nat) (block : Fin 2818572288) (write : Bool) (mask : BitVec 64) (data : Bytes)
    (tsel : BitVec 8) (tags : Bytes) (prio : Fin 16) (s : State) : Host.Outcome State Fault Refusal :=
  let a := 64 * block.val
  let pl := hbmPlace s.hbm.order a
  let p := 32 * pl.stack + pl.pc
  let x := hbmPc s p
  if !hbmServes s p then .next s
  else if x.failed then .next (if write then s else hbmAnswer tag (zeros 64) (List.replicate 8 0x80) s)
  else if (if write then decide (48 ≤ x.wq.length) else decide (64 ≤ x.rq.length)) then .next s
  else
    let q : HbmReq := { tag := tag, block := a, place := pl, tagMiss := !tagHit s pl, write := write, mask := mask, data := [], tags := [], prio := prio.val,
                        since := now s, merged := false, forwarded := false, issued := false }
    let s1 := tagTouch pl write (pdExit p s)
    if write then
      .next (bumpHbm pl.stack 0x02 (modHbmPc p (queueWrite q) (blockWrite a mask data tsel tags s1)))
    else
      let held := queuedMask x a &&& mask
      let s2 := bumpHbm pl.stack 0x01 s1
      if mask ≠ 0 ∧ held = mask then
        .next (hbmAnswer tag (blockBytes s a) (blockTags s a) (bumpHbm pl.stack 0x05 s2))
      else
        let s3 := if held = 0 then s2 else bumpHbm pl.stack 0x06 s2
        .next (modHbmPc p (fun x => { x with rq := x.rq ++
          [{ q with data := blockBytes s a, tags := blockTags s a, merged := decide (held ≠ 0) }] }) s3)

/-! ### Command selection (R500, R502) -/

/-- Row hit of a request. -/
def hbmHit (x : HbmPc) (q : HbmReq) : Bool :=
  decide ((hbmBank x q.place.bank).row = some q.place.row)

/-- Requests that may be chosen: not issued, and a write not before an older read of its block. -/
def hbmReady (x : HbmPc) : List HbmReq :=
  (x.rq ++ x.wq ++ x.side).filter (fun q => !q.issued &&
    !(q.write && x.rq.any (fun r => decide (r.block = q.block) && !r.issued && decide (r.since ≤ q.since))))

/-- A request comes before another by steps 4 to 6. -/
def hbmBefore (x : HbmPc) (a b : HbmReq) : Bool :=
  let ha := hbmHit x a
  let hb := hbmHit x b
  decide (b.prio < a.prio) || (decide (a.prio = b.prio) && ((ha && !hb) || (decide (ha = hb) && decide (a.since < b.since))))

/-- The best of a list by a strict order; the first of equals. -/
def pickBest {α : Type} (lt : α → α → Bool) : List α → Option α
  | [] => none
  | a :: t => match pickBest lt t with
    | none => some a
    | some b => if lt b a then some b else some a

/-- The mode after step 3: write mode or read mode. -/
def hbmMode (s : State) (k : Nat) (x : HbmPc) : Bool :=
  let reads := (x.rq ++ x.side).any (fun q => !q.issued && !q.write)
  let n := x.wq.length + (x.side.filter (·.write)).length
  if x.wmode then !(decide (n = 0) || (reads && decide (n ≤ hbmCfg s k 0x04)))
  else decide (0 < n) && (decide (hbmCfg s k 0x03 ≤ n) || !reads)

/-- The next request by steps 2 to 6, and whether step 2 chose it. -/
def hbmChoose (s : State) (k : Nat) (x : HbmPc) : Option (HbmReq × Bool) :=
  let rs := hbmReady x
  match pickBest (fun a b => decide (a.since < b.since)) (rs.filter (fun q => hclkPassed s q.since (hbmCfg s k 0x05))) with
  | some q => some (q, true)
  | none =>
    let m := hbmMode s k x
    (pickBest (hbmBefore x) (rs.filter (fun q => decide (q.write = m)))).map (fun q => (q, false))

/-- The predictor of a bank when an access to `row` arrives (R502). -/
def HbmBank.predict (b : HbmBank) (row : Nat) : Nat :=
  match b.lastRow with
  | none => b.pred
  | some r => if r = row then min 3 (b.pred + 1) else b.pred - 1

/-- Mark or remove the request whose column command is issued. -/
def hbmTake (q : HbmReq) (x : HbmPc) : HbmPc :=
  if q ∈ x.side then { x with side := x.side.erase q }
  else if q.write then { x with wq := x.wq.erase q }
  else { x with rq := x.rq.map (fun r => if r = q then { r with issued := true } else r) }

/-- The next command of a request: close, open, or column. -/
def hbmServe (p : Nat) (q : HbmReq) (starved : Bool) (s : State) : State :=
  let pl := q.place
  let b := hbmBank (hbmPc s p) pl.bank
  match b.row with
  | none =>
    bumpHbm pl.stack 0x04 (hbmCmd p cAct pl.bank pl.row 0
      (modHbmBank p pl.bank (fun b => { b with row := some pl.row, used := now s, fresh := true }) s))
  | some r =>
    if r ≠ pl.row then hbmCmd p cPre pl.bank r 0 (modHbmBank p pl.bank (fun b => { b with row := none }) s)
    else
      let pr := b.predict pl.row
      let keep := decide (2 ≤ pr)
      let c := if q.write then (if keep then cWr else cWra) else (if keep then cRd else cRda)
      let s1 := if b.fresh then s else bumpHbm pl.stack 0x03 s
      let s2 := if starved then bumpHbm pl.stack 0x16 s1 else s1
      let row' := if keep then some r else none
      let s3 := modHbmBank p pl.bank (fun b => { b with
        row := row', pred := pr, lastRow := some pl.row, used := now s, fresh := false }) s2
      let s4 := modHbmPc p (fun x =>
        let y := hbmTake q x
        { y with idleAt := now s }) s3
      hbmCmd p c pl.bank pl.row pl.col s4

/-- The next command of a refresh of a bank: close its row, then refresh. -/
def hbmRefresh (p b : Nat) (s : State) : State :=
  match (hbmBank (hbmPc s p) b).row with
  | some r => hbmCmd p cPre b r 0 (modHbmBank p b (fun x => { x with row := none }) s)
  | none => bumpHbm (p / 32) 0x09 (hbmCmd p cRefPb b 0 0 (modHbmPc p (fun x => { x with refresh := tmod 0 x.refresh b (· - 1) }) s))

/-- HBM_COMMAND_ISSUE: the first rule of Table 15-6 that selects one; a refresh that is due and not yet postponed eight
times goes when no request does. -/
def execHbmCommandIssue (pc : Fin 128) (s : State) : Host.Outcome State Fault Refusal :=
  let p := pc.val
  let x := hbmPc s p
  if !hbmServes s p || x.failed then .next s
  else
    let s1 := if x.tries ≠ 0 ∧ hclkPassed s x.alertAt 1024 then modHbmPc p (fun x => { x with tries := 0 }) s else s
    match x.refresh.find? (fun e => decide (8 ≤ e.2)) with
    | some (b, _) => .next (hbmRefresh p b s1)
    | none =>
      let s2 := modHbmPc p (fun x => { x with wmode := hbmMode s1 (p / 32) x }) s1
      match hbmChoose s1 (p / 32) x with
      | some (q, st) => .next (hbmServe p q st s2)
      | none =>
        match x.refresh with
        | (b, _) :: _ => .next (hbmRefresh p b s2)
        | [] => .next s2

/-! ### Failure of a pseudo-channel (R510) -/

/-- The copy of a mirrored block on the other stack of its pair (Table 15-3). -/
def otherCopy (q : HbmReq) : HbmReq := { q with place := { q.place with stack := (q.place.stack + 2) % 4 }, issued := false }

/-- Read the other copy of a mirrored block, when its pseudo-channel serves. -/
def readOther (q : HbmReq) (s : State) : State :=
  let p := 32 * (otherCopy q).place.stack + q.place.pc
  if hbmServes s p && !(hbmPc s p).failed then queueMeta p (otherCopy q) s else s

/-- Fail a pseudo-channel: queued reads of data are answered with data 0 and tag 80h, those of mirrored metadata are served by
the other copy, queued writes and refreshes are gone. -/
def pcFail (p : Nat) (s : State) : State :=
  let x := hbmPc s p
  if x.failed then s
  else
    let s1 := modHbmPc p (fun x => { x with
      failed := true, rq := [], wq := [], side := [], refresh := [], retry := [], pd := false, tries := 0 }) s
    bumpHbm (p / 32) 0x0D (x.rq.foldl (fun s q =>
      if q.kind = 2 then readOther q s else hbmAnswer q.tag (zeros 64) (List.replicate 8 0x80) s) s1)

/-! ### Read returns (R509, R511) -/

/-- The 10b count of a pseudo-channel in its window (R511). -/
def sev2Note (p : Nat) (s : State) : State :=
  let x := hbmPc s p
  let ended := decide (x.sev2 = 0) || decide (expiryAt 2 (x.sev2At + cfg s 0x9403 0x02 * dlPeriod 2) x.sev2At ≤ fireAt s)
  bumpHbm (p / 32) 0x0F (modHbmPc p (fun x => if ended then { x with sev2 := 1, sev2At := now s } else { x with sev2 := x.sev2 + 1 }) s)

/-- Act on the severity of data burst `i` of a block: words 4i to 4i + 3. -/
def dataSeverity (p a i sev : Nat) (s : State) : State :=
  if sev = 1 then bumpHbm (p / 32) 0x0E s
  else if sev = 2 then sev2Note p s
  else if sev = 3 then
    (List.range 4).foldl (fun s j => bumpHbm (p / 32) 0x10 (poisonWord (a + 32 * i + 8 * j) 2 (p / 32) s)) s
  else s

/-- Act on the severity of the tag burst of a block: 32 tags, those of four column blocks of a row. -/
def tagSeverity (p a sev : Nat) (s : State) : State :=
  if sev = 1 then bumpHbm (p / 32) 0x0E s
  else if sev = 2 then sev2Note p s
  else if sev = 3 then
    let pl := hbmPlace s.hbm.order a
    (List.range 4).foldl (fun s j =>
      let b := hbmAddr s.hbm.order { pl with col := pl.col / 4 * 4 + j }
      (List.range 8).foldl (fun s i =>
        bumpHbm (p / 32) 0x10 (poisonLog (b + 8 * i) 2 (p / 32) (tagPut (b / 8 + i) 0x80 s))) s) s
  else s

/-- Tags a returned read carries after its severities. -/
def readTags (tags : Bytes) (sev0 sev1 sevTag : Nat) : Bytes :=
  (List.range 8).map (fun i =>
    let t := if sevTag = 3 then 0x80 else lget 0 tags i
    if (if i < 4 then sev0 else sev1) = 3 then tagSetP true t else t)

/-- Act on the severities of a burst of mirrored metadata: an uncorrectable one has the other copy read and both copies
rewritten (R511). -/
def metaSeverity (p : Nat) (q : HbmReq) (sev : Nat) (s : State) : State :=
  if sev = 1 then bumpHbm (p / 32) 0x0E s
  else if sev = 2 then sev2Note p s
  else if sev = 3 then
    let w := { q with write := true, tag := 0, issued := false }
    let p' := 32 * (otherCopy q).place.stack + q.place.pc
    bumpHbm (p / 32) 0x11 (queueMeta p w (queueMeta p' (otherCopy w) (readOther q s)))
  else s

/-- The line a read missed has been fetched, or it missed none: its fetch waits no longer (R493). -/
def tagHere (x : HbmPc) (q : HbmReq) : Bool :=
  decide (q.kind ≠ 0) || !x.side.any (fun r => !r.write && decide (r.block = 2 ^ 60 + tagLine q.place))

/-- HBM_READ_RETURN: the oldest read whose column command is issued leaves, and its tags are there (DESIGN CHOICE, log 91). The
severity of a tag burst is that of the line fetched with it. -/
def execHbmReadReturn (pc : Fin 128) (sev0 sev1 sevTag : Fin 4) (s : State) : Host.Outcome State Fault Refusal :=
  let p := pc.val
  match (hbmPc s p).rq.find? (fun q => q.issued && tagHere (hbmPc s p) q) with
  | none => .next s
  | some q =>
    let sevTag := if q.tagMiss then sevTag else 0
    let s1 := modHbmPc p (fun x => { x with rq := x.rq.erase q, idleAt := now s }) s
    if q.kind = 2 then .next (metaSeverity p q (if sev0 = 3 then 3 else if sev1 = 3 then 3 else max sev0.val sev1.val) s1) else
    let s2 := tagSeverity p q.block sevTag.val (dataSeverity p q.block 1 sev1.val (dataSeverity p q.block 0 sev0.val s1))
    .next (hbmAnswer q.tag q.data (readTags q.tags sev0.val sev1.val sevTag.val) s2)

/-! ### Timers, refresh, temperature, power-down -/

/-- IDLE_CLOSE (R503). -/
def execIdleClose (pc : Fin 128) (bank : Fin 64) (s : State) : Host.Outcome State Fault Refusal :=
  let b := hbmBank (hbmPc s pc.val) bank.val
  match b.row with
  | some r =>
    if hbmServes s pc.val && hclkPassed s b.used (hbmCfg s (pc.val / 32) 0x01) then
      .next (hbmCmd pc.val cPre bank.val r 0 (modHbmBank pc.val bank.val (fun b => { b with row := none }) s))
    else .next s
  | none => .next s

/-- REFRESH_DUE: the next bank in order has a refresh due; power-down ends (R504, R505). -/
def execRefreshDue (pc : Fin 128) (s : State) : Host.Outcome State Fault Refusal :=
  let p := pc.val
  if hbmServes s p && !(hbmPc s p).failed then
    .next (modHbmPc p (fun x => { x with refresh := tmod 0 x.refresh x.nextRef (fun n => min 8 (n + 1)), nextRef := (x.nextRef + 1) % 64 })
      (pdExit p s))
  else .next s

/-- HBM_TEMPERATURE_READ (R504). -/
def execHbmTemperatureRead (stack : Fin 4) (temp : BitVec 8) (s : State) : Host.Outcome State Fault Refusal :=
  let t := temp.toInt
  let r := if t ≤ 85 then 0 else if t ≤ 95 then 1 else 2
  let at2 := fireAt s / dlPeriod 2
  .next (if s.clk.frozen.isSome ∨ at2 < tget 0 s.hbm.tempAt stack.val then s
    else modHbm (fun h => { h with
      temp := tset 0 h.temp stack.val t, rate := tset 0 h.rate stack.val r, tempAt := tset 0 h.tempAt stack.val (at2 + 1) }) s)

/-- POWER_DOWN_ENTRY (R505). -/
def execPowerDownEntry (pc : Fin 128) (s : State) : Host.Outcome State Fault Refusal :=
  let p := pc.val
  let x := hbmPc s p
  if hbmServes s p && !x.failed && !x.pd && x.rq.isEmpty && x.wq.isEmpty && x.side.isEmpty && x.refresh.isEmpty &&
      hclkPassed s x.idleAt (hbmCfg s (p / 32) 0x02) then
    .next (bumpHbm (p / 32) 0x12 (hbmCmd p cPdEnter 0 0 0 (modHbmPc p (fun x => { x with pd := true }) s)))
  else .next s

/-- Reissue a command of the retry buffer, opening its row again where a column command needs it. -/
def hbmReissue (p : Nat) (c : Nat × Nat × Nat × Nat) (s : State) : State :=
  let b := c.2.1
  let row := c.2.2.1
  let st := p / 32
  let k := p % 32
  if c.1 = cPre then emit (.hbm st k cPre b row 0) (modHbmBank p b (fun x => { x with row := none }) s)
  else if c.1 = cAct then emit (.hbm st k cAct b row 0) (modHbmBank p b (fun x => { x with row := some row }) s)
  else if cRd ≤ c.1 ∧ c.1 ≤ cWra then
    let s1 := if (hbmBank (hbmPc s p) b).row = some row then s else emit (.hbm st k cAct b row 0) s
    let shut := decide (c.1 = cRda) || decide (c.1 = cWra)
    emit (.hbm st k c.1 b row c.2.2.2) (modHbmBank p b (fun x => { x with row := if shut then none else some row }) s1)
  else emit (.hbm st k c.1 b row c.2.2.2) s

/-- PARITY_ALERT (R509). -/
def execParityAlert (pc : Fin 128) (late : Fin 33) (s : State) : Host.Outcome State Fault Refusal :=
  let p := pc.val
  let x := hbmPc s p
  if !hbmServes s p || x.failed then .next s
  else
    let s1 := bumpHbm (p / 32) 0x0B s
    let s2 := (x.bank.filter (fun e => e.2.row.isSome)).foldl (fun s e =>
      emit (.hbm (p / 32) (p % 32) cPre e.1 (e.2.row.getD 0) 0) (modHbmBank p e.1 (fun b => { b with row := none }) s)) s1
    let n := x.tries + 1
    let s3 := modHbmPc p (fun x => { x with tries := n, alertAt := now s }) s2
    if 3 < n then .next (pcFail p s3)
    else .next (bumpHbm (p / 32) 0x0C ((x.retry.drop (x.retry.length - late.val)).foldl (fun s c => hbmReissue p c s) s3))

/-- 9405h.02 fails a pseudo-channel (R510). -/
def wrRetirePc : WriteEff := fun _ v s => (stOk, pcFail (leNat v) s)

/-- RETIRE_PC. -/
def execRetirePc (h : DHdr) (v : Bytes) (s : State) : Host.Outcome State Fault Refusal :=
  .next (dictWriteRow h 0x9405 0x02 v wrRetirePc s)

/-! ### Lane repair (R512) -/

/-- Spare lanes left in the channel of a repair; the list holds at most 64. -/
def spareLeft (s : State) (v : Nat) : Bool :=
  decide ((s.hbm.repairs.filter (fun r => decide (r.toNat / 1024 = v / 1024))).length < Config.hbmSpares (v / 1024)) &&
    decide (s.hbm.repairs.length < 64)

/-- Repair a lane: the rows of its channel are closed and the repair is recorded. -/
def laneFix (v : Nat) (s : State) : State :=
  let p := v / 16384 * 32 + v / 1024 % 16 * 2
  let shut := fun q (s : State) => ((hbmPc s q).bank.filter (fun e => e.2.row.isSome)).foldl (fun s e =>
    hbmCmd q cPre e.1 (e.2.row.getD 0) 0 (modHbmBank q e.1 (fun b => { b with row := none }) s)) s
  bumpHbm (v / 16384) 0x14 (modHbm (fun h => { h with repairs := h.repairs ++ [BitVec.ofNat 16 v] }) (shut (p + 1) (shut p s)))

/-- 9406h.01 repairs a lane, or answers NO_SPARE. -/
def wrLaneRepair : WriteEff := fun _ v s => if spareLeft s (leNat v) then (stOk, laneFix (leNat v) s) else (stNoSpare, s)

/-- LANE_REPAIR: the write, or the controller's own repair of a failed lane, which fails both pseudo-channels of the
channel when no spare is left. -/
def execLaneRepair (h : Option DHdr) (v : Bytes) (s : State) : Host.Outcome State Fault Refusal :=
  .next (match h with
    | some h => dictWriteRow h 0x9406 0x01 v wrLaneRepair s
    | none =>
      let x := leNat v % 65536
      if spareLeft s x then laneFix x s
      else
        let p := x / 16384 * 32 + x / 1024 % 16 * 2
        pcFail (p + 1) (pcFail p s))

/-! ### Retirement (R513) -/

/-- A class 2 pool has a buffer in a stack. -/
def poolOnStack (s : State) (x : Pool) (k : Nat) : Bool :=
  decide (x.cls = 2) && (decide (s.hbm.order ≠ 2) || overlap x.base.toNat x.bytes (k * 45097156608) 45097156608)

/-- 9405h.01 retires a stack. -/
def wrRetireStack : WriteEff := fun _ v s =>
  let k := leNat v
  if s.hbm.retire ≠ [] then (stInUse, s)
  else
    let s1 := modHbm (fun h => { h with retire := tset 0 h.retire k 1, state := tset 0 h.state k 4, moved := false }) s
    let ps := (s.bufs.pool.filter (fun e => decide (e.2.state = 1) && poolOnStack s e.2 k)).map (·.1)
    (stOk, ps.foldl (fun s p => poolDrain p s) s1)

/-- RETIRE_STACK. -/
def execRetireStack (h : DHdr) (v : Bytes) (s : State) : Host.Outcome State Fault Refusal :=
  .next (dictWriteRow h 0x9405 0x01 v wrRetireStack s)

/-- METADATA_MOVE_COMPLETE (R513 steps 2 to 4). -/
def execMetadataMoveComplete (s : State) : Host.Outcome State Fault Refusal :=
  if s.hbm.retire.any (fun e => decide (e.2 = 1)) then .next (retireCheck (modHbm (fun h => { h with moved := true }) s))
  else .next s

end Sys2Proof.Machine
end

