-- ==== Sys2Proof/Machine/HostQ.lean ====
section
/-! DEFINITION. Host functions and their queues: doorbells, fetch, completions, coalescing and MSI-X (R518, R521-R534). -/

namespace Sys2Proof.Machine

/-! ### Functions and links (R518) -/

/-- Port `p` runs as 2 x x8. -/
def bifurcated (s : State) (p : Nat) : Bool := bit (cfg s 0x4100 1) p

/-- The function exists on its port (Table 16-2). A x8 link has at most 31 VFs whatever 4100h.04 says, as its range for such a
link is 0-31 and one value serves all links (DESIGN CHOICE, log 162). -/
def funcExists (s : State) (f : Nat) : Bool :=
  let n := f % 128
  let vf := cfg s 0x4100 4
  if bifurcated s (f / 128) then decide (n < 96) && decide (n % 64 ≤ min vf 31) else decide (n ≤ min vf 64)

/-- The link of a function: 2 * port + half. -/
def linkOf (s : State) (f : Nat) : Nat := 2 * (f / 128) + b2n (bifurcated s (f / 128) && decide (64 ≤ f % 128))

def linkSt (s : State) (k : Nat) : HLink := tget {} s.host.link k
def modLink (k : Nat) (g : HLink → HLink) (s : State) : State := modHost (fun h => { h with link := tmod {} h.link k g }) s

/-- Entry 44pfh of a function. -/
def quota (s : State) (f sub : Nat) : Nat := cfg s (0x4400 + 0x100 * (f / 128) + f % 128) sub

/-- Count on the port of a function (C0E0h + p). -/
def bumpPort (f sub : Nat) (s : State) : State := bump (0xC0E0 + f / 128) sub s

/-- A request to a function that does not exist is an Unsupported Request (R517); else `k`. A frozen device returns no
flow-control credits: it takes no request, which comes again after the thaw (R650). -/
def toFunc (f : Nat) (k : State → State) (s : State) : State :=
  if !clocked s then s else if funcExists s f then k s else bumpPort f 0x0C s

/-! ### Command queues (R523-R528) -/

/-- Entries of a ring. -/
def CmQ.size (x : CmQ) : Nat := 2 ^ x.log2
def CpQ.size (x : CpQ) : Nat := 2 ^ x.log2

/-- The completion queue has no free entry. -/
def CpQ.full (x : CpQ) : Bool := decide (x.size ≤ x.tail - x.head)

/-- The PASID under which a command queue reaches its function's memory (Table 16-11). -/
def cmqPasid (s : State) (x : CmQ) : Nat :=
  if x.pv then ((tfind s.host.pslot (64 * x.owner + x.pslot)).map (·.1)).getD badPasid else noPasid

/-- A command queue enters ERROR (R527). -/
def queueError (q st : Nat) (s : State) : State :=
  let x := cmqOf s q
  postCpl x.cpq [cplWord0 0 st false q, 0, 0, 0] (bumpPort x.owner 0x05
    (modFunc x.owner (fun f => { f with errq := BitVec.ofNat 16 q, errcode := BitVec.ofNat 8 st })
      (modCmq q (fun y => { y with state := 2 }) s)))

/-- A doorbell error: the spec gives it no status code, so the code is a free value (R527, DESIGN CHOICE, log 1). -/
def doorbellError (q : Nat) (s : State) : State := queueError q (freeNat s % 256) (drawn s)

/-- A write of `t` to TAIL (R525, R527). -/
def tailWrite (q t : Nat) (s : State) : State :=
  let x := cmqOf s q
  let adv := (t + x.size - x.tail % x.size) % x.size
  if x.size ≤ t ∨ x.head + x.size < x.tail + adv then doorbellError q s
  else modCmq q (fun y => { y with tail := y.tail + adv }) s

/-- A doorbell of a function for a queue: discarded and counted unless the function owns the queue and it is ACTIVE
(R521, R524). -/
def doorbell (f q : Nat) (k : State → State) (s : State) : State :=
  toFunc f (fun s => if (cmqOf s q).owner = f ∧ (cmqOf s q).state = 1 then k s else bumpPort f 0x04 s) s

/-- DOORBELL_TAIL (DESIGN CHOICE, log 120). -/
def execDoorbellTail (func : Fin 256) (q : Fin 4096) (tail : BitVec 32) (s : State) : Host.Outcome State Fault Refusal :=
  .next (doorbell func.val q.val (tailWrite q.val tail.toNat) s)

/-- DOORBELL_INLINE: the entry takes the ring position at TAIL, whose slot is never read (R525). -/
def execDoorbellInline (func : Fin 256) (q : Fin 4096) (whole : Bool) (entry : Bytes) (s : State) :
    Host.Outcome State Fault Refusal :=
  .next (doorbell func.val q.val (fun s =>
    let x := cmqOf s q.val
    if !whole || decide (entry.length ≠ 64) || decide (x.head + x.size < x.tail + 1) then doorbellError q.val s
    else modCmq q.val (fun y => { y with inline := tput y.inline y.tail entry, tail := y.tail + 1 }) s) s)

/-- Completions held on a port (R531). -/
def heldOnPort (s : State) (p : Nat) : Nat :=
  ((((s.host.posts.map (·.cpq)).eraseDups).filter (fun j => decide ((cpqOf s j).owner / 128 = p))).map (cplHeld s)).foldl (· + ·) 0

/-- Requester number of a command queue in the translation unit. -/
def xcmdId (q : Nat) : Nat := 3 + 8 * q

/-- The port may fetch from a queue: Dawn-4 has ended (R636), and it is ACTIVE with ready entries, room for completions (R531), no translation of its own
outstanding. -/
def mayFetch (s : State) (port q : Nat) : Bool :=
  let x := cmqOf s q
  awake s && decide (x.state = 1) && decide (x.owner / 128 = port) && decide (x.head < x.tail) &&
    !(decide (4096 ≤ heldOnPort s port) && (cpqOf s x.cpq).full) &&
    !s.host.xl.any (fun r => decide (.other (xcmdId q) ∈ r.reqs))

/-- The queue the port serves: highest QPRIO first, from the pointer on among equals (R528). -/
def pickQueue (s : State) (port : Nat) : Option Nat :=
  let ptr := tget 0 s.host.ptr port
  let rank := fun (q : Nat) => (15 - (cmqOf s q).qprio) * 4096 + (q + 4096 - ptr) % 4096
  (s.host.cmq.filter (fun e => mayFetch s port e.1)).foldl (fun best e =>
    match best with
    | none => some e.1
    | some b => if rank e.1 < rank b then some e.1 else some b) none

/-- Ready entries that one host read takes: up to eight, none of them INLINE, within the ring and one 4 KiB page
(DESIGN CHOICE, log 69). -/
def fetchRun (x : CmQ) : Nat :=
  let ok := fun (i : Nat) =>
    decide (x.head + i < x.tail) && (tfind x.inline (x.head + i)).isNone && decide (x.head % x.size + i < x.size) &&
      decide ((x.head % x.size * 64) % 4096 + 64 * (i + 1) ≤ 4096)
  ((List.range 8).takeWhile ok).length

/-- The eight words of an entry. -/
def entryWords (e : Bytes) : List W64 := (List.range 8).map (fun i => BitVec.ofNat 64 (leNat (sliceZ e (8 * i) 8)))

/-- Word `i` of a command. -/
def HCmd.word (c : HCmd) (i : Nat) : Nat := (c.words.getD i 0).toNat
/-- OPC of a command. -/
def HCmd.opc (c : HCmd) : Nat := bf (c.word 0) 0 8

/-- Items in the store: those that no engine context holds, a FAULTED one among them (R543, R544). -/
def storeLoad (s : State) : Nat := (s.host.items.filter (fun e => e.2.engine.isNone)).length

/-- The item store has room for one more DMA command beside those accepted and not yet started (R543). -/
def itemRoom (s : State) : Bool :=
  decide (storeLoad s + (s.host.cmds.filter (fun e => decide (e.2.opc = 1) && !e.2.started)).length < 8192)

/-- Accept entries into the host ledger class, one ring position each; a DMA entry waits while the item store is full
(R526, R543). -/
def acceptEntries (q : Nat) : List Bytes → State → State
  | [], s => s
  | e :: es, s =>
    let x := cmqOf s q
    let c : HCmd := { q := q, words := entryWords e, started := false, pos := x.head, link := none }
    if c.opc = 1 ∧ itemRoom s = false then s
    else
      acceptEntries q es (bumpPort x.owner 0x01 (ledAccept 5
        (modCmq q (fun y => { y with head := y.head + 1, inline := tdel y.inline y.head })
          (modHost (fun h => { h with cmds := tput h.cmds h.nextCmd c, nextCmd := h.nextCmd + 1 }) s))))

/-! ### Commands at the head of a queue (R526, R529) -/

/-- OPC codes of Table 16-6. -/
def opcKnown (o : Nat) : Bool := decide (o ≤ 6) || (decide (0x80 ≤ o) && decide (o ≤ 0x86))

/-- The bits of operand word `i` that Table 16-6 names for an OPC; the others are reserved. The places the table leaves
open are those of the registers it refers to (DESIGN CHOICE, log 64). -/
def opcMask (o i : Nat) : Nat :=
  let all := 2 ^ 64 - 1
  let page := all - 0xFFF
  match o, i with
  | 1, 1 => 2 ^ 48 - 1
  | 1, 2 => 2 ^ 48 - 1
  | 1, 3 => 0x3F7FFFFFFF
  | 1, 4 => 0x1FFFFF
  | 1, 5 => 0x1FFF01FFFFFF
  | 1, 6 => all
  | 1, 7 => all
  | 2, 1 => 2 ^ 48 - 1
  | 2, 2 => 2 ^ 48 - 1
  | 2, 3 => all
  | 2, 4 => 2 ^ 56 - 1
  | 2, 5 => all
  | 2, 6 => all
  | 3, 6 => 2 ^ 56 - 1
  | 3, 7 => 0x3FFFF
  | 3, _ => all
  | 4, 1 => 0x3F
  | 4, 2 => all
  | 4, 3 => all
  | 5, 1 => 0xFFFFFFF
  | 5, 2 => 2 ^ 48 - 1
  | 5, 3 => all - 0xFFFFFFFF
  | 5, 4 => all
  | 6, 1 => 0xFFFF
  | 6, 2 => all
  | 6, 3 => all
  | 6, 4 => all
  | 6, 5 => all
  | 0x80, 1 => 0xFFF
  | 0x80, 2 => page
  | 0x80, 3 => 0xFFFFFFFF1FFFFFFF
  | 0x81, 1 => 0xFFF
  | 0x82, 1 => 0xFFF
  | 0x82, 2 => all
  | 0x82, 3 => 2 ^ 49 - 1
  | 0x83, 1 => 0xFFF
  | 0x84, 1 => 0xFFFFF3F
  | 0x85, 1 => 0x3F
  | 0x86, 1 => 0x3FF
  | 0x86, 2 => 0x1FFF
  | 0x86, 3 => page
  | 0x86, 4 => 0x1FFFFFF
  | _, _ => 0

/-- ZOP of a MSG. -/
def HCmd.zop (c : HCmd) : Nat := bf (c.word 1) 32 4
/-- OP of a COUNTER. -/
def HCmd.cop (c : HCmd) : Nat := bf (c.word 1) 24 3

/-- The status with which a command ends before it starts: BAD_COMMAND 1, BAD_QUEUE 2; 0 none (R529). -/
def cmdStatus (s : State) (c : HCmd) : Nat :=
  let x := cmqOf s c.q
  let o := c.opc
  if !opcKnown o || !bit (quota s x.owner 4) (min o 7) || decide (bf (c.word 0) 10 22 ≠ 0) ||
      (List.range 7).any (fun i => decide (c.word (i + 1) &&& (2 ^ 64 - 1 - opcMask o (i + 1)) ≠ 0)) ||
      (decide (o = 2) && !decide (c.zop ∈ [1, 2, 4, 6, 7])) || (decide (o = 5) && !decide (c.cop ∈ [3, 4])) then 1
  else if 0x80 ≤ o ∧ x.admin = false then 2
  else 0

/-- The next command of a queue that may start: commands start in queue order, and one with FENCE only when every earlier
command of its queue has completed (R526). -/
def nextCmd (s : State) (q : Nat) : Option (Nat × HCmd) :=
  match s.host.cmds.find? (fun e => decide (e.2.q = q) && !e.2.started) with
  | some (id, c) =>
    if bit (c.word 0) 8 && s.host.cmds.any (fun e => decide (e.2.q = q) && decide (e.1 < id)) then none else some (id, c)
  | none => none

/-- End the commands at the head of a queue that R529 refuses. -/
def hostAdvance : Nat → Nat → State → State
  | 0, _, s => s
  | n + 1, q, s =>
    match nextCmd s q with
    | some (id, c) => if cmdStatus s c = 0 then s else hostAdvance n q (endCmd id (cmdStatus s c) 0 false 0 0 0 s)
    | none => s

/-- Refused commands leave the head of the queue. -/
def advanceQueue (q : Nat) (s : State) : State := hostAdvance s.host.cmds.length q s

/-- Run the next command of a queue if `want` names it: it starts, and `body` gives its effect. -/
def runCmd (q : Nat) (want : HCmd → Bool) (body : Nat → HCmd → State → State) (s : State) : State :=
  let s1 := advanceQueue q s
  match nextCmd s1 q with
  | some (id, c) =>
    if want c && decide (cmdStatus s1 c = 0) then
      advanceQueue q (body id c (modHost (fun h => { h with cmds := tupd h.cmds id (fun c => { c with started := true }) }) s1))
    else s1
  | none => s1

/-- CMD_FETCH: the port serves one queue; an INLINE entry is taken as it is, others are read from the host. A denied
translation or an error completion puts the queue in ERROR (R526-R528, R540). -/
def execCmdFetch (port : Fin 2) (data : Bytes) (err : Bool) (s : State) : Host.Outcome State Fault Refusal :=
  .next (match pickQueue s port.val with
    | none => s
    | some q =>
      let x := cmqOf s q
      let served := modHost (fun h => { h with ptr := tset 0 h.ptr port.val ((q + 1) % 4096) }) s
      match tfind x.inline x.head with
      | some e => advanceQueue q (acceptEntries q [e] served)
      | none =>
        let n := fetchRun x
        let pasid := cmqPasid s x
        let p : HPlace := { func := x.owner, pasid := if pasid = noPasid then none else some pasid,
                            addr := x.base.toNat + 64 * (x.head % x.size) }
        if xcmdId q ∈ s.host.denied then
          queueError q 5 (modHost (fun h => { h with denied := h.denied.filter (· ≠ xcmdId q) }) served)
        else if pasid = badPasid then queueError q 5 served
        else match translate s p false with
          | none => requestXlate p false (.other (xcmdId q)) s
          | some phys =>
            let s1 := atcTouch p false (emit (.hostRead (x.owner / 128) (x.owner % 128) (sentPasid s p) phys (64 * n) q) served)
            if err then queueError q (if (funcOf s x.owner).ats then 7 else 5) s1
            else advanceQueue q (acceptEntries q ((List.range n).map (fun i => sliceZ data (64 * i) 64)) s1))

/-! ### The admin pair (Table 16-4) -/

/-- A command queue becomes ACTIVE: a refusal that answered an earlier use of its number is forgotten, and on a CXL link with
DBM its TAIL line is read and held (R524, R533). -/
def openCmq (n : Nat) (y : CmQ) (s : State) : State :=
  let s1 := modCmq n (fun _ => y) (modHost (fun h => { h with denied := h.denied.filter (· ≠ xcmdId n) }) s)
  if (cpqOf s y.cpq).dbm && (linkSt s (linkOf s y.owner)).cxl then
    emit (.hostMsg (y.owner / 128) "RDSHARED" (y.owner % 128) [y.base.toNat]) s1
  else s1

/-- A write of EN and the other fields of register 18h: 1 creates the admin pair, 0 deletes it. -/
def adminWrite (f v : Nat) (s : State) : State :=
  let old := funcOf s f
  let s1 := modFunc f (fun x => { x with log := BitVec.ofNat 8 v, en := bit v 8, vec := BitVec.ofNat 11 (v / 2 ^ 10) }) s
  let n := (Config.adminQueue f).toNat
  if bit v 8 && !old.en then
    if 1 ≤ bf v 0 8 ∧ bf v 0 8 ≤ 12 ∧ (cmqOf s n).state = 0 ∧ ((cpqOf s n).en = false ∨ (cpqOf s n).owner = f) then
      let cm : CmQ := { base := old.cmdBase, log2 := bf v 0 8, cpq := n, admin := true, owner := f, state := 1 }
      let cp : CpQ := { base := old.cplBase, log2 := bf v 0 8, vec := bf v 10 11, en := true, owner := f }
      modFunc f (fun x => { x with pair := some (n, n) }) (openCmq n cm (modCpq n (fun _ => cp) s1))
    else s1
  else if !bit v 8 && old.en then
    match old.pair with
    | none => s1
    | some (c, j) =>
      let s2 := modFunc f (fun x => { x with pair := none }) s1
      if s.host.cmds.any (fun e => decide (e.2.q = c)) then modCmq c (fun y => { y with state := 3, delBy := none }) s2
      else modCpq j (fun y => { y with en := false }) (modCmq c (fun y => { y with state := 0 }) s2)
  else s1

/-- ADMIN_QUEUE_ENABLE: a write of a function register of BAR0 (Table 16-4); the read-only ones ignore it. -/
def execAdminQueueEnable (func : Fin 256) (reg : Fin 8) (v : BitVec 64) (s : State) : Host.Outcome State Fault Refusal :=
  let f := func.val
  .next (toFunc f (fun s =>
    match reg.val with
    | 1 => modFunc f (fun x => { x with cmdBase := BitVec.ofNat 64 (v.toNat / 4096 * 4096) }) s
    | 2 => modFunc f (fun x => { x with cplBase := BitVec.ofNat 64 (v.toNat / 4096 * 4096) }) s
    | 3 => adminWrite f v.toNat s
    | 5 => modFunc f (fun x => { x with lockCpq := BitVec.ofNat 12 v.toNat, lockEn := v.getLsbD 12 }) s
    | _ => s) s)

/-! ### Completion queues (R530, R531, R533, R534) -/

/-- Signal a vector of a function: the message is sent, or its pending bit is set when it is masked. -/
def signalVec (f v : Nat) (s : State) : State :=
  let k := f * 2048 + v
  if tget true s.host.masked k then modHost (fun h => { h with pend := tset false h.pend k true }) s
  else bumpPort f 0x07 (emit (.msix (f / 128) (f % 128) v) s)

/-- Requester number of a completion queue in the translation unit. -/
def xcplId (j : Nat) : Nat := 2 + 8 * j

/-- The entry as written: PHASE is 1 on the first pass through the ring and inverts on each later one. -/
def cplBytes (x : CpQ) (words : List W64) : Bytes :=
  let ph := b2n (decide (x.tail / x.size % 2 = 0))
  ((List.range 4).map (fun i =>
    let w := (words.getD i 0).toNat
    natLE 8 (if i = 0 then bput w 40 1 ph else w))).flatten

/-- COMPLETION_WRITE: the oldest completion of a queue is written once it has room; its command ends in the ledger, and the
count may signal the vector. A
completion whose translation is denied waits and asks again: completions are never dropped (DESIGN CHOICE, log 65). -/
def execCompletionWrite (j : Fin 4096) (s : State) : Host.Outcome State Fault Refusal :=
  let j := j.val
  let x := cpqOf s j
  .next (match s.host.posts.find? (fun c => decide (c.cpq = j)) with
    | none => s
    | some c =>
      if !x.en || x.full then s
      else
        let p : HPlace := { func := x.owner, pasid := none, addr := x.base.toNat + 32 * (x.tail % x.size) }
        match translate s p true with
        | none => requestXlate p true (.other (xcplId j)) (modHost (fun h => { h with denied := h.denied.filter (· ≠ xcplId j) }) s)
        | some phys =>
          let data := cplBytes x c.words
          let s1 := if x.dbm && (linkSt s (linkOf s x.owner)).cxl then
              emit (.hostMsg (x.owner / 128) "ITOMWR" (x.owner % 128) (phys :: data.map (·.toNat))) s
            else hostPut p data s
          let s1a := match c.led with | some (r, item) => endHostItem r item s1 | none => s1
          let s2 := atcTouch p true (modHost (fun h => { h with posts := h.posts.erase c }) s1a)
          if x.n ≤ x.count + 1 then
            signalVec x.owner x.vec (modCpq j (fun y => { y with tail := y.tail + 1, count := 0, since := none }) s2)
          else
            modCpq j (fun y => { y with
              tail := y.tail + 1, count := y.count + 1,
              since := if y.count = 0 ∧ y.t ≠ 0 then some (now s) else y.since }) s2)

/-- CQ_HEAD_WRITE: the host frees entries up to the one it names; a value outside the written part of the ring frees
none. -/
def execCqHeadWrite (func : Fin 256) (j : Fin 4096) (head : BitVec 32) (s : State) : Host.Outcome State Fault Refusal :=
  .next (toFunc func.val (fun s =>
    let x := cpqOf s j.val
    if x.en && decide (x.owner = func.val) then
      let adv := (head.toNat + x.size - x.head % x.size) % x.size
      if head.toNat < x.size ∧ x.head + adv ≤ x.tail then modCpq j.val (fun y => { y with head := y.head + adv }) s else s
    else bumpPort func.val 0x04 s) s)

/-- The boundary at which the timer of a completion queue expires (R534). -/
def coalesceDue (x : CpQ) : Option Nat := x.since.map (fun t => expiryAt 0 (t + 64 * x.t) t)

/-- COALESCE_TIMER: the timers of the earliest boundary reached expire; one message for each vector (R534). -/
def execCoalesceTimer (s : State) : Host.Outcome State Fault Refusal :=
  let due := s.host.cpq.filterMap (fun e => (coalesceDue e.2).bind (fun b => if reached b s then some (b, e.1) else none))
  match due with
  | [] => .next s
  | d :: ds =>
    let b := ds.foldl (fun m e => min m e.1) d.1
    let qs := (due.filter (fun e => decide (e.1 = b))).map (·.2)
    let vecs := (qs.map (fun j => ((cpqOf s j).owner, (cpqOf s j).vec))).eraseDups
    let s1 := qs.foldl (fun s j => modCpq j (fun y => { y with count := 0, since := none }) s) s
    .next (vecs.foldl (fun s v => signalVec v.1 v.2 s) s1)

/-- MSIX_UNMASK: a write of a vector's mask bit; a pending message is sent when it is unmasked (R534). -/
def execMsixUnmask (func : Fin 256) (vec : Fin 2048) (mask : Bool) (s : State) : Host.Outcome State Fault Refusal :=
  let k := func.val * 2048 + vec.val
  .next (toFunc func.val (fun s =>
    if quota s func.val 2 ≤ vec.val then s
    else
      let s1 := modHost (fun h => { h with masked := tset true h.masked k mask }) s
      if !mask && tget false s.host.pend k then
        signalVec func.val vec.val (modHost (fun h => { h with pend := tset false h.pend k false }) s1)
      else s1) s)

/-- CXL_SNOOP: the first 4 bytes of the line read again are a TAIL write (R533). -/
def execCxlSnoop (q : Fin 4096) (tail : BitVec 32) (s : State) : Host.Outcome State Fault Refusal :=
  let x := cmqOf s q.val
  .next (if (cpqOf s x.cpq).dbm && (linkSt s (linkOf s x.owner)).cxl && decide (x.state ≠ 0) then
      doorbell x.owner q.val (tailWrite q.val tail.toNat)
        (emit (.hostMsg (x.owner / 128) "RDSHARED" (x.owner % 128) [x.base.toNat]) s)
    else s)

end Sys2Proof.Machine
end

