-- ==== Sys2Proof/Machine/XSum.lean ====
section
/-! DEFINITION. Exact summation: conversion of elements, rounding, save image and compact form (R444-R452). -/

namespace Sys2Proof.Machine

/-- The signed value of a slot's V. -/
def XSlot.int (x : XSlot) : Int := x.v.toInt

/-- Bytes of an element: FP64, FP32, BF16. -/
def xsSize (typ : Nat) : Nat := if typ = 0 then 8 else if typ = 1 then 4 else 2

/-- An element as flags (NAN 1, PINF 2, NINF 4) and the integer of Table 13-4 (R445, R446). -/
def xsElem (typ x : Nat) : Nat × Int :=
  let fb := if typ = 0 then 52 else if typ = 1 then 23 else 7
  let eb := if typ = 0 then 11 else 8
  let f := bf x 0 fb
  let e := bf x fb eb
  let neg := bit x (fb + eb)
  let off := if typ = 0 then 0 else if typ = 1 then 925 else 941
  if e = 2 ^ eb - 1 then (if f ≠ 0 then 1 else if neg then 4 else 2, 0)
  else
    let m := if e = 0 then f * 2 ^ off else (f + 2 ^ fb) * 2 ^ (e - 1 + off)
    (0, if neg then -(m : Int) else (m : Int))

/-- Fold flags and an exact sum into a slot: V modulo 2^2232, OVF when the exact result lies outside (R446, R453;
DESIGN CHOICE, log 37). -/
def XSlot.fold (flags : Nat) (sum : Int) (x : XSlot) : XSlot :=
  let r := x.int + sum
  let ovf := decide (r < -(2 ^ 2231)) || decide (2 ^ 2231 ≤ r)
  { x with v := BitVec.ofInt 2232 r, flags := x.flags ||| BitVec.ofNat 5 flags ||| (if ovf then 8 else 0) }

/-- The flags and sum of a list of elements of `size` bytes. -/
def xsElems (typ : Nat) : Nat → Bytes → Nat × Int
  | 0, _ => (0, 0)
  | n + 1, bs =>
    let e := xsElem typ (leNat (bs.take (xsSize typ)))
    let r := xsElems typ n (bs.drop (xsSize typ))
    (e.1 ||| r.1, e.2 + r.2)

/-- One rounding of an integer in units of 2^-1074 to FP64, nearest with ties to even (R448). -/
def rndInt (v : Int) : Nat :=
  let mag := v.natAbs
  let sgn := if v < 0 then 2 ^ 63 else 0
  if mag = 0 then 0
  else
    let sh := Nat.log2 mag - 52
    let q := mag / 2 ^ sh
    let rest := mag % 2 ^ sh
    let up := decide (0 < sh) && bit rest (sh - 1) && (decide (rest % 2 ^ (sh - 1) ≠ 0) || bit q 0)
    let enc := sh * 2 ^ 52 + q + b2n up
    sgn + min enc (0x7FF * 2 ^ 52)

/-- XSUM.RND (R448). -/
def xsRnd (x : XSlot) : Nat :=
  let f := x.flags.toNat
  if bit f 0 || bit f 4 || bit f 3 || (bit f 1 && bit f 2) then 0x7FF8000000000000
  else if bit f 1 then 0x7FF0000000000000
  else if bit f 2 then 0xFFF0000000000000
  else rndInt x.int

/-- The lo result of XSUM.RND2: the residue rounded once, +0 when hi is not finite (R449). -/
def xsLo (x : XSlot) : Nat :=
  let hi := xsRnd x
  if bf hi 52 11 = 0x7FF then 0 else rndInt (x.int - (xsElem 0 hi).2)

/-- The flags word of XSUM.FLAGS. -/
def xsFlags (x : XSlot) : Nat :=
  x.flags.toNat + b2n x.armed.isSome * 2 ^ 8 + b2n (decide (x.v = 0)) * 2 ^ 9

/-- The save image, 288 bytes (R450). -/
def xsImage (x : XSlot) : Bytes :=
  natLE 280 ((x.v.signExtend 2240).toNat) ++ natLE 8 (x.flags.toNat + 2 ^ 60)

/-- A save image: value and flags, or nothing for BAD_FORM. -/
def xsImageRead (b : Bytes) : Option (Int × Nat) :=
  let w := leNat (b.take 280)
  let c := leAt b 280 8
  if b.length = 288 ∧ bf c 60 4 = 1 ∧ bf c 5 55 = 0 ∧ bf w 2232 8 = (if bit w 2231 then 0xFF else 0) then
    some (sxt w 2232, bf c 0 5) else none

/-- The limbs of V that differ from the fill (R451). -/
def xsLimbs (x : XSlot) : List (Nat × Nat) :=
  let fill := if x.v.msb then 2 ^ 72 - 1 else 0
  ((List.range 31).map (fun i => (i, bf x.v.toNat (72 * i) 72))).filter (fun e => decide (e.2 ≠ fill))

/-- The compact form (R451). -/
def xsCompact (x : XSlot) : Bytes :=
  let ls := xsLimbs x
  let map := (ls.map (fun e => 2 ^ e.1)).sum
  let hdr := map + b2n x.v.msb * 2 ^ 31 + x.flags.toNat * 2 ^ 32 + ls.length * 2 ^ 40 + 2 ^ 60
  let body := (ls.map (fun e => natLE 9 e.2)).flatten
  natLE 8 hdr ++ padTo body (roundUp body.length 8)

/-- Length of the compact form whose header word is `h`. -/
def xsCompactLen (h : Nat) : Nat := 8 + roundUp (9 * bf h 40 5) 8

/-- Put marked limbs into the fill. -/
def xsPlace : List Nat → Bytes → Nat → Nat
  | [], _, v => v
  | i :: t, b, v => xsPlace t (b.drop 9) (bput v (72 * i) 72 (leNat (b.take 9)))

/-- A compact form: value and flags, or nothing for BAD_FORM (R452). -/
def xsCompactRead (b : Bytes) : Option (Int × Nat) :=
  let h := leNat (b.take 8)
  let n := bf h 40 5
  let map := bf h 0 31
  let fill := if bit h 31 then 2 ^ 72 - 1 else 0
  let limbs := (List.range n).map (fun i => leAt b (8 + 9 * i) 9)
  if b.length = xsCompactLen h ∧ bf h 60 4 = 1 ∧ bf h 37 3 = 0 ∧ bf h 45 15 = 0 ∧ popcnt map 31 = n ∧
      (b.drop (8 + 9 * n)).all (· == 0) ∧ limbs.all (fun l => decide (l ≠ fill)) then
    some (sxt (xsPlace ((List.range 31).filter (fun i => bit map i)) (b.drop 8) (if bit h 31 then 2 ^ 2232 - 1 else 0)) 2232,
      bf h 32 5)
  else none

end Sys2Proof.Machine
end

