-- ==== Sys2Proof/Machine/ZmtMem.lean ====
section
/-! DEFINITION. How the transport reaches memory and counters: address checks and translations of a unit, windows,
placement, completion counters and their actions (R32, R208-R218, R535). -/

namespace Sys2Proof.Machine

/-! ### A unit's access to device addresses (R32, R212, R535, R536) -/

/-- What stands in the way of an access: nothing, a failure with a transport code, or a translation not yet at hand. -/
inductive UAcc where
  | ok
  | fail (code : Nat)
  | wait
  deriving DecidableEq, Repr

/-- The pieces of a range that lie in one 4 KiB page each; the fuel is the number of bytes. -/
def pagePieces : Nat → Nat → Nat → List (Nat × Nat)
  | 0, _, _ => []
  | f + 1, a, n =>
    if n = 0 then []
    else
      let k := min n (4096 - a % 4096)
      (a, k) :: pagePieces f (a + k) (n - k)

def piecesOf (a n : Nat) : List (Nat × Nat) := pagePieces (n / 4096 + 2) a n

/-- The check of one piece: a memory of the device, or a host window through its aperture and the ATC. A refused
aperture right is a failure of the memory path without a code of its own; XLATE_FAIL stands for it (R212; DESIGN
CHOICE, log 73); unit space is unmapped for an engine (DESIGN CHOICE, log 143). -/
def pieceAcc (s : State) (wr : Bool) (pasid a : Nat) : UAcc :=
  match regionOf a with
  | .hostWin =>
    let c := apCheck s wr false pasid a
    if c.1 = 7 then .fail zUnmapped
    else if c.1 ≠ 0 then .fail zXlate
    else if (translate s c.2 wr).isSome then .ok else .wait
  | r => if r.isStore && !hbmRetired s a then .ok else .fail zUnmapped

/-- The first failure of a range in address order, else whether it must wait. `id` names the requester; a translation
of its that failed denies the access. -/
def rangeAcc (s : State) (id : Nat) (wr : Bool) (pasid a n : Nat) : UAcc :=
  if id ∈ s.host.denied then .fail zXlate
  else
    let rs := (piecesOf a n).map (fun p => pieceAcc s wr pasid p.1)
    match rs.find? (fun r => match r with | .fail _ => true | _ => false) with
    | some r => r
    | none => if .wait ∈ rs then .wait else .ok

/-- Ask for the translations a range still needs. -/
def askRange (id : Nat) (wr : Bool) (pasid a n : Nat) (s : State) : State :=
  (piecesOf a n).foldl (fun s p =>
    if pieceAcc s wr pasid p.1 = .wait then requestXlate (apCheck s wr false pasid p.1).2 wr (.other id) s else s) s

/-- Forget that a requester was denied. -/
def undeny (id : Nat) (s : State) : State := modHost (fun h => { h with denied := h.denied.filter (· ≠ id) }) s

/-- Whether an address lies in a host window. -/
def isHost (a : Nat) : Bool := decide (regionOf a = .hostWin)

/-- Bytes a unit reads: from memory, or those the host returned (padded with zeros) for a host window. -/
def unitRead (s : State) (a n : Nat) (host : Bytes) : Bytes := if isHost a then sliceZ host 0 n else memBytes s a n

/-- The reads sent to a host for a range. -/
def sendReads (pasid a n tag : Nat) (s : State) : State :=
  (piecesOf a n).foldl (fun s p =>
    if isHost p.1 then
      let c := (apCheck s false false pasid p.1).2
      match translate s c false with
      | some phys => atcTouch c false (emit (.hostRead (c.func / 128) (c.func % 128) (sentPasid s c) phys p.2 tag) s)
      | none => s
    else s) s

/-- Place bytes at a device address: tagged words are marked, host bytes are written to the host (R210). -/
def unitPlace (pasid a : Nat) (bs : Bytes) (mark : Nat) (s : State) : State :=
  if isHost a then
    (piecesOf a bs.length).foldl (fun s p =>
      let c := (apCheck s true false pasid p.1).2
      atcTouch c true (hostPut c (slice bs (p.1 - a) p.2) s)) s
  else placeBytes a bs mark s

/-! ### Windows (R208, R209) -/

/-- A window of Table 6-6. -/
def winWords (s : State) (h : Nat) : List W64 := tget [0, 0, 0, 0] s.zmt.win h
def winW (s : State) (h i : Nat) : Nat := ((winWords s h).getD i 0).toNat

def winBase (s : State) (h : Nat) : Nat := bf (winW s h 0) 0 48
def winPasid (s : State) (h : Nat) : Nat := bf (winW s h 2) 32 20
/-- KIND and EPOCH as the mark of a placement: K in bits 5:4, E in bits 3:0. -/
def winMark (s : State) (h : Nat) : Nat := bf (winW s h 0) 52 2 * 16 + bf (winW s h 0) 54 4

/-- Bits of word 0 that carry the rights. -/
def rPut : Nat := 48
def rGet : Nat := 49
def rAtom : Nat := 50
def rRed : Nat := 51

/-- R209: the reason a window refuses `n` bytes at `tofs` for a job and a right; 0 none. -/
def winCheck (s : State) (tofs n job right : Nat) : Nat :=
  let h := tofsWin tofs
  let w0 := winW s h 0
  if !bit w0 63 then zNoWindow
  else if bf (winW s h 2) 0 32 ≠ job then zBadJob
  else if bf (winW s h 1) 0 48 < tofsOfs tofs + n then zOutOfWindow
  else if !bit w0 right then zRights
  else if (regionOf (winBase s h)).tagged ∧ (tofsOfs tofs % 8 ≠ 0 ∨ n % 8 ≠ 0) then zAlign
  else 0

/-- The device address of a TOFS. -/
def winAddr (s : State) (tofs : Nat) : Nat := winBase s (tofsWin tofs) + tofsOfs tofs

/-- Window and memory checks of `n` bytes at `tofs`. -/
def winAcc (s : State) (id : Nat) (wr : Bool) (tofs n job right : Nat) : UAcc :=
  let c := winCheck s tofs n job right
  if c ≠ 0 then .fail c else rangeAcc s id wr (winPasid s (tofsWin tofs)) (winAddr s tofs) n

/-! ### Completion counters (R213-R218) -/

def ctrOf (s : State) (c : Nat) : Ctr := tget {} s.zmt.ctr c
def modCtrRec (c : Nat) (f : Ctr → Ctr) (s : State) : State := modZmt (fun z => { z with ctr := tmod {} z.ctr c f }) s

def csIdle : Nat := 0
def csArmed : Nat := 1
def csAuto : Nat := 2
def csDone : Nat := 3
def csFailed : Nat := 4

/-! ### Assembly entries (R223) -/

def asmOf (s : State) (i : Nat) : Option Asm := tfind s.zmt.asm i
def modAsm (i : Nat) (f : Asm → Asm) (s : State) : State := modZmt (fun z => { z with asm := tupd z.asm i f }) s

/-- The entry of a message. -/
def asmFind (s : State) (ep msgId : Nat) : Option (Nat × Asm) :=
  s.zmt.asm.find? (fun e => decide (e.2.ep = ep ∧ e.2.msgId = msgId))

/-- Free an entry and its staging buffer. -/
def asmFree (i : Nat) (s : State) : State :=
  match asmOf s i with
  | none => s
  | some a =>
    let s1 := modZmt (fun z => { z with asm := tdel z.asm i }) s
    match a.stage with
    | some r => (bufFree (8 + a.slice) 0 (BitVec.ofNat 64 r) false s1).2
    | none => s1

/-- An entry is freed when the counter of its receive has ended. -/
def asmSettle (i : Nat) (s : State) : State :=
  match (asmOf s i).bind (·.dest) with
  | some (_, _, ccid) =>
    let st := (ctrOf s ccid).state
    if st = csDone ∨ st = csFailed then asmFree i s else s
  | none => s

/-- Every entry whose receive counts on a counter that has ended is freed (R223). -/
def asmEnd (ccid : Nat) (s : State) : State :=
  (s.zmt.asm.filter (fun e => decide (e.2.dest.map (fun d => d.2.2) = some ccid))).foldl (fun s e => asmSettle e.1 s) s

/-! ### Checks and actions of a counter -/

/-- Bytes of REDUCE deposits accepted for a counter and not yet counted (R455). -/
def ctrPending (s : State) (ccid : Nat) : Nat :=
  (s.cops.tile.map (fun e => (e.2.dep.map (fun d => if d.ccid = ccid then d.bytes else 0)).sum)).sum

/-- The reason a counter refuses a packet of `plen` bytes of a message of `mlen`; 0 none (R213-R215). -/
def ctrCheck (s : State) (ccid job mlen plen : Nat) : Nat :=
  let c := ctrOf s ccid
  if 1048576 ≤ ccid ∨ (c.state ≠ csArmed ∧ c.state ≠ csAuto) then zNoCounter
  else if c.job ≠ job then zBadJob
  else if c.state = csAuto then (if mlen < plen then zCountOver else 0)
  else if (c.auto ∧ c.target ≠ mlen) ∨ c.target < c.count + plen + ctrPending s ccid then zCountOver
  else 0

/-- The completion entry of ACT 1 (R216). -/
def ctrEntry (ccid : Nat) (c : Ctr) : List W64 :=
  [BitVec.ofNat 64 (0xFFFFFFFE + 0xFE * 2 ^ 32), BitVec.ofNat 64 c.count,
   BitVec.ofNat 64 (ccid + c.state * 2 ^ 24 + c.reason * 2 ^ 32), BitVec.ofNat 64 c.target]

/-- The brick of ACT 2: event COUNTER (Table 6-11). -/
def ctrBrick (s : State) (ts ccid ep : Nat) (c : Ctr) : List W64 :=
  hwBrick s 2 (bf c.actarg 0 6) 0 0
    (BitVec.ofNat 64 (3 + ts * 2 ^ 8 + ccid * 2 ^ 16 + c.state * 2 ^ 40 + c.reason * 2 ^ 48)) (BitVec.ofNat 64 ep)

/-- The scheduler would refuse a brick. -/
def brickRefused (s : State) (words : List W64) : Bool := decide ((acceptUnitBrick words s).1 ≠ 0)

/-- The action of a counter that becomes DONE or FAILED needs a brick that the scheduler would refuse now (DESIGN
CHOICE, log 78). -/
def ctrBlocked (s : State) (ts ccid ep : Nat) : Bool :=
  decide ((ctrOf s ccid).act = 2) && brickRefused s (ctrBrick s ts ccid ep (ctrOf s ccid))

/-- The action of a counter fires (R216), and the assembly entries that counted on it are freed; ACTARG is held from bit 36 of
its word. -/
def ctrFire (ts ccid ep : Nat) (s : State) : State :=
  let c := ctrOf s ccid
  asmEnd ccid (match c.act with
    | 1 => postCpl (bf c.actarg 0 12) (ctrEntry ccid c) s
    | 2 => (acceptUnitBrick (ctrBrick s ts ccid ep c) s).2.2
    | 3 => tecComplete (bf c.actarg 0 4) (bf c.actarg 4 8) s
    | _ => s)

/-- A counter fails with a reason, and its action fires. -/
def ctrFail (ts ccid ep reason : Nat) (s : State) : State :=
  let st := (ctrOf s ccid).state
  if st = csArmed ∨ st = csAuto then
    ctrFire ts ccid ep (modCtrRec ccid (fun c => { c with state := csFailed, reason := reason }) s)
  else s

/-- The first packet that an AUTO counter accepts sets its target (R214). -/
def ctrFirst (ccid mlen : Nat) (s : State) : State :=
  modCtrRec ccid (fun c => if c.state = csAuto then { c with state := csArmed, target := mlen } else c) s

/-- The bytes of a packet are visible: COUNT grows, and the last of them makes the counter DONE (R214, R215). -/
def ctrCount (ts ccid ep mlen plen : Nat) (s : State) : State :=
  let s1 := modCtrRec ccid (fun c => { c with count := c.count + plen }) (ctrFirst ccid mlen s)
  let c := ctrOf s1 ccid
  if c.state = csArmed ∧ c.count = c.target then
    ctrFire ts ccid ep (bump 0xC068 0x09 (modCtrRec ccid (fun c => { c with state := csDone }) s1))
  else s1

/-- A counter that would end with a packet, or with the refusal COUNT_OVER, and whose action cannot be taken now. -/
def ctrWouldBlock (s : State) (ts ccid ep job mlen plen : Nat) : Bool :=
  let r := ctrCheck s ccid job mlen plen
  let c := ctrOf s ccid
  let ends := decide (r = zCountOver) ||
    (decide (r = 0) && decide (c.count + plen = if c.state = csAuto then mlen else c.target))
  ends && ctrBlocked s ts ccid ep

end Sys2Proof.Machine
end

