-- ==== Sys2Proof/Machine/HostDma.lean ====
section
/-! DEFINITION. DMA items: the store, the engines, moves, how an item ends (R482, R485, R542-R546). -/

namespace Sys2Proof.Machine

/-! ### Fields of an item (Table 16-8) -/

def DItem.w (it : DItem) (i : Nat) : Nat := (it.words.getD i 0).toNat
def DItem.src (it : DItem) : Nat := bf (it.w 0) 0 48
def DItem.dst (it : DItem) : Nat := bf (it.w 1) 0 48
def DItem.len (it : DItem) : Nat := bf (it.w 2) 0 31
def DItem.setf (it : DItem) : Bool := bit (it.w 2) 32
def DItem.tagcopy (it : DItem) : Bool := bit (it.w 2) 33

/-- The source is a cell reference (R463). -/
def isCell (a : Nat) : Bool := decide (0xFF0000000000 ≤ a)

/-- The item is within the limits of R542. -/
def itemLegal (words : List W64) : Bool :=
  let it : DItem := { words := words, prio := 0, pasid := 0, cmd := none, master := 0, state := 0, engine := none, done := 0, fail := 0 }
  decide (1 ≤ it.len) && decide (it.len ≤ 2 ^ 30) &&
    (!it.tagcopy || (decide (it.src % 8 = 0) && decide (it.dst % 8 = 0) && decide (it.len % 8 = 0) &&
      (regionOf it.src).tagged && (regionOf it.dst).tagged))

def itemOf (s : State) (i : Nat) : Option DItem := tfind s.host.items i
def modItem (i : Nat) (f : DItem → DItem) (s : State) : State := modHost (fun h => { h with items := tupd h.items i f }) s

/-- Put an item into the store: it is accepted in the DMA ledger class. -/
def newItem (it : DItem) (s : State) : Nat × State :=
  let i := s.host.nextItem
  (i, bump 0xC0E8 0x01 (ledAccept 4 (modHost (fun h => { h with items := tput h.items i it, nextItem := (i + 1) % 2 ^ 32 }) s)))

/-! ### How an item ends (R544, R545) -/

/-- The counter an item names takes DONE (R215, R542); an AUTO counter takes it as its target (DESIGN CHOICE, log 66). -/
def itemCounter (it : DItem) (done : Nat) (s : State) : State :=
  let ccid := bf (it.w 4) 0 24
  let c := ctrOf s ccid
  let ts := freeNat s % 8
  if !bit (it.w 4) 24 || decide (done = 0) || decide (1048576 ≤ ccid) || !(decide (c.state = csArmed) || decide (c.state = csAuto)) then s
  else if c.state = csArmed ∧ c.target < c.count + done + ctrPending s ccid then ctrFail ts ccid 0 zCountOver (drawn s)
  else ctrCount ts ccid 0 done done (drawn s)

/-- The counter's action needs a brick that the scheduler would refuse now: the end of the item waits. -/
def itemBlocked (it : DItem) (done : Nat) (s : State) : Bool :=
  let ccid := bf (it.w 4) 0 24
  let c := ctrOf s ccid
  bit (it.w 4) 24 && decide (done ≠ 0) && decide (ccid < 1048576) &&
    ((decide (c.state = csArmed) && decide (c.target ≤ c.count + done + ctrPending s ccid)) || decide (c.state = csAuto)) &&
    ctrBlocked s (freeNat s % 8) ccid 0

/-- The TEC source an item notifies. -/
def itemNotify (it : DItem) (s : State) : State :=
  if bit (it.w 4) 44 && decide (bf (it.w 4) 32 4 < 12) then tecComplete (bf (it.w 4) 32 4) (bf (it.w 4) 36 8) s else s

/-- Ledger reason of an item's status (Table 16-7). -/
def itemReason (st : Nat) : Nat := cplReason st 0

/-- Item `i` leaves with DONE bytes moved: in the DMA ledger class it completes (reason 0) or fails (R549, R612). -/
def dropItem (i reason done : Nat) (s : State) : State :=
  let s1 := bumpBy 0xC0E8 0x04 done (modHost (fun h => { h with items := tdel h.items i }) s)
  if reason = 0 then bump 0xC0E8 0x02 (ledComplete 4 s1)
  else bump 0xC0E8 0x03 (ledFail 4 reason 0x19 (done % 2 ^ 32) i s1)

/-- Item `i` ends with a status of Table 16-7 and DONE: ledger, completion, counter, notification. -/
def endItem (i st done : Nat) (s : State) : State :=
  match itemOf s i with
  | none => s
  | some it =>
    let s2 := dropItem i (itemReason st) done s
    let s3 := match it.cmd with
      | some c => endCmd c st done false 0 (it.words.getD 5 0) 0 s2
      | none => s2
    itemNotify it (itemCounter it done s3)

/-! ### Access checks (R32, R535) -/

/-- What an engine finds at an address: nothing in the way, a failure with a status of Table 16-7, or a translation to
wait for. -/
inductive DAcc where
  | ok
  | fail (status : Nat)
  | miss (p : HPlace) (wr : Bool)
  deriving DecidableEq, Repr

/-- The check of one page for an engine. Unit space is registers that cores reach by 64-bit accesses at a level; an engine has
neither, so for it unit space is unmapped (DESIGN CHOICE, log 143). -/
def dmaAcc (s : State) (wr : Bool) (pasid a : Nat) : DAcc :=
  match regionOf a with
  | .hostWin =>
    let c := apCheck s wr false pasid a
    if c.1 = 7 then .fail 4
    else if c.1 = 3 then .fail 3
    else if c.1 ≠ 0 then .fail 5
    else if !(linkSt s (linkOf s c.2.func)).up then .fail 0x0B
    else if (translate s c.2 wr).isSome then .ok else .miss c.2 wr
  | r => if r.isStore && !hbmRetired s a then .ok else .fail 4

/-- The chain a cell reference names. -/
def cellChain (s : State) (a : Nat) : Option Chain := if a % 256 = 0 then tfind s.bufs.chain (a % 2 ^ 40 / 256) else none

/-- Source and destination of an item at offset `x`. -/
def itemAcc (s : State) (it : DItem) (x : Nat) : DAcc :=
  let a := if isCell it.src then
      (match cellChain s it.src with
       | some c => if x < roundUp c.bytes.length 256 then .ok else .fail 4
       | none => .fail 4)
    else dmaAcc s false it.pasid (it.src + x)
  match a with
  | .ok => dmaAcc s true it.pasid (it.dst + x)
  | r => r

/-! ### Moves (R485, R543-R545) -/

/-- Bytes of the move at offset `x`: up to the next multiple of 256 in the item and within one page of each side. -/
def moveLen (it : DItem) (x : Nat) : Nat :=
  let n := min (it.len - x) (min (256 - x % 256) (4096 - (it.dst + x) % 4096))
  if isCell it.src then n else min n (4096 - (it.src + x) % 4096)

/-- Byte `x` of the source: what a host read returned (`host` holds the bytes from offset `x0` on), a cell's byte, a byte of
memory. What lies in a frame's last cell behind the frame is a free value (DESIGN CHOICE, log 1). -/
def srcByte (s : State) (it : DItem) (x0 : Nat) (host : Bytes) (x : Nat) : Byte :=
  if isCell it.src then
    match cellChain s it.src with
    | some c => if x < c.bytes.length then c.bytes.getD x 0 else (Config.freeValue (s.free + x)).extractLsb' 0 8
    | none => 0
  else if isHost (it.src + x) then host.getD (x - x0) 0
  else memByte s (it.src + x)

/-- Byte `x` of the source lies in a poisoned word. -/
def srcPoison (s : State) (it : DItem) (x : Nat) : Bool :=
  !isCell it.src && (regionOf (it.src + x)).tagged && tagP (memTag s (it.src + x))

/-- The tag of destination word `w` after bytes of it were written (Table 14-7): with TAGCOPY the source's, else P from the
source bytes it holds, and F under SETF, when the item writes the word whole; P := 1 when a part came from a poisoned
word. `s` is the state the move read. -/
def moveTag (s : State) (it : DItem) (whole : Bool) (w : Nat) (old : Byte) : Byte :=
  if it.tagcopy then memTag s (it.src + (w * 8 - it.dst))
  else
    let p := (List.range 8).any (fun k =>
      decide (it.dst ≤ w * 8 + k) && decide (w * 8 + k < it.dst + it.len) && srcPoison s it (w * 8 + k - it.dst))
    if whole then
      let t := tagSetP p old
      if it.setf then tagSetF true t else t
    else if p then tagSetP true old else old

/-- Write the bytes of an item at the offsets `offs`; `whole w` says that word `w` is written whole. -/
def moveBytes (it : DItem) (data : Nat → Byte) (whole : Nat → Bool) (offs : List Nat) (s : State) : State :=
  let s1 := offs.foldl (fun t x => memPut (it.dst + x) (data x) t) s
  if (regionOf it.dst).tagged then
    ((offs.map (fun x => (it.dst + x) / 8)).eraseDups).foldl
      (fun t w => tagPut w (moveTag s it (whole w) w (tget 0 s.mem.tag w)) t) s1
  else s1

/-- All of word `w` lies in the item's destination. -/
def wordInside (it : DItem) (w : Nat) : Bool := decide (it.dst ≤ w * 8) && decide (w * 8 + 8 ≤ it.dst + it.len)

/-- Ask the host for a move's bytes. -/
def moveRead (it : DItem) (i x n : Nat) (s : State) : State :=
  if !isCell it.src && isHost (it.src + x) then
    let c := (apCheck s false false it.pasid (it.src + x)).2
    match translate s c false with
    | some phys => atcTouch c false (emit (.hostRead (c.func / 128) (c.func % 128) (sentPasid s c) phys n i) s)
    | none => s
  else s

/-- Send bytes to the host at offset `x`. -/
def moveHost (it : DItem) (x : Nat) (data : Bytes) (s : State) : State :=
  let c := (apCheck s true false it.pasid (it.dst + x)).2
  atcTouch c true (hostPut c data s)

/-- One move of `n` bytes at offset `x`. -/
def moveOne (it : DItem) (i x0 : Nat) (host : Bytes) (x n : Nat) (s : State) : State :=
  let offs := (List.range n).map (· + x)
  let s1 := moveRead it i x n s
  if isHost (it.dst + x) then moveHost it x (offs.map (srcByte s it x0 host)) s1
  else moveBytes it (srcByte s it x0 host) (wordInside it) offs s1

/-- Why the moves of an item stop. -/
inductive DStop where
  | done
  | miss (p : HPlace) (wr : Bool)
  | fail (status : Nat)
  deriving DecidableEq, Repr

/-- The destination words a failed host completion covered take P := 1, and the poison log names them (R484, R485). -/
def poisonCovered (it : DItem) (x n : Nat) (s : State) : State :=
  if (regionOf it.dst).tagged then
    (((List.range n).map (fun k => (it.dst + x + k) / 8)).eraseDups).foldl
      (fun t w => poisonLog (w * 8) 3 0 (tagPut w (tagSetP true (tget 0 t.mem.tag w)) t)) s
  else s

/-- Status of an item whose host read failed: XLATE_FAIL through a function with ATS disabled (R540), POISON into tagged
memory (R485), else HOST_ABORT. -/
def readFailure (s : State) (it : DItem) (x : Nat) : Nat :=
  let c := (apCheck s false false it.pasid (it.src + x)).2
  if !(funcOf s c.func).ats then 5 else if (regionOf it.dst).tagged then 6 else 7

/-- Offset of the first byte of a move that a poisoned word keeps from the host. -/
def poisonAt (s : State) (it : DItem) (x n : Nat) : Option Nat :=
  if isHost (it.dst + x) then ((List.range n).map (· + x)).find? (srcPoison s it) else none

/-- The moves of an item from offset `x` on, in ascending offset: where they stop and why. `err` is the offset at which a
host completion came back with an error. -/
def moveLoop : Nat → DItem → Nat → Nat → Bytes → Option Nat → Nat → State → DStop × Nat × State
  | 0, _, _, _, _, _, x, s => (.done, x, s)
  | f + 1, it, i, x0, host, err, x, s =>
    if it.len ≤ x then (.done, x, s)
    else match itemAcc s it x with
      | .fail st => (.fail st, x, s)
      | .miss p wr => (.miss p wr, x, s)
      | .ok =>
        let n := moveLen it x
        let bad := match err with
          | some e => if !isCell it.src && isHost (it.src + x) && decide (x ≤ e) && decide (e < x + n) then some e else none
          | none => none
        match bad with
        | some e => (.fail (readFailure s it x), e, poisonCovered it e (x + n - e) (moveRead it i x n s))
        | none =>
          match poisonAt s it x n with
          | some e => (.fail 6, e, s)
          | none => moveLoop f it i x0 host err (x + n) (moveOne it i x0 host x n s)

/-- The bytes above DONE that moves in flight may have written (R545): each is a free value (DESIGN CHOICE, log 1). -/
def strayBytes (it : DItem) (x0 : Nat) (host : Bytes) (d : Nat) (s : State) : State :=
  let chosen := ((List.range 2048).map (· + d)).filter (fun x =>
    decide (x < it.len) && (Config.freeValue (s.free + (x - d) / 512)).getLsbD ((x - d) % 512) && decide (itemAcc s it x = .ok))
  let s1 := modFree (· + 4) s
  let s2 := moveBytes it (srcByte s it x0 host)
    (fun w => (List.range 8).all (fun k => decide (it.dst ≤ w * 8 + k) && decide (w * 8 + k - it.dst ∈ chosen)))
    (chosen.filter (fun x => !isHost (it.dst + x))) s1
  (chosen.filter (fun x => isHost (it.dst + x) && !srcPoison s it x)).foldl (fun t x => moveHost it x [srcByte s it x0 host x] t) s2

/-- An ACTIVE item moves on: it ends, or stops at a page that is not translated. -/
def runItem (i : Nat) (it : DItem) (host : Bytes) (err : Option Nat) (s : State) : State :=
  let x0 := it.done
  let r := moveLoop it.len it i x0 host (err.map (· + x0)) x0 s
  match r.1 with
  | .done =>
    let s1 := modItem i (fun it => { it with done := it.len }) r.2.2
    if itemBlocked it it.len s1 then s1 else endItem i 0 it.len s1
  | .miss p wr => requestXlate p wr (.item i) (modItem i (fun it => { it with state := 2, done := r.2.1 }) r.2.2)
  | .fail st =>
    if st = 4 ∨ st = 6 ∨ st = 7 then
      let d := max x0 (r.2.1 / 256 * 256)
      endItem i st d (strayBytes it x0 host d r.2.2)
    else endItem i st r.2.1 r.2.2

/-- DMA_ITEM_END: an ACTIVE item moves its bytes and reaches its end, an error, or a translation miss (R544, R545). -/
def execDmaItemEnd (item : Nat) (host : Bytes) (err : Option Nat) (s : State) : Host.Outcome State Fault Refusal :=
  .next (match itemOf s item with
    | some it => if it.state = 1 then runItem item it host err s else s
    | none => s)

/-! ### Submission and the engines (R542, R543) -/

/-- The waiting item an engine takes: highest priority, the oldest first. -/
def pickItem (s : State) : Option (Nat × DItem) :=
  (s.host.items.filter (fun e => decide (e.2.state = 0))).foldl (fun best e =>
    match best with
    | none => some e
    | some b => if b.2.prio < e.2.prio then some e else some b) none

/-- Contexts of an engine in use. -/
def engineLoad (s : State) (e : Nat) : Nat := (s.host.items.filter (fun x => decide (x.2.engine = some e))).length

/-- DMA_CONTEXT_TAKE: the lowest engine with a free context takes an item (one command is one item: that each engine takes at most
one within a cycle is timing: DESIGN CHOICE, log 21); a first page that is not translated makes it wait (R543, R544). -/
def execDmaContextTake (s : State) : Host.Outcome State Fault Refusal :=
  .next (match pickItem s, (List.range 32).find? (fun e => decide (engineLoad s e < 16)) with
    | some (i, it), some e =>
      let s1 := modItem i (fun it => { it with state := 1, engine := some e }) s
      match itemAcc s1 it it.done with
      | .miss p wr => requestXlate p wr (.item i) (modItem i (fun it => { it with state := 2 }) s1)
      | _ => s1
    | _, _ => s)

def dpostOf (s : State) (m : Nat) : DPost := tget {} s.host.dpost m
def modDpost (m : Nat) (f : DPost → DPost) (s : State) : State := modHost (fun h => { h with dpost := tmod {} h.dpost m f }) s

/-- PASID of item words: none without PV. -/
def itemPasid (words : List W64) : Nat :=
  let w := (words.getD 3 0).toNat
  if bit w 20 then bf w 0 20 else noPasid

/-- GO of an item post area: FULL, which is also what a store answers that takes nothing before Dawn-4 ends (R636; DESIGN CHOICE,
log 19), RANGE, or the item and its id (Table 16-12). -/
def dmaSubmit (m : Nat) (s : State) : State :=
  let x := dpostOf s m
  if !awake s || decide (8192 ≤ storeLoad s) then bump 0xC0E8 0x0D (modDpost m (fun x => { x with status := 1 }) s)
  else if !itemLegal x.w then modDpost m (fun x => { x with status := 2 }) s
  else
    let master := if m < 768 then m else 0xC000
    let r := newItem { words := x.w, prio := (ownerPrio s m false).getD (bf (x.w.getD 2 0).toNat 34 4), pasid := itemPasid x.w,
                       cmd := none, master := master, state := 0, engine := none, done := 0, fail := 0 } s
    modDpost m (fun x => { x with status := 0, item := BitVec.ofNat 32 r.1 }) r.2

/-- DMA_POST. -/
def execDmaPost (area : Fin 769) (s : State) : Host.Outcome State Fault Refusal := .next (dmaSubmit area.val s)

end Sys2Proof.Machine
end

