-- ==== Sys2Proof/Machine/Match.lean ====
section
/-! DEFINITION. The match engine: entries, searches, inserts, handles, the sequencer, renumbering (R396-R413). -/

namespace Sys2Proof.Machine

/-! ### Blocks and entries (R396-R400) -/

/-- Class of a block (8C01h.01). -/
def blkClass (s : State) (b : Nat) : Nat := bf (cfg s 0x8C01 0x01) (3 * b) 3

def mEnt (s : State) (i : Nat) : MEnt := tget {} s.mat.ent i

/-- Valid entries of a block, by index, in ascending order. -/
def blkValid (s : State) (b : Nat) : List Nat :=
  (s.mat.ent.filter (fun e => e.2.v && decide (e.1 / 4096 = b))).map (·.1)

/-- Free rows of a block. -/
def blkFree (s : State) (b : Nat) : Nat := 4096 - (blkValid s b).length

def ownPos (s : State) : Nat := s.dbg.cpos.toNat

/-- Free rows of a class. -/
def clsFree (s : State) (wc : Nat) : Nat := (((List.range 16).filter (fun b => decide (blkClass s b = wc))).map (blkFree s)).sum

/-- Rows of a class that operations in progress hold: an ARRIVE from its issue on (R412), and a cascaded insert of this device
from its search on (DESIGN CHOICE, log 82). -/
def rowsHeld (s : State) (wc : Nat) : Nat :=
  (if wc = 4 then s.mat.arrq.length + s.mat.out.countP (fun r => decide (r.op = 7)) else 0) +
    s.mat.ops.countP (fun o => decide (o.pos = ownPos s) && (if o.req.op = 7 then decide (wc = 4)
      else (decide (o.req.op = 2) || decide (o.req.op = 6)) && decide (o.req.wc = wc) &&
        (match tfind o.res o.pos with | some c => decide (c.room = 0) | none => false)))

/-- Free rows of class 4 that no ARRIVE and no cascaded insert in progress holds (R412). -/
def c4Free (s : State) : Nat := clsFree s 4 - rowsHeld s 4

/-- D of a PRIO (R400). -/
def mD (s : State) (p : BitVec 32) : Nat := (p - s.mat.base).toNat

/-- The order key puts index `i` before `j` on one device. -/
def mBefore (s : State) (i j : Nat) : Bool :=
  decide (mD s (mEnt s i).prio < mD s (mEnt s j).prio) || (decide (mD s (mEnt s i).prio = mD s (mEnt s j).prio) && decide (i < j))

/-- Insert an index into a list in order-key order. -/
def mSort (s : State) (i : Nat) : List Nat → List Nat
  | [] => [i]
  | j :: t => if mBefore s i j then i :: j :: t else j :: mSort s i t

/-- Entries that match key `k` under the mask of their block's class, in order-key order (R403). -/
def mMatches (s : State) (k : BitVec 128) (mask : Nat → Option (BitVec 128)) : List Nat :=
  ((tkeys s.mat.ent).filter (fun i => (mEnt s i).v && (match mask (blkClass s (i / 4096)) with
    | some m => decide (((mEnt s i).key ^^^ k) &&& m = 0)
    | none => false))).foldl (fun l i => mSort s i l) []

/-- The mask of a class of receives (Table 12-2). -/
def clsMask (wc : Nat) : BitVec 128 :=
  let all : BitVec 128 := ~~~0
  let src : BitVec 128 := BitVec.ofNat 128 (0xFFFFFFFF * 2 ^ 64)
  let tag : BitVec 128 := BitVec.ofNat 128 (0xFFFFFFFF * 2 ^ 32)
  match wc with
  | 0 => all
  | 1 => all &&& ~~~src
  | 2 => all &&& ~~~tag
  | _ => all &&& ~~~src &&& ~~~tag

/-- An index leaves every handle: its V was cleared or its row was inserted into (R407). -/
def mForget (i : Nat) (s : State) : State :=
  modMat (fun m => { m with handle := tmap (fun h => { h with list := h.list.filter (fun j => decide (j ≠ i)) }) m.handle }) s

/-- Clear V of an entry. -/
def mClear (i : Nat) (s : State) : State :=
  mForget i (modMat (fun m => { m with ent := tmod {} m.ent i (fun e => { e with v := false }) }) s)

/-- The first of `n` rows from index `i` on that is free. -/
def freeRow (s : State) : Nat → Nat → Nat
  | 0, i => i
  | n + 1, i => if (mEnt s i).v then freeRow s n (i + 1) else i

/-- The lowest free row of a block. -/
def lowFree (s : State) (b : Nat) : Nat := freeRow s 4096 (4096 * b)

/-- Where an insert into a class goes, or why it cannot: FULL 1, PRIO_SPAN 2, NO_CLASS 6. `reserved`: a row is held for it
(R399, R401, R412; DESIGN CHOICE, log 82). -/
def mPlace (s : State) (wc : Nat) (prio : BitVec 32) (reserved : Bool) : Nat × Nat :=
  let bs := (List.range 16).filter (fun b => decide (blkClass s b = wc) && decide (wc ≠ 7))
  match bs with
  | [] => (6, 0)
  | b0 :: rest =>
    let b := rest.foldl (fun a b => if blkFree s a < blkFree s b then b else a) b0
    if blkFree s b = 0 || (!reserved && decide (clsFree s wc ≤ rowsHeld s wc)) then (1, 0)
    else if 2 ^ 31 ≤ mD s prio then (2, 0)
    else (0, lowFree s b)

/-- Put an entry at an index. -/
def mPut (i : Nat) (e : MEnt) (s : State) : State := modMat (fun m => { m with ent := tput m.ent i e }) (mForget i s)

/-- OSEQ advances; a renumber starts when OSEQ - BASE reaches 2^30 (R401, R402). -/
def mAdvance (s : State) : State :=
  let s1 := modMat (fun m => { m with oseq := m.oseq + 1 }) s
  if cfgB s1 0x8C01 0x04 && decide (2 ^ 30 ≤ (s1.mat.oseq - s1.mat.base).toNat) then modMat (fun m => { m with renum := true }) s1 else s1

/-! ### Results (R406) -/

/-- What an operation returns: RES0 without BUSY, and RES1-RES4. -/
structure MRes where
  res0 : Nat
  w : List W64
  deriving DecidableEq, Repr

/-- RES0 (Table 12-4). -/
def mkRes0 (st : Nat) (hit mult dup cons ins : Bool) (hv : Option Nat) (cpos index wc : Nat) : Nat :=
  st * 2 + b2n hit * 2 ^ 5 + b2n mult * 2 ^ 6 + b2n dup * 2 ^ 7 + b2n cons * 2 ^ 8 + b2n ins * 2 ^ 9 + b2n hv.isSome * 2 ^ 10 +
    hv.getD 0 * 2 ^ 11 + cpos * 2 ^ 17 + index * 2 ^ 19 + wc * 2 ^ 35

/-- A result with a status alone. -/
def mStatus (st : Nat) : MRes := { res0 := mkRes0 st false false false false false none 0 0 0, w := [0, 0, 0, 0] }

/-- A result that names an entry of this device. -/
def mEntRes (s : State) (i : Nat) (hit mult dup cons ins : Bool) (hv : Option Nat) : MRes :=
  let e := mEnt s i
  { res0 := mkRes0 0 hit mult dup cons ins hv (ownPos s) i (blkClass s (i / 4096)),
    w := [e.pay, e.key.extractLsb' 0 64, e.key.extractLsb' 64 64, e.prio.zeroExtend 64] }

/-- Another matching entry has the winner's D. -/
def mDup (s : State) : List Nat → Bool
  | i :: j :: _ => decide (mD s (mEnt s i).prio = mD s (mEnt s j).prio)
  | _ => false

/-- Pass a receive descriptor to the slice that holds the staged data of a class-4 entry (R413). -/
def mHand (record desc : W64) (s : State) : State :=
  let home := bf record.toNat 19 2
  if home = ownPos s then modMat (fun m => { m with done := m.done ++ [(bf record.toNat 16 3, record, some desc)] }) s
  else emit (.casc 2 [home, record.toNat, desc.toNat]) s

/-! ### Operations on this device's own entries (R403-R407) -/

/-- The device is a joined member of a cascade. -/
def cascJoined (s : State) : Bool := decide (s.mat.cstate = 2) || decide (s.mat.cstate = 3)

/-- A free handle: of a joined member's quota, else any (R407, R420; DESIGN CHOICE, log 83). -/
def freeHandle (s : State) : Option Nat :=
  (if cascJoined s then (List.range 16).map (· + 16 * ownPos s) else List.range 64).find? (fun h => (tfind s.mat.handle h).isNone)

/-- A handle that a requester owns; a cascaded one of another home is that member's (R407, R420). -/
def ownHandle (s : State) (h master : Nat) : Option MHandle :=
  match tfind s.mat.handle h with
  | some x => if x.owner = master ∧ (!x.casc || decide (h / 16 = ownPos s)) then some x else none
  | none => none

/-- SEARCH. -/
def mSearch (r : MReq) (s : State) : MRes × State :=
  let ms := mMatches s r.key (fun c => if c ≠ 7 ∧ bit r.cls c then some r.mask else none)
  match ms with
  | [] => (mStatus 0, s)
  | i :: _ =>
    let hv := if r.hreq then freeHandle s else none
    let s1 := match hv with
      | some h => modMat (fun m => { m with handle := tput m.handle h { owner := r.master, casc := false, list := ms } }) s
      | none => if r.hreq then bump 0xC0A0 0x17 s else s
    let res := mEntRes s i true (decide (1 < ms.length)) (mDup s ms) r.consume false hv
    if r.consume then
      let s2 := if blkClass s (i / 4096) = 4 then mHand (mEnt s i).pay r.pay s1 else s1
      (res, mClear i s2)
    else (res, s1)

/-- INSERT. -/
def mInsert (r : MReq) (s : State) : MRes × State :=
  let prio := if r.auto then s.mat.oseq else r.prio
  let p := mPlace s r.wc prio false
  if p.1 ≠ 0 then (mStatus p.1, s)
  else
    let s1 := mPut p.2 { key := r.key, prio := prio, wc := BitVec.ofNat 3 r.wc, v := true, pay := r.pay } s
    (mEntRes s1 p.2 false false false false true none, if r.auto then mAdvance s1 else s1)

/-- DELETE (R405). Outside a cascade another member holds nothing. -/
def mDelete (r : MReq) (s : State) : MRes × State :=
  let e := mEnt s r.index
  if r.tcpos = ownPos s ∧ e.v ∧ e.pay = r.pay then (mEntRes s r.index false false false false false none, mClear r.index s)
  else (mStatus 3, s)

/-- STEP on a handle of the requester (R407). -/
def mStep (r : MReq) (s : State) : MRes × State :=
  match ownHandle s r.handle r.master with
  | none => (mStatus 4, s)
  | some h =>
    match h.list with
    | [] => (mStatus 5, modMat (fun m => { m with handle := tdel m.handle r.handle }) s)
    | i :: t =>
      let s1 := modMat (fun m => { m with handle := tput m.handle r.handle { h with list := t } }) s
      (mEntRes s i true false false r.consume false (some r.handle), if r.consume then mClear i s1 else s1)

/-- HFREE. -/
def mHfree (r : MReq) (s : State) : MRes × State :=
  match ownHandle s r.handle r.master with
  | none => (mStatus 4, s)
  | some _ => (mStatus 0, modMat (fun m => { m with handle := tdel m.handle r.handle }) s)

/-- POST (R404). -/
def mPost (r : MReq) (s : State) : MRes × State :=
    let ms := mMatches s r.key (fun c => if c = 4 then some (clsMask r.wc) else none)
    match ms with
    | i :: _ =>
      (mEntRes s i true (decide (1 < ms.length)) (mDup s ms) true false none, mClear i (mHand (mEnt s i).pay r.pay s))
    | [] =>
      let p := mPlace s r.wc s.mat.oseq false
      if p.1 ≠ 0 then (mStatus p.1, s)
      else
        let s1 := mPut p.2 { key := r.key, prio := s.mat.oseq, wc := BitVec.ofNat 3 r.wc, v := true, pay := r.pay } s
        (mEntRes s1 p.2 false false false false true none, mAdvance s1)

/-- ARRIVE, its row reserved (R404). -/
def mArrive (r : MReq) (s : State) : MRes × State :=
  let ms := mMatches s r.key (fun c => if c ≤ 3 then some (clsMask c) else none)
  match ms with
  | i :: _ => (mEntRes s i true (decide (1 < ms.length)) (mDup s ms) true false none, mClear i s)
  | [] =>
    let p := mPlace s 4 s.mat.oseq true
    if p.1 ≠ 0 then (mStatus p.1, s)
    else
      let s1 := mPut p.2 { key := r.key, prio := s.mat.oseq, wc := 4, v := true, pay := r.pay } s
      (mEntRes s1 p.2 false false false false true none, mAdvance s1)

/-- READ (R405); HIT shows V (DESIGN CHOICE, log 81). -/
def mRead (r : MReq) (s : State) : MRes × State :=
  if r.tcpos = ownPos s then (mEntRes s r.index (mEnt s r.index).v false false false false none, s) else (mStatus 3, s)

/-- A request that is no operation: an OP of 0 or 9-15, an ARRIVE not from a slice, a READ not from a thread, a POST of no
class of receives (R403, R404; DESIGN CHOICE, log 81). -/
def badOp (r : MReq) : Bool :=
  match r.op with
  | 0 => true
  | 6 => decide (3 < r.wc)
  | 7 => match r.who with | .slice _ => false | _ => true
  | 8 => match r.who with | .area _ => false | _ => true
  | n => decide (8 < n)

/-- Perform an operation on this device's own entries. -/
def mPerform (r : MReq) (s : State) : MRes × State :=
  if badOp r then (mStatus 7, s) else
  match r.op with
  | 1 => mSearch r s
  | 2 => mInsert r s
  | 3 => mDelete r s
  | 4 => mStep r s
  | 5 => mHfree r s
  | 6 => mPost r s
  | 7 => mArrive r s
  | _ => mRead r s

/-- Count an operation by what its result says (R425): its kind, a match, an insert. -/
def mTally (op : Nat) (m : MRes) (s : State) : State :=
  let hit := bit m.res0 5
  let ins := bit m.res0 9
  match op with
  | 1 => bump 0xC0A0 0x01 s
  | 2 => bumpIf ins 0xC0A0 0x07 s
  | 3 => bump 0xC0A0 0x08 s
  | 4 => bump 0xC0A0 0x09 s
  | 6 => bumpIf ins 0xC0A0 0x07 (bumpIf hit 0xC0A0 0x06 (bump 0xC0A0 0x05 s))
  | 7 => bumpIf ins 0xC0A0 0x04 (bumpIf hit 0xC0A0 0x03 (bump 0xC0A0 0x02 s))
  | _ => s

/-- Count an operation and its result; one that is no operation, or names no handle of its own, counts nothing. -/
def mCount (r : MReq) (m : MRes) (s : State) : State :=
  let s0 := if bf m.res0 1 4 = 7 ∨ bf m.res0 1 4 = 4 then s else mTally r.op m s
  let s1 := if bit m.res0 7 then bump 0xC0A0 0x0D s0 else s0
  match bf m.res0 1 4 with
  | 1 => bump 0xC0A0 0x0A s1
  | 2 => bump 0xC0A0 0x0B s1
  | _ => s1

/-- Return a result to its requester: a request area, a host command (70h + s; 0 is OK), a slice. -/
def mDeliver (r : MReq) (m : MRes) (s : State) : State :=
  let s1 := mCount r m s
  match r.who with
  | .area a => modMat (fun x => { x with area := tmod {} x.area a (fun q =>
      { q with busy := false, res := BitVec.ofNat 64 m.res0 :: m.w }) }) s1
  | .host id =>
    let st := bf m.res0 1 4
    endCmd id (if st = 0 then 0 else 0x70 + st) 0 false (BitVec.ofNat 64 m.res0) (m.w.headD 0) 0 s1
  | .slice ts =>
    modMat (fun x => { x with done := x.done ++ [(ts, r.pay, if bit m.res0 5 then some (m.w.headD 0) else none)] }) s1
  | .member => s1

/-! ### Which operations are cascaded (R415) -/

/-- An operation is cascaded. -/
def mCascaded (s : State) (r : MReq) : Bool :=
  cascJoined s && decide (r.op ≠ 5) && !badOp r &&
    (if r.op = 4 then (match ownHandle s r.handle r.master with | some h => h.casc | none => false)
     else decide (bf r.key.toNat 96 32 &&& cfg s 0x8C02 0x04 = cfg s 0x8C02 0x03)) &&
    !(decide (r.op = 1) && decide (bf r.mask.toNat 96 32 ≠ 2 ^ 32 - 1))

/-- Number of a requester: TS0-TS7, the host interface, the thread request port (R408). -/
def reqPort (r : MReq) : Nat :=
  match r.who with
  | .slice t => t % 8
  | .host _ => 8
  | _ => 9

/-- Accept a request: it waits while a renumber runs, joins the cascade's next round, or is performed. -/
def mRequest (r : MReq) (s : State) : State :=
  if s.mat.renum then modMat (fun x => { x with wait := x.wait ++ [r] }) s
  else if mCascaded s r then modMat (fun x => { x with out := x.out ++ [r] }) s
  else
    let p := mPerform r (modMat (fun x => { x with ptr := (reqPort r + 1) % 10 }) s)
    mDeliver r p.1 p.2

/-- Serve requests that wait together: in rotating order over the requesters, each requester's own in order (R408). -/
def mServe : Nat → List MReq → State → State
  | 0, _, s => s
  | n + 1, l, s => match firstBy (fun r => [(reqPort r + 10 - s.mat.ptr) % 10]) l with
    | some r => mServe n (l.erase r) (mRequest r s)
    | none => s

/-! ### Request areas (R423) -/

def mArea (s : State) (m : Nat) : MArea := tget {} s.mat.area m

/-- The request that a write of the value `v` to OP of area `m` starts. -/
def areaReq (s : State) (m v : Nat) : MReq :=
  let w := (mArea s m).w
  let x := (w.getD 5 0).toNat
  { who := .area m, master := if m < 768 then m else 0xC000, op := bf v 0 4, wc := bf v 4 3, auto := bit v 7, consume := bit v 8,
    hreq := bit v 9, cls := bf v 10 8, key := w.getD 1 0 ++ w.getD 0 0, mask := w.getD 3 0 ++ w.getD 2 0, pay := w.getD 4 0,
    prio := BitVec.ofNat 32 x, index := bf x 32 16, tcpos := bf x 48 2, handle := bf x 50 6 }

/-- A write of OP in area `m`: ignored and counted while BUSY (DESIGN CHOICE, log 81). -/
def mStart (m v : Nat) (s : State) : State :=
  if (mArea s m).busy then bump 0xC0A0 0x18 s
  else mRequest (areaReq s m v) (modMat (fun x => { x with area := tmod {} x.area m (fun q => { q with busy := true }) }) s)

/-- The OP word of a command row: the operation `op` and the other fields of `v`. -/
def opWord (op v : Nat) : Nat := bput v 0 4 op

/-- MATCH_SEARCH. -/
def execMatchSearch (area : Fin 769) (v : W64) (s : State) : Host.Outcome State Fault Refusal :=
  .next (mStart area.val (opWord 1 v.toNat) s)
/-- MATCH_INSERT. -/
def execMatchInsert (area : Fin 769) (v : W64) (s : State) : Host.Outcome State Fault Refusal :=
  .next (mStart area.val (opWord 2 v.toNat) s)
/-- MATCH_DELETE. -/
def execMatchDelete (area : Fin 769) (v : W64) (s : State) : Host.Outcome State Fault Refusal :=
  .next (mStart area.val (opWord 3 v.toNat) s)
/-- MATCH_STEP. -/
def execMatchStep (area : Fin 769) (v : W64) (s : State) : Host.Outcome State Fault Refusal :=
  .next (mStart area.val (opWord 4 v.toNat) s)
/-- HFREE. -/
def execHfree (area : Fin 769) (v : W64) (s : State) : Host.Outcome State Fault Refusal :=
  .next (mStart area.val (opWord 5 v.toNat) s)
/-- POST. -/
def execPost (area : Fin 769) (v : W64) (s : State) : Host.Outcome State Fault Refusal :=
  .next (mStart area.val (opWord 6 v.toNat) s)
/-- MATCH_READ. -/
def execMatchRead (area : Fin 769) (v : W64) (s : State) : Host.Outcome State Fault Refusal :=
  .next (mStart area.val (opWord 8 v.toNat) s)

/-! ### The sequencer (R411, R412) -/

/-- Key of a peer's EXP. -/
def expKey (ts peer : Nat) : Nat := ts * 2 ^ 32 + peer

def expOf (s : State) (ts peer : Nat) : BitVec 32 := tget 0 s.mat.exp (expKey ts peer)

/-- Issue an ARRIVE: its class-4 row is reserved. -/
def arrIssue (ts : Nat) (key : BitVec 128) (record : W64) (s : State) : State :=
  modMat (fun m => { m with arrq := m.arrq ++ [{ who := .slice ts, op := 7, key := key, pay := record }] }) s

def setExp (ts peer : Nat) (v : BitVec 32) (s : State) : State :=
  modMat (fun m => { m with exp := tset 0 m.exp (expKey ts peer) v }) s

/-- Issue, in MSEQ order, the held ARRIVEs of a peer that are due, and the late ones, while rows can be reserved. -/
def heldIssue : Nat → Nat → Nat → State → State
  | 0, _, _, s => s
  | n + 1, ts, peer, s =>
    let e := expOf s ts peer
    let due := s.mat.held.find? (fun h => decide (h.ts = ts ∧ h.peer = peer) && (h.late || decide (h.mseq = e)))
    match due with
    | some h =>
      if c4Free s = 0 then s
      else
        let s1 := modMat (fun m => { m with held := m.held.erase h }) s
        let s2 := if h.mseq = e then setExp ts peer (e + 1) s1 else s1
        heldIssue n ts peer (arrIssue ts h.key h.record s2)
    | none => s

/-- Hold an ARRIVE; false when the store is full (R411). -/
def arrHold (ts peer : Nat) (mseq : BitVec 32) (key : BitVec 128) (record : W64) (late : Bool) (s : State) : Bool × State :=
  if 16384 ≤ s.mat.held.length then (false, bump 0xC0A0 0x0F s)
  else (true, bump 0xC0A0 0x0E (modMat (fun m => { m with held := m.held ++
    [{ ts := ts, peer := peer, mseq := mseq, key := key, record := record, since := now s, late := late }] }) s))

/-- Submit the first packet of a SEND to the sequencer (R411); false when the hold store is full (DESIGN CHOICE, log
84). -/
def arrSubmit (ts peer : Nat) (mseq : BitVec 32) (key : BitVec 128) (record : W64) (s : State) : Bool × State :=
  let e := expOf s ts peer
  let d := (mseq - e).toNat
  if 2 ^ 31 ≤ d then
    let s1 := bump 0xC0A0 0x11 s
    if c4Free s = 0 then arrHold ts peer mseq key record true s1 else (true, arrIssue ts key record s1)
  else if d = 0 ∧ c4Free s ≠ 0 then
    (true, heldIssue s.mat.held.length ts peer (setExp ts peer (e + 1) (arrIssue ts key record s)))
  else arrHold ts peer mseq key record false s

/-- ARRIVE: the oldest issued ARRIVE is performed, and its slice learns the result. -/
def execArrive (s : State) : Host.Outcome State Fault Refusal :=
  .next (match s.mat.arrq with
    | [] => s
    | r :: rest => if s.mat.renum then s else mRequest r (modMat (fun m => { m with arrq := rest }) s))

/-- HELD_ARRIVE_ISSUE: a held ARRIVE of a peer that is due, or late, and for which a row can be reserved. -/
def execHeldArriveIssue (ts : Fin 8) (peer : BitVec 32) (s : State) : Host.Outcome State Fault Refusal :=
  .next (heldIssue s.mat.held.length ts.val peer.toNat s)

/-- MSEQ_HOLD_TIMEOUT: EXP skips to the MSEQ of the oldest held ARRIVE of a peer (R412). -/
def execMseqHoldTimeout (ts : Fin 8) (peer : BitVec 32) (s : State) : Host.Outcome State Fault Refusal :=
  .next (match s.mat.held.find? (fun h => decide (h.ts = ts.val ∧ h.peer = peer.toNat) && !h.late) with
    | some h =>
      if reached (expiryAt 2 (h.since + 1048576 * cfg s 0x8C01 0x02) h.since) s && decide (h.mseq ≠ expOf s ts.val peer.toNat) then
        let s1 := bump 0xC0A0 0x10 (setExp ts.val peer.toNat h.mseq s)
        let s2 := modMat (fun m => { m with held := m.held.map (fun x =>
          if x.ts = ts.val ∧ x.peer = peer.toNat ∧ 2 ^ 31 ≤ (x.mseq - h.mseq).toNat then { x with late := true } else x) }) s1
        heldIssue s2.mat.held.length ts.val peer.toNat s2
      else s
    | none => s)

/-! ### Renumbering (R402) -/

/-- 8C01h.05 = 1 starts a renumber. -/
def wrRenumber : WriteEff := fun _ v s =>
  if leNat v = 1 then (stOk, modMat (fun m => { m with renum := true }) s) else (stRange, s)

/-- RENUMBER. -/
def execRenumber (h : DHdr) (v : Bytes) (s : State) : Host.Outcome State Fault Refusal :=
  .next (dictWriteRow h 0x8C01 0x05 v wrRenumber s)

/-- The end of a renumber: every valid entry takes the rank of its D; `others` are the D values of the other members' entries. The
requests that waited proceed. -/
def renumEnd (others : List (BitVec 32)) (s : State) : State :=
      let mine := distinct ((s.mat.ent.filter (fun e => e.2.v)).map (fun e => mD s e.2.prio))
      let far := distinct (others.map (fun x => x.toNat))
      let all := distinct (mine ++ far)
      let rank := fun (d : Nat) => if s.mat.rerank then far.length + (mine.filter (fun x => decide (x < d))).length
        else (all.filter (fun x => decide (x < d))).length
      let total := if s.mat.rerank then far.length + mine.length else all.length
      let waiting := s.mat.wait
      let s1 := bump 0xC0A0 0x0C (modMat (fun m => { m with
        ent := m.ent.map (fun e => if e.2.v then (e.1, { e.2 with prio := BitVec.ofNat 32 (rank (mD s e.2.prio)) }) else e),
        base := 0, oseq := BitVec.ofNat 32 total, rgen := m.rgen + 1, renum := false, rerank := false, wait := [] }) s)
      mServe waiting.length waiting s1

/-! ### Dictionary entries (R398, R424) -/

/-- A write of BLKCLS: refused with IN_USE when a block that changes class holds a valid entry, or when reserved rows
would go. -/
def blkClsWrite (v : Nat) (s : State) : Nat × State :=
  let changed := (List.range 16).filter (fun b => decide (bf v (3 * b) 3 ≠ blkClass s b))
  if changed.any (fun b => !(blkValid s b).isEmpty) then (stInUse, s)
  else
    let s1 := setVal 0x8C01 0x01 (natLE 8 (v % 2 ^ 48)) s
    if (List.range 7).any (fun wc => decide (clsFree s1 wc < rowsHeld s wc)) then (stInUse, s)
    else (stOk, s1)

def wrBlkCls : WriteEff := fun _ v s => blkClsWrite (leNat v) s

/-- BLOCK_CLASS_WRITE. -/
def execBlockClassWrite (h : DHdr) (v : Bytes) (s : State) : Host.Outcome State Fault Refusal :=
  .next (dictWriteRow h 0x8C01 0x01 v wrBlkCls s)

/-- Word `w` of entry `i` (Table 12-1). -/
def mEntWord (s : State) (i w : Nat) : W64 :=
  let e := mEnt s i
  match w with
  | 0 => e.key.extractLsb' 0 64
  | 1 => e.key.extractLsb' 64 64
  | 2 => BitVec.ofNat 64 (e.prio.toNat + blkClass s (i / 4096) * 2 ^ 32 + b2n e.v * 2 ^ 35)
  | _ => e.pay

def rdMatchEntry : ReadEff := fun sid s =>
  let i := own s sid 0x8C03 0x01
  (stOk, ((List.range 4).map (fun w => natLE 8 (mEntWord s i w).toNat)).flatten, s)

/-- MATCH_ENTRY_READ. -/
def execMatchEntryRead (h : DHdr) (s : State) : Host.Outcome State Fault Refusal :=
  .next (dictReadRow h 0x8C03 0x02 rdMatchEntry s)

end Sys2Proof.Machine
end

