-- ==== Sys2Proof/Machine/Tec.lean ====
section
/-! DEFINITION. The tile event controller's commands (R327-R333, R338). -/

namespace Sys2Proof.Machine

/-- TEC_COMPLETION: a unit completes to a source of a tile. -/
def execTecCompletion (tile : Fin 12) (src : Fin 256) (s : State) : Host.Outcome State Fault Refusal :=
  .next (tecComplete tile.val src.val s)

/-- TEC_COMPLETE: a write of offset 50h. -/
def execTecComplete (tile : Fin 12) (v : W64) (s : State) : Host.Outcome State Fault Refusal :=
  .next (tecComplete tile.val (bf v.toNat 0 8) s)

/-- Set or clear ACTIVE of a completion source; other sources are ignored (Table 9-7). -/
def tecActive (tile src : Nat) (b : Bool) (s : State) : State :=
  if 32 ≤ src ∧ src < 256 then
    modTile tile (fun x => { x with active := BitVec.ofNat 256 (bitPut x.active.toNat src b) }) s
  else s

/-- TEC_ACTSET. -/
def execTecActset (tile : Fin 12) (v : W64) (s : State) : Host.Outcome State Fault Refusal :=
  .next (tecActive tile.val (bf v.toNat 0 8) true s)

/-- TEC_ACTCLR. -/
def execTecActclr (tile : Fin 12) (v : W64) (s : State) : Host.Outcome State Fault Refusal :=
  .next (tecActive tile.val (bf v.toNat 0 8) false s)

/-- Acknowledge a group: DELIV, count and timer clear, and a bit still pending counts as one event (R331). -/
def tecAck (tile g : Nat) (s : State) : State :=
  let s1 := modGroup tile g (fun x => { x with deliv := false, count := 0, start := none, expired := false }) s
  if tecPend s1 tile g ≠ 0 then tecCount tile g s1 else s1

/-- TEC_ACK. -/
def execTecAck (tile : Fin 12) (v : W64) (s : State) : Host.Outcome State Fault Refusal :=
  .next (tecAck tile.val (bf v.toNat 0 5) s)

/-- W1C of PEND: a level-mode source whose input is high stays pending (R328). -/
def tecPendClear (tile g bits : Nat) (s : State) : State :=
  modTile tile (fun x =>
    let keep := ((List.range 8).map (fun i =>
      let src := 8 * g + i
      if src < 16 ∧ bf x.sense.toNat (2 * src) 2 = 0 ∧ x.input.getLsbD src then 2 ^ i else 0)).sum
    { x with pend := x.pend &&& ~~~(BitVec.ofNat 256 ((bits % 256 &&& (255 - keep)) * 2 ^ (8 * g))) }) s

/-- A write of SENSE of a group: a source that is now in level mode with its input high is pending (R328). -/
def tecSense (tile g v : Nat) (s : State) : State :=
  modTile tile (fun x =>
    let sense : BitVec 64 := BitVec.ofNat 64 (bput x.sense.toNat (16 * g) 16 v)
    let high := ((List.range 8).map (fun i =>
      let src := 8 * g + i
      if src < 16 ∧ bf sense.toNat (2 * src) 2 = 0 ∧ x.input.getLsbD src then 2 ^ src else 0)).sum
    { x with sense := sense, pend := x.pend ||| BitVec.ofNat 256 high }) s

/-- TEC_PEND_CLEAR. -/
def execTecPendClear (tile : Fin 12) (g : Fin 32) (v : W64) (s : State) : Host.Outcome State Fault Refusal :=
  .next (tecPendClear tile.val g.val v.toNat s)

/-- A write of TEC_CTRL: when GDIS returns to 0 every group that qualifies delivers (R332). -/
def tecCtrl (tile : Nat) (g : Bool) (s : State) : State :=
  let s1 := modTile tile (fun x => { x with gdis := g }) s
  if g then s1 else (List.range 32).foldl (fun s g => tecDeliver tile g s) s1

/-- TEC_CTRL_WRITE. -/
def execTecCtrlWrite (tile : Fin 12) (v : W64) (s : State) : Host.Outcome State Fault Refusal :=
  .next (tecCtrl tile.val (v.getLsbD 0) s)

/-- A write of TEC_SWIN: the inputs of sources 1-15. -/
def tecSwin (tile v : Nat) (s : State) : State :=
  (List.range 15).foldl (fun s i => tecInput tile (i + 1) (bit v (i + 1)) s)
    (modTile tile (fun x => { x with swin := BitVec.ofNat 16 (v / 2 * 2) }) s)

/-- TEC_SWIN_WRITE. -/
def execTecSwinWrite (tile : Fin 12) (v : W64) (s : State) : Host.Outcome State Fault Refusal :=
  .next (tecSwin tile.val v.toNat s)

/-- A read of TEC_STRAY returns the count and clears it. -/
def tecStray (tile : Nat) (s : State) : W64 × State :=
  ((tileSt s tile).stray.zeroExtend 64, modTile tile (fun x => { x with stray := 0 }) s)

/-- TEC_STRAY_READ. -/
def execTecStrayRead (tile : Fin 12) (s : State) : Host.Outcome State Fault Refusal :=
  let r := tecStray tile.val s
  .next (emit (.reply "TEC_STRAY" tile.val [r.1.toNat]) r.2)

/-- TEC_GROUP_TIMER: the timer of a group expires T DL0 ticks after its first counted event (R330). -/
def execTecGroupTimer (tile : Fin 12) (g : Fin 32) (s : State) : Host.Outcome State Fault Refusal :=
  let x := tecGroup s tile.val g.val
  .next (match x.start with
    | some st =>
      if x.en && !x.deliv && !x.expired && decide (x.t ≠ 0) && reached (expiryAt 0 (st + 64 * x.t.toNat) st) s then
        tecDeliver tile.val g.val (modGroup tile.val g.val (fun x => { x with expired := true }) s)
      else s
    | none => s)

end Sys2Proof.Machine
end

