-- ==== Sys2Proof/Machine/Time.lean ====
section
/-! DEFINITION. Fabric time: the neighbour exchange, parent choice, grandmaster election, the servo, steps, holdover,
the 1588 edge, TIMEIN and TIMEOUT (chapter 02). -/

namespace Sys2Proof.Machine

/-! ### Rates -/

/-- Slew limit as a fraction in 2^-48 (R52). -/
def slew48 (s : State) : Int := (cfg s 0x2006 0x02 * 2 ^ 48 / 10 ^ 9 : Nat)

/-- The servo law for an offset in 2^-16 ns over `t` ns: freq, then rate (R52). -/
def servo (slew freq offset : Int) (t : Nat) : Int × Int :=
  let law := fun (f n : Int) => clampInt (tdivInt (f * (n * t) + offset * 2 ^ 32) (n * t)) slew
  let f := law freq 16
  (f, law f 2)

/-- Apply the servo to an offset. -/
def runServo (offset : Int) (t : Nat) (s : State) : State :=
  if s.led.restart.isSome then s
  else modClk (fun c => { c with freq := (servo (slew48 s) c.freq offset t).1, rate := (servo (slew48 s) c.freq offset t).2 }) s

/-- Mean of the rates applied in the last 64 intervals (R50, R62); of those held when fewer have passed, and up to the
interval in which the state changes (DESIGN CHOICE, log 135). -/
def meanRate (c : Clk) : Int := if c.rates.isEmpty then 0 else tdivInt c.rates.sum c.rates.length

/-- The clock after a step back: the boundaries and the exchange interval under way are those of the new FTC. -/
def backTo (ns : Nat) (c : Clk) : Clk :=
  { c with served := min c.served (ns / 64), ivlAt := min c.ivlAt (ns / 64), ivl := min c.ivl (ns / 131072)
           sub := tmap (fun y => { y with reqIvl := min y.reqIvl (ns / 131072) }) c.sub }

/-- Step the FTC by a signed number of 2^-16 ns; a forward step grows the FIA and is counted (R53, R71, R80). -/
def stepFtc (d : Int) (s : State) : State :=
  let s1 := modClk (fun c => { c with ftc := BitVec.ofInt 80 ((c.ftc.toNat : Int) + d) }) s
  if 0 < d then
    bump 0xC020 0x03 (modClk (fun c => { c with fia := c.fia + BitVec.ofNat 64 (now s1 - now s) }) s1)
  else modClk (backTo (now s1)) s1

/-! ### The exchange (R46-R49, R51) -/

def timeSub (s : State) (sp : Nat) : SubTime := tget {} s.clk.sub sp

def modTimeSub (sp : Nat) (f : SubTime → SubTime) (s : State) : State :=
  modClk (fun c => { c with sub := tmod {} c.sub sp f }) s

/-- Time role of a sub-port: 0 off, 1 ZMT TIME, 2 1588 (2003h). -/
def timeRole (s : State) (sp : Nat) : Nat := cfg s 0x2003 (sp + 1)

/-- The asymmetry entry of a sub-port, 2^-16 ns (2004h). -/
def asymOf (s : State) (sp : Nat) : Int := sxt (cfg s 0x2004 (sp + 1)) 32

/-- TFLAGS of the messages this device sends (Table 2-1, R63). -/
def timeFlags (s : State) : Nat := b2n (decide (s.clk.state = 3)) + 2 * b2n s.clk.ext

/-- A TIME payload of 64 bytes: timestamps as 2^-16 ns numbers. -/
def timePayload (s : State) (kind : Nat) (tseq : BitVec 16) (t1 t2 : Nat) : Bytes :=
  natBE 1 kind ++ natBE 1 (timeFlags s) ++ natBE 2 tseq.toNat ++ natBE 1 s.clk.gmPrio.toNat ++
    natBE 1 s.clk.hops.toNat ++ zeros 2 ++ natBE 8 s.clk.gmId.toNat ++ natBE 10 t1 ++ natBE 10 t2 ++ zeros 28

/-- The frame of a TIME message toward an endpoint, with the MAC addresses of the sub-port. -/
def timeFrame (s : State) (sp ep : Nat) (payload : Bytes) : Bytes :=
  let h : ZHdr := { ver := 1, op := opTime, maxv := cfg s 0x7000 0x01, plen := 64, srcEp := ownEp s, mlen := 64 }
  setMacs (neighbourMac s sp) (portMacOf sp) (zmtFrame s 7 (freeNat s) ep h payload)

/-- Queue a TIME frame ahead of every other frame of the sub-port (R46). -/
def queueTime (sp kind ep : Nat) (payload : Bytes) (s : State) : State :=
  ctlPush sp kind (timeFrame s sp ep payload) (drawn s)

/-- The last REQ of a sub-port has had no RESP within its interval and is not yet counted (C020h.06). -/
def missedReq (s : State) (ivl sp : Nat) : Bool :=
  let y := timeSub s sp
  decide (timeRole s sp = 1) && !y.answered && !y.missed && y.lastReq.isSome && decide (y.reqIvl < ivl)

/-- Count such a REQ, once (R80). -/
def countMissed (ivl sp : Nat) (s : State) : State :=
  if missedReq s ivl sp then bump 0xC020 0x06 (modTimeSub sp (fun y => { y with missed := true }) s) else s

/-- The last DL0 boundary reached is the one at which an exchange interval ends and the next begins (R46, R70). -/
def atInterval (s : State) : Bool := decide (0 < s.clk.served) && decide (s.clk.ivlAt = s.clk.served)

/-- TIME_REQ_SEND: one REQ at each boundary of 128 DL1 ticks (R46). The neighbour's endpoint id is in no entry, so the
destination address is a free value (DESIGN CHOICE, log 11). -/
def execTimeReqSend (sp : Fin 16) (s : State) : Host.Outcome State Fault Refusal :=
  let ivl := fireAt s / 131072
  let y := timeSub s sp.val
  if timeRole s sp.val = 1 ∧ linkUp s sp.val ∧ atInterval s ∧ y.reqIvl ≠ ivl then
    let s1 := modTimeSub sp.val (fun y => { y with reqIvl := ivl, tseq := y.tseq + 1 }) (countMissed ivl sp.val s)
    .next (queueTime sp.val 1 (freeNat s1 % 2 ^ 32) (timePayload s 1 y.tseq 0 0) (drawn s1))
  else .next s

/-- Discard a TIME message (R80). -/
def timeDiscard (s : State) : State := bump 0xC020 0x08 s

/-- A REQ is answered with one RESP that copies TSEQ and T1 and carries T2 (R46, R47). -/
def timeReq (sp ep : Nat) (b : Bytes) (s : State) : State :=
  queueTime sp 2 ep (timePayload s 2 (BitVec.ofNat 16 (beAt b 2 2)) (beAt b 16 10) (now80 s)) s

/-- A RESP that answers the last REQ gives T4, delay, offset and link delay; any other is discarded (R48). An odd half is
rounded toward zero in 2^-16 ns (DESIGN CHOICE, log 136). -/
def timeResp (sp : Nat) (b : Bytes) (s : State) : State :=
  let y := timeSub s sp
  match y.lastReq with
  | none => timeDiscard s
  | some (q, t1) =>
    if y.answered ∨ q.toNat ≠ beAt b 2 2 then timeDiscard s
    else
      let t1 : Int := t1.toNat
      let t2 : Int := beAt b 26 10
      let t3 : Int := beAt b 36 10
      let t4 : Int := now80 s
      let delay := tdivInt ((t4 - t1) - (t3 - t2)) 2 + asymOf s sp
      let offset := tdivInt ((t2 - t1) - (t4 - t3)) 2 - asymOf s sp
      let ds := (delay :: y.delays).take 16
      modTimeSub sp (fun y => { y with
        answered := true, offset := some offset, delays := ds, linkDelay := ds.foldl min delay, respAge := 0
        resp := some (beAt b 4 1, beAt b 8 8, beAt b 5 1, beAt b 1 1) }) s

/-- A TIME message. A sub-port of another role answers no REQ, and no RESP answers one there. -/
def timeMessage (sp ep : Nat) (b : Bytes) (s : State) : State :=
  if b.length < 64 then s
  else
    match beAt b 0 1 with
    | 1 => if timeRole s sp = 1 then timeReq sp ep b s else s
    | 2 => if timeRole s sp = 1 then timeResp sp b s else timeDiscard s
    | _ => timeDiscard s

/-- TIME_REQ_RECEIVE. -/
def execTimeReqReceive (sp : Fin 16) (srcEp : BitVec 32) (payload : Bytes) (s : State) :
    Host.Outcome State Fault Refusal :=
  .next (timeMessage sp.val srcEp.toNat payload s)

/-- TIME_RESP_RECEIVE. -/
def execTimeRespReceive (sp : Fin 16) (payload : Bytes) (s : State) : Host.Outcome State Fault Refusal :=
  .next (timeMessage sp.val 0 payload s)

/-! ### Foreign masters of the 1588 edge (R60, R61) -/

def ptpOf (s : State) (sp : Nat) : PtpPort := tget {} s.clk.ptp sp

def modPtp (sp : Nat) (f : PtpPort → PtpPort) (s : State) : State :=
  modClk (fun c => { c with ptp := tmod {} c.ptp sp f }) s

/-- This clock's own dataset: the defaults of IEEE 1588 (PRESUMED, log 13). -/
def ownDataset : List Nat := [128, 248, 0xFE, 0xFFFF, 128, Config.serial.toNat, 0, Config.serial.toNat * 65536]

/-- The best foreign master of a port: it has not stopped announcing for three of its intervals (PRESUMED, log 13). -/
def portForeign (s : State) (sp : Nat) : Option PtpForeign :=
  (ptpOf s sp).foreign.filter (fun f => timeRole s sp = 2 && linkUp s sp && decide (now s < f.heardAt + 3 * f.ivl))

/-- The better of two ports' masters. -/
def betterForeign (a b : Option (Nat × PtpForeign)) : Option (Nat × PtpForeign) :=
  match a, b with
  | some x, some y => if lexLt y.2.ds x.2.ds then some y else some x
  | some x, none => some x
  | none, y => y

/-- The best master heard on any port, with its port: Ebest of the default algorithm. -/
def bestForeign (s : State) : Option (Nat × PtpForeign) :=
  (List.range 16).foldl (fun b sp => betterForeign b ((portForeign s sp).map (fun f => (sp, f)))) none

/-- Role of a port by the default best master clock algorithm: 0 master, 1 slave, 2 passive. A port is passive when it hears
the grandmaster the device follows through another port by a longer path (PRESUMED, log 13). -/
def ptpRole (s : State) (sp : Nat) : Nat :=
  match bestForeign s with
  | none => 0
  | some (k, f) =>
    if !lexLt f.ds ownDataset then 0
    else if k = sp then 1
    else match portForeign s sp with
      | some g => if g.ds.take 6 = f.ds.take 6 then 2 else 0
      | none => 0

/-- The port is a slave of an external master. -/
def ptpSlave (s : State) (sp : Nat) : Bool := decide (ptpRole s sp = 1)

/-- An allowed external master is a phase source (R61). -/
def ptpSource (s : State) : Bool := cfgB s 0x2005 0x05 && (List.range 16).any (ptpSlave s)

/-- The grandmaster has an external reference: TIMEIN, an allowed 1588 master, or REF10M. -/
def ownExt (s : State) : Bool := cfgB s 0x2002 0x02 || cfgB s 0x2002 0x03 || ptpSource s

/-! ### Parent, election, state (R49, R50, R54) -/

/-- The RESP of a sub-port makes it hold a valid parent (R49). -/
def validResp (y : SubTime) : Option (Nat × Nat × Nat × Nat) :=
  match y.resp with
  | some r => if y.respAge < 8 ∧ r.2.1 ≠ Config.serial.toNat then some r else none
  | none => none

/-- A parent candidate: GM_PRIO, GM_ID, HOPS, sub-port, TFLAGS. -/
abbrev Cand := Nat × Nat × Nat × Nat × Nat

/-- Candidates in order of sub-port. -/
def candidates (s : State) : List Cand :=
  (List.range 16).filterMap (fun sp =>
    if timeRole s sp ≠ 1 then none
    else (validResp (timeSub s sp)).map (fun r => (r.1, r.2.1, r.2.2.1, sp, r.2.2.2)))

/-- The tuple comparison, field by field; equal tuples keep the lower port and sub-port. -/
def candLt (a b : Cand) : Bool :=
  decide (a.1 < b.1) || (decide (a.1 = b.1) && (decide (a.2.1 < b.2.1) ||
    (decide (a.2.1 = b.2.1) && decide (a.2.2.1 < b.2.2.1))))

/-- The parent (R49). -/
def bestCand (cs : List Cand) : Option Cand :=
  cs.foldl (fun b c => match b with | none => some c | some x => if candLt c x then some c else some x) none

/-- The device's own tuple is lowest (R50). -/
def elected (s : State) (best : Option Cand) : Bool :=
  let prio := cfg s 0x2002 0x01
  decide (prio < 0xFF) &&
    (match best with
      | none => true
      | some c => decide (prio < c.1) || (decide (prio = c.1) && (decide (Config.serial.toNat < c.2.1) ||
          (decide (Config.serial.toNat = c.2.1) && decide (0 ≤ c.2.2.1)))))

/-- Become or stay grandmaster. A takeover keeps the mean rate as correction (R50); with REF10M alone, freq is the
measured error, a value no command gives: a free value (DESIGN CHOICE, log 12). -/
def toGrandmaster (s : State) : State :=
  let take := fun (c : Clk) => if c.state = 4 then c else { c with freq := meanRate c, rate := meanRate c }
  let s1 := modClk (fun c => { take c with
    state := 4, everLocked := true, parent := none, hops := 0, gmPrio := BitVec.ofNat 8 (cfg s 0x2002 0x01),
    gmId := Config.serial, ext := ownExt s, offsetEst := 0, goodRun := 0, badRun := 0 }) s
  if cfgB s 0x2002 0x03 && !cfgB s 0x2002 0x02 && !ptpSource s then
    let e := clampInt (sxt (freeNat s) 48) (slew48 s)
    modClk (fun c => { c with freq := e, rate := e }) (drawn s1)
  else s1

/-- Enter HOLDOVER with the mean rate correction (R62). GM_PRIO, GM_ID and HOPS stay the lost parent's, or the device's
own when it was grandmaster (DESIGN CHOICE, log 137). -/
def toHoldover (s : State) : State :=
  bump 0xC020 0x04 (modClk (fun c => { c with
    state := 3, parent := none, rate := meanRate c, holdStart := now80 s, goodRun := 0, badRun := 0 }) s)

/-- Lock and loss of lock from the offset of an exchange, in 2^-16 ns (Table 2-2). -/
def lockTrack (o : Int) (c : Clk) : Clk :=
  let g := if o.natAbs ≤ 2 * 65536 then c.goodRun + 1 else 0
  let b := if 5 * 65536 < o.natAbs then c.badRun + 1 else 0
  if c.state = 1 ∧ 16 ≤ g then { c with state := 2, everLocked := true, goodRun := 0, badRun := 0 }
  else if c.state = 2 ∧ 4 ≤ b then { c with state := 1, goodRun := 0, badRun := 0 }
  else { c with goodRun := g, badRun := b }

/-- Follow parent `c`: the first valid parent in FREE_RUN, or a lag above the threshold, steps the FTC; otherwise the
servo runs on the offset of this interval (R52, R53). Every change to a parent that was not the one before is counted, the
first one included, and a loss is not (DESIGN CHOICE, log 138). -/
def followParent (c : Cand) (s : State) : State :=
  let y := timeSub s c.2.2.2.1
  let first := decide (s.clk.state = 0)
  let s0 := if s.clk.parent ≠ some c.2.2.2.1 then bump 0xC020 0x05 s else s
  let s1 := modClk (fun k => { k with
    parent := some c.2.2.2.1, hops := BitVec.ofNat 8 (min (c.2.2.1 + 1) 0xFF), gmPrio := BitVec.ofNat 8 c.1,
    gmId := BitVec.ofNat 64 c.2.1, ext := bit c.2.2.2.2 1,
    state := if k.state = 1 ∨ k.state = 2 then k.state else 1,
    goodRun := if k.state = 1 ∨ k.state = 2 then k.goodRun else 0,
    badRun := if k.state = 1 ∨ k.state = 2 then k.badRun else 0 }) s0
  match y.offset with
  | none => s1
  | some o =>
    let s2 := modClk (fun k => { k with offsetEst := BitVec.ofInt 64 o }) s1
    if first then stepFtc o s2
    else if (cfg s 0x2006 0x01 * 65536 : Nat) < o then modClk (lockTrack o) (stepFtc o s2)
    else modClk (lockTrack o) (runServo o 131072 s2)

/-- Some port received an answering RESP that names another grandmaster in this interval. -/
def freshParent (s : State) : Bool :=
  (List.range 16).any (fun sp => decide (timeRole s sp = 1) && decide ((timeSub s sp).respAge = 0) &&
    (validResp (timeSub s sp)).isSome)

/-- EXCHANGE_INTERVAL_END: parent, election, servo, state (R49-R54, R62; DESIGN CHOICE, log 46). -/
def execExchangeIntervalEnd (s : State) : Host.Outcome State Fault Refusal :=
  let ivl := fireAt s / 131072
  if ivl ≤ s.clk.ivl then .next s
  else
    let s1 := (List.range 16).foldl (fun s sp => countMissed ivl sp s) (modClk (fun c => { c with
      ivl := ivl, noParent := if freshParent s then 0 else c.noParent + 1 }) s)
    let best := bestCand (candidates s)
    let s2 :=
      if elected s best then toGrandmaster s1
      else match best with
        | some c => followParent c s1
        | none =>
          if s.clk.state = 4 then toHoldover s1
          else if (s.clk.state = 1 ∨ s.clk.state = 2) ∧ 8 ≤ s1.clk.noParent then toHoldover s1
          else modClk (fun c => { c with parent := none }) s1
    .next (modClk (fun c => { c with
      rates := (c.rate :: c.rates).take 64
      sub := tmap (fun y => { y with offset := none, respAge := y.respAge + 1 }) c.sub }) s2)

/-! ### Time-set, TIMEIN, TIMEOUT -/

/-- 2002h.05: a forward set on the grandmaster (R58). -/
def wrTimeSet : WriteEff := fun _ v s =>
  let t := leNat v / 65536
  if s.clk.state ≠ 4 then (stNotGm, s)
  else if t ≤ now s then (stBackward, s)
  else (stOk, bump 0xC020 0x03 (modClk (fun c => { c with
    ftc := ofNs t, acc := 0, fia := c.fia + BitVec.ofNat 64 (t - now s) }) s))

/-- TIME_SET. -/
def execTimeSet (h : DHdr) (v : Bytes) (s : State) : Host.Outcome State Fault Refusal :=
  .next (dictWriteRow h 0x2002 0x05 v wrTimeSet s)

/-- The signed distance, in 2^-16 ns, from the FTC to the nearest whole second, forward from an exact half (DESIGN CHOICE,
log 139). -/
def secondOffset (t80 : Nat) : Int :=
  let sec := 10 ^ 9 * 65536
  let r := t80 % sec
  if 2 * r < sec then -(r : Int) else ((sec - r : Nat) : Int)

/-- TIMEIN_EDGE: a grandmaster with TIMEIN enabled aligns its FTC to whole seconds; an edge within 0.5 s of the last
accepted one is ignored (R52, R53, R56, R668). -/
def execTimeinEdge (s : State) : Host.Outcome State Fault Refusal :=
  let early := match s.clk.timeinLast with | some t => decide (now s < t + 500000000) | none => false
  if early then .next s
  else
    let s1 := modClk (fun c => { c with timeinLast := some (now s) }) s
    if !cfgB s 0x2002 0x02 || decide (s.clk.state ≠ 4) then .next s1
    else
      let o := secondOffset (now80 s)
      .next (if (cfg s 0x2006 0x01 * 65536 : Nat) < o then stepFtc o s1 else runServo o 1000000000 s1)

/-- TIMEOUT may be driven high (R59). -/
def timeoutOn (s : State) : Bool := cfgB s 0x2007 0x01 && decide (2 ≤ s.clk.state.toNat) && decide (s.clk.state.toNat ≤ 4)

/-- TIMEOUT_PULSE_START: high from each whole second (R59). -/
def execTimeoutPulseStart (s : State) : Host.Outcome State Fault Refusal :=
  let sec := now s / 10 ^ 9
  if timeoutOn s && !s.clk.timeout && decide (now s % 10 ^ 9 < 100000000) then
    .next (emit (.pin "TIMEOUT" true) (modClk (fun c => { c with timeout := true, pulseSec := sec }) s))
  else .next s

/-- TIMEOUT_PULSE_END: low 100 ms after the whole second, and in every case in which R59 does not drive it high. -/
def execTimeoutPulseEnd (s : State) : Host.Outcome State Fault Refusal :=
  if s.clk.timeout && (!timeoutOn s || decide (s.clk.pulseSec * 10 ^ 9 + 100000000 ≤ now s)) then
    .next (emit (.pin "TIMEOUT" false) (modClk (fun c => { c with timeout := false }) s))
  else .next s

/-! ### The IEEE 1588 edge (R60, R61) -/

/-- PTP time in ns from FTC units: TAI after the PTP epoch (2002h.04). -/
def ptpNs (s : State) (t80 : Nat) : Nat := t80 / 65536 + cfg s 0x2002 0x04

/-- A 1588 timestamp: 6 bytes of seconds and 4 of nanoseconds. -/
def ptpStamp (ns : Nat) : Bytes := natBE 6 (ns / 10 ^ 9) ++ natBE 4 (ns % 10 ^ 9)

/-- A received 1588 timestamp in 2^-16 ns on the FTC's scale. -/
def ptpRead (s : State) (b : Bytes) (o : Nat) : Int :=
  (((beAt b o 6 * 10 ^ 9 + beAt b (o + 6) 4 : Nat) : Int) - (cfg s 0x2002 0x04 : Nat)) * 65536

/-- Port identity: clock identity and port number. -/
def ptpIdent (sp : Nat) : Bytes := natBE 8 Config.serial.toNat ++ natBE 2 (sp + 1)

/-- A 1588 message: the common header and a body. -/
def ptpMsg (s : State) (sp ty seq flags : Nat) (body : Bytes) : Bytes :=
  natBE 1 ty ++ [2] ++ natBE 2 (34 + body.length) ++ natBE 1 (cfg s 0x2005 0x01) ++ [0] ++ natBE 2 flags ++ zeros 8 ++
    zeros 4 ++ ptpIdent sp ++ natBE 2 seq ++
    natBE 1 (if ty = 0 then 0 else if ty = 1 then 1 else if ty = 8 then 2 else if ty = 9 then 3 else 5) ++
    natBE 1 (toTwos (sxt (cfg s 0x2005 0x04) 32) 8) ++ body

/-- correctionField in 2^-16 ns. -/
def ptpCorr (b : Bytes) : Int := sxt (beAt b 8 8) 64

/-- Peer to peer delay mechanism selected. -/
def ptpP2p (s : State) : Bool := decide (cfg s 0x2005 0x02 = 1)

/-- A foreign dataset of an Announce, compared field by field (the default algorithm). -/
def announceSet (b : Bytes) : List Nat :=
  [beAt b 47 1, beAt b 48 1, beAt b 49 1, beAt b 50 2, beAt b 52 1, beAt b 53 8, beAt b 61 2, beAt b 20 10]

/-- The interval that a logarithm of seconds names, ns: 2^n s. -/
def logNs (n : Int) : Nat := if 0 ≤ n then 10 ^ 9 * 2 ^ n.toNat else 10 ^ 9 / 2 ^ n.natAbs

/-- logMessageInterval of a message. -/
def ptpLog (b : Bytes) : Int := sxt (beAt b 33 1) 8

/-- Length of a message of the subset before its TLVs; none for a type outside it. -/
def ptpLen (ty : Nat) : Option Nat :=
  match ty with
  | 0 | 1 | 8 => some 44
  | 2 | 3 | 9 | 0xA => some 54
  | 0xB => some 64
  | _ => none

/-- Types of the TLVs that follow a message body, within its messageLength. -/
def tlvTypes : Nat → Bytes → List Nat
  | 0, _ => []
  | n + 1, b => if b.length < 4 then [] else beAt b 0 2 :: tlvTypes n (b.drop (4 + beAt b 2 2))

/-- The message carries an option that Table 2-3 leaves out: an authentication TLV or an alternate timescale
(PRESUMED, log 13). -/
def ptpOption (ty : Nat) (b : Bytes) : Bool :=
  match ptpLen ty with
  | none => true
  | some n =>
    let ts := tlvTypes b.length ((b.take (beAt b 2 2)).drop n)
    ts.contains 0x8009 || ts.contains 0x0009 || (decide (ty = 0xB) && !bit (beAt b 6 2) 3)

/-- A message that Table 2-3 supports (R60). -/
def ptpInSubset (b : Bytes) : Bool :=
  let ty := beAt b 0 1 % 16
  (match ptpLen ty with | some n => decide (n ≤ b.length) && decide (n ≤ beAt b 2 2) | none => false) && !ptpOption ty b &&
    (!(ty == 0 || ty == 8) || (decide (-7 ≤ ptpLog b) && decide (ptpLog b ≤ 0)))

/-- The interval of Sync messages in ns (2005h.04). -/
def syncNs (s : State) : Nat := 10 ^ 9 / 2 ^ (sxt (cfg s 0x2005 0x04) 32).natAbs

/-- The offset of an external master, allowed by 2005h.05, disciplines a grandmaster (R52, R61). -/
def ptpFeed (sp : Nat) (o : Int) (s : State) : State :=
  if cfgB s 0x2005 0x05 && decide (s.clk.state = 4) && !cfgB s 0x2002 0x02 && ptpSlave s sp then
    (if (cfg s 0x2006 0x01 * 65536 : Nat) < o then stepFtc o s else runServo o (syncNs s) s)
  else s

/-- Send a 1588 message from the MAC address of the port (R677). -/
def sendPtp (sp : Nat) (b : Bytes) (s : State) : State := emit (.ptp sp (portMacOf sp) b) s

/-- Discard a 1588 message (R60). -/
def ptpDiscard (s : State) : State := bump 0xC020 0x07 s

/-- Act on a message of the subset. -/
def ptpAct (sp : Nat) (b : Bytes) (s : State) : State :=
  let ty := beAt b 0 1 % 16
  let seq := beAt b 30 2
  let src := beAt b 20 10
  let x := ptpOf s sp
  let t : Int := now80 s
  let selected := ptpSlave s sp && (match x.foreign with | some f => f.ds.getLast? == some src | none => false)
  if ty = 0xB then
    let f : PtpForeign := { ds := announceSet b, heardAt := now s, ivl := logNs (ptpLog b) }
    let better := match portForeign s sp with
      | none => true
      | some g => lexLt f.ds g.ds || f.ds.getLast? == g.ds.getLast?
    if better && decide (beAt b 61 2 < 255) && decide (src / 65536 ≠ Config.serial.toNat) then
      modPtp sp (fun x => { x with foreign := some f }) s
    else s
  else if (ty = 0 ∨ ty = 8) ∧ !selected then s
  else if ty = 0 then
    if bit (beAt b 6 2) 9 then modPtp sp (fun x => { x with sync := some (seq, src, none, t - ptpCorr b) }) s
    else
      ptpFeed sp (ptpRead s b 34 + ptpCorr b + x.pathDelay - t)
        (modPtp sp (fun x => { x with sync := some (seq, src, some (ptpRead s b 34), t - ptpCorr b) }) s)
  else if ty = 8 then
    match x.sync with
    | some (q, c, none, t2) =>
      if q = seq ∧ c = src then
        ptpFeed sp (ptpRead s b 34 + ptpCorr b + x.pathDelay - t2)
          (modPtp sp (fun x => { x with sync := some (q, c, some (ptpRead s b 34 + ptpCorr b), t2) }) s)
      else s
    | _ => s
  else if ty = 1 then
    if ptpP2p s then ptpDiscard s
    else sendPtp sp (ptpMsg s sp 9 seq 0 (ptpStamp (ptpNs s (now80 s)) ++ slice b 20 10)) s
  else if ty = 9 then
    if ptpP2p s then ptpDiscard s
    else match x.req, x.sync with
      | some (q, t3), some (_, _, some t1, t2) =>
        if q = seq then
          modPtp sp (fun x => { x with
            pathDelay := tdivInt ((t2 - t1) + (ptpRead s b 34 - ptpCorr b - t3)) 2, req := none }) s
        else s
      | _, _ => s
  else if ty = 2 then
    if !ptpP2p s then ptpDiscard s
    else
      sendPtp sp (ptpMsg s sp 0xA seq 0 (ptpStamp (ptpNs s (now80 s)) ++ slice b 20 10))
        (sendPtp sp (ptpMsg s sp 3 seq 0x200 (ptpStamp (ptpNs s (now80 s)) ++ slice b 20 10)) s)
  else if ty = 3 then
    if !ptpP2p s then ptpDiscard s
    else match x.req with
      | some (q, t1) =>
        if q ≠ seq then s
        else if bit (beAt b 6 2) 9 then modPtp sp (fun x => { x with presp := some (seq, ptpRead s b 34, t) }) s
        else modPtp sp (fun x => { x with pathDelay := tdivInt (t - t1 - ptpCorr b) 2, req := none }) s
      | none => s
  else if ty = 0xA then
    if !ptpP2p s then ptpDiscard s
    else match x.req, x.presp with
      | some (q, t1), some (q2, t2, t4) =>
        if q = seq ∧ q2 = seq then
          modPtp sp (fun x => { x with
            pathDelay := tdivInt ((t4 - t1) - (ptpRead s b 34 - t2) - ptpCorr b) 2, req := none, presp := none }) s
        else s
      | _, _ => s
  else ptpDiscard s

/-- PTP_MESSAGE_RECEIVE: a message of the port's transport, version 2 and the domain is acted on; any other is
discarded (R60, R61; DESIGN CHOICE, log 131). -/
def execPtpMessageReceive (sp : Fin 16) (transport : Nat) (msg : Bytes) (s : State) :
    Host.Outcome State Fault Refusal :=
  if timeRole s sp.val ≠ 2 ∨ !linkUp s sp.val then .next s
  else if transport ≠ cfg s 0x2005 0x03 ∨ msg.length < 34 ∨ beAt msg 1 1 % 16 ≠ 2 ∨ beAt msg 4 1 ≠ cfg s 0x2005 0x01 ∨
      !ptpInSubset msg then
    .next (ptpDiscard s)
  else .next (ptpAct sp.val msg s)

/-- The dataset this clock announces: its external master's, one step further, while it follows one; else its own. -/
def announced (s : State) : List Nat :=
  match bestForeign s with
  | some (_, f) => if lexLt f.ds ownDataset then f.ds.set 6 (f.ds.getD 6 0 + 1) else ownDataset
  | none => ownDataset

/-- The Announce this clock sends as a master. -/
def ptpAnnounce (s : State) (sp seq : Nat) : Bytes :=
  let d := fun i => (announced s).getD i 0
  ptpMsg s sp 0xB seq 0x0008 (ptpStamp (ptpNs s (now80 s)) ++ natBE 2 0 ++ [0] ++ natBE 1 (d 0) ++ natBE 1 (d 1) ++
    natBE 1 (d 2) ++ natBE 2 (d 3) ++ natBE 1 (d 4) ++ natBE 8 (d 5) ++ natBE 2 (d 6) ++ [0xA0])

/-- PTP_MESSAGE_INTERVAL: at each message interval, on DL2, a master sends Announce, a two-step Sync and its Follow_Up;
a slave sends Delay_Req; with the peer mechanism either sends Pdelay_Req (Table 2-3). -/
def execPtpMessageInterval (sp : Fin 16) (s : State) : Host.Outcome State Fault Refusal :=
  let x := ptpOf s sp.val
  let ivl := now s / (roundUp (syncNs s) (dlPeriod 2))
  if timeRole s sp.val ≠ 2 ∨ !linkUp s sp.val ∨ ivl ≤ x.lastIvl then .next s
  else
    let q := x.seq.toNat
    let st := ptpStamp (ptpNs s (now80 s))
    let slave := ptpSlave s sp.val
    let s1 := if ptpRole s sp.val = 0 then
        sendPtp sp.val (ptpMsg s sp.val 8 q 0 st) (sendPtp sp.val (ptpMsg s sp.val 0 q 0x200 (zeros 10))
          (sendPtp sp.val (ptpAnnounce s sp.val q) s))
      else s
    let s2 := if ptpP2p s then sendPtp sp.val (ptpMsg s sp.val 2 q 0 (zeros 20)) s1
      else if slave then sendPtp sp.val (ptpMsg s sp.val 1 q 0 (zeros 10)) s1 else s1
    .next (modPtp sp.val (fun x => { x with
      seq := x.seq + 1, lastIvl := ivl,
      req := if ptpP2p s || slave then some (q, (now80 s : Int)) else x.req }) s2)

end Sys2Proof.Machine
end

