-- ==== Sys2Proof/Machine/Cop.lean ====
section
/-! DEFINITION. The coprocessor instructions: issue, commit, and what each function does (chapter 13). -/

namespace Sys2Proof.Machine

/-! ### Issue (R273, R427-R429, R438) -/

/-- The unit's rotating pointer moves past core `c`; position 8 of unit 2 is the deposit port (DESIGN CHOICE, log 21). -/
def copPtr (tile unit c : Nat) (s : State) : State :=
  modCop tile (fun u =>
    if unit = 0 then { u with ptr0 := (c + 1) % 8 } else if unit = 1 then { u with ptr1 := (c + 1) % 8 }
    else { u with ptr2 := (c + 1) % 9 }) s

/-- Issue a CPX: RESERVED_OP when its register fields break its table (`ok` false), CP_DISABLED, rejection when the unit
is busy, by what is in flight there or by the sender's word (`busy`: it lost the choice, or the unit's cycles are not
over), else acceptance; it retires when the core commits it. `regs` are the registers it reads and writes (R273, R428,
R429; DESIGN CHOICE, log 26). -/
def runCpx (t unit fn rd ra rb : Nat) (ok busy : Bool) (regs : List Nat) (s : State) : State :=
  let word := wordC 0x70 rd ra rb unit fn
  if canIssue s t clsC (rd :: regs) then
    let s1 := issue t clsC rd (rd :: regs) 0 s
    if !ok then faultInst t 0x01 word s1
    else if !cpEnabled s1 t unit then faultAt t 0x05 s1
    else if busy || bit (busyUnits s1 t) unit then
      retire t (nextPc s t) (bumpTile t 0x08 (modThr t (fun x =>
        { x with cs := BitVec.ofNat 64 (bput x.cs.toNat 0 4 (1 + 2 * unit)) }) s1))
    else
      let kidx := bf (getReg s t (ra + 1)).toNat 48 10
      let c : Cpx := { unit := unit, fn := fn, rd := rd, ra := ra, rb := rb, a := getReg s t ra, b := getReg s t rb,
                       a1 := getReg s t (ra + 1), a2 := getReg s t (ra + 2), a3 := getReg s t (ra + 3),
                       b1 := getReg s t (rb + 1), lvl := level s1 t, pc := (thr s t).pc.toNat,
                       key := if unit = 1 then tfind s.cops.key kidx else none }
      bump (0xC0B0 + tileOf t) (unit + 1) (copPtr (tileOf t) unit (coreOf t % 8)
        (modThr t (fun x => { x with cpx := x.cpx ++ [c], pc := x.pc + 1 }) s1))
  else s

/-! ### Memory operands (R431-R434) -/

/-- The place of an operand in its tile's store, when it lies wholly there with the alignment. -/
def copPlace (tile a len align : Nat) : Option Nat :=
  let base := 0xE000000000 + tile * 0x200000
  let o := if base ≤ a ∧ a < base + 0x200000 then some (a - base)
    else if 0xE401000000 ≤ a ∧ a < 0xE401200000 then some (a - 0xE401000000) else none
  match o with
  | some k => if k + len ≤ 0x200000 ∧ a % align = 0 then some (base + k) else none
  | none => none

/-- The first poisoned word among `len` bytes from `a`. -/
def copPoison (s : State) (a len : Nat) : Option Nat :=
  ((List.range (len / 8 + 2)).map (fun i => a / 8 * 8 + 8 * i)).find? (fun w => decide (w < a + len) && tagP (memTag s w))

/-! ### Results -/

/-- A status word (R447). -/
def cpStatus (code len : Nat) : W72 := BitVec.ofNat 72 (code + len * 2 ^ 16)

/-- What a coprocessor does to its thread: nothing, when the thread has been reset since the commit (R430). -/
def cpThr (t : Nat) (c : Cpx) (f : Thread → Thread) (s : State) : State := if c.dead then s else modThr t f s

/-- A coprocessor writes a register of its thread. -/
def cpReg (t : Nat) (c : Cpx) (r : Nat) (v : W72) (s : State) : State := cpThr t c (Thread.setReg r v) s

/-- The thread learns of poison at its next DEC (R434). -/
def cpPoison (t : Nat) (c : Cpx) (a : Nat) (s : State) : State :=
  bump (0xC0B0 + tileOf t) 0x0C (cpThr t c (fun x => { x with
    poisons := poisonInsert (a, wordC 0x70 c.rd c.ra c.rb c.unit c.fn, x.loads) x.poisons, loads := x.loads + 1 }) s)

/-- Set or clear the thread's XD bit of a slot (R435). -/
def setXd (t : Nat) (c : Cpx) (slot : Nat) (b : Bool) (s : State) : State :=
  cpThr t c (fun x => { x with cs := BitVec.ofNat 64 (bitPut x.cs.toNat (16 + slot) b) }) s

/-! ### CRC/hash unit (R436, R437) -/

/-- Bit `i` of a Toeplitz key; bits beyond 319 read 0. -/
def tpzBit (s : State) (tile k i : Nat) : Bool :=
  if i < 320 then (tget 0 (copOf s tile).tpz (5 * k + i / 64)).getLsbD (63 - i % 64) else false

/-- 32 key bits from bit `g`, the first in bit 31. -/
def tpzWord (s : State) (tile k g : Nat) : Nat :=
  ((List.range 32).map (fun j => b2n (tpzBit s tile k (g + j)) * 2 ^ (31 - j))).sum

/-- The Toeplitz contribution of `n` bytes at byte position `p`. -/
def toeplitz (s : State) (tile k n p x : Nat) : Nat :=
  (List.range (8 * n)).foldl (fun acc i =>
    if bit (bf x (8 * (i / 8)) 8) (7 - i % 8) then acc ^^^ tpzWord s tile k (8 * p + i) else acc) 0

/-- What a CRC/hash function returns. -/
def crcResult (s : State) (t : Nat) (c : Cpx) : Nat :=
  let n := c.fn % 8 + 1
  let x := c.a.toNat % 2 ^ 64
  match c.fn / 64 with
  | 0 => crc32cRaw (bf c.b.toNat 0 32) (natLE n x)
  | 1 => crc64Raw (bf c.b.toNat 0 64) (natLE n x)
  | _ => bf c.b.toNat 0 32 ^^^ toeplitz s (tileOf t) (bf c.fn 4 2) n (bf c.b.toNat 40 6) x

/-! ### AES-GCM unit (R438-R441) -/

/-- The hash subkey of a key. -/
def gcmH (key : Bytes) : Nat := beNat (aes256 key (zeros 16))

/-- ENC and DEC of a chunk: the output, Y and CTR. -/
def gcmChunk (key : Bytes) (iv : Bytes) (enc : Bool) : Nat → Bytes → Nat → Nat → Bytes × Nat × Nat
  | 0, _, y, ctr => ([], y, ctr)
  | n + 1, bs, y, ctr =>
    if bs.isEmpty then ([], y, ctr)
    else
      let b := bs.take 16
      let out := xorBytes b (aes256 key (iv ++ natBE 4 ctr))
      let y2 := ghashStep (gcmH key) y (if enc then out else b)
      let r := gcmChunk key iv enc n (bs.drop 16) y2 ((ctr + 1) % 2 ^ 32)
      (out ++ r.1, r.2)

/-- AAD of a chunk. -/
def gcmAad (h : Nat) : Nat → Bytes → Nat → Nat
  | 0, _, y => y
  | n + 1, bs, y => if bs.isEmpty then y else gcmAad h n (bs.drop 16) (ghashStep h y (bs.take 16))

/-- Write Y, CTR and the status OK. -/
def gcmDone (t : Nat) (c : Cpx) (y : Nat) (ctr : Option Nat) (s : State) : State :=
  let yb := natBE 16 y
  let s1 := match ctr with
    | some k => cpReg t c (c.ra + 3) (BitVec.ofNat 72 (bput c.a3.toNat 32 32 k)) s
    | none => s
  cpReg t c c.rd 0 (cpReg t c (c.rb + 1) (BitVec.ofNat 72 (leAt yb 8 8)) (cpReg t c c.rb (BitVec.ofNat 72 (leAt yb 0 8)) s1))

/-- A GCM instruction acts, on the operands the unit took (R438, R439). -/
def gcmCommit (t : Nat) (c : Cpx) (s : State) : State :=
  let tile := tileOf t
  let op := c.fn / 128
  let w0 := c.a.toNat
  let w1 := c.a1.toNat
  let w3 := c.a3.toNat
  let iv := natLE 8 c.a2.toNat ++ natLE 4 w3
  let y := beNat (natLE 8 c.b.toNat ++ natLE 8 c.b1.toNat)
  match c.key with
  | none => bump (0xC0B0 + tile) 0x0A (cpReg t c c.rd (cpStatus 1 0) s)
  | some (k, u) =>
    if c.lvl = 0 ∧ !u then bump (0xC0B0 + tile) 0x0A (cpReg t c c.rd (cpStatus 2 0) s)
    else
      let key := natLE 32 k.toNat
      if op = 3 then
        let sy := ghashStep (gcmH key) y (natBE 8 (w0 % 2 ^ 64) ++ natBE 8 (w1 % 2 ^ 48))
        gcmDone t c (beNat (aes256 key (iv ++ natBE 4 1)) ^^^ sy) none s
      else
        let n := c.fn % 64 + 1
        (copPlace tile (bf w0 0 48) n 8).elim (cpReg t c c.rd (cpStatus 3 0) s) (fun src =>
          (if op = 2 then some src else copPlace tile (bf w1 0 48) n 8).elim (cpReg t c c.rd (cpStatus 3 0) s) (fun dst =>
            match copPoison s src n with
            | some a => cpPoison t c a s
            | none =>
              let data := memBytes s src n
              if op = 2 then gcmDone t c (gcmAad (gcmH key) 4 data y) none s
              else
                let r := gcmChunk key iv (decide (op = 0)) 4 data y (bf w3 32 32)
                gcmDone t c r.2.1 (some r.2.2) (storeBytes dst r.1 s)))

/-! ### Exact-sum unit (R447-R454) -/

/-- Count what a fold sets. -/
def xsCount (tile : Nat) (old new : XSlot) (s : State) : State :=
  if new.flags.getLsbD 3 && !old.flags.getLsbD 3 then bump (0xC0B0 + tile) 0x08 s else s

/-- Fold into a slot from a thread: status OK, XD. -/
def xsFold (t slot flags : Nat) (sum : Int) (c : Cpx) (s : State) : State :=
  let old := slotOf s (tileOf t) slot
  cpReg t c c.rd 0 (setXd t c slot true (xsCount (tileOf t) old (old.fold flags sum) (modSlot (tileOf t) slot (XSlot.fold flags sum) s)))

/-- Put a form into a slot: MERGE adds it, REST replaces with it. -/
def xsForm (t slot : Nat) (rest : Bool) (f : Option (Int × Nat)) (c : Cpx) (s : State) : State :=
  match f with
  | none => bump (0xC0B0 + tileOf t) 0x09 (cpReg t c c.rd (cpStatus 4 0) s)
  | some (v, fl) =>
    if rest then
      cpReg t c c.rd 0 (setXd t c slot true (modSlot (tileOf t) slot (fun x =>
        { x with v := BitVec.ofInt 2232 v, flags := BitVec.ofNat 5 fl }) s))
    else xsFold t slot fl v c s

/-- Read `len` bytes of an operand and go on, or BAD_ADDR, or poison. -/
def xsRead (t a len align : Nat) (c : Cpx) (k : Bytes → State → State) (s : State) : State :=
  (copPlace (tileOf t) a len align).elim (cpReg t c c.rd (cpStatus 2 0) s) (fun p =>
    match copPoison s p len with
    | some w => cpPoison t c w s
    | none => k (memBytes s p len) s)

/-- Write a form and return its length. -/
def xsWrite (t a : Nat) (b : Bytes) (c : Cpx) (s : State) : State :=
  (copPlace (tileOf t) a b.length 8).elim (cpReg t c c.rd (cpStatus 2 0) s)
    (fun p => cpReg t c c.rd (cpStatus 0 b.length) (storeBytes p b s))

/-- An exact-sum instruction acts. -/
def xsCommit (t : Nat) (c : Cpx) (s : State) : State :=
  let tile := tileOf t
  let slot := bf c.fn 2 4
  let var := bf c.fn 0 2
  let x := slotOf s tile slot
  let a := bf c.a.toNat 0 48
  let op := c.fn / 64
  if x.armed.isSome ∧ (op ≤ 3 ∨ op = 7) then bump (0xC0B0 + tile) 0x07 (cpReg t c c.rd (cpStatus 1 0) s)
  else
    match op with
    | 0 => cpReg t c c.rd 0 (setXd t c slot true (modSlot tile slot (fun x => { x with v := 0, flags := 0 }) s))
    | 1 =>
      let e := xsElem var (c.a.toNat % 2 ^ (8 * xsSize var))
      bump (0xC0B0 + tile) 0x04 (xsFold t slot e.1 e.2 c s)
    | 2 =>
      let n := bf c.b.toNat 0 7
      if n = 0 ∨ 64 < n then cpReg t c c.rd (cpStatus 3 0) s
      else xsRead t a (n * xsSize var) (xsSize var) c (fun b s =>
        let e := xsElems var n b
        bumpBy (0xC0B0 + tile) 0x04 n (xsFold t slot e.1 e.2 c s)) s
    | 3 =>
      if var = 1 then xsRead t a 288 8 c (fun b s => xsForm t slot false (xsImageRead b) c s) s
      else xsRead t a 8 8 c (fun b s =>
        if bf (leNat b) 60 4 ≠ 1 then xsForm t slot false none c s
        else xsRead t a (xsCompactLen (leNat b)) 8 c (fun b s => xsForm t slot false (xsCompactRead b) c s) s) s
    | 4 => cpReg t c c.rd (BitVec.ofNat 72 (xsRnd x)) s
    | 5 => cpReg t c c.rd (BitVec.ofNat 72 (xsRnd x)) (cpReg t c c.rb (BitVec.ofNat 72 (xsLo x)) s)
    | 6 =>
      let s1 := xsWrite t a (xsImage x) c s
      if (copPlace tile a 288 8).isSome then setXd t c slot false s1 else s1
    | 7 => xsRead t a 288 8 c (fun b s => xsForm t slot true (xsImageRead b) c s) s
    | 8 => xsWrite t a (xsCompact x) c s
    | _ => cpReg t c c.rd (BitVec.ofNat 72 (xsFlags x)) s

/-- The instruction has a memory operand: it begins when the thread's earlier stores are visible (R432). -/
def cpxMem (c : Cpx) : Bool :=
  match c.unit with
  | 0 => false
  | 1 => decide (c.fn / 128 ≠ 3)
  | _ => decide (c.fn / 64 = 2) || decide (c.fn / 64 = 3) || decide (6 ≤ c.fn / 64 ∧ c.fn / 64 ≤ 8)

/-! ### The instructions -/

/-- CRC32C. -/
def execCrc32c (t : Fin 776) (rd ra rb : Fin 32) (nb : Fin 8) (busy : Bool) (s : State) : Host.Outcome State Fault Refusal :=
  .next (runCpx t.val 0 nb.val rd.val ra.val rb.val true busy [ra.val, rb.val] s)
/-- CRC64. -/
def execCrc64 (t : Fin 776) (rd ra rb : Fin 32) (nb : Fin 8) (busy : Bool) (s : State) : Host.Outcome State Fault Refusal :=
  .next (runCpx t.val 0 (64 + nb.val) rd.val ra.val rb.val true busy [ra.val, rb.val] s)
/-- TPZ. -/
def execTpz (t : Fin 776) (rd ra rb : Fin 32) (k : Fin 4) (nb : Fin 8) (busy : Bool) (s : State) :
    Host.Outcome State Fault Refusal :=
  .next (runCpx t.val 0 (128 + 16 * k.val + nb.val) rd.val ra.val rb.val true busy [ra.val, rb.val] s)

/-- A GCM instruction: RA in 1-28 and RB in 1-30 (R438). -/
def runGcm (t op rd ra rb len : Nat) (busy : Bool) (s : State) : State :=
  let ok := decide (1 ≤ ra) && decide (ra ≤ 28) && decide (1 ≤ rb) && decide (rb ≤ 30)
  runCpx t 1 (128 * op + len) rd ra rb ok busy [ra, ra + 1, ra + 2, ra + 3, rb, rb + 1] s

/-- ENC. -/
def execEnc (t : Fin 776) (rd ra rb : Fin 32) (len : Fin 64) (busy : Bool) (s : State) : Host.Outcome State Fault Refusal :=
  .next (runGcm t.val 0 rd.val ra.val rb.val len.val busy s)
/-- DEC. -/
def execDec (t : Fin 776) (rd ra rb : Fin 32) (len : Fin 64) (busy : Bool) (s : State) : Host.Outcome State Fault Refusal :=
  .next (runGcm t.val 1 rd.val ra.val rb.val len.val busy s)
/-- AAD. -/
def execAad (t : Fin 776) (rd ra rb : Fin 32) (len : Fin 64) (busy : Bool) (s : State) : Host.Outcome State Fault Refusal :=
  .next (runGcm t.val 2 rd.val ra.val rb.val len.val busy s)
/-- TAG. -/
def execGcmTag (t : Fin 776) (rd ra rb : Fin 32) (busy : Bool) (s : State) : Host.Outcome State Fault Refusal :=
  .next (runGcm t.val 3 rd.val ra.val rb.val 0 busy s)

/-- XSUM.CLR. -/
def execXsumClr (t : Fin 776) (rd ra : Fin 32) (slot : Fin 16) (busy : Bool) (s : State) : Host.Outcome State Fault Refusal :=
  .next (runCpx t.val 2 (4 * slot.val) rd.val ra.val 0 (decide (ra.val = 0)) busy [] s)
/-- XSUM.ADD. -/
def execXsumAdd (t : Fin 776) (rd ra : Fin 32) (slot : Fin 16) (typ : Fin 3) (busy : Bool) (s : State) :
    Host.Outcome State Fault Refusal :=
  .next (runCpx t.val 2 (64 + 4 * slot.val + typ.val) rd.val ra.val 0 true busy [ra.val] s)
/-- XSUM.ADDV. -/
def execXsumAddv (t : Fin 776) (rd ra rb : Fin 32) (slot : Fin 16) (typ : Fin 3) (busy : Bool) (s : State) :
    Host.Outcome State Fault Refusal :=
  .next (runCpx t.val 2 (128 + 4 * slot.val + typ.val) rd.val ra.val rb.val true busy [ra.val, rb.val] s)
/-- XSUM.MERGE. -/
def execXsumMerge (t : Fin 776) (rd ra : Fin 32) (slot : Fin 16) (image busy : Bool) (s : State) :
    Host.Outcome State Fault Refusal :=
  .next (runCpx t.val 2 (192 + 4 * slot.val + b2n image) rd.val ra.val 0 true busy [ra.val] s)
/-- XSUM.RND. -/
def execXsumRnd (t : Fin 776) (rd ra : Fin 32) (slot : Fin 16) (busy : Bool) (s : State) : Host.Outcome State Fault Refusal :=
  .next (runCpx t.val 2 (256 + 4 * slot.val) rd.val ra.val 0 (decide (ra.val = 0)) busy [] s)
/-- XSUM.RND2. -/
def execXsumRnd2 (t : Fin 776) (rd ra rb : Fin 32) (slot : Fin 16) (busy : Bool) (s : State) :
    Host.Outcome State Fault Refusal :=
  .next (runCpx t.val 2 (320 + 4 * slot.val) rd.val ra.val rb.val (decide (ra.val = 0)) busy [rb.val] s)
/-- XSUM.SAVE. -/
def execXsumSave (t : Fin 776) (rd ra : Fin 32) (slot : Fin 16) (busy : Bool) (s : State) : Host.Outcome State Fault Refusal :=
  .next (runCpx t.val 2 (384 + 4 * slot.val) rd.val ra.val 0 true busy [ra.val] s)
/-- XSUM.REST. -/
def execXsumRest (t : Fin 776) (rd ra : Fin 32) (slot : Fin 16) (busy : Bool) (s : State) : Host.Outcome State Fault Refusal :=
  .next (runCpx t.val 2 (448 + 4 * slot.val) rd.val ra.val 0 true busy [ra.val] s)
/-- XSUM.CXA. -/
def execXsumCxa (t : Fin 776) (rd ra : Fin 32) (slot : Fin 16) (busy : Bool) (s : State) : Host.Outcome State Fault Refusal :=
  .next (runCpx t.val 2 (512 + 4 * slot.val) rd.val ra.val 0 true busy [ra.val] s)
/-- XSUM.FLAGS. -/
def execXsumFlags (t : Fin 776) (rd ra : Fin 32) (slot : Fin 16) (busy : Bool) (s : State) : Host.Outcome State Fault Refusal :=
  .next (runCpx t.val 2 (576 + 4 * slot.val) rd.val ra.val 0 (decide (ra.val = 0)) busy [] s)

/-- The unit does the work of a committed instruction and writes its results (R429). -/
def cpxWork (t : Nat) (c : Cpx) (s : State) : State :=
  match c.unit with
  | 0 => cpReg t c c.rd (BitVec.ofNat 72 (crcResult s t c)) s
  | 1 => gcmCommit t c s
  | _ => armSettle t c (xsCommit t c s)

/-- The oldest instruction of the thread that its unit can do now: one with a memory operand waits for the thread's stores
(R432). -/
def cpxNext (s : State) (t : Nat) : Option Cpx :=
  (thr s t).cpx.find? (fun c => c.dead || !cpxMem c || (storesOf s t).isEmpty)

/-- CP_COMMIT: the core commits the thread's CPX (`ok`), and the unit does the oldest it can; or the core squashes the
one it has not committed (R429, R430; DEDUCED, log 27). -/
def execCpCommit (t : Fin 776) (ok : Bool) (s : State) : Host.Outcome State Fault Refusal :=
  let t := t.val
  .next (if !clocked s then s
    else if !ok then
      squashCpx t s
    else
      let s1 := commitCpx t s
      (cpxNext s1 t).elim s1 (fun c =>
        settle t (cpxWork t c (modThr t (fun x => { x with cpx := x.cpx.erase c }) s1))))

end Sys2Proof.Machine
end

