-- ==== Sys2Proof/Machine/ZmtSend.lean ====
section
/-! DEFINITION. The transport as a sender: peer records, the frames the slices originate, segmentation, pacing and credit,
acknowledgements and timers (R204-R207, R219-R225, R227, R232-R237). -/

namespace Sys2Proof.Machine

/-! ### Peer records (R204) -/

/-- A new peer record: sequence numbers at 0, credit at the initial grants, a full bucket (R204, R225, R236). -/
def newPeer (s : State) (ep slice : Nat) : Peer :=
  { ep := ep, slice := slice, mseq := BitVec.ofNat 32 (sendsTo s ep), bucket := cfg s 0x7200 5 * 8000, bucketAt := now s,
    grantR := BitVec.ofNat 32 (cfg s 0x7300 2), grantE := BitVec.ofNat 32 (cfg s 0x7300 3),
    givenR := BitVec.ofNat 32 (cfg s 0x7300 2), givenE := BitVec.ofNat 32 (cfg s 0x7300 3),
    toldR := BitVec.ofNat 32 (cfg s 0x7300 2), toldE := BitVec.ofNat 32 (cfg s 0x7300 3) }

/-- The record of an endpoint, created with its ET entry when there is none; none when the ET is full (R204). -/
def ensurePeer (ep slice : Nat) (s : State) : Option Nat × State :=
  match peerIdx s ep with
  | some k => (some k, s)
  | none =>
    let k := tfresh s.zmt.peers
    let put := fun i s => (some k, modZmt (fun z => { z with
        peers := tput z.peers k (newPeer s ep slice), msgs := numberSends ep 0 z.msgs })
      (writeEt i (fun e => (e.1, BitVec.ofNat 64 (bput (bput e.2.toNat 0 21 k) 21 1 1))) s))
    match etFind s ep with
    | some i => put i s
    | none =>
      match insertEt (ep % 2 ^ 32) 0 s with
      | (.ok i _, s1) => put i s1
      | (_, s1) => (none, s1)

/-- The VER field of an endpoint's ET entry, 0 without one. -/
def etVerOf (s : State) (ep : Nat) : Nat := match etFind s ep with | some i => etVer (etSlot s i) | none => 0

def setEtVer (ep v : Nat) (s : State) : State :=
  match etFind s ep with
  | some i => if etVer (etSlot s i) = v then s else writeEt i (fun e => (BitVec.ofNat 64 (bput e.1.toNat 50 2 v), e.2)) s
  | none => s

/-- 7000h.01. -/
def ownVer (s : State) : Nat := cfg s 0x7000 1

/-- The header version toward a peer (R205). -/
def verTo (s : State) (ep : Nat) : Nat := max 1 (min (etVerOf s ep) (ownVer s))

/-! ### Locally originated packets (R197, R678) -/

/-- The route of an endpoint: its group in the ET, else the longest prefix of its address (R163, R197). -/
def localRoute (ts ep : Nat) (s : State) : Option Nat × State :=
  let lpm := fun s =>
    if overIpv6 s then lpmRoute ts 1 (beNat (epAddr6 s ep)) s else lpmRoute ts 0 (ep % 2 ^ 32) s
  match etFind s ep with
  | some i =>
    let s1 := cacheFill i (etTouch i s)
    (match etNhg (etSlot s i) with
     | some g => (some g, s1)
     | none => lpm s1)
  | none => lpm s

/-- A packet of slice `ts` that finds no member or no room is sent and lost, and counted (R678; DESIGN CHOICE, log 124). -/
def notSent (k : Nat) (s : State) : State := lostLocal k (bump 0xC068 0x0D s)

/-- Send a frame to an endpoint through slice `ts`; answers the egress sub-port it took. -/
def localFrame (ts ep tc : Nat) (frame : Bytes) (s : State) : Option Nat × State :=
  let k := s.fab.nextPkt
  let p : Pkt :=
    { sp := 16 + ts, bytes := frame, complete := true, stomp := false, course := 0, engine := none, phase := 3, key := [],
      meta0 := BitVec.ofNat 64 (2 ^ 36 + zmtOfs s * 2 ^ 26), meta1 := 0, act := 0, tc := tc, out := 0,
      spilled := false, cut := false, fate := none, nhg := none }
  let s1 := modFab (fun x => { x with pkts := tput x.pkts k p, nextPkt := k + 1 }) s
  let r := localRoute ts ep s1
  match r.1 with
  | none => (none, notSent k r.2)
  | some g =>
    match routeTo k g r.2 with
    | (none, s2) => (none, notSent k s2)
    | (some sp, s2) =>
      let a := admitPkt k sp (writeMacs k sp s2)
      (some sp, if a.1 then a.2 else notSent k a.2)

/-- The header as it leaves: versions, and TRC only in version 2 (R205, R206). -/
def outHdr (s : State) (ep : Nat) (h : ZHdr) : ZHdr :=
  let v := verTo s ep
  { h with ver := v, maxv := ownVer s, srcEp := ownEp s, flags := if v = 2 then h.flags else bput h.flags 3 1 0 }

/-- Build and send one ZMT packet, with its trace extension where it has one; the UDP source port is a free value (R197,
DESIGN CHOICE, log 1). -/
def sendZmt (ts ep tc : Nat) (h : ZHdr) (body : Bytes) (s : State) : Option Nat × State :=
  let h1 := outHdr s ep h
  localFrame ts ep tc (zmtFrame s tc (freeNat s) ep h1 (if h1.traced then traceExt (now s) h1 ++ body else body)) (drawn s)

/-- The first packet of a record takes its egress port, and R that port's rate (R236). -/
def noteEgress (egress : Option Nat) (s : State) (p : Peer) : Peer :=
  { p with egress := egress <|> p.egress,
           rate := if p.rate = 0 then (match egress with | some sp => 1000 * rateOf s sp | none => 0) else p.rate }

/-- A control packet (ACK, NACK, CREDIT, GETR, ATOMR) of a slice. Its traffic class, and what else the spec leaves
open in it, are free values (DESIGN CHOICE, log 1). -/
def sendCtrl (ts ep : Nat) (mk : Nat → ZHdr) (body : Bytes) (s : State) : State :=
  let f := freeNat s
  let r := sendZmt ts ep (f % 8) (mk (f / 8)) body (drawn s)
  match peerIdx r.2 ep with
  | some k => modPeer k (noteEgress r.1 r.2) r.2
  | none => r.2

/-- Bytes of the frame that carries `n` bytes after the ZMT header, FCS included. -/
def zmtFrameLen (s : State) (n : Nat) : Nat := zmtOfs s + 40 + n + 4

/-! ### Pacing (R236) -/

/-- R in Mb/s: the rate kept, or the egress port's when congestion control is off. -/
def peerRate (s : State) (p : Peer) : Nat :=
  if cfgB s 0x7200 1 then p.rate else match p.egress with | some sp => 1000 * rateOf s sp | none => p.rate

/-- R as it stands, and the bucket refilled up to now. -/
def refill (s : State) (p : Peer) : Peer :=
  { p with bucket := min (cfg s 0x7200 5 * 8000) (p.bucket + peerRate s p * (now s - p.bucketAt)), bucketAt := now s,
           rate := peerRate s p }

/-- RTO: 7100h.01 before the first sample (R233). -/
def rtoOf (s : State) (p : Peer) : Nat := if p.rtt.isSome then p.rto else cfg s 0x7100 1

/-- The bucket holds a frame; before its first packet a record has no rate and a full bucket. -/
def mayPace (s : State) (p : Peer) (n : Nat) : Bool := decide (p.rate = 0) || decide (n * 8000 ≤ (refill s p).bucket)

/-- A frame of `n` bytes is started on `egress`. -/
def pace (n : Nat) (egress : Option Nat) (s : State) (p : Peer) : Peer :=
  let q := refill s p
  noteEgress egress s { q with bucket := q.bucket - n * 8000 }

/-- A response (GETR, ATOMR) takes its tokens like every packet to the peer. What acknowledges or grants is sent at the time
its own rule gives (DEDUCED, log 156). -/
def sendResp (pk ts ep : Nat) (h : ZHdr) (body : Bytes) (s : State) : State :=
  modPeer pk (pace (zmtFrameLen s body.length) none s) (sendCtrl ts ep (fun _ => h) body s)

/-! ### Segmentation (R219-R224) -/

/-- The next packet of a message: header without PSN, payload, credit, the response awaited (offset and bytes), the
bytes it takes the message on, and whether it is the last. -/
structure ZPk where
  hdr : ZHdr
  src : ZSrc
  charge : Nat
  resp : Option (Nat × Nat)
  adv : Nat
  last : Bool
  deriving DecidableEq, Repr

def ZSrc.len : ZSrc → Nat
  | .lit b => b.length
  | .mem _ n _ => n

/-- A packet whose payload lies in host memory. -/
def ZOut.fromHost (o : ZOut) : Bool := match o.src with | .mem a _ _ => isHost a | .lit _ => false

/-- 7000h.06. -/
def segBytes (s : State) : Nat := cfg s 0x7000 6

/-- A message whose packets carry the trace extension: of the PUTs, the free choice `Config.traced`, toward a peer of version 2
(R199, R219; DESIGN CHOICE, log 153). -/
def isTraced (s : State) (m : ZMsg) : Bool :=
  decide (m.op = opPut) && !m.inner && decide (verTo s m.ep = 2) && Config.traced m.id

/-- The segment of a message: 16 bytes less when traced (R219). -/
def segOf (s : State) (m : ZMsg) : Nat := if isTraced s m then segBytes s - 16 else segBytes s

/-- A TOFS `n` bytes on; only the offset grows. -/
def tofsAdd (t n : Nat) : Nat := mkTofs (tofsWin t) (tofsOfs t + n)

/-- A local address as the TOFS a packet carries: the window is a free value (DESIGN CHOICE, log 1; DESIGN CHOICE, log 77). -/
def localTofs (s : State) (a : Nat) : Nat := mkTofs (freeNat s % 65536) a

/-- NONMIN of a first send: always with 7000h.08 = 2, by the command otherwise, never with 0. -/
def nonminFlag (s : State) (m : ZMsg) : Nat :=
  let a := cfg s 0x7000 8
  if a = 2 ∨ (a = 1 ∧ m.nonmin) then flNonmin else 0

/-- A message is the one zero-length PUT that aborts another (R232). -/
def ZMsg.isAbort (m : ZMsg) : Bool := m.inner && decide (m.op = opPut)

/-- The next packet of message `m`. -/
def nextPk (s : State) (m : ZMsg) : ZPk :=
  let seg := segOf s m
  let n := min seg (m.n - m.next)
  let last := decide (m.n ≤ m.next + seg)
  let fl := nonminFlag s m
  let h : ZHdr := { op := m.op, flags := fl, job := m.job, msgId := m.id, ccid := m.ccid, sub := m.sub, mlen := m.n }
  let data := ZSrc.mem (m.laddr + m.next) n m.pasid
  if m.isAbort then
    { hdr := { h with flags := fl + flAbort + flAckreq, tofs := m.tofs, mlen := m.w6 }, src := .lit [], charge := 0,
      resp := none, adv := 0, last := true }
  else if m.op = opPut then
    { hdr := { h with flags := fl + (if last then flAckreq else 0) + (if isTraced s m then flTrc else 0), tofs := tofsAdd m.tofs m.next, plen := n }, src := data,
      charge := 0, resp := none, adv := n, last := last }
  else if m.op = opGet then
    { hdr := { h with tofs := tofsAdd m.tofs m.next, plen := 8, mlen := n },
      src := .lit (natBE 8 (if m.asm.isSome then tofsAdd m.w5 m.next else localTofs s (m.laddr + m.next))), charge := 0,
      resp := some (m.next, n), adv := n, last := last }
  else if m.op = opAtomic then
    { hdr := { h with tofs := m.tofs, plen := 24, mlen := 8 },
      src := .lit (natBE 8 m.w5 ++ natBE 8 m.w6 ++ natBE 8 (localTofs s m.laddr)), charge := 0, resp := some (0, 8),
      adv := m.n, last := true }
  else if m.op = opSend ∧ !m.eager then
    { hdr := { h with flags := fl + flRndv, tofs := m.tofs / 2 ^ 32 * 2 ^ 32, plen := 8, mseq := m.mseq.toNat },
      src := .lit (natBE 8 (localTofs s m.laddr)), charge := 0, resp := none, adv := m.n, last := true }
  else if m.op = opSend then
    { hdr := { h with tofs := m.tofs / 2 ^ 32 * 2 ^ 32 + m.next, plen := n, mseq := m.mseq.toNat }, src := data, charge := 2,
      resp := none, adv := n, last := last }
  else if m.op = opReduce then
    { hdr := { h with tofs := if m.sub % 8 < 2 then m.tofs else tofsAdd m.tofs m.next, plen := n }, src := data,
      charge := 1, resp := none, adv := n, last := last }
  else
    { hdr := { h with plen := m.lit.length, mlen := m.lit.length }, src := .lit m.lit, charge := 0, resp := none, adv := m.n,
      last := true }

/-! ### Outstanding packets and credit (R220, R222, R225, R227) -/

/-- Credit left of a class, modulo 2^32. -/
def creditR (p : Peer) : Nat := (p.grantR - p.usedR).toNat
def creditE (p : Peer) : Nat := (p.grantE - p.usedE).toNat

/-- At least one unit, the difference read as a signed number so that an overdrawn class has none. -/
def hasCredit (c : Nat) : Bool := decide (0 < c ∧ c < 2 ^ 31)

/-- Entries of the response table in use, over all peers. -/
def respUsed (s : State) : Nat := (s.zmt.peers.map (fun e => e.2.resp.length)).sum

/-- ATOMICs outstanding toward a peer. -/
def atomicsOut (s : State) (p : Peer) : Nat :=
  (p.resp.filter (fun e => match zmsgOf s e.2.msg with | some m => decide (m.op = opAtomic) | none => false)).length

/-- Nothing but its source and the pacing keeps a packet from starting; a REDUCE toward a version-1 peer never does
(R207). -/
def mayStartPk (s : State) (p : Peer) (m : ZMsg) (k : ZPk) : Bool :=
  decide ((p.txNext - p.txAcked).toNat < 4096) && (decide (m.op ≠ opReduce) || decide (verTo s p.ep = 2)) &&
  (match k.charge with | 1 => hasCredit (creditR p) | 2 => hasCredit (creditE p) | _ => true) &&
  (match k.resp with
   | some _ => decide (respUsed s < 262144) && (decide (m.op ≠ opAtomic) || decide (atomicsOut s p < 64))
   | none => true)

/-- Whether a SEND goes eager, decided when it starts (R223). -/
def goesEager (s : State) (p : Peer) (m : ZMsg) : Bool :=
  let u := (m.n + segBytes s - 1) / segBytes s
  decide (m.n ≤ cfg s 0x7000 7) && (decide (u = 0) || (hasCredit (creditE p) && decide (u ≤ creditE p)))

/-- A message about to send its first packet: a SEND takes its way. -/
def begunMsg (s : State) (p : Peer) (m : ZMsg) : ZMsg :=
  if m.begun then m
  else if m.op = opSend then { m with begun := true, eager := goesEager s p m }
  else { m with begun := true }

/-- Messages to an endpoint that still have packets to send, oldest first. -/
def toSend (s : State) (ep : Nat) : List (Nat × ZMsg) := s.zmt.msgs.filter (fun e => decide (e.2.ep = ep) && !e.2.sent && e.2.bid.isNone)

/-- Requester number of an outbound message in the translation unit. -/
def xoutId (id : Nat) : Nat := 1 + 8 * id

/-- Source of a packet: readable, or what stands in the way. A poisoned word refuses (R232). -/
def srcAcc (s : State) (id : Nat) (k : ZSrc) : UAcc :=
  match k with
  | .lit _ => .ok
  | .mem a n pasid =>
    match rangeAcc s (xoutId id) false pasid a n with
    | .ok => if !isHost a && poisonedIn s a n then .fail zPoison else .ok
    | r => r

def srcBytes (s : State) (k : ZSrc) (host : Bytes) : Bytes :=
  match k with
  | .lit b => b
  | .mem a n _ => unitRead s a n host

/-- The CCID of an ABORT: the message's counter at the target; one that names none for a SEND, whose counter only the target
knows, and for a GET or an ATOMIC, which counts at its initiator. -/
def abortCcid (op ccid : Nat) : Nat := if op = opSend ∨ op = opGet ∨ op = opAtomic then 0xFFFFFF else ccid

/-- The ABORT of a message to its counter at the target (R232). -/
def abortNotice (m : ZMsg) (s : State) : State :=
  if m.inner then s
  else (zmsgNew { ep := m.ep, op := opPut, job := m.job, tofs := m.tofs, ccid := abortCcid m.op m.ccid, tc := m.tc, inner := true,
                  id := m.id, w6 := m.n } s).2

/-- Fail a message at this end: with its reason and an ABORT to its counter at the target (R232). -/
def abortMsg (id code : Nat) (remote abort : Bool) (s : State) : State :=
  match zmsgOf s id with
  | none => s
  | some m =>
    let s1 := undeny (xoutId id) (zmsgEndFail id code remote s)
    if abort then abortNotice m s1 else s1

/-- Every packet of a message is sent and acknowledged: PUT, SEND eager, REDUCE, ATOMIC bookkeeping and inner packets
complete here; what awaits a response or a FIN does not (R219-R224; DESIGN CHOICE, log 79). -/
def checkDone (k id : Nat) (s : State) : State :=
  match zmsgOf s id, peerOf s k with
  | some m, some p =>
    let waits := p.outs.any (fun o => decide (o.msg = id) && !o.acked) || p.resp.any (fun r => decide (r.2.msg = id))
    if !m.sent || waits || (decide (m.op = opSend) && !m.eager && !m.fin) || (decide (m.op = opReduce) && m.fin) then s
    else zmsgDone id s
  | _, _ => s

/-- The first message of an endpoint whose next packet may start. -/
def pickMsg (s : State) (p : Peer) : List (Nat × ZMsg) → Option (Nat × ZMsg × ZPk)
  | [] => none
  | (id, m) :: rest =>
    let m1 := begunMsg s p m
    let k := nextPk s m1
    if mayStartPk s p m1 k then some (id, m1, k) else pickMsg s p rest

/-- Timer list of a duration (R234). -/
def rtoList (d : Nat) : Nat := if d < 65536 then 0 else 1

/-- Bytes of the frame of a packet with header `h` and `n` payload bytes, FCS included. -/
def pkLen (s : State) (ep : Nat) (h : ZHdr) (n : Nat) : Nat :=
  zmtFrameLen s (if (outHdr s ep h).traced then n + 16 else n)

/-- Packet `k` of message `id` starts toward peer `pk`: it takes the next PSN, its timer starts, credit is charged. -/
def startPk (pk id : Nat) (m : ZMsg) (k : ZPk) (host : Bytes) (s : State) : State :=
  match peerOf s pk with
  | none => s
  | some p =>
    let psn := p.txNext
    let hdr := { k.hdr with psn := psn.toNat }
    let body := srcBytes s k.src host
    let len := pkLen s p.ep hdr body.length
    let o : ZOut := { psn := psn, msg := id, hdr := hdr, src := k.src, tc := m.tc, first := now s, sends := 1, armed := now s,
                      dur := rtoOf s p, charge := k.charge, acked := false, due := false }
    let s0 := match k.src with | .mem a n ps => sendReads ps a n id s | .lit _ => s
    let r := sendZmt p.slice p.ep m.tc hdr body s0
    let s1 := modPeer pk (fun p =>
      let q := pace len r.1 s p
      { q with txNext := psn + 1, outs := q.outs ++ [o],
               usedR := if k.charge = 1 then q.usedR + 1 else q.usedR
               usedE := if k.charge = 2 then q.usedE + 1 else q.usedE
               resp := match k.resp with | some (ofs, n) => tput q.resp psn.toNat { msg := id, ofs := ofs, len := n } | none => q.resp }) r.2
    let s2 := modZmsg id (fun _ => { m with next := m.next + k.adv, sent := k.last }) s1
    -- a GET or an ATOMIC drew the free window of its local TOFS
    if k.resp.isSome ∨ (m.op = opSend ∧ !m.eager) then drawn s2 else s2

/-- OUTBOUND_PACKET_SEND: the peer record is created at first; the first message that may start sends a packet
(R204, R219-R227, R236). `host` is what a host read of its source returned. -/
def execOutboundPacketSend (ep : BitVec 32) (host : Bytes) (s : State) : Host.Outcome State Fault Refusal :=
  let e := ep.toNat
  match toSend s e with
  | [] => .next s
  | ms =>
    match ensurePeer e (e % 8) s with
    | (none, s1) => .next (ms.foldl (fun s m => zmsgEndFail m.1 zNoPeer false s) s1)
    | (some pk, s1) =>
      match peerOf s1 pk with
      | none => .next s1
      | some p =>
        match pickMsg s1 p ms with
        | none => .next s1
        | some (id, m, k) =>
          match srcAcc s1 id k.src with
          | .fail c => .next (abortMsg id c false true s1)
          | .wait => .next (match k.src with | .mem a n ps => askRange (xoutId id) false ps a n s1 | .lit _ => s1)
          | .ok =>
            if mayPace s1 p (pkLen s1 e k.hdr k.src.len) then .next (startPk pk id m k host s1) else .next s1

/-! ### Retransmission (R234) -/

/-- A PSN is given up: sent often enough and long enough (DESIGN CHOICE, log 75). -/
def givenUp (s : State) (o : ZOut) : Bool :=
  decide (cfg s 0x7100 4 ≤ o.sends) && decide (o.first + cfg s 0x7100 5 * dlPeriod 3 ≤ now s)

/-- Every message outstanding to a peer fails with PEER_UNREACHABLE; the abandoned PSNs leave the window and return
their credit (R225, R234). -/
def abandonPeer (pk : Nat) (s : State) : State :=
  match peerOf s pk with
  | none => s
  | some p =>
    let back := fun c => BitVec.ofNat 32 (p.outs.filter (fun o => decide (o.charge = c))).length
    let s1 := modPeer pk (fun p => { p with
      outs := [], resp := [], txAcked := p.txNext, usedR := p.usedR - back 1, usedE := p.usedE - back 2 }) s
    let ids := (s.zmt.msgs.filter (fun e => decide (e.2.ep = p.ep))).map (·.1)
    bump 0xC068 0x07 (ids.foldl (fun s i => undeny (xoutId i) (zmsgEndFail i zUnreach false s)) s1)

/-- What a copy carries when its message is gone or its source cannot be read: an empty ABORT in the same PSN, so that
the sequence goes on (DESIGN CHOICE, log 60). -/
def fillerHdr (h : ZHdr) : ZHdr := { h with op := opPut, flags := flAbort, plen := 0, tofs := 0, mseq := 0, sub := 0, ccid := abortCcid h.op h.ccid }

/-- Send a copy of an outstanding packet: RETX and ACKREQ, NONMIN where 7000h.08 allows; the timer runs `dur`. -/
def resend (pk : Nat) (o : ZOut) (dur : Nat) (filler : Bool) (host : Bytes) (s : State) : State :=
  match peerOf s pk with
  | none => s
  | some p =>
    let h0 := if filler then fillerHdr o.hdr else o.hdr
    let fl := h0.flags ||| flRetx ||| flAckreq ||| (if cfg s 0x7000 8 = 0 then 0 else flNonmin)
    let src := if filler then .lit [] else o.src
    let body := srcBytes s src host
    let s0 := match src with | .mem a n ps => sendReads ps a n o.msg s | .lit _ => s
    let r := sendZmt p.slice p.ep o.tc { h0 with flags := fl } body s0
    bump 0xC068 0x04 (modPeer pk (fun p =>
      let q := pace (pkLen s p.ep h0 body.length) r.1 s p
      { q with outs := q.outs.map (fun x => if x.psn = o.psn then
          { x with hdr := h0, src := src, sends := x.sends + 1, armed := now s, dur := dur, due := false } else x) }) r.2)

/-- Send a copy when its source and the pacing allow; else nothing but a request for a translation happens. -/
def tryResend (pk : Nat) (o : ZOut) (dur : Nat) (host : Bytes) (s : State) : State :=
  match peerOf s pk with
  | none => s
  | some p =>
    let gone := (zmsgOf s o.msg).isNone
    if !mayPace s p (pkLen s p.ep (if gone then fillerHdr o.hdr else o.hdr) (if gone then 0 else o.src.len)) then s
    else if gone then resend pk o dur true host s
    else match srcAcc s o.msg o.src with
      | .ok => resend pk o dur false host s
      | .wait => (match o.src with | .mem a n ps => askRange (xoutId o.msg) false ps a n s | .lit _ => s)
      | .fail c => resend pk o dur true host (abortMsg o.msg c false true s)

/-- RETRANSMIT_TIMER_EXPIRY: the timer of a PSN has run out, or a NACK asked for it, and it is sent again or given up
(R234). -/
def execRetransmitTimerExpiry (ep psn : BitVec 32) (host : Bytes) (s : State) : Host.Outcome State Fault Refusal :=
  match peerIdx s ep.toNat with
  | none => .next s
  | some pk =>
    match (peerOf s pk).bind (fun p => p.outs.find? (fun o => decide (o.psn = psn))) with
    | none => .next s
    | some o =>
      if o.due then .next (if givenUp s o then abandonPeer pk s else tryResend pk o o.dur host s)
      else if !reached (expiryAt (rtoList o.dur) (o.armed + o.dur) o.armed) s then .next s
      else
        let s1 := bump 0xC068 0x05 s
        if givenUp s o then .next (abandonPeer pk s1)
        else
          let s2 := tryResend pk o (min (2 * o.dur) (cfg s 0x7100 3)) host s1
          -- a copy that could not start yet keeps its timer, and its expiry is counted when it does
          .next (if (peerOf s2 pk).bind (fun p => p.outs.find? (fun x => decide (x.psn = psn))) = some o then
              tryResend pk o (min (2 * o.dur) (cfg s 0x7100 3)) host s else s2)

/-! ### Acknowledgements (R230, R232, R233, R237) -/

/-- `a` is before `b` modulo 2^32. -/
def psnBefore (a b : BitVec 32) : Bool := decide (0 < (b - a).toNat ∧ (b - a).toNat < 2 ^ 31)

/-- srtt, rttvar and RTO after a sample (R233). -/
def rttSample (s : State) (x : Nat) (p : Peer) : Peer :=
  let r := match p.rtt with
    | none => (x, x / 2)
    | some (srtt, var) =>
      let d : Int := x - srtt
      ((((srtt : Int) * 8 + d) / 8).toNat, (((var : Int) * 4 + ((d.natAbs : Int) - var)) / 4).toNat)
  { p with rtt := some r, rto := max (cfg s 0x7100 2) (min (cfg s 0x7100 3) (r.1 + 4 * r.2)) }

/-- What an ACK adds to the interval of R237. -/
def ccAdd (s : State) (nce npkt : Nat) (sample : Option Nat) (p : Peer) : Peer :=
  { p with
    ccAt := p.ccAt <|> (if p.rtt.isSome then some (now s) else none)
    ccNce := p.ccNce + nce, ccNpkt := p.ccNpkt + npkt
    ccMin := match sample, p.ccMin with | some x, some y => some (min x y) | some x, none => some x | none, y => y }

/-- R after an interval (R237): R in Mb/s rounded down, alpha a 16-bit binary fraction. -/
def ccUpdate (s : State) (p : Peer) : Peer :=
  let f : Int := p.ccNce * 65536 / max 1 p.ccNpkt
  let g := cfg s 0x7200 6
  let alpha := (((p.alpha : Int) * 2 ^ g + (f - p.alpha)) / 2 ^ g).toNat
  let t := cfg s 0x7200 4
  let top := match p.egress with | some sp => 1000 * rateOf s sp | none => p.rate
  let r := if 0 < p.ccNce then p.rate * (131072 - alpha) / 131072
    else match p.ccMin with
      | some x => if t < x then p.rate * (2 * x - (x - t)) / (2 * x) else p.rate + cfg s 0x7200 2
      | none => p.rate + cfg s 0x7200 2
  { refill s p with alpha := min alpha 65536, rate := min (max r (cfg s 0x7200 3)) (max top (cfg s 0x7200 3)),
                    ccAt := some (now s), ccNce := 0, ccNpkt := 0, ccMin := none }

/-- CC_RATE_UPDATE: one srtt has passed since the last update (R237). -/
def execCcRateUpdate (ep : BitVec 32) (s : State) : Host.Outcome State Fault Refusal :=
  match peerIdx s ep.toNat with
  | none => .next s
  | some pk =>
    match peerOf s pk with
    | some p =>
      (match p.ccAt, p.rtt with
       | some t, some (srtt, _) =>
         if cfgB s 0x7200 1 && s.clk.frozen.isNone && decide (t + srtt ≤ now s) then .next (modPeer pk (ccUpdate s) s) else .next s
       | _, _ => .next s)
    | none => .next s

/-- A PSN is acknowledged by a cumulative acknowledgement and a SACK map. -/
def acksPsn (base : BitVec 32) (sack : Nat) (psn : BitVec 32) : Bool :=
  psnBefore psn base || (decide ((psn - base).toNat ≤ 64) && decide (1 ≤ (psn - base).toNat) && bit sack ((psn - base).toNat - 1))

/-- Payload bytes of a packet that count as done when it is acknowledged. -/
def ackedBytes (o : ZOut) : Nat := if o.hdr.op = opGet ∨ o.hdr.op = opAtomic then 0 else o.hdr.plen

/-- An ACK is received: PSNs released, a sample taken, kept ATOMRs freed, messages completed (R219, R222, R230, R233). -/
def ackReceive (pk : Nat) (h : ZHdr) (body : Bytes) (s : State) : State :=
  match peerOf s pk with
  | none => s
  | some p =>
    let base := BitVec.ofNat 32 h.psn
    if (p.txNext - base).toNat ≥ 2 ^ 31 then s
    else
      let sack := beAt body 0 8
      let respBase := BitVec.ofNat 32 (beAt body 8 4)
      let hit := fun (o : ZOut) => !o.acked && acksPsn base sack o.psn
      let waits := fun (o : ZOut) => (tfind p.resp o.psn.toNat).isSome
      let sample := if bit h.flags 1 then
          (p.outs.find? (fun o => decide (o.psn = BitVec.ofNat 32 h.mseq) && decide (o.sends = 1) && !o.acked)).map (fun o => now s - o.armed)
        else none
      let done := p.outs.filter hit
      let s1 := modPeer pk (fun p =>
        let q := match sample with | some x => rttSample s x p | none => p
        let c := ccAdd s (beAt body 14 2) (beAt body 12 2) sample q
        { c with
          txAcked := if psnBefore c.txAcked base then base else c.txAcked
          outs := (c.outs.filter (fun o => !hit o || waits o)).map (fun o => if hit o then { o with acked := true } else o)
          kept := tfilter (fun q _ => !psnBefore (BitVec.ofNat 32 q) respBase) c.kept }) s
      let s2 := done.foldl (fun s o => modZmsg o.msg (fun m => { m with acked := m.acked + ackedBytes o }) s) s1
      ((done.map (·.msg)).eraseDups).foldl (fun s id => checkDone pk id s) s2

/-- The fallback of R207 for a message that a version-1 peer cannot take: REDUCE_FALLBACK_BRICK creates its brick. -/
def toFallback (id : Nat) (s : State) : State := modZmsg id (fun m => { m with sent := true, begun := true, asm := none, fin := true }) s

/-- A NACK is received for a PSN of ours (R206, R232, R234). -/
def nackReceive (pk : Nat) (h : ZHdr) (s : State) : State :=
  let s0 := bump 0xC068 0x06 s
  match peerOf s0 pk with
  | none => s0
  | some p =>
    match p.outs.find? (fun o => decide (o.psn = BitVec.ofNat 32 h.psn)) with
    | none => s0
    | some o =>
      let code := h.sub
      if code = zGap ∨ code = zBusy then
        (if o.acked then s0
         else if givenUp s0 o then abandonPeer pk s0
         else
           let s1 := modPeer pk (fun p => { p with outs := p.outs.map (fun x => if x.psn = o.psn then { x with due := true } else x) }) s0
           if o.fromHost then s1 else tryResend pk { o with due := true } o.dur [] s1)
      else if code < 0x10 then s0
      else if code = zBadVersion then
        let s1 := setEtVer p.ep 1 s0
        match zmsgOf s1 o.msg with
        | some m =>
          if m.op = opReduce then toFallback o.msg s1
          else if bit o.hdr.flags 3 then
            -- a refused traced packet goes again at once; toward version 1 it has no extension
            tryResend pk { o with hdr := { o.hdr with flags := bput o.hdr.flags 3 1 0 }, due := true } o.dur [] (modPeer pk (fun p => { p with outs := p.outs.map (fun x =>
              if x.psn = o.psn then { x with hdr := { x.hdr with flags := bput x.hdr.flags 3 1 0 }, due := true } else x) }) s1)
          else abortMsg o.msg code true true s1
        | none => s1
      else abortMsg o.msg code true (decide (code ≠ zNoPeer)) s0

end Sys2Proof.Machine
end

