-- ==== Sys2Proof/Machine/ZmtRecv.lean ====
section
/-! DEFINITION. The transport as a receiver: what a slice checks on a packet, the receive window, acknowledgements,
refusals and credit (R199-R204, R225, R228-R231). -/

namespace Sys2Proof.Machine

/-! ### The ledger of inbound packets (R238) -/

/-- ITEM of an inbound packet (Table 19-2). -/
def ZIn.item (z : ZIn) : Nat := z.hdr.psn + z.hdr.srcEp * 2 ^ 32

def zInFail (z : ZIn) (code : Nat) (s : State) : State := ledFail 6 (zmtReason code) 0x0F 0 z.item s
def zInDone (s : State) : State := ledComplete 6 s

/-- A packet arrived CE-marked. -/
def ZIn.ce (z : ZIn) : Bool := decide (ecnOf z.bytes (l3Start z.bytes) = some 3)

/-- Requester number of an inbound packet in the translation unit. -/
def xinId (z : ZIn) : Nat := 8 * z.id

/-! ### Queues of a slice -/

def inqOf (s : State) (ts : Nat) : List ZIn := tget [] s.zmt.inq ts
def readyOf (s : State) (ts : Nat) : List ZIn := tget [] s.zmt.ready ts
def modReady (ts : Nat) (f : List ZIn → List ZIn) (s : State) : State :=
  modZmt (fun x => { x with ready := tmod [] x.ready ts f }) s

/-- The oldest packet of an operation that has passed its checks. -/
def readyOp (s : State) (ts op : Nat) : Option ZIn := (readyOf s ts).find? (fun z => decide (z.hdr.op = op))

/-- A packet leaves its slice. -/
def dropReady (ts : Nat) (z : ZIn) (s : State) : State :=
  undeny (xinId z) (modReady ts (fun l => l.filter (fun x => decide (x.id ≠ z.id))) s)

/-! ### ACK, NACK, CREDIT as sent (R225, R230, R231) -/

/-- SACK: bit i for PSN rx_base + 1 + i. -/
def sackMap (p : Peer) : Nat :=
  ((List.range 64).map (fun i => if p.rxBase + 1 + BitVec.ofNat 32 i ∈ p.seen then 2 ^ i else 0)).sum

/-- RESP_BASE: the lowest PSN that awaits a response, the next PSN when none does (Table 6-9). -/
def respBase (p : Peer) : BitVec 32 :=
  p.txNext - BitVec.ofNat 32 ((p.resp.map (fun e => (p.txNext - BitVec.ofNat 32 e.1).toNat)).foldl max 0)

/-- Send an ACK through slice `ts`, echoing a PSN or none (R230, Table 6-9). -/
def sendAck (pk : Nat) (echo : Option Nat) (s : State) : State :=
  match peerOf s pk with
  | none => s
  | some p =>
    let body := natBE 8 (sackMap p) ++ natBE 4 (respBase p).toNat ++ natBE 2 p.npkt ++ natBE 2 p.nce
    let s1 := sendCtrl p.slice p.ep (fun f =>
      { op := opAck, flags := if echo.isSome then flAckreq else 0, plen := 16, job := f % 2 ^ 32,
        msgId := f / 2 ^ 32 % 2 ^ 32, psn := p.rxBase.toNat, mseq := echo.getD 0 }) body s
    bump (0xC060 + p.slice) 0x09 (modPeer pk (fun p => { p with npkt := 0, nce := 0, arrivals := 0, ackAt := none }) s1)

/-- Send a NACK that names a PSN (R231). -/
def sendNack (ts ep psn code job msgId : Nat) (s : State) : State :=
  bump (0xC060 + ts) (if code = zGap then 0x07 else if code = zBusy then 0x08 else 0x06)
    (sendCtrl ts ep (fun _ => { op := opNack, psn := psn, sub := code, job := job, msgId := msgId }) [] s)

/-- Acknowledge an arrival: at once for ACKREQ or RETX, or after sixteen; else when the delay has passed (R230). -/
def ackPolicy (pk : Nat) (z : ZIn) (fresh : Bool) (s : State) : State :=
  let s1 := modPeer pk (fun p => { p with
    npkt := p.npkt + b2n fresh, nce := p.nce + b2n (fresh && z.ce), arrivals := p.arrivals + 1,
    ackAt := p.ackAt <|> some (now s) }) s
  if z.hdr.flags &&& (flAckreq ||| flRetx) ≠ 0 then sendAck pk (some z.hdr.psn) s1
  else match peerOf s1 pk with
    | some p => if 16 ≤ p.arrivals then sendAck pk none s1 else s1
    | none => s1

/-! ### The receive window (R228, R229) -/

/-- rx_base moves past PSNs already received. -/
def advanceRx : Nat → Peer → Peer
  | 0, p => p
  | f + 1, p => if p.rxBase ∈ p.seen then advanceRx f { p with seen := p.seen.erase p.rxBase, rxBase := p.rxBase + 1 } else p

/-- Set bit(psn). -/
def gotPsn (psn : Nat) (p : Peer) : Peer :=
  advanceRx (p.seen.length + 1) { p with seen := p.seen ++ [BitVec.ofNat 32 psn] }

/-- A PSN of an endpoint waits at some slice to be processed: it counts as received. -/
def waitsAt (s : State) (ep : Nat) (psn : BitVec 32) : Bool :=
  s.zmt.ready.any (fun e => e.2.any (fun z => decide (z.hdr.srcEp = ep ∧ z.hdr.psn = psn.toNat) && opSequenced z.hdr.op && !z.dup))

/-- A peer holds a bitmap block: it has packets received beyond rx_base, processed or waiting (R229). -/
def holdsBlock (s : State) (p : Peer) : Bool :=
  !p.seen.isEmpty || s.zmt.ready.any (fun e => e.2.any (fun z =>
    decide (z.hdr.srcEp = p.ep ∧ z.hdr.psn ≠ p.rxBase.toNat) && opSequenced z.hdr.op && !z.dup))

/-- Blocks in use. -/
def blocksUsed (s : State) : Nat := (s.zmt.peers.filter (fun e => holdsBlock s e.2)).length

/-- The first processing of a PSN ends: its bit is set, the grant of its class grows, it is acknowledged
(R225, R228). `held` is a REDUCE whose unit returns only when its deposit has left the slice. -/
def donePsn (pk : Nat) (z : ZIn) (held : Bool) (s : State) : State :=
  let eager := decide (z.hdr.op = opSend) && !bit z.hdr.flags 4
  let red := decide (z.hdr.op = opReduce) && !held
  ackPolicy pk z true (modPeer pk (fun p =>
    { gotPsn z.hdr.psn p with givenE := p.givenE + (if eager then 1 else 0), givenR := p.givenR + (if red then 1 else 0) }) s)

/-- A sequenced packet is placed or served. -/
def zPlaced (ts pk : Nat) (z : ZIn) (s : State) : State := zInDone (donePsn pk z false (dropReady ts z s))

/-- A sequenced packet is refused: NACK, failure at the target; BAD_OP is discarded without a NACK (R228, R232). -/
def zRefuse (ts pk : Nat) (z : ZIn) (code : Nat) (s : State) : State :=
  let s1 := dropReady ts z s
  let s2 := if code = zBadOp then bump (0xC060 + ts) 0x05 s1
    else sendNack ts z.hdr.srcEp z.hdr.psn code z.hdr.job z.hdr.msgId s1
  zInFail z code (donePsn pk z false s2)

/-- A packet that has to come again: NACK BUSY; its bit is not set (R223, Table 10-3). -/
def zBusyNack (ts : Nat) (z : ZIn) (s : State) : State :=
  zInFail z zBusy (sendNack ts z.hdr.srcEp z.hdr.psn zBusy z.hdr.job z.hdr.msgId (dropReady ts z s))

/-- Its peer record went while it waited: it fails with NO_PEER_STATE (R204). -/
def zOrphan (ts : Nat) (z : ZIn) (s : State) : State := zInFail z zNoPeer (dropReady ts z s)

/-! ### The checks of an arriving packet (R200-R204) -/

/-- The UDP checksum of a frame is right; 0000h over IPv4 means none was sent (R202). -/
def udpOk (f : Bytes) (hofs : Nat) : Bool :=
  let o := hofs - 8
  let len := beAt f (o + 4) 2
  let l3 := l3Start f
  let pseudo := if beAt f l3 1 / 16 = 6 then sum16 (slice f (l3 + 8) 32) else sum16 (slice f (l3 + 12) 8)
  (decide (beAt f (o + 6) 2 = 0) && decide (beAt f l3 1 / 16 = 4)) ||
    decide (cksum (pseudo + 17 + len + sum16 (slice f o len)) = 0)

/-- PLEN as Table 6-3 has it. -/
def plenLegal (h : ZHdr) : Bool :=
  match h.op with
  | 2 => decide (h.plen = 8)
  | 3 => decide (h.plen = h.mlen)
  | 4 => decide (h.plen = 24)
  | 5 => decide (h.plen = 8)
  | 6 => if bit h.flags 4 then decide (h.plen = 8) else true
  | 8 => decide (h.plen = 16)
  | 9 => decide (h.plen = 0)
  | 10 => decide (h.plen = 8)
  | 11 => decide (h.plen = 64)
  | 13 => decide (h.plen = 0)
  | _ => true

/-- Bytes of the trace extension. -/
def trcLen (h : ZHdr) : Nat := if h.traced then 16 else 0

/-- PLEN agrees with Table 6-3, with 4,096 and with the UDP length (R198, R200). -/
def plenOk (z : ZIn) (h : ZHdr) : Bool :=
  plenLegal h && decide (h.plen + trcLen h ≤ 4096) && decide (beAt z.bytes (z.hofs - 4) 2 = 8 + 40 + trcLen h + h.plen) &&
    decide (z.hofs + 40 + trcLen h + h.plen ≤ z.bytes.length)

/-- A trace record of 32 bytes (R199). -/
def traceRecord (s : State) (z : ZIn) (h : ZHdr) : Bytes :=
  let e := z.hofs + 40
  padTo (slice z.bytes e 14 ++ natLE 8 (now s) ++ natLE 4 h.srcEp ++ natLE 4 h.psn ++ natLE 1 h.op) 32

/-- A traced packet leaves its record; a full ring loses it (R199). -/
def tracePacket (ts : Nat) (z : ZIn) (h : ZHdr) (s : State) : State :=
  if !h.traced || !cfgB s 0x7500 2 then s
  else if Config.traceRing ≤ s.zmt.trace.length then bump (0xC060 + ts) 0x0D s
  else modZmt (fun x => { x with trace := x.trace ++ [traceRecord s z h] }) s

/-- A packet is discarded with BAD_OP (R200; DESIGN CHOICE, log 74). -/
def discardBadOp (ts : Nat) (z : ZIn) (s : State) : State := zInFail z zBadOp (bump (0xC060 + ts) 0x05 s)

/-- PSNs missing at the receiver that lie far enough before `psn`, in order; none that a sender could not have sent lies beyond
the 4,096 of the window (R227, R231). -/
def gapPsns (s : State) (p : Peer) (psn : BitVec 32) : List (BitVec 32) :=
  let n := (psn - p.rxBase).toNat
  let far := if 2 ^ 31 ≤ n then 0 else min 4096 (n + 1 - cfg s 0x7100 6)
  ((List.range far).map (fun i => p.rxBase + BitVec.ofNat 32 i)).filter (fun q => !decide (q ∈ p.seen) && !waitsAt s p.ep q)

/-- Send NACK GAP for missing PSNs, not twice for one within an RTO (R231). The MSG_ID of a missing packet is not known:
it is a free value (DESIGN CHOICE, log 1). -/
def nackGaps (ts pk : Nat) (psn : Nat) (s : State) : State :=
  match peerOf s pk with
  | none => s
  | some p =>
    (gapPsns s p (BitVec.ofNat 32 psn)).foldl (fun s q =>
      let last := tfind p.gaps q.toNat
      if (match last with | some t => decide (now s < t + rtoOf s p) | none => false) then s
      else
        let f := freeNat s
        modPeer pk (fun p => { p with gaps := tput p.gaps q.toNat (now s) })
          (sendNack ts p.ep q.toNat zGap (f % 2 ^ 32) (f / 2 ^ 32 % 2 ^ 32) (drawn s))) s

/-- A sequenced packet from a peer with a record: duplicate, beyond the window, without a block, or to be processed
(R228, R229); one whose version is `refused` is processed by its refusal. A PSN that waits to be processed, at whichever slice,
counts as received. Each arrival may show that earlier PSNs are missing (R231). -/
def windowCheck (ts pk : Nat) (z : ZIn) (refused : Bool) (s : State) : State :=
  match peerOf s pk with
  | none => zInFail z zNoPeer s
  | some p =>
    let psn := BitVec.ofNat 32 z.hdr.psn
    let d := (psn - p.rxBase).toNat
    nackGaps ts pk z.hdr.psn (
      if 2 ^ 31 ≤ d ∨ psn ∈ p.seen ∨ waitsAt s p.ep psn then
        let s1 := bump (0xC060 + ts) 0x02 s
        if (z.hdr.op = opGet ∨ z.hdr.op = opAtomic) ∧ !refused then
          ackPolicy pk z false (modReady ts (· ++ [{ z with dup := true }]) s1)
        else ackPolicy pk z false (zInDone s1)
      else if 4096 ≤ d then zInFail z zBeyond (bump (0xC060 + ts) 0x03 s)
      else if d ≠ 0 ∧ !holdsBlock s p ∧ 65536 ≤ blocksUsed s then zInFail z zNoRx (bump (0xC060 + ts) 0x04 s)
      else if refused then zRefuse ts pk z zBadVersion s
      else modReady ts (· ++ [z]) s)

/-- A packet whose version or extension this device does not take is refused with BAD_VERSION; its PSN counts as
processed (R200, R228). -/
def versionRefused (s : State) (h : ZHdr) : Bool :=
  decide (2 < h.ver) || (decide (ownVer s = 1) && (decide (h.op = opReduce) || h.traced))

/-- An unsequenced packet is refused with a NACK: a bad version, or no record can be made. -/
def refuseUnseq (ts : Nat) (z : ZIn) (code : Nat) (s : State) : State :=
  zInFail z code (sendNack ts z.hdr.srcEp z.hdr.psn code z.hdr.job z.hdr.msgId s)

/-- ZMT_PACKET_RECEIVE: the oldest packet handed to a slice is checked (R199-R204, R226, R228). -/
def execZmtPacketReceive (ts : Fin 8) (s : State) : Host.Outcome State Fault Refusal :=
  let s := feedSlice ts.val s
  match inqOf s ts.val with
  | [] => .next s
  | z0 :: rest =>
    let t := ts.val
    let s0 := modZmt (fun x => { x with inq := tset [] x.inq t rest }) s
    let h := zhdrParse (slice z0.bytes z0.hofs 40)
    let z := { z0 with hdr := h, body := slice z0.bytes (z0.hofs + 40 + trcLen h) h.plen }
    let whole := decide (42 ≤ z.hofs) && decide (z.hofs + 40 ≤ z.bytes.length)
    -- R201: every packet whose header stands in the frame names its sender's version
    let s1 := if whole then setEtVer h.srcEp (min h.maxv (ownVer s)) s0 else s0
    let refused := versionRefused s h
    .next (
      if !whole ∨ (cfgB s 0x7000 0x0A ∧ !udpOk z.bytes z.hofs) then discardBadOp t z s1
      else if h.op = 0 ∨ 14 ≤ h.op ∨ (h.op = opReduce ∧ h.ver ≤ 1) then discardBadOp t z s1
      else if !refused && !plenOk z h then discardBadOp t z s1
      else if h.op = opTime then (if refused then refuseUnseq t z zBadVersion s1 else zInDone (tracePacket t z h s1))
      else
        match ensurePeer h.srcEp t s1 with
        | (none, s2) => refuseUnseq t z zNoPeer s2
        | (some pk, s2) =>
          let s3 := setEtVer h.srcEp (min h.maxv (ownVer s)) s2
          let s4 := if refused then s3 else tracePacket t z h s3
          if opSequenced h.op then windowCheck t pk z refused s4
          else if refused then refuseUnseq t z zBadVersion s4
          else modReady t (· ++ [z]) s4)

/-! ### ACK, NACK, CREDIT, MGMT, FIN -/

/-- An unsequenced packet of an operation acts on its peer and completes. -/
def unseqOp (ts op : Nat) (act : Nat → ZIn → State → State) (s : State) : State :=
  match readyOp s ts op with
  | none => s
  | some z =>
    match peerIdx s z.hdr.srcEp with
    | none => zOrphan ts z s
    | some pk => zInDone (act pk z (dropReady ts z s))

def execAck (ts : Fin 8) (s : State) : Host.Outcome State Fault Refusal :=
  .next (unseqOp ts.val opAck (fun pk z s => ackReceive pk z.hdr z.body s) s)

def execNack (ts : Fin 8) (s : State) : Host.Outcome State Fault Refusal :=
  .next (unseqOp ts.val opNack (fun pk z s => nackReceive pk z.hdr s) s)

/-- CREDIT: cumulative grants, an older one changes nothing (R225). -/
def creditReceive (pk : Nat) (b : Bytes) (s : State) : State :=
  let newer := fun (a old : BitVec 32) => if (a - old).toNat < 2 ^ 31 then a else old
  modPeer pk (fun p => { p with grantR := newer (BitVec.ofNat 32 (beAt b 0 4)) p.grantR,
                                grantE := newer (BitVec.ofNat 32 (beAt b 4 4)) p.grantE }) s

def execCredit (ts : Fin 8) (s : State) : Host.Outcome State Fault Refusal :=
  .next (unseqOp ts.val opCredit (fun pk z s => creditReceive pk z.body s) s)

/-- A sequenced packet of an operation, with its peer. -/
def seqOp (ts op : Nat) (act : Nat → ZIn → State → State) (s : State) : State :=
  match readyOp s ts op with
  | none => s
  | some z =>
    match peerIdx s z.hdr.srcEp with
    | none => zOrphan ts z s
    | some pk => act pk z s

/-- MGMT: a dictionary message for the steward (R226; DESIGN CHOICE, log 59). -/
def execMgmt (ts : Fin 8) (s : State) : Host.Outcome State Fault Refusal :=
  .next (seqOp ts.val opMgmt (fun pk z s =>
    zPlaced ts.val pk z (modDict (fun d => { d with inbox := d.inbox ++ [(z.hdr.srcEp, z.body)] }) s)) s)

/-- FIN: the rendezvous SEND it names completes (R223). -/
def finReceive (z : ZIn) (s : State) : State :=
  match s.zmt.msgs.find? (fun e => decide (e.2.ep = z.hdr.srcEp ∧ e.2.id = z.hdr.msgId ∧ e.2.op = opSend) && !e.2.inner) with
  | some (id, _) => zmsgDone id (modZmsg id (fun m => { m with acked := m.n }) s)
  | none => s

def execFin (ts : Fin 8) (s : State) : Host.Outcome State Fault Refusal :=
  .next (seqOp ts.val opFin (fun pk z s => zPlaced ts.val pk z (finReceive z s)) s)

/-- ZMT_ACK_SEND: the delay after the first unacknowledged arrival has passed (R230). -/
def execZmtAckSend (ep : BitVec 32) (s : State) : Host.Outcome State Fault Refusal :=
  match peerIdx s ep.toNat with
  | none => .next s
  | some pk =>
    match (peerOf s pk).bind (·.ackAt) with
    | some t => .next (if reached (expiryAt 0 (t + cfg s 0x7100 7) t) s then sendAck pk none s else s)
    | none => .next s

/-- A peer whose REDUCE packets still wait at a deposit port is told of no more credit until that backlog clears (R25). -/
def withheld (s : State) (p : Peer) : Bool := s.cops.tile.any (fun e => e.2.dep.any (fun d => decide (d.ep = p.ep)))

/-- ZMT_CREDIT_SEND: a grant has grown by sixteen since it was last told (R225), and nothing withholds it (R25). -/
def execZmtCreditSend (ep : BitVec 32) (s : State) : Host.Outcome State Fault Refusal :=
  match peerIdx s ep.toNat with
  | none => .next s
  | some pk =>
    match peerOf s pk with
    | none => .next s
    | some p =>
      if (16 ≤ (p.givenR - p.toldR).toNat ∨ 16 ≤ (p.givenE - p.toldE).toNat) ∧ !withheld s p then
        .next (modPeer pk (fun p => { p with toldR := p.givenR, toldE := p.givenE })
          (sendCtrl p.slice p.ep (fun f => { op := opCredit, plen := 8, job := f % 2 ^ 32, msgId := f / 2 ^ 32 % 2 ^ 32 })
            (natBE 4 p.givenR.toNat ++ natBE 4 p.givenE.toNat) s))
      else .next s

end Sys2Proof.Machine
end

