-- ==== Sys2Proof/Machine/ZmtOps.lean ====
section
/-! DEFINITION. The transport operations at their target, responses at their initiator, assembly of SENDs, deposits,
counters and the command interface (R207-R226, R240, R241, R409-R413, R455). -/

namespace Sys2Proof.Machine

/-! ### Placement through a window (R209-R215) -/

/-- How an access of a packet ends. -/
inductive ZRes where
  | done (s : State)
  /-- refused with a code, after `wrote` bytes were written (R32) -/
  | refuse (code : Nat) (s : State) (wrote : Nat)
  /-- a translation is asked for; the packet stays where it is -/
  | wait (s : State)
  /-- a brick that the access needs is refused -/
  | busy
  deriving DecidableEq, Repr

/-- Bytes before the first piece that fails. -/
def prefixLen (s : State) (pasid a n : Nat) : Nat :=
  (((piecesOf a n).takeWhile (fun p => decide (pieceAcc s true pasid p.1 = .ok))).map (·.2)).sum

/-- The bytes before the first piece that fails are written (R32, R212). -/
def placePrefix (pasid a : Nat) (data : Bytes) (mark : Nat) (s : State) : State :=
  unitPlace pasid a (data.take (prefixLen s pasid a data.length)) mark s

/-- Check a counter before bytes are placed; a refusal COUNT_OVER fails it (R213-R215). -/
def counterGate (ts ep ccid job mlen plen : Nat) (s : State) (k : State → ZRes) : ZRes :=
  let r := ctrCheck s ccid job mlen plen
  if ctrWouldBlock s ts ccid ep job mlen plen then .busy
  else if r ≠ 0 then .refuse r (if r = zCountOver then ctrFail ts ccid ep zCountOver s else s) 0
  else k s

/-- Place bytes at an address a unit may reach, and count them. -/
def placeCount (ts id ep ccid mlen pasid a mark : Nat) (data : Bytes) (s : State) : ZRes :=
  match rangeAcc s id true pasid a data.length with
  | .wait => .wait (askRange id true pasid a data.length s)
  | .fail c => .refuse c (placePrefix pasid a data mark s) (prefixLen s pasid a data.length)
  | .ok => .done (ctrCount ts ccid ep mlen data.length
      (bumpBy (0xC060 + ts) 0x0A data.length (unitPlace pasid a data mark s)))

/-- target(p): window, counter, placement, count. -/
def intoWindow (ts id ep job tofs ccid mlen : Nat) (data : Bytes) (s : State) : ZRes :=
  let c := winCheck s tofs data.length job rPut
  let w := tofsWin tofs
  if c ≠ 0 then .refuse c s 0
  else counterGate ts ep ccid job mlen data.length s
    (placeCount ts id ep ccid mlen (winPasid s w) (winAddr s tofs) (winMark s w) data)

/-- What a result means for a sequenced packet. -/
def settleSeq (ts pk : Nat) (z : ZIn) (s : State) (r : ZRes) : State :=
  match r with
  | .done s1 => zPlaced ts pk z s1
  | .refuse c s1 _ => zRefuse ts pk z c s1
  | .wait s1 => s1
  | .busy => zBusyNack ts z s

/-- Requester number of an assembly entry in the translation unit. -/
def xasmId (i : Nat) : Nat := 4 + 8 * i

/-! ### PUT and ABORT (R219, R232) -/

/-- An ABORT ends the counter of the message it names: the header's, or that of the receive its SEND matched. -/
def abortReceive (ts pk : Nat) (z : ZIn) (s : State) : State :=
  let h := z.hdr
  let fail := fun ccid s =>
    let st := (ctrOf s ccid).state
    if st = csArmed ∨ st = csAuto then bump 0xC068 0x0B (ctrFail ts ccid h.srcEp zAborted s) else s
  match asmFind s h.srcEp h.msgId with
  | some (i, a) =>
    (match a.dest with
     | some (_, _, ccid) =>
       if ctrBlocked s ts ccid h.srcEp then zBusyNack ts z s else zPlaced ts pk z (asmFree i (fail ccid s))
     | none => zPlaced ts pk z (asmFree i s))
  | none =>
    let c := ctrOf s h.ccid
    if 1048576 ≤ h.ccid ∨ (c.state ≠ csArmed ∧ c.state ≠ csAuto) ∨ c.job ≠ h.job then zPlaced ts pk z s
    else if ctrBlocked s ts h.ccid h.srcEp then zBusyNack ts z s
    else zPlaced ts pk z (fail h.ccid s)

/-- PUT: checked, placed and counted. -/
def execPut (ts : Fin 8) (s : State) : Host.Outcome State Fault Refusal :=
  .next (seqOp ts.val opPut (fun pk z s =>
    let h := z.hdr
    if bit h.flags 5 then abortReceive ts.val pk z s
    else settleSeq ts.val pk z s (intoWindow ts.val (xinId z) h.srcEp h.job h.tofs h.ccid h.mlen z.body s)) s)

/-! ### GET and GETR (R220) -/

/-- The bucket of a peer holds a response of `n` bytes; one that it does not hold waits (R236). -/
def respPaced (s : State) (pk n : Nat) : Bool := (peerOf s pk).all (fun p => mayPace s p (zmtFrameLen s n))

/-- Answer a GET with what its window holds. -/
def serveGet (pk ts : Nat) (z : ZIn) (host : Bytes) (s : State) : ZRes :=
  let h := z.hdr
  if 4096 < h.mlen then .refuse zBadOp s 0
  else
    let w := tofsWin h.tofs
    let a := winAddr s h.tofs
    match winAcc s (xinId z) false h.tofs h.mlen h.job rGet with
    | .fail c => .refuse c s 0
    | .wait => .wait (askRange (xinId z) false (winPasid s w) a h.mlen s)
    | .ok =>
      if !isHost a && poisonedIn s a h.mlen then .refuse zPoison s 0
      else if !respPaced s pk h.mlen then .wait s
      else .done (sendResp pk ts h.srcEp
        { op := opGetr, plen := h.mlen, job := h.job, msgId := h.msgId, tofs := beAt z.body 0 8, ccid := h.ccid,
          mseq := h.psn, mlen := h.mlen } (unitRead s a h.mlen host)
          (if isHost a then sendReads (winPasid s w) a h.mlen (xinId z) s else s))

/-- A duplicate that is served or discarded completes in the ledger whatever comes of it. -/
def dupDone (ts : Nat) (z : ZIn) (s : State) : State := zInDone (dropReady ts z s)

def execGet (ts : Fin 8) (host : Bytes) (s : State) : Host.Outcome State Fault Refusal :=
  .next (seqOp ts.val opGet (fun pk z s =>
    let r := serveGet pk ts.val z host s
    if z.dup then
      (match r with
       | .done s1 => dupDone ts.val z s1
       | .wait s1 => s1
       | _ => dupDone ts.val z s)
    else settleSeq ts.val pk z s r) s)

/-- Take a response off the response table; a packet already acknowledged is no longer outstanding. -/
def respTaken (pk psn : Nat) (s : State) : State :=
  modPeer pk (fun p => { p with resp := tdel p.resp psn,
                                outs := p.outs.filter (fun o => !(decide (o.psn = BitVec.ofNat 32 psn) && o.acked)) }) s

/-- Send the FIN of a rendezvous whose bytes have all arrived; `msgId` is that of its SEND (R223). -/
def sendFin (ep job tc msgId : Nat) (s : State) : State :=
  (zmsgNew { ep := ep, op := opFin, job := job, tc := tc, inner := true, id := msgId } s).2

/-- Place a response of `n` bytes at the offset its entry names: a receive's window, or the local address of the
command, where K and E are free values (DESIGN CHOICE, log 1); count it on the CCID it carries. -/
def placeResp (ts : Nat) (z : ZIn) (m : ZMsg) (r : ZResp) (data : Bytes) (s : State) : ZRes :=
  let h := z.hdr
  if m.asm.isSome then intoWindow ts (xinId z) h.srcEp m.job (tofsAdd m.w5 r.ofs) h.ccid m.n data s
  else counterGate ts h.srcEp h.ccid m.job m.n data.length s (fun s =>
    placeCount ts (xinId z) h.srcEp h.ccid m.n m.pasid (m.laddr + r.ofs) (freeNat s % 64) data (drawn s))

/-- A response to an entry of the response table: placed and counted, the entry freed (R220, R222). -/
def respReceive (ts : Nat) (op : Nat) (data : ZIn → Bytes) (s : State) : State :=
  match readyOp s ts op with
  | none => s
  | some z =>
    match peerIdx s z.hdr.srcEp with
    | none => zOrphan ts z s
    | some pk =>
      let want := if op = opGetr then opGet else opAtomic
      match (peerOf s pk).bind (fun p => tfind p.resp z.hdr.mseq) with
      | none => zInDone (dropReady ts z s)
      | some r =>
        match zmsgOf s r.msg with
        | none => zInDone (dropReady ts z s)
        | some m =>
          if m.op ≠ want ∨ z.body.length ≠ r.len then zInDone (dropReady ts z s)
          else
            match placeResp ts z m r (data z) s with
            | .busy => s
            | .wait s1 => s1
            | .refuse c s1 n => zInFail z c (dropReady ts z (abortMsg r.msg c false false
                (modZmsg r.msg (fun x => { x with acked := x.acked + n }) (respTaken pk z.hdr.mseq s1))))
            | .done s1 =>
              let m1 := { m with acked := m.acked + r.len, res := if op = opAtomr then BitVec.ofNat 64 (beAt z.body 0 8) else m.res }
              let s2 := modZmsg r.msg (fun x => { x with acked := m1.acked, res := m1.res }) (respTaken pk z.hdr.mseq (dropReady ts z s1))
              let s3 := match m.asm with
                | some i => if m1.acked = m.n ∧ m.sent then asmSettle i (sendFin m.ep m.job m.tc m.w6 s2) else s2
                | none => s2
              checkDone pk r.msg (zInDone s3)

/-- GETR: bytes in memory order. -/
def execGetr (ts : Fin 8) (s : State) : Host.Outcome State Fault Refusal :=
  .next (respReceive ts.val opGetr (fun z => z.body) s)

/-! ### ATOMIC and ATOMR (R221, R222) -/

/-- The word after an atomic operation. -/
def atomicNew (sub old operand compare : Nat) : Nat :=
  match sub with
  | 0 => (old + operand) % 2 ^ 64
  | 1 => if old = compare then operand else old
  | 2 => if sxt operand 64 < sxt old 64 then operand else old
  | 3 => if sxt old 64 < sxt operand 64 then operand else old
  | 4 => min old operand
  | _ => max old operand

/-- Carry out an ATOMIC and give back the previous value. A host window takes a PCIe AtomicOp, whose old value `host`
returns. -/
def doAtomic (z : ZIn) (host : Bytes) (s : State) : ZRes × Nat :=
  let h := z.hdr
  let a := winAddr s h.tofs
  let w := tofsWin h.tofs
  let x := beAt z.body 0 8
  let y := beAt z.body 8 8
  if 5 < h.sub then (.refuse zBadOp s 0, 0)
  else
    let c := winCheck s h.tofs h.plen h.job rAtom
    if c ≠ 0 then (.refuse c s 0, 0)
    else if a % 8 ≠ 0 then (.refuse zAlign s 0, 0)
    else if isHost a ∧ 2 ≤ h.sub then (.refuse zAtomicUns s 0, 0)
    else
      match rangeAcc s (xinId z) true (winPasid s w) a 8 with
      | .fail c => (.refuse c s 0, 0)
      | .wait => (.wait (askRange (xinId z) true (winPasid s w) a 8 s), 0)
      | .ok =>
        if isHost a then
          let p := (apCheck s true false (winPasid s w) a).2
          let phys := (translate s p true).getD 0
          (.done (emit (.hostMsg (p.func / 128) "ATOMIC_OP" (p.func % 128) [h.sub, phys, x, y]) s), leNat (sliceZ host 0 8))
        else if poisonedIn s a 8 then (.refuse zPoison s 0, 0)
        else
          let old := (memData s a).toNat
          (.done (storeBytes a (natLE 8 (atomicNew h.sub old x y)) s), old)

/-- The ATOMR of an ATOMIC: header and payload, kept for duplicates. -/
def atomrOf (z : ZIn) (old : Nat) : ZHdr × Bytes :=
  let h := z.hdr
  ({ op := opAtomr, plen := 8, job := h.job, msgId := h.msgId, tofs := beAt z.body 16 8, ccid := h.ccid, mseq := h.psn,
     mlen := 8 }, natBE 8 old)

def execAtomic (ts : Fin 8) (host : Bytes) (s : State) : Host.Outcome State Fault Refusal :=
  .next (seqOp ts.val opAtomic (fun pk z s =>
    if z.dup then
      match (peerOf s pk).bind (fun p => tfind p.kept z.hdr.psn) with
      | some (h, b) => if respPaced s pk b.length then dupDone ts.val z (sendResp pk ts.val z.hdr.srcEp h b s) else s
      | none => dupDone ts.val z s
    else
      match doAtomic z host s with
      | (.done s1, old) =>
        let r := atomrOf z old
        if !respPaced s pk r.2.length then s else
        zPlaced ts.val pk z (modPeer pk (fun p => { p with kept := tput p.kept z.hdr.psn r })
          (sendResp pk ts.val z.hdr.srcEp r.1 r.2 s1))
      | (r, _) => settleSeq ts.val pk z s r) s)

/-- ATOMR: the value is placed as a word. -/
def execAtomr (ts : Fin 8) (s : State) : Host.Outcome State Fault Refusal :=
  .next (respReceive ts.val opAtomr (fun z => natLE 8 (beAt z.body 0 8)) s)

/-! ### SEND (R223, R409-R413) -/

/-- The key of an ARRIVE. -/
def arriveKey (h : ZHdr) : BitVec 128 :=
  BitVec.ofNat 128 (h.ctx % 2 ^ 32 * 2 ^ 96 + h.srcEp * 2 ^ 64 + h.tofs / 2 ^ 32 % 2 ^ 32 * 2 ^ 32 + h.job)

/-- The arrival record of an assembly entry (R413). -/
def arriveRecord (s : State) (i slice mlen : Nat) : W64 :=
  BitVec.ofNat 64 (i + slice * 2 ^ 16 + ownPos s * 2 ^ 19 + mlen * 2 ^ 32)

/-- The first packet of a SEND makes its entry: a staging buffer when it is eager, and a search. -/
def newAsm (ts pk : Nat) (z : ZIn) (s : State) : Option (Nat × State) ⊕ State :=
  let h := z.hdr
  let i := tfresh s.zmt.asm
  let rndv := bit h.flags 4
  match peerOf s pk with
  | none => .inl none
  | some p =>
    let enter := fun (stage : Option Nat) (s : State) =>
      let a : Asm := { ep := h.srcEp, msgId := h.msgId, slice := p.slice, hdr := h, after := slice z.bytes (z.hofs + 40) 16, src := if rndv then beAt z.body 0 8 else 0,
                       stage := stage, pieces := [], dest := none, trunc := false }
      let r := arrSubmit p.slice pk (BitVec.ofNat 32 h.mseq) (arriveKey h) (arriveRecord s i p.slice h.mlen) s
      if r.1 then .inl (some (i, modZmt (fun x => { x with asm := tput x.asm i a }) r.2)) else .inl none
    if 65536 ≤ i then .inl none
    else if rndv then enter none s
    else
      let pool := cfg s 0x7000 9
      if 2 ^ (poolOf s pool).gshift.toNat < h.mlen then .inl none
      else match bufAlloc (8 + ts) pool 2 h.psn s with
        | (.wait, s1) => .inr s1
        | (.done 0 (.buf p n), s1) => enter (some (bufAddr s1 p n)) s1
        | _ => .inl none

/-- The PASID under which a staging buffer is reached: its pool's. -/
def stagePasid (s : State) : Nat := (poolOf s (cfg s 0x7000 9)).pasid.toNat

/-- A packet of a SEND whose entry exists: to the receive, to the staging buffer, or nowhere when truncated. -/
def sendInto (ts : Nat) (z : ZIn) (i : Nat) (a : Asm) (s : State) : ZRes :=
  let h := z.hdr
  let off := h.tofs % 2 ^ 32
  if bit h.flags 4 ∨ a.trunc then .done s
  else if h.mlen < off + h.plen then .refuse zOutOfWindow s 0
  else match a.dest with
    | some (tofs, _, ccid) =>
      (match intoWindow ts (xinId z) h.srcEp h.job (tofsAdd tofs off) ccid h.mlen z.body s with
       | .done s1 => .done (asmSettle i s1)
       | .refuse c s1 n => .refuse c (asmSettle i s1) n
       | r => r)
    | none =>
      (match a.stage with
       | none => .done s
       | some b =>
         match rangeAcc s (xinId z) true (stagePasid s) (b + off) h.plen with
         | .wait => .wait (askRange (xinId z) true (stagePasid s) (b + off) h.plen s)
         | .fail c => .refuse c s 0
         | .ok => .done (modAsm i (fun a => { a with pieces := a.pieces ++ [(off, h.plen)] })
             (unitPlace (stagePasid s) (b + off) z.body 0 s)))

def execSend (ts : Fin 8) (host : Bytes) (s : State) : Host.Outcome State Fault Refusal :=
  let _ := host
  .next (seqOp ts.val opSend (fun pk z s =>
    match asmFind s z.hdr.srcEp z.hdr.msgId with
    | some (i, a) => settleSeq ts.val pk z s (sendInto ts.val z i a s)
    | none =>
      match newAsm ts.val pk z s with
      | .inr s1 => s1
      | .inl none => zBusyNack ts.val z s
      | .inl (some (i, s1)) =>
        match asmOf s1 i with
        | some a => settleSeq ts.val pk z s1 (sendInto ts.val z i a s1)
        | none => s1) s)

/-- The copy of a header and of the 16 bytes after it (Table 6-11); bytes that the packet does not have, or that lie in host
memory, are free values (DESIGN CHOICE, log 1). -/
def headCopy (s : State) (h : ZHdr) (after : Bytes) : Bytes :=
  zhdrBytes h ++ after.take 16 ++ (natLE 16 (freeNat s / 2 ^ 48)).drop after.length

/-- The TRANSPORT brick MATCH_TRUNC; the address of the copied header is a free value (Table 6-11, DESIGN CHOICE, log 1). -/
def truncBrick (s : State) (slice : Nat) (a : Asm) (desc : Nat) : List W64 :=
  hwBrick s 2 (cfg s 0x8C01 3) (payWord (copyAddr s) 56) 0
    (BitVec.ofNat 64 (2 + slice * 2 ^ 8 + desc % 2 ^ 48 * 2 ^ 16)) (BitVec.ofNat 64 a.ep)

/-- Copy the staged pieces into the receive, counting each; the first that cannot be placed fails the counter with its
reason. -/
def copyPieces (ts i : Nat) (a : Asm) (tofs ccid b : Nat) (host : Bytes) : List (Nat × Nat) → State → ZRes
  | [], s => .done s
  | (off, n) :: rest, s =>
    match rangeAcc s (xasmId i) false (stagePasid s) (b + off) n with
    | .wait => .wait (askRange (xasmId i) false (stagePasid s) (b + off) n s)
    | .fail c => .refuse c s 0
    | .ok =>
      match intoWindow ts (xasmId i) a.ep a.hdr.job (tofsAdd tofs off) ccid a.hdr.mlen (unitRead s (b + off) n host) s with
      | .done s1 => copyPieces ts i a tofs ccid b (if isHost b then host.drop n else host) rest
          (modAsm i (fun a => { a with pieces := a.pieces.filter (· ≠ (off, n)) }) s1)
      | r => r

/-- A search has resolved to a receive descriptor at `desc`, whose 32 bytes are `d` (R223, R409, R410). -/
def resolveTo (ts i : Nat) (a : Asm) (desc : Nat) (d host : Bytes) (s : State) : ZRes :=
  let tofs := leAt d 0 8
  let len := leAt d 8 6
  let ccid := leAt d 16 3
  if len < a.hdr.mlen then
    let ws := truncBrick s ts a desc
    if brickRefused s ws then .busy
    else .done (modAsm i (fun a => { a with dest := some (tofs, len, ccid), trunc := true })
      (acceptUnitBrick ws (placeCopy (headCopy s a.hdr a.after) s)).2.2)
  else
    let s1 := modAsm i (fun a => { a with dest := some (tofs, len, ccid) }) s
    if bit a.hdr.flags 4 ∧ a.hdr.mlen = 0 then .done (sendFin a.ep a.hdr.job 0 a.msgId s1)
    else if bit a.hdr.flags 4 then
      .done (zmsgNew { ep := a.ep, op := opGet, job := a.hdr.job, tofs := a.src, ccid := ccid, n := a.hdr.mlen, w5 := tofs,
                       w6 := a.msgId, asm := some i, inner := true } s1).2
    else match a.stage with
      | none => .done s1
      | some b =>
        match copyPieces ts i a tofs ccid b host a.pieces s1 with
        | .done s2 => .done (asmSettle i (if a.pieces.isEmpty then s2 else bump 0xC068 0x0C s2))
        | .refuse c s2 _ => .done (asmSettle i (ctrFail ts ccid a.ep c s2))
        | r => r

/-- MATCH_RESOLVE: the oldest search result of a slice is acted on; an unexpected message stays staged. `host` is what
host reads of the descriptor and of a staging buffer in host memory returned. -/
def execMatchResolve (ts : Fin 8) (host : Bytes) (s : State) : Host.Outcome State Fault Refusal :=
  match s.mat.done.find? (fun d => decide (d.1 = ts.val)) with
  | none => .next s
  | some r =>
    let take := fun s => modMat (fun m => { m with done := m.done.erase r }) s
    match r.2.2 with
    | none => .next (take s)
    | some w =>
      let i := bf r.2.1.toNat 0 16
      let desc := w.toNat % 2 ^ 48
      match asmOf s i with
      | none => .next (take s)
      | some a =>
        match rangeAcc s (xasmId i) false 0 desc 32 with
        | .wait => .next (askRange (xasmId i) false 0 desc 32 s)
        | .fail _ => .next (take (undeny (xasmId i) (modAsm i (fun a => { a with trunc := true }) s)))
        | .ok =>
          let d := unitRead s desc 32 host
          let s0 := if isHost desc then sendReads 0 desc 32 (xasmId i) s else s
          match resolveTo ts.val i a desc d (if isHost desc then host.drop 32 else host) s0 with
          | .done s1 => .next (take (undeny (xasmId i) s1))
          | .wait s1 => .next s1
          | _ => .next s

/-! ### REDUCE (R224, R455) -/

/-- IEEE 754 addition of two FP64 values, rounded to nearest even; a NaN result is the NaN of R448. -/
def fp64Add (a b : Nat) : Nat :=
  let x := xsElem 0 a
  let y := xsElem 0 b
  let f := x.1 ||| y.1
  if bit f 0 || (bit f 1 && bit f 2) then 0x7FF8000000000000
  else if bit f 1 then 0x7FF0000000000000
  else if bit f 2 then 0xFFF0000000000000
  else if a = 2 ^ 63 ∧ b = 2 ^ 63 then 2 ^ 63
  else rndInt (x.2 + y.2)

/-- Element `y` into word `x` under a mode of Table 6-8. -/
def reduceWord (mode x y : Nat) : Nat :=
  match mode with
  | 2 => (x + y) % 2 ^ 64
  | 3 => if sxt y 64 < sxt x 64 then y else x
  | 4 => if sxt x 64 < sxt y 64 then y else x
  | _ => fp64Add x y

/-- Words of a payload merged into the words of memory. -/
def reduceBytes (mode : Nat) (old new : Bytes) : Bytes :=
  (List.range (new.length / 8)).flatMap (fun i => natLE 8 (reduceWord mode (leAt old (8 * i) 8) (leAt new (8 * i) 8)))

/-- A REDUCE into a window: modes 2 to 5. -/
def reduceWindow (ts : Nat) (z : ZIn) (mode : Nat) (host : Bytes) (s : State) : ZRes :=
  let h := z.hdr
  let w := tofsWin h.tofs
  let a := winAddr s h.tofs
  let n := h.plen
  let c := winCheck s h.tofs n h.job rRed
  if c ≠ 0 then .refuse c s 0
  else if n % 8 ≠ 0 then .refuse zAlign s 0
  else counterGate ts h.srcEp h.ccid h.job h.mlen n s (fun s =>
    match rangeAcc s (xinId z) true (winPasid s w) a n with
    | .wait => .wait (askRange (xinId z) true (winPasid s w) a n s)
    | .fail c => .refuse c s 0
    | .ok =>
      if !isHost a && poisonedIn s a n then .refuse zPoison s 0
      else
        let out := reduceBytes mode (unitRead s a n host) z.body
        let s1 := if isHost a then unitPlace (winPasid s w) a out 0 (sendReads (winPasid s w) a n (xinId z) s)
          else storeBytes a out s
        .done (bump (0xC060 + ts) 0x0B (ctrCount ts h.ccid h.srcEp h.mlen n s1)))

/-- A REDUCE into an exact-sum slot: it waits at the deposit port of its tile (R25, R455). -/
def reduceSlot (ts : Nat) (z : ZIn) (mode : Nat) (s : State) : ZRes :=
  let h := z.hdr
  let tile := bf h.tofs 4 4
  let slot := bf h.tofs 0 4
  let armed := (slotOf s tile slot).armed
  if 12 ≤ tile ∨ armed.all (fun x => decide (x.1 ≠ h.job)) = true then .refuse zNoSlot s 0
  else
    let r := ctrCheck s h.ccid h.job h.mlen h.plen
    if r = zCountOver ∧ ctrBlocked s ts h.ccid h.srcEp then .busy
    else if r ≠ 0 then .refuse r (if r = zCountOver then ctrFail ts h.ccid h.srcEp zCountOver s else s) 0
    else
      let d : Deposit := { slot := slot, mode := mode, typ := bf h.sub 4 2, rest := z.body, bytes := h.plen, slice := ts,
                           ccid := h.ccid, ep := h.srcEp, mlen := h.mlen, item := z.item }
      .done (bump (0xC060 + ts) 0x0B ((if (copOf s tile).dep.isEmpty then id else bump (0xC060 + ts) 0x0C)
        (modCop tile (fun u => { u with dep := u.dep ++ [d] }) (ctrFirst h.ccid h.mlen s))))

def execReduce (ts : Fin 8) (host : Bytes) (s : State) : Host.Outcome State Fault Refusal :=
  .next (seqOp ts.val opReduce (fun pk z s =>
    let mode := z.hdr.sub % 8
    let typ := bf z.hdr.sub 4 2
    if 5 < mode ∨ typ = 3 ∨ (2 ≤ mode ∧ typ ≠ 0) then zRefuse ts.val pk z zBadOp s
    else if 2 ≤ mode then settleSeq ts.val pk z s (reduceWindow ts.val z mode host s)
    else match reduceSlot ts.val z mode s with
      | .done s1 => donePsn pk z true (dropReady ts.val z s1)
      | r => settleSeq ts.val pk z s r) s)

/-- One chunk of a deposit: up to 64 elements, or one compact form; what is left, and the slot after it (R455). -/
def depositChunk (tile : Nat) (d : Deposit) (s : State) : Bytes × State :=
  let fold := fun fl sum s => xsCount tile (slotOf s tile d.slot) ((slotOf s tile d.slot).fold fl sum)
    (modSlot tile d.slot (XSlot.fold fl sum) s)
  if d.mode = 0 then
    let sz := xsSize d.typ
    let n := min 64 (d.rest.length / sz)
    let e := xsElems d.typ n d.rest
    let rest := d.rest.drop (n * sz)
    (if rest.length < sz then [] else rest, bumpBy (0xC0B0 + tile) 0x06 n (fold e.1 e.2 s))
  else
    let len := xsCompactLen (leAt d.rest 0 8)
    let form := d.rest.take len
    let bad := bump (0xC0B0 + tile) 0x09 (modSlot tile d.slot (fun x => { x with flags := x.flags ||| 16 }) s)
    if d.rest.length < len then ([], if d.rest = [] then s else bad)
    else match xsCompactRead form with
      | some (v, fl) => (d.rest.drop len, fold fl v s)
      | none => (d.rest.drop len, bad)

/-- DEPOSIT_CHUNK: the oldest deposit of a tile takes its turn; after its last chunk the packet's bytes are counted, its
credit unit returned, and the packet completes (R225, R445, R452, R455). -/
def execDepositChunk (tile : Fin 12) (s : State) : Host.Outcome State Fault Refusal :=
  let t := tile.val
  match (copOf s t).dep with
  | [] => .next s
  | d :: more =>
    let r := depositChunk t d s
    if r.1 ≠ [] then .next (copPtr t 2 8 (modCop t (fun u => { u with dep := { d with rest := r.1 } :: more }) r.2))
    else
      let c := ctrOf s d.ccid
      let ends := decide (c.count + d.bytes = if c.state = csAuto then d.mlen else c.target)
      if ends && ctrBlocked s d.slice d.ccid d.ep then .next s
      else
        let s1 := modCop t (fun u => { u with dep := more }) r.2
        let s2 := if c.state = csArmed ∨ c.state = csAuto then ctrCount d.slice d.ccid d.ep d.mlen d.bytes s1 else s1
        let s3 := match peerIdx s2 d.ep with
          | some pk => modPeer pk (fun p => { p with givenR := p.givenR + 1 }) s2
          | none => s2
        .next (copPtr t 2 8 (zInDone (bump (0xC0B0 + t) 0x05 s3)))

/-! ### The fallback of a REDUCE (R207) -/

/-- A REDUCE that a brick has to carry out: refused, or toward a peer of version 1 while packets of it are still to be sent
(DESIGN CHOICE, log 154). -/
def needsFallback (s : State) (m : ZMsg) : Bool :=
  decide (m.op = opReduce) && m.bid.isNone && (m.fin || (!m.sent && decide (verTo s m.ep = 1)))

/-- The header of a REDUCE's first packet, as a version-2 header; it has no PSN of its own, which is a free value (DESIGN CHOICE,
log 1), and the 16 payload bytes after it. -/
def reduceHead (s : State) (m : ZMsg) : Bytes :=
  let h := (nextPk s { m with next := 0 }).hdr
  headCopy s { h with ver := 2, maxv := ownVer s, srcEp := ownEp s, psn := freeNat s / 2 ^ 200 % 2 ^ 32 }
    (if isHost m.laddr then [] else memBytes s m.laddr (min 16 m.n))

/-- The slice that works for an endpoint. -/
def sliceFor (s : State) (ep : Nat) : Nat := (((peerIdx s ep).bind (peerOf s)).map (·.slice)).getD (ep % 8)

/-- REDUCE_FALLBACK_BRICK: the brick of class 7300h.01 with the header copy, whose address is a free value, and the
payload (Table 6-11). A refused brick leaves the message waiting. -/
def execReduceFallbackBrick (msg : Nat) (s : State) : Host.Outcome State Fault Refusal :=
  match zmsgOf s msg with
  | none => .next s
  | some m =>
    if needsFallback s m then
      let ws := hwBrick s 2 (cfg s 0x7300 1) (payWord (copyAddr s) 56) (payWord m.laddr m.n)
        (BitVec.ofNat 64 (1 + sliceFor s m.ep % 8 * 2 ^ 8)) (BitVec.ofNat 64 m.ep)
      let r := acceptUnitBrick ws (placeCopy (reduceHead s m) s)
      if r.1 = 0 then
        .next (bump 0xC068 0x08 (modZmsg msg (fun m => { m with bid := some r.2.1.toNat, sent := true, begun := true, fin := true }) r.2.2))
      else .next s
    else .next s

/-! ### Counters and the command interface (R214-R217, R241) -/

/-- COUNTER_DEADLINE: a counter still ARMED or AUTO at its deadline fails; the slice of a brick it makes is a free value
(R217, DESIGN CHOICE, log 1). -/
def execCounterDeadline (ccid : Nat) (s : State) : Host.Outcome State Fault Refusal :=
  let c := ctrOf s ccid
  let ts := freeNat s % 8
  if (c.state = csArmed ∨ c.state = csAuto) ∧ c.deadline ≠ 0 ∧ reached (expiryAt 0 c.deadline c.armedAt) s = true ∧
      ctrBlocked s ts ccid 0 = false then
    .next (bump 0xC068 0x0A (ctrFail ts ccid 0 zCtrTimeout (drawn s)))
  else .next s

/-- The record words of a counter (Table 6-7). -/
def ctrWords (c : Ctr) : List W64 :=
  [BitVec.ofNat 64 (c.count + c.state * 2 ^ 48 + c.reason * 2 ^ 56), BitVec.ofNat 64 c.target,
   BitVec.ofNat 64 (c.job + c.act * 2 ^ 32 + c.actarg * 2 ^ 36), BitVec.ofNat 64 c.deadline]

/-- A counter record from its words; a STATE the table does not list reads as IDLE. -/
def ctrFromWords (s : State) (w : List W64) : Ctr :=
  let g := fun i => (w.getD i 0).toNat
  let st := bf (g 0) 48 3
  { count := bf (g 0) 0 48, state := if 4 < st then 0 else st, reason := bf (g 0) 56 8, target := bf (g 1) 0 48,
    job := bf (g 2) 0 32, act := bf (g 2) 32 4, actarg := bf (g 2) 36 28, deadline := g 3, auto := decide (st = csAuto),
    armedAt := now s }

/-- Whether ACT and ACTARG may be armed by firmware (`func` none) or by a function's command (R216). -/
def actLegal (s : State) (act arg : Nat) (func : Option Nat) : Bool :=
  match act with
  | 0 => true
  | 1 =>
    let q := bf arg 0 12
    (cpqOf s q).en && (match func with | some f => decide ((cpqOf s q).owner = f) | none => true)
  | 2 => true
  | 3 => decide (bf arg 0 4 < 12) && decide (32 ≤ bf arg 4 8)
  | _ => false

/-- Arm a counter with a target, or AUTO without one (R214). -/
def ctrArm (ccid job act arg deadline : Nat) (target : Option Nat) (s : State) : State :=
  modCtrRec ccid (fun _ =>
    { count := 0, state := if target.isSome then csArmed else csAuto, reason := 0, target := target.getD 0, job := job,
      act := act, actarg := arg, deadline := deadline, auto := target.isNone, armedAt := now s }) s

/-- The status and results of a command. -/
def tsDone (st : Nat) (s : State) : State := modZmt (fun z => { z with status := st }) s
def tsGive (w : List W64) (s : State) : State := modZmt (fun z => { z with d := w }) s

/-- Index ranges of the three tables: window handle, CCID, tile and slot. -/
def tsLegal (tbl idx : Nat) : Bool :=
  match tbl with
  | 0 => decide (idx < 65536)
  | 1 => decide (idx < 1048576)
  | 2 => decide (idx < 192)
  | _ => false

def tsOk : Nat := 0
def tsInUse : Nat := 1
def tsRange : Nat := 2
def tsNotArmed : Nat := 3

def tsTile (idx : Nat) : Nat := idx / 16
def tsSlot (idx : Nat) : Nat := idx % 16

/-- The words of a window entry without their reserved bits (Table 6-6, R6, R8). -/
def winRecord (w : List W64) : List W64 :=
  [w.getD 0 0 &&& 0x83FFFFFFFFFFFFFF, w.getD 1 0 &&& 0xFFFFFFFFFFFF, w.getD 2 0 &&& 0xFFFFFFFFFFFFF, 0]

/-- OP 1 WRITE: a window or a counter takes the record words; a slot has no record to write (DESIGN CHOICE, log 80). -/
def tsWriteOp (tbl idx : Nat) (s : State) : State :=
  if !tsLegal tbl idx then tsDone tsRange s
  else match tbl with
    | 0 => tsDone tsOk (modZmt (fun z => { z with win := tset [0, 0, 0, 0] z.win idx (winRecord s.zmt.d) }) s)
    | 1 =>
      let st := (ctrOf s idx).state
      if st = csArmed ∨ st = csAuto then tsDone tsInUse s
      else tsDone tsOk (modCtrRec idx (fun _ => ctrFromWords s s.zmt.d) s)
    | _ => tsDone (if (slotOf s (tsTile idx) (tsSlot idx)).arming.isSome then tsInUse else tsOk) s

/-- The record of a slot, in the layout its ARM takes: CCID and, when armed, STATE 1 in word 0, JOB in word 2 (DESIGN CHOICE, log 61). -/
def slotWords (x : XSlot) : List W64 :=
  match x.arming with
  | some (j, c) => [BitVec.ofNat 64 (c + 2 ^ 48), 0, BitVec.ofNat 64 j, 0]
  | none => [0, 0, 0, 0]

/-- OP 2 READ. -/
def tsReadOp (tbl idx : Nat) (s : State) : State :=
  if !tsLegal tbl idx then tsDone tsRange s
  else tsDone tsOk (tsGive (match tbl with
    | 0 => winWords s idx
    | 1 => ctrWords (ctrOf s idx)
    | _ => slotWords (slotOf s (tsTile idx) (tsSlot idx))) s)

/-- OP 3 ARM: a counter from its record words, AUTO when their STATE says so; a slot for a job and a counter. -/
def tsArmOp (tbl idx : Nat) (s : State) : State :=
  let g := fun i => (s.zmt.d.getD i 0).toNat
  if !tsLegal tbl idx ∨ tbl = 0 then tsDone tsRange s
  else if tbl = 1 then
    if !actLegal s (bf (g 2) 32 4) (bf (g 2) 36 28) none then tsDone tsRange s
    else tsDone tsOk (ctrArm idx (bf (g 2) 0 32) (bf (g 2) 32 4) (bf (g 2) 36 28) (g 3)
      (if bf (g 0) 48 3 = csAuto then none else some (bf (g 1) 0 48)) s)
  else tsDone tsOk (armSlot (tsTile idx) (tsSlot idx) (some (bf (g 2) 0 32, bf (g 0) 0 24)) s)

/-- OP 4 DISARM. -/
def tsDisarmOp (tbl idx : Nat) (s : State) : State :=
  if !tsLegal tbl idx ∨ tbl = 0 then tsDone tsRange s
  else if tbl = 1 then
    if (ctrOf s idx).state = csIdle then tsDone tsNotArmed s
    else tsDone tsOk (modCtrRec idx (fun c => { c with state := csIdle }) s)
  else if (slotOf s (tsTile idx) (tsSlot idx)).arming.isNone then tsDone tsNotArmed s
  else tsDone tsOk (armSlot (tsTile idx) (tsSlot idx) none s)

/-- OP 5 ABORT: a counter that waits fails with ABORTED, a slot is disarmed; a window has nothing to abort (DESIGN CHOICE, log 62). -/
def tsAbortOp (tbl idx : Nat) (s : State) : State :=
  if !tsLegal tbl idx ∨ tbl = 0 then tsDone tsRange s
  else if tbl = 1 then
    let st := (ctrOf s idx).state
    let ts := freeNat s % 8
    if st ≠ csArmed ∧ st ≠ csAuto then tsDone tsNotArmed s
    else tsDone tsOk (bump 0xC068 0x0B (ctrFail ts idx 0 zAborted (drawn s)))
  else tsDisarmOp tbl idx s

def execTsWrite (tbl : Fin 4) (idx : Fin 1048576) (s : State) : Host.Outcome State Fault Refusal := .next (tsWriteOp tbl.val idx.val s)
def execTsRead (tbl : Fin 4) (idx : Fin 1048576) (s : State) : Host.Outcome State Fault Refusal := .next (tsReadOp tbl.val idx.val s)
def execArm (tbl : Fin 4) (idx : Fin 1048576) (s : State) : Host.Outcome State Fault Refusal := .next (tsArmOp tbl.val idx.val s)
def execDisarm (tbl : Fin 4) (idx : Fin 1048576) (s : State) : Host.Outcome State Fault Refusal := .next (tsDisarmOp tbl.val idx.val s)
def execTsAbort (tbl : Fin 4) (idx : Fin 1048576) (s : State) : Host.Outcome State Fault Refusal := .next (tsAbortOp tbl.val idx.val s)

/-! ### Dictionary reads (R242) -/

/-- 7400h.02: eight fields of six bytes each (DESIGN CHOICE, log 63). -/
def rdPeerState : ReadEff := fun sid s =>
  let ep := own s sid 0x7400 1
  match (peerIdx s ep).bind (peerOf s) with
  | none => (stNotFound, [], s)
  | some p =>
    let r := p.rtt.getD (0, 0)
    (stOk, [etVerOf s ep, r.1, r.2, rtoOf s p, peerRate s p, p.txNext.toNat, p.txAcked.toNat, p.rxBase.toNat].flatMap (natLE 6), s)

def execPeerStateRead (h : DHdr) (s : State) : Host.Outcome State Fault Refusal :=
  .next (dictReadRow h 0x7400 0x02 rdPeerState s)

/-- 7500h.01: up to 64 trace records. -/
def rdTrace : ReadEff := fun _ s =>
  (stOk, (s.zmt.trace.take 64).flatMap id, modZmt (fun z => { z with trace := z.trace.drop 64 }) s)

def execTraceRingRead (h : DHdr) (s : State) : Host.Outcome State Fault Refusal :=
  .next (dictReadRow h 0x7500 0x01 rdTrace s)

end Sys2Proof.Machine
end

