-- ==== Sys2Proof/Machine/UnitRead.lean ====
section
/-! DEFINITION. Loads from unit space: what every register of every window reads, and what a read does (R35, R36, and the
window tables of chapters 01 to 20). An offset that holds no register reads 0. -/

namespace Sys2Proof.Machine

/-- A register word from its fields: lowest bit, width, value. -/
def packW (fs : List (Nat × Nat × Nat)) : Nat := (fs.map (fun f => f.2.2 % 2 ^ f.2.1 * 2 ^ f.1)).sum

/-- The element of an array of `n` elements of `stride` bytes at `base` that an offset lies in, and the byte in it. -/
def arrAt (off base stride n : Nat) : Option (Nat × Nat) :=
  if base ≤ off ∧ off < base + n * stride then some ((off - base) / stride, (off - base) % stride) else none

/-! ### Time (Table 2-7) -/

/-- Seconds in the current holdover (Table 2-7, HOLD_S). -/
def holdSecs (s : State) : Nat :=
  if s.clk.state = 3 then min ((now80 s - s.clk.holdStart) / (65536 * 1000000000)) (2 ^ 32 - 1) else 0

def rdTimeReg (s : State) (m off : Nat) : Nat :=
  let p := s.clk.parent.getD 0
  match off with
  | 0x10 => now s
  | 0x18 => (tget 0 s.clk.fracLatch m).toNat
  | 0x20 => s.clk.fia.toNat
  | 0x28 => (liveTime s).toNat
  | 0x30 => s.clk.offsetEst.toNat
  | 0x38 => packW [(0, 3, s.clk.state.toNat), (3, 1, b2n s.clk.ext), (4, 3, p / 2), (7, 1, p % 2), (8, 8, s.clk.hops.toNat),
      (16, 8, s.clk.gmPrio.toNat), (32, 32, holdSecs s)]
  | _ => 0

/-! ### Fabric ports (Table 3-8) -/

/-- LLR positions and replay buffer of a sub-port. -/
def subSeqs (x : SubPort) : Nat := packW [(0, 16, x.txNext.toNat), (16, 16, x.txAcked.toNat), (32, 16, x.rxExpect.toNat)]
def subReplay (x : SubPort) : Nat := packW [(0, 20, replayBytes x), (20, 14, x.replay.length)]

def rdPortReg (s : State) (p off : Nat) : Nat :=
  let a := subOf s (2 * p)
  let b := subOf s (2 * p + 1)
  let q := portSt s p
  let c := fun sub => cfg s (0x3100 + p) sub
  match off with
  | 0x10 => packW [(0, 1, image s (0x3100 + p) 1 0), (1, 1, c 2), (2, 2, c 4), (4, 1, c 5), (5, 1, c 6)]
  | 0x18 => packW [(0, 3, a.oper.toNat), (3, 3, if portMode s p = 0 then 0 else b.oper.toNat),
      (6, 4, (a.lanes ||| b.lanes).toNat), (10, 1, b2n a.peerZy)]
  | 0x20 => subSeqs a
  | 0x28 => subReplay a
  | 0x30 => packW [(0, 4, q.failed.toNat), (4, 4, q.lol.toNat)]
  | 0x38 => packW [(0, 1, b2n q.level), (1, 1, b2n q.wakePend)]
  | 0x40 => subSeqs b
  | 0x48 => subReplay b
  | _ => 0

/-! ### Classifier (Table 4-8) -/

/-- Word `w` of an entry (Table 4-5). -/
def clsWord (e : ClsEntry) (w : Nat) : Nat :=
  if w < 10 then bf e.key.toNat (576 - 64 * w) 64
  else if w < 20 then bf e.mask.toNat (576 - 64 * (w - 10)) 64
  else if w = 20 then e.action.toNat
  else if w = 21 then e.control.toNat
  else 0

/-- Word `w` of a meter (Table 4-8). The buckets of word 6 are whole bytes as the last charge left them (R137). -/
def meterWord (m : Meter) (w : Nat) : Nat :=
  let x := meterSlot m (w / 3)
  if w < 6 then
    match w % 3 with
    | 0 => packW [(0, 32, x.cir.toNat), (32, 32, x.pir.toNat)]
    | 1 => packW [(0, 32, x.cbs.toNat), (32, 32, x.pbs.toNat)]
    | _ => b2n x.ca
  else if w = 6 then packW [(0, 32, m.tc / 8000000), (32, 32, m.tp / 8000000)]
  else 0

def rdClsReg (s : State) (k m off : Nat) : Nat :=
  let c := s.cls
  let drains := fun (n : Nat) => tget 0 c.drain (n * 8 + 2 * k) + tget 0 c.drain (n * 8 + 2 * k + 1)
  let old := (c.older.getD c.active).toNat
  match off with
  | 0x10 => packW [(0, 4, c.active.toNat), (4, 4, old), (8, 1, b2n c.older.isSome), (9, 1, b2n c.sweep)]
  | 0x18 => packW [(0, 32, drains c.active.toNat), (32, 32, match c.older with | some o => drains o.toNat | none => 0)]
  | 0x20 => (tget 0 c.entry (4 * k)).toNat
  | 0x28 => (tget 0 c.entry (4 * k + 1)).toNat
  | 0x30 => (tget 0 c.entry (4 * k + 2)).toNat
  | 0x38 => (tget 0 c.entry (4 * k + 3)).toNat
  | 0x40 => (tget dropAction c.dflt (4 * k)).toNat
  | 0x48 => (tget dropAction c.dflt (4 * k + 1)).toNat
  | 0x50 => (tget dropAction c.dflt (4 * k + 2)).toNat
  | 0x58 => (tget dropAction c.dflt (4 * k + 3)).toNat
  | _ =>
    match arrAt off 0x100000 8 8192, arrAt off 0x200000 0x100 8192, arrAt off 0x400000 0x10 65536, arrAt off 0x600000 0x40 4096 with
    | some (j, _), _, _, _ => (tget 0 c.prog (8192 * k + j)).toNat
    | _, some (i, b), _, _ => clsWord (clsEntry s k i) (b / 8)
    | _, _, some (j, b), _ =>
      if b = 0 then (tget 0 c.pkts (65536 * k + j)).toNat else (tget 0 c.latch (m * 262144 + 65536 * k + j)).toNat
    | _, _, _, some (j, b) => meterWord (tget {} c.meters (4096 * k + j)) (b / 8)
    | _, _, _, _ => 0

/-! ### Forwarding (Table 5-4) -/

/-- The command registers, by offset from CMD_D0. -/
def rdFwdCmd (c : FwdCmd) (o : Nat) : Nat :=
  match o with
  | 0x00 => c.d0.toNat
  | 0x08 => c.d1.toNat
  | 0x10 => c.d2.toNat
  | 0x20 => c.status.toNat * 2
  | _ => 0

def rdFwdReg (s : State) (m off : Nat) : Nat :=
  let f := s.fwd
  let c := fun idx sub => cfg s idx sub
  if 0x28 ≤ off ∧ off ≤ 0x48 then rdFwdCmd f.cmdM (off - 0x28)
  else if 0x80 ≤ off ∧ off ≤ 0xC8 then rdFwdCmd f.cmdS (off - 0x80)
  else match off with
    | 0x10 => packW [(0, 1, c 0x6010 1), (1, 1, c 0x6010 2), (2, 1, image s 0x6020 1 0)]
    | 0x18 => f.ageTicks % 2 ^ 22
    | 0x20 => packW [(0, 1, b2n f.etSweep), (1, 1, b2n f.ltSweep), (2, 13, f.lnq.length)]
    | 0x68 => ((tget [0, 0, 0] f.lnqLatch m).getD 0 0).toNat
    | 0x70 => ((tget [0, 0, 0] f.lnqLatch m).getD 1 0).toNat
    | 0x78 => ((tget [0, 0, 0] f.lnqLatch m).getD 2 0).toNat
    | 0x300800 => f.def4.toNat
    | 0x300808 => f.def6.toNat
    | _ =>
      if 0x300008 ≤ off ∧ off ≤ 0x300100 then lcfgOf s 0 ((off - 0x300000) / 8)
      else if 0x300208 ≤ off ∧ off ≤ 0x300600 then lcfgOf s 1 ((off - 0x300200) / 8)
      else match arrAt off 0x100000 0x20 16384, arrAt off 0x400000 0x20 65536, arrAt off 0x600000 8 65536,
          arrAt off 0x800000 0x20 262144 with
        | some (g, b), _, _, _ =>
          let n := tget {} f.nhg g
          (match b / 8 with | 0 => bf n.memb.toNat 0 64 | 1 => bf n.memb.toNat 64 64 | 2 => n.ptr.toNat | _ => 0)
        | _, some (k, b), _, _ => if b / 8 < 3 then bf (filtOf s 1 k) (64 * (b / 8)) 64 else 0
        | _, _, some (k, _), _ => bf (filtOf s 0 k) 0 33
        | _, _, _, some (i, b) =>
          let x := lpmSlot s i
          (match b / 8 with | 0 => bf x.pfx.toNat 0 64 | 1 => bf x.pfx.toNat 64 64 | 2 => x.w2.toNat | _ => b2n x.v)
        | _, _, _, _ => 0

/-! ### Transport (Table 6-14) -/

/-- REDUCE packets of a slice that wait at deposit ports (R25). -/
def sliceBacklog (s : State) (ts : Nat) : Nat :=
  (s.cops.tile.map (fun e => (e.2.dep.filter (fun d => decide (d.slice = ts))).length)).sum

def rdZmtReg (s : State) (off : Nat) : Nat :=
  let o := off % 0x200000
  let n := sliceBacklog s (off / 0x200000)
  if o = 0x100 then packW [(0, 16, min n 65535), (16, 1, b2n (decide (n ≠ 0)))]
  else match off with
    | 0x10 => packW [(0, 2, cfg s 0x7000 1), (2, 1, cfg s 0x7000 0x0A), (3, 2, cfg s 0x7000 8)]
    | 0x18 => cfg s 0x7000 2 % 65536
    | 0x20 => (s.zmt.d.getD 0 0).toNat
    | 0x28 => (s.zmt.d.getD 1 0).toNat
    | 0x30 => (s.zmt.d.getD 2 0).toNat
    | 0x38 => (s.zmt.d.getD 3 0).toNat
    | 0x48 => s.zmt.status % 16 * 2
    | 0x50 => packW [(0, 22, s.zmt.peers.length), (32, 17, 65536 - blocksUsed s)]
    | _ => 0

/-! ### Scheduler (Table 10-6) -/

def rdSchedReg (s : State) (off : Nat) : Nat :=
  match off with
  | 0x10 => image s 0x8402 1 0 % 4096
  | 0x18 => tileDrain s % 4096
  | 0x20 => s.sched.drained.toNat
  | 0x28 => packW [(0, 16, cfg s 0x8401 1), (16, 12, cfg s 0x8401 3)]
  | 0x30 => packW [(0, 15, onchipCount s), (16, 21, overflowCount s)]
  | 0x38 => 262144 - s.sched.cont.length
  | _ =>
    match arrAt off 0x100 8 32, arrAt off 0x200 8 32, arrAt off 0x300 8 4, arrAt off 0x340 8 4, arrAt off 0x400 8 64,
      arrAt off 0x600 8 64, arrAt off 0x10000 0x80 769 with
    | some (q, _), _, _, _, _, _, _ => bf (rqCfg s q) 0 17
    | _, some (q, _), _, _, _, _, _ => packW [(0, 21, (rqOf s q).length), (21, 1, b2n (rqSpilled s q))]
    | _, _, some (k, _), _, _, _, _ => (dlOf s k).length
    | _, _, _, some (k, _), _, _, _ => (((dlOf s k).head?.map (·.due)).getD 0)
    | _, _, _, _, some (c, _), _, _ => classA s c % 2 ^ 45
    | _, _, _, _, _, some (c, _), _ => classB s c % 2 ^ 28
    | _, _, _, _, _, _, some (m, b) =>
      let x := postOf s m
      if b < 0x40 then (x.w.getD (b / 8) 0).toNat
      else if b = 0x40 then x.due.toNat
      else if b = 0x50 then packW [(1, 4, x.status), (32, 32, x.bid.toNat)]
      else 0
    | _, _, _, _, _, _, _ => 0

/-! ### Locks (Table 11-5) -/

def rdLockReg (s : State) (off : Nat) : Nat :=
  if off = 0x10 then cfg s 0x8800 2 % 2
  else match arrAt off 0x100 8 64, arrAt off 0x1000 8 769, arrAt off 0x100000 0x10 4096 with
    | some (g, _), _, _ => groupNorm (groupCfg s g) + (tget 0 s.locks.tp g).toNat * 2 ^ 32
    | _, some (m, _), _ => (tget 0 s.locks.notify m).toNat
    | _, _, some (l, b) => if b = 0 then (lockWord s l 0).toNat else (lockOf s l).deadline
    | _, _, _ => 0

/-! ### Match engine (Table 12-9) -/

def rdMatchReg (s : State) (off : Nat) : Nat :=
  let x := s.mat
  match off with
  | 0x10 => cfg s 0x8C02 1 % 2
  | 0x18 => image s 0x8C01 1 0 % 2 ^ 48
  | 0x20 => packW [(0, 32, x.base.toNat), (32, 32, x.oseq.toNat)]
  | 0x28 => packW [(0, 15, x.held.length), (15, 1, b2n x.renum), (16, 3, x.cstate), (20, 4, x.present), (24, 2, ownPos s)]
  | 0x30 => packW [(0, 32, x.round.toNat), (32, 32, x.rgen.toNat)]
  | _ =>
    match arrAt off 0x100 8 16, arrAt off 0x200 8 64, arrAt off 0x10000 0x80 769, arrAt off 0x100000 0x20 65536 with
    | some (b, _), _, _, _ => blkFree s b
    | _, some (h, _), _, _ =>
      (match tfind x.handle h with
       | some e => packW [(0, 16, e.owner), (16, 1, 1), (17, 1, b2n e.casc)]
       | none => 0)
    | _, _, some (m, b), _ =>
      let a := mArea s m
      if b < 0x30 then (a.w.getD (b / 8) 0).toNat
      else if 0x38 ≤ b ∧ b < 0x60 then (a.res.getD ((b - 0x38) / 8) 0).toNat + (if b = 0x38 then b2n a.busy else 0)
      else 0
    | _, _, _, some (i, b) => (mEntWord s i (b / 8)).toNat
    | _, _, _, _ => 0

/-! ### Buffer pools (Table 14-9) -/

def rdBufReg (s : State) (off : Nat) : Nat :=
  if off = 0x10 then s.bufs.plog.length
  else match arrAt off 0x100 0x40 64, arrAt off 0x10000 0x80 769 with
    | some (p, b), _ => (poolWord s p (b / 8)).toNat
    | _, some (m, b) => if b = 0 then (tget 0 s.bufs.arg m).toNat else 0
    | _, _ => 0

/-! ### HBM (Table 15-7) -/

/-- Dirty lines of a stack's tag cache. -/
def tcDirty (s : State) (k : Nat) : Nat :=
  ((s.hbm.tc.filter (fun e => decide (e.1 / 2048 = k))).map (fun e => (e.2.filter (·.2)).length)).sum

def rdHbmReg (s : State) (k off : Nat) : Nat :=
  let h := s.hbm
  let pcs := fun (f : HbmPc → Bool) => ((List.range 32).map (fun i => b2n (f (hbmPc s (32 * k + i))) * 2 ^ i)).sum
  match off with
  | 0x10 => packW [(0, 2, h.order), (2, 3, tget 0 h.state k)]
  | 0x18 => packW [(0, 32, pcs (·.failed)), (32, 32, pcs (·.pd))]
  | 0x20 => packW [(0, 8, toTwos (tget 0 h.temp k) 8), (8, 2, tget 0 h.rate k)]
  | 0x28 => packW [(0, 16, hbmCfg s k 1), (16, 16, hbmCfg s k 2), (32, 6, hbmCfg s k 3), (38, 6, hbmCfg s k 4)]
  | 0x30 => packW [(0, 16, hbmCfg s k 5), (16, 11, (h.watch.filter (fun w => decide (w.1 = k))).length)]
  | 0x38 => tcDirty s k % 2 ^ 15
  | _ =>
    match arrAt off 0x100 8 32 with
    | some (i, _) =>
      let x := hbmPc s (32 * k + i)
      packW [(0, 7, x.rq.length), (7, 6, x.wq.length), (13, 2, x.tries), (15, 1, b2n x.wmode), (16, 1, b2n x.sref)]
    | none => 0

/-! ### Host interface, DMA and translation (Tables 16-11 and 16-12) -/

def rdHostReg (s : State) (off : Nat) : Nat :=
  match arrAt off 0x10 8 2, arrAt off 0x100000 0x20 4096, arrAt off 0x200000 0x20 4096 with
  | some (n, _), _, _ =>
    let l := linkSt s (2 * n)
    if l.up then packW [(0, 5, l.width), (5, 3, l.rate), (8, 1, b2n (decide (l.rate = 6))), (9, 1, b2n l.cxl), (10, 1, b2n (bifurcated s n))]
    else packW [(10, 1, b2n (bifurcated s n))]
  | _, some (q, b), _ =>
    let x := cmqOf s q
    (match b / 8 with
     | 0 => x.base.toNat
     | 1 => packW [(0, 5, x.log2), (5, 12, x.cpq), (17, 4, x.qprio), (21, 6, x.pslot), (27, 1, b2n x.pv), (28, 1, b2n x.admin),
         (29, 8, x.owner), (37, 2, x.state.toNat)]
     | 2 => x.qjob.toNat
     | _ => packW [(0, 16, x.head % x.size), (16, 16, x.tail % x.size),
         (32, 32, (s.host.cmds.filter (fun e => decide (e.2.q = q))).length)])
  | _, _, some (j, b) =>
    let x := cpqOf s j
    (match b / 8 with
     | 0 => x.base.toNat
     | 1 => packW [(0, 5, x.log2), (5, 11, x.vec), (16, 16, x.n), (32, 16, x.t), (48, 1, b2n x.dbm), (49, 1, b2n x.en)]
     | 2 => packW [(0, 16, x.head % x.size), (16, 16, x.tail % x.size), (32, 32, cplHeld s j)]
     | _ => 0)
  | _, _, _ => 0

def rdDmaReg (s : State) (off : Nat) : Nat :=
  match off with
  | 0x10 => storeLoad s % 2 ^ 14
  | 0x18 => s.host.atc.length % 2 ^ 15
  | _ =>
    match arrAt off 0x100000 0x20 1024, arrAt off 0x200000 8 16384, arrAt off 0x400000 0x40 769 with
    | some (a, b), _, _ =>
      let x := aperOf s a
      (match b / 8 with | 0 => x.ctl.toNat | 1 => x.hbase.toNat | 2 => x.len % 2 ^ 25 | _ => 0)
    | _, some (k, _), _ => (match tfind s.host.pslot k with | some (p, est) => packW [(0, 20, p), (20, 1, 1), (21, 43, est)] | none => 0)
    | _, _, some (m, b) =>
      let x := dpostOf s m
      if b < 0x30 then (x.w.getD (b / 8) 0).toNat
      else if b = 0x38 then packW [(1, 4, x.status), (32, 32, x.item.toNat)]
      else 0
    | _, _, _ => 0

/-! ### Power (Table 18-6), debug and freeze (Table 20-8) -/

def rdPowerReg (s : State) (off : Nat) : Nat :=
  let p := s.power
  match off with
  | 0x10 => p.dmode
  | 0x18 => packW [(0, 2, softStarts s),
      (2, 1, b2n p.lstep.isSome), (8, 16, p.m / 100), (24, 16, governorE s / 100)]
  | 0x20 => packW [(0, 3, p.wsrc.toNat), (3, 6, p.wgroup.toNat)]
  | 0x28 => cfg s 0xA020 1
  | _ =>
    match arrAt off 0x100 8 80 with
    | some (d, _) => packW [(0, 3, domState s d), (3, 2, cfg s 0xA002 (d + 1)), (16, 16, stepMa d)]
    | none => 0

def rdDbgReg (s : State) (off : Nat) : Nat :=
  let d := s.dbg
  match off with
  | 0x10 => packW [(0, 2, d.fstate), (2, 3, d.cause), (5, 1, b2n d.dumping)]
  | 0x18 => d.fAt
  | 0x20 => d.sAt
  | 0x28 => d.sent
  | 0x30 => packW [(0, 12, d.scope.toNat), (12, 1, b2n d.maker)]
  | 0x38 => packW [(0, 3, d.phase), (3, 2, d.bootSel.toNat), (5, 2, d.slot)]
  | _ => 0

/-! ### Tiles (Tables 7-10, 9-7 and 13-7) -/

/-- A channel's status word. -/
def chanWord (c : Chan) : Nat :=
  packW [(0, 3, c.sealed.length), (3, 1, b2n c.rsv.isSome), (4, 6, match c.rsv with | some (o, _) => o / 8 * 8 + o % 8 | none => 0),
    (10, 4, match c.rsv with | some (_, w) => w.length | none => 0), (14, 3, c.claimed.length), (17, 3, c.ptr)]

/-- Word `w` of a slot: a limb, or the control word (R444, Table 13-7). -/
def slotWord (x : XSlot) (w : Nat) : Nat := if w < 31 then bf x.v.toNat (72 * w) 72 else x.flags.toNat

def rdTileReg (s : State) (t off : Nat) : Nat :=
  let x := tileSt s t
  match off with
  | 0x10 => x.cpEn.toNat
  | 0x18 => b2n x.gdis
  | 0x28 => x.stalled.toNat
  | 0x30 => x.swin.toNat
  | 0x900 => ((List.range 16).map (fun i => b2n (tget {} (copOf s t).slot i).armed.isSome * 2 ^ i)).sum
  | 0x908 => packW [(0, 4, (copOf s t).ptr0), (4, 4, (copOf s t).ptr1), (8, 4, (copOf s t).ptr2)]
  | _ =>
    match arrAt off 0x100 8 32, arrAt off 0x200 8 32, arrAt off 0x300 8 32, arrAt off 0x400 8 64, arrAt off 0x800 0x40 4,
      arrAt off 0x2000 0x200 16 with
    | some (g, _), _, _, _, _, _ =>
      let e := tecGroup s t g
      packW [(0, 8, e.n.toNat), (8, 12, e.t.toNat), (20, 3, e.core.toNat), (23, 3, e.thr.toNat), (26, 1, b2n e.en),
        (32, 8, e.count), (40, 1, b2n e.deliv)]
    | _, some (g, _), _, _, _, _ =>
      packW [(0, 8, tecPend s t g), (8, 8, bf x.input.toNat (8 * g) 8), (16, 8, if 4 ≤ g then bf x.active.toNat (8 * g) 8 else 0)]
    | _, _, some (g, _), _, _, _ => if g < 4 then bf x.sense.toNat (16 * g) 16 else 0x5555
    | _, _, _, some (c, _), _, _ => chanWord (chanOf s t c)
    | _, _, _, _, some (k, b), _ => if b / 8 < 5 then (tget 0 (copOf s t).tpz (5 * k + b / 8)).toNat else 0
    | _, _, _, _, _, some (i, b) =>
      let v := slotWord (tget {} (copOf s t).slot i) (b / 16)
      if b % 16 = 0 then bf v 0 64 else bf v 64 8
    | _, _, _, _, _, _ => 0

/-! ### One load -/

/-- What a register reads, for thread `t`. -/
def unitWord (s : State) (t u off : Nat) : Nat :=
  let m := masterOf t
  if off = 0 then unitIdent u
  else if u = 1 then rdTimeReg s m off
  else if 2 ≤ u ∧ u ≤ 9 then rdPortReg s (u - 2) off
  else if 0xA ≤ u ∧ u ≤ 0xD then rdClsReg s (u - 0xA) m off
  else if u = 0xE then rdFwdReg s m off
  else if u = 0xF then rdZmtReg s off
  else if u = 0x10 then rdSchedReg s off
  else if u = 0x11 then rdLockReg s off
  else if u = 0x12 then rdMatchReg s off
  else if u = 0x13 then rdBufReg s off
  else if 0x14 ≤ u ∧ u ≤ 0x17 then rdHbmReg s (u - 0x14) off
  else if u = 0x18 then rdHostReg s off
  else if u = 0x19 then rdDmaReg s off
  else if u = 0x1A then rdPowerReg s off
  else if u = 0x1B then rdDbgReg s off
  else if 0x20 ≤ u then rdTileReg s (u - 0x20) off
  else 0

/-- What a load comes to: it waits in the unit, or it has its data. -/
inductive LoadRes where
  | wait (s : State)
  | value (v : W64) (s : State)

/-- ALLOC by a load of thread `t` (R467, R474). -/
def loadAlloc (t p : Nat) (s : State) : LoadRes :=
  let m := masterOf t
  let o := ownerOf s 21 m 0 0
  let w := (21, m, o.1, o.2)
  if w ∈ (poolOf s p).wait then .wait s
  else match bufAlloc 21 p o.1 o.2 s with
    | (.wait, s1) => .wait (modPool p (fun x => { x with wait := x.wait ++ [w] }) s1)
    | (.done st b, s1) => .value (bufResult s1 b st) s1

/-- ADDREF, FREE or QUERY of ARG by a load of thread `t` (Table 14-6); `bad`: the record has an uncorrectable error. -/
def loadBuf (t k : Nat) (bad : Bool) (s : State) : LoadRes :=
  let r := tget 0 s.bufs.arg (areaOf t)
  let b := bufAt s r
  let x := match k with
    | 1 => bufAddref 21 (masterOf t) r bad s
    | 2 => bufFree 21 (masterOf t) r bad s
    | _ => bufQuery r bad s
  .value (bufResult x.2 b x.1) x.2

/-- A load of thread `t` from offset `off` of unit `u`: the reads that do something, and all others. -/
def unitLoad (t u off : Nat) (bad : Bool) (s : State) : LoadRes :=
  let m := masterOf t
  let plain := LoadRes.value (BitVec.ofNat 64 (unitWord s t u off)) s
  if u = 1 ∧ off = 0x10 then
    .value (BitVec.ofNat 64 (now s)) (modClk (fun c => { c with fracLatch := tset 0 c.fracLatch m (BitVec.ofNat 16 (now80 s)) }) s)
  else if 0xA ≤ u ∧ u ≤ 0xD ∧ 0x400000 ≤ off ∧ off < 0x500000 ∧ off % 16 = 0 then
    let k := 65536 * (u - 0xA) + (off - 0x400000) / 16
    .value (tget 0 s.cls.pkts k) (modCls (fun c => { c with latch := tset 0 c.latch (m * 262144 + k) (tget 0 c.byts k) }) s)
  else if u = 0xE ∧ off = 0x60 then let r := lnqPop m s; .value r.1 r.2
  else if u = 0x11 ∧ 0x800000 ≤ off ∧ off < 0xC00000 then let r := lockOp (off - 0x800000) m s; .value r.1 r.2
  else if u = 0x13 ∧ 0x800000 ≤ off ∧ off < 0x800200 then loadAlloc t ((off - 0x800000) / 8) s
  else if u = 0x13 ∧ 0x10000 ≤ off ∧ off < 0x10000 + 769 * 0x80 then
    match off % 0x80 / 8 with
    | 0 => plain
    | 1 => loadBuf t 1 bad s
    | 2 => loadBuf t 2 bad s
    | 3 => loadBuf t 3 bad s
    | _ => plain
  else if 0x20 ≤ u ∧ off = 0x20 then let r := tecStray (u - 0x20) s; .value r.1 r.2
  else plain

end Sys2Proof.Machine
end

