-- ==== Sys2Proof/Machine/EntryRead.lean ====
section
/-! DEFINITION. What a READ of every dictionary entry returns (R555, R573): the values the device maintains, the entries
whose home is a unit's register, session values, and values in force or staged. -/

namespace Sys2Proof.Machine

/-- 2001h.05 by state: 0 in GRANDMASTER, 5 in LOCKED within 10 hops, R63 in HOLDOVER, else all ones (R679). -/
def errorBound (s : State) : Nat :=
  match s.clk.state.toNat with
  | 4 => 0
  | 2 => if s.clk.hops.toNat ≤ 10 then 5 else 0xFFFFFFFF
  | 3 => min (5 + 50 * holdSecs s) 0xFFFFFFFE
  | _ => 0xFFFFFFFF

/-- 200h area of time: Tables 2-7 and 2-2. -/
def dynTime (s : State) (idx sub : Nat) : Option Bytes :=
  match idx, sub with
  | 0x2000, 1 => some (timeLE s.clk.ftc)
  | 0x2000, 2 => some (natLE 8 (liveTime s).toNat)
  | 0x2000, 3 => some (natLE 8 s.clk.fia.toNat)
  | 0x2001, 1 => some (natLE 1 s.clk.state.toNat)
  | 0x2001, 2 => some (natLE 1 (s.clk.parent.getD 0xFF))
  | 0x2001, 3 => some (natLE 1 s.clk.hops.toNat)
  | 0x2001, 4 => some (natLE 4 (holdSecs s))
  | 0x2001, 5 => some (natLE 4 (errorBound s))
  | _, _ => none

/-- The PMD of a sub-port with a link: 1 800GBASE-CR4, 2 -KR4, 3 400GBASE-CR2, 4 -KR2 (Table 3-2). -/
def pmdOf (s : State) (sp : Nat) : Nat :=
  if (subOf s sp).oper = 2 ∨ (subOf s sp).oper = 3 then
    2 * portMode s (sp / 2) + cfg s (0x3100 + sp / 2) 3 + 1
  else 0

/-- Lanes of a mask. -/
def laneCount (m : BitVec 4) : Nat := ((List.range 4).filter (fun i => m.getLsbD i)).length

/-- Fabric ports: 310ph.0D and 318ph; the rate is 200 Gb/s a lane. -/
def dynPort (s : State) (idx sub : Nat) : Option Bytes :=
  if idx = 0x3000 ∧ sub = 2 then some (natLE 4 Config.vendorOui.toNat)
  else if 0x3100 ≤ idx ∧ idx ≤ 0x3107 ∧ sub = 0x0D then some (natLE 8 (portMacOf (2 * (idx - 0x3100))))
  else if 0x3180 ≤ idx ∧ idx ≤ 0x3187 then
    let sp := 2 * (idx - 0x3180) + sub / 16
    let x := subOf s sp
    match sub % 16 with
    | 1 => some (natLE 1 x.oper.toNat)
    | 2 => some (natLE 1 x.lanes.toNat)
    | 3 => some (natLE 2 (200 * laneCount x.lanes))
    | 4 => some (natLE 2 x.peerCaps.toNat)
    | _ => some (natLE 1 (pmdOf s sp))
  else none

/-- 5100h.05: 0 idle, 1 staging, 2 timed commit pending, 3 waiting. -/
def commitState (s : State) : Nat :=
  match s.cls.commit with
  | some c => if c.waiting then 3 else if c.time.isSome then 2 else 1
  | none => b2n s.cls.staging

/-- Classification (Table 4-9). A binding and a default action are those of the active course's slot. -/
def dynCls (s : State) (idx sub : Nat) : Option Bytes :=
  if 0x5310 ≤ idx ∧ idx ≤ 0x5317 then
    let v := (tget 0 s.cls.entry (2 * (idx - 0x5310) + activeCourse s % 2)).toNat
    some (natLE 2 (if bit v 12 then v % 4096 else 0xFFFF))
  else if 0x5320 ≤ idx ∧ idx ≤ 0x5327 then
    some (natLE 8 (tget dropAction s.cls.dflt (2 * (idx - 0x5320) + activeCourse s % 2)).toNat)
  else match idx, sub with
    | 0x5000, 1 => some (natLE 1 (activeCourse s))
    | 0x5000, 2 => some (natLE 1 (match s.cls.older with | some o => o.toNat | none => 0xFF))
    | 0x5000, 3 => some (natLE 4 (drainTotal s (activeCourse s)))
    | 0x5000, 4 => some (natLE 4 (match s.cls.older with | some o => drainTotal s o.toNat | none => 0))
    | 0x5100, 1 => some (natLE 1 (stagedCourse s))
    | 0x5100, 5 => some (natLE 1 (commitState s))
    | 0x5100, 6 => some (natLE 1 s.cls.lastStatus)
    | 0x5100, 7 => some (timeLE s.cls.lastCommit)
    | _, _ => none

/-- Valid entries of a forwarding table. -/
def validCount (v : BitVec 64 × BitVec 64 → Bool) (t : Tab (BitVec 64 × BitVec 64)) : Nat := (t.filter (fun e => v e.2)).length

/-- Forwarding, transport and threads. -/
def dynFwd (s : State) (idx sub : Nat) : Option Bytes :=
  match idx, sub with
  | 0x6000, 1 => some (natLE 4 (validCount etV s.fwd.et))
  | 0x6000, 2 => some (natLE 4 (validCount ltV s.fwd.lt))
  | 0x6000, 3 => some (natLE 4 (s.fwd.lpm.filter (fun e => e.2.v)).length)
  | 0x8002, 1 => some (padTo (entVal s 0x8002 1) 24)
  | _, _ => none

/-- Scheduler, locks, matching, keys. -/
def dynCore (s : State) (idx sub : Nat) : Option Bytes :=
  match idx, sub with
  | 0x8400, 1 => some (natLE 4 (onchipCount s))
  | 0x8400, 2 => some (natLE 4 (overflowCount s))
  | 0x8400, 3 => some (natLE 4 (262144 - s.sched.cont.length))
  | 0x8402, 5 => some (natLE 2 s.sched.drained.toNat)
  | 0x8440, k => some (natLE 4 (dlOf s (k - 1)).length)
  | 0x8803, 1 => some (padTo s.locks.lastForeign 16)
  | 0x8C00, 2 => some (natLE 4 (s.mat.ent.filter (fun e => e.2.v)).length)
  | 0x8C00, 3 => some (natLE 4 s.mat.base.toNat)
  | 0x8C00, 4 => some (natLE 4 s.mat.oseq.toNat)
  | 0x8C02, 6 => some (natLE 1 s.mat.cstate)
  | 0x8C02, 7 => some (natLE 1 (ownPos s))
  | 0x8C02, 8 => some (natLE 1 s.mat.present)
  | 0x8E10, 5 => some ((List.range 128).map (fun i =>
      BitVec.ofNat 8 ((List.range 8).map (fun j => b2n (tfind s.cops.key (8 * i + j)).isSome * 2 ^ j)).sum))
  | _, _ => none

/-- Pools not OFF. -/
def poolsOn (s : State) : List (Nat × Pool) :=
  ((List.range 64).map (fun p => (p, poolOf s p))).filter (fun e => e.2.on)

/-- Buffers: the configuration image is words 0 to 3 of the pool, its state apart (R464). -/
def dynBuf (s : State) (idx sub : Nat) : Option Bytes :=
  match idx, sub with
  | 0x9000, 2 => some (natLE 8 ((poolsOn s).map (fun e => e.2.bytes)).sum)
  | 0x9000, 3 => some (natLE 4 ((poolsOn s).map (fun e => e.2.count)).sum)
  | 0x9010, _ => some (poolBlob s (sub - 1))
  | 0x9011, p => some (natLE 1 (poolOf s (p - 1)).state.toNat)
  | 0x9012, p => some (natLE 4 (poolFree s (p - 1)) ++ natLE 4 (poolAlloc s (p - 1)) ++ natLE 4 (poolQuar s (p - 1)) ++
      natLE 4 (poolOf s (p - 1)).fifo.length)
  | 0x9030, 1 => some (padTo s.bufs.lastError 24)
  | _, _ => none

/-- HBM (Table 15-8). A mirrored item has one copy once a stack's metadata has moved away or a pseudo-channel has failed
(R510, R513). -/
def dynHbm (s : State) (idx sub : Nat) : Option Bytes :=
  let h := s.hbm
  match idx, sub with
  | 0x9400, 2 => some (natLE 8 (45097156608 * (4 - (h.retire.filter (fun e => decide (e.2 = 2))).length)))
  | 0x9401, k => some (natLE 1 (tget 0 h.state (k - 1)))
  | 0x9406, 2 => some (h.repairs.flatMap (fun r => natLE 2 r.toNat))
  | 0x9407, k => some (natLE 4 (rdHbmReg s (k - 1) 0x18))
  | 0x9408, 1 => some (natLE 1 (b2n (h.retire.any (fun e => decide (e.2 = 2) || h.moved) || !h.metaGone.isEmpty || h.pc.any (fun e => e.2.failed))))
  | 0x9409, k => some (natLE 4 (toTwos (tget 0 h.temp (k - 1)) 32))
  | _, _ => none

/-- The link of a host port: its first link, in x16 or 2 x x8 mode; the retrains of both halves count. -/
def dynHost (s : State) (idx sub : Nat) : Option Bytes :=
  let l := linkSt s (2 * (idx - 0x4101))
  if idx = 0x4101 ∨ idx = 0x4102 then
    match sub with
    | 1 => some (natLE 1 (if l.up then l.rate else 0))
    | 2 => some (natLE 1 (if l.up then l.width else 0))
    | _ => some (natLE 4 (l.retrains + (linkSt s (2 * (idx - 0x4101) + 1)).retrains))
  else none

/-- Power (Table 18-7). -/
def dynPower (s : State) (idx sub : Nat) : Option Bytes :=
  match idx, sub with
  | 0xA001, d => some (natLE 1 (domState s (d - 1)))
  | 0xA005, d => some (natLE 2 (stepMa (d - 1)))
  | 0xA030, 4 => some (natLE 1 s.power.wsrc.toNat ++ natLE 1 s.power.wgroup.toNat ++ zeros 6 ++ natLE 8 s.power.wakeAt)
  | _, _ => none

/-- The 16-byte record of a session (B000h). -/
def sessRecord (sid : Nat) (e : Sess) : Bytes :=
  natLE 4 sid ++ natLE 1 e.role ++ natLE 1 e.slot ++ natLE 1 e.xport ++ [0] ++ natLE 8 e.lastAct

/-- The 24-byte record of a pending timed write (B050h.01). -/
def timedRecord (t : TimedW) : Bytes := natLE 8 t.seq ++ natLE 2 t.idx ++ natLE 1 t.sub ++ zeros 3 ++ timeLE (ofNs t.atime)

/-- Identity and security (Tables 17-11 and 17-12). -/
def dynSec (s : State) (sid idx sub : Nat) : Option Bytes :=
  let d := s.dict
  match idx, sub with
  | 0x1000, 5 => some (natLE 8 Config.serial.toNat)
  | 0x1000, 7 => some (natLE 1 s.dbg.cpos.toNat)
  | 0x1000, 8 => some (natLE 4 Config.enterprise.toNat)
  | 0x1001, 1 => some (natLE 4 s.dbg.dawnCount.toNat)
  | 0xB000, 1 => some (natLE 1 d.sess.length)
  | 0xB000, 2 => some (padTo (d.sess.flatMap (fun e => sessRecord e.1 e.2)) 256)
  | 0xB000, 3 => some (match sessOf s sid with | some e => sessRecord sid e | none => [])
  | 0xB010, 9 => some (natLE 1 ((List.range 8).map (fun i => b2n (tfind d.operatorKeys i).isSome * 2 ^ i)).sum)
  | 0xB020, 1 => some (natLE 1 (b2n d.installerKey.isSome))
  | 0xB020, 4 => some (natLE 1 d.claimFuses.toNat)
  | 0xB030, 2 => if (tfind d.vals (ekey 0xB030 2)).isSome then none else some (mgmtDefault s)
  | 0xB050, 1 => some ((d.timed.take 64).flatMap timedRecord)
  | 0xB100, 3 => some (natLE 8 d.jNext.toNat)
  | 0xB100, 4 => some (natLE 2 (jUnmirrored s))
  | _, _ => none

/-- Field `sub` of a ledger row: accepted, completed, failed, in flight. -/
def rowField (s : State) (r sub : Nat) : Bytes :=
  let x := ledRow s r
  natLE 8 (match sub with | 1 => x.acc | 2 => x.comp | 3 => x.fail | _ => x.infl).toNat

/-- The ledger and the fault service (Table 19-5). -/
def dynLed (s : State) (idx sub : Nat) : Option Bytes :=
  match idx, sub with
  | 0xC000, 1 => some (timeLE s.led.lastCheck)
  | 0xC000, 3 => some (padTo s.led.lastMismatch 46)
  | 0xC001, k => some (rowField s 1 k)
  | 0xC002, k => some (if k ≤ 4 then rowField s 2 k else rowField s 6 (k - 4))
  | 0xC003, k => some (rowField s 3 k)
  | 0xC004, k => some (rowField s 4 k)
  | 0xC005, k => some (rowField s 5 k)
  | 0xC019, 2 => some ((List.range 12).map (fun t =>
      BitVec.ofNat 8 ((List.range 8).map (fun k => b2n (tget false s.led.excluded (8 * t + k)) * 2 ^ k)).sum))
  | _, _ => if (0xC011 ≤ idx ∧ idx ≤ 0xC016) ∨ isCounter idx sub = true then some (natLE 8 (ctrVal s idx sub).toNat) else none

/-- Dawn, debug and freeze (Table 20-9). -/
def dynDbg (s : State) (sid idx sub : Nat) : Option Bytes :=
  let d := s.dbg
  match idx, sub with
  | 0xD000, 1 => some (natLE 1 d.fstate)
  | 0xD000, 7 => some (natLE 1 d.cause ++ zeros 7 ++ natLE 8 d.fAt ++ natLE 8 d.sAt ++ natLE 8 d.relAt)
  | 0xD010, 2 => some (natLE 8 (dumpBytes s))
  | 0xD010, 3 => some (natLE 8 d.sent)
  | 0xD100, 2 => some (match sessOf s sid with | some e => e.dbgResult | none => [])
  | 0xE000, 3 => some (natLE 1 d.phase)
  | 0xE000, 4 => some (d.times.flatMap timeLE)
  | 0xE010, 3 => some (natLE 1 d.loadResult)
  | 0xE020, 1 => some (natLE 1 d.active)
  | 0xE020, 5 => some (natLE 4 (imgUse s 0) ++ natLE 4 (imgUse s 1))
  | 0xE030, 2 => some (natLE 1 d.lastReset)
  | _, _ => none

/-- The value of an entry that a unit maintains (DESIGN CHOICE, log 52). -/
def dynVal (s : State) (sid idx sub : Nat) : Option Bytes :=
  if idx < 0x2000 then dynSec s sid idx sub
  else if idx < 0x3000 then dynTime s idx sub
  else if idx < 0x4000 then dynPort s idx sub
  else if idx < 0x5000 then dynHost s idx sub
  else if idx < 0x6000 then dynCls s idx sub
  else if idx < 0x8400 then dynFwd s idx sub
  else if idx < 0x9000 then dynCore s idx sub
  else if idx < 0x9400 then dynBuf s idx sub
  else if idx < 0xA000 then dynHbm s idx sub
  else if idx < 0xB000 then dynPower s idx sub
  else if idx < 0xC000 then dynSec s sid idx sub
  else if idx < 0xD000 then dynLed s idx sub
  else dynDbg s sid idx sub

/-- The value in force of an entry (R555): a unit's, a session's, or the one held by value. -/
def forceVal (s : State) (sid idx sub : Nat) : Bytes :=
  match dynVal s sid idx sub with
  | some v => v
  | none => if sessionScoped idx sub then ownVal s sid idx sub else entVal s idx sub

/-- The staged value of a COURSE or DAWN entry, if it has one; a session-scoped entry has none (R555, R556). -/
def stagedVal (s : State) (idx sub : Nat) : Option Bytes :=
  if sessionScoped idx sub then none
  else match entFind idx sub with
    | some e =>
      (match e.commit with
       | .course => tfind s.dict.staged (ekey idx sub)
       | .dawn => tfind s.dict.persist (ekey idx sub)
       | _ => none)
    | none => none

/-- A READ of an entry: those whose read does something, and all others. -/
def entryRead (idx sub : Nat) (pend : Bool) : ReadEff := fun sid s =>
  let plain := (stOk, forceVal s sid idx sub, s)
  match idx, sub with
  | 0x5600, 1 => rdCounters sid s
  | 0x6600, 1 => rdLnq sid s
  | 0x6210, 1 => rdLpmLenCfg sid s
  | 0x7400, 2 => rdPeerState sid s
  | 0x7500, 1 => rdTrace sid s
  | 0x8802, 2 => rdLockState sid s
  | 0x8C03, 2 => rdMatchEntry sid s
  | 0x9040, 1 => rdPoisonLog sid s
  | 0xB100, 2 => rdJournal sid s
  | 0xC000, 2 => rdMismatches sid s
  | 0xC017, 1 => rdFailureLog sid s
  | _, _ =>
    if pend then match stagedVal s idx sub with | some v => (stOk, v, s) | none => plain
    else plain

/-- DICT_READ: any entry in an open session; outside a session only 1000h.01-.08 (R555, R567, R582). -/
def execDictRead (h : DHdr) (idx : BitVec 16) (sub : BitVec 8) (s : State) : Host.Outcome State Fault Refusal :=
  let i := idx.toNat
  let u := sub.toNat
  if h.sid = 0 ∧ i = 0x1000 ∧ 1 ≤ u ∧ u ≤ 8 then
    .next (dictArrive h (readBody i u) (fun s => respond h 3 0 none stOk (forceVal s 0 i u) s) s)
  else
    .next (inSession h 3 (readBody i u) (fun e s => performRead e h i u (entryRead i u (bit h.flags.toNat 0)) s) s)

end Sys2Proof.Machine
end

