-- ==== Sys2Proof/Machine/UnitWrite.lean ====
section
/-! DEFINITION. Stores to unit space: what a write to every register of every window does (R5, R35, R36, and the window
tables of chapters 02 to 20). A write to an offset that holds no register, to a read-only register or to reserved bits does
nothing. Who may write is checked before (`UnitPerm`). -/

namespace Sys2Proof.Machine

/-- Put a number in force as the value of an entry of `n` bytes, of which a register field is the image (DEDUCED, log
33). -/
def setNum (idx sub n v : Nat) (s : State) : State := setVal idx sub (natLE n v) s

/-- Replace element `i` of a list of words. -/
def setWord (l : List W64) (i v : Nat) : List W64 := l.set i (BitVec.ofNat 64 v)

/-! ### Fabric ports (Table 3-8) -/

def wrPortReg (p off v : Nat) (s : State) : State :=
  match off with
  | 0x10 =>
    let s1 := setNum (0x3100 + p) 6 1 (bf v 5 1) (setNum (0x3100 + p) 5 1 (bf v 4 1) (setNum (0x3100 + p) 4 1 (bf v 2 2) s))
    let s2 := if cfg s (0x3100 + p) 2 ≠ bf v 1 1 then (wrPortMode p 0 (natLE 1 (bf v 1 1)) s1).2 else s1
    if cfg s (0x3100 + p) 1 ≠ bf v 0 1 then (wrPortAdmin p 0 (natLE 1 (bf v 0 1)) s2).2 else s2
  | 0x30 => modPort p (fun x => { x with failed := x.failed &&& ~~~(BitVec.ofNat 4 v) }) s
  | 0x38 => if bit v 1 then modPort p (fun x => { x with wakePend := false }) s else s
  | _ => s

/-! ### Classifier (Table 4-8) -/

/-- Word `w` of a meter's parameters. -/
def putMeterWord (w v : Nat) (m : Meter) : Meter :=
  let x := meterSlot m (w / 3)
  if w < 6 then
    setMeterSlot (w / 3) (match w % 3 with
      | 0 => { x with cir := BitVec.ofNat 32 v, pir := BitVec.ofNat 32 (v / 2 ^ 32) }
      | 1 => { x with cbs := BitVec.ofNat 32 v, pbs := BitVec.ofNat 32 (v / 2 ^ 32) }
      | _ => { x with ca := bit v 0 }) m
  else m

def wrClsReg (k off v : Nat) (s : State) : State :=
  if 0x20 ≤ off ∧ off ≤ 0x38 then
    modCls (fun c => { c with entry := tset 0 c.entry (4 * k + (off - 0x20) / 8) (BitVec.ofNat 13 v) }) s
  else if 0x40 ≤ off ∧ off ≤ 0x58 then
    modCls (fun c => { c with dflt := tset dropAction c.dflt (4 * k + (off - 0x40) / 8) (actionOf v) }) s
  else match arrAt off 0x100000 8 8192, arrAt off 0x200000 0x100 8192, arrAt off 0x400000 0x10 65536, arrAt off 0x600000 0x40 4096 with
    | some (j, _), _, _, _ => modCls (fun c => { c with prog := tset 0 c.prog (8192 * k + j) (BitVec.ofNat 32 v) }) s
    | _, some (i, b), _, _ => modEntry k i (fun e => writeEntryWord e (b / 8) (BitVec.ofNat 64 v)) s
    | _, _, some (j, b), _ =>
      modCls (fun c => if b = 0 then { c with pkts := tset 0 c.pkts (65536 * k + j) (BitVec.ofNat 64 v) }
        else { c with byts := tset 0 c.byts (65536 * k + j) (BitVec.ofNat 64 v) }) s
    | _, _, _, some (j, b) => modCls (fun c => { c with meters := tmod {} c.meters (4096 * k + j) (putMeterWord (b / 8) v) }) s
    | _, _, _, _ => s

/-! ### Forwarding (Table 5-4) -/

/-- A write of the command register: TBL, OP, WAY, BUCKET; other operations are ignored. -/
def fwdCommand (m : Bool) (v : Nat) (s : State) : State :=
  let lt := decide (bf v 0 2 = 1)
  if 2 ≤ bf v 0 2 then s
  else match bf v 2 3 with
    | 1 => fwdLookupOp m lt s
    | 2 => fwdInsertOp m lt s
    | 3 => fwdDeleteOp m lt s
    | 4 => fwdReadWayOp m lt (bf v 5 2) (bf v 7 19) s
    | _ => s

/-- The command interface of a level, by offset from CMD_D0. -/
def wrFwdCmd (m : Bool) (o v : Nat) (s : State) : State :=
  match o with
  | 0x00 => modFwdCmd m (fun c => { c with d0 := BitVec.ofNat 64 v }) s
  | 0x08 => modFwdCmd m (fun c => { c with d1 := BitVec.ofNat 64 v }) s
  | 0x10 => modFwdCmd m (fun c => { c with d2 := BitVec.ofNat 64 v }) s
  | 0x18 => fwdCommand m v s
  | _ => s

/-- Word `w` of an LPM slot. -/
def putLpmWord (w v : Nat) (x : LpmSlot) : LpmSlot :=
  match w with
  | 0 => { x with pfx := BitVec.ofNat 128 (bput x.pfx.toNat 0 64 v) }
  | 1 => { x with pfx := BitVec.ofNat 128 (bput x.pfx.toNat 64 64 v) }
  | 2 => { x with w2 := BitVec.ofNat 64 (v % 2 ^ 23) }
  | _ => { x with v := bit v 0 }

def wrFwdReg (off v : Nat) (s : State) : State :=
  if 0x28 ≤ off ∧ off ≤ 0x48 then wrFwdCmd true (off - 0x28) v s
  else if 0x80 ≤ off ∧ off ≤ 0xC8 then wrFwdCmd false (off - 0x80) v s
  else match off with
    | 0x10 => setNum 0x6020 1 1 (bf v 2 1) (setNum 0x6010 2 1 (bf v 1 1) (setNum 0x6010 1 1 (bf v 0 1) s))
    | 0x18 => modFwd (fun f => { f with ageTicks := v % 2 ^ 22 }) s
    | 0x300800 => modFwd (fun f => { f with def4 := BitVec.ofNat 64 (v % 2 ^ 15) }) s
    | 0x300808 => modFwd (fun f => { f with def6 := BitVec.ofNat 64 (v % 2 ^ 15) }) s
    | _ =>
      let lcfg := fun k => modFwd (fun f => { f with lcfg := tset 0 f.lcfg k (BitVec.ofNat 64 v &&& lcfgMask) }) s
      if 0x300008 ≤ off ∧ off ≤ 0x300100 then lcfg ((off - 0x300000) / 8)
      else if 0x300208 ≤ off ∧ off ≤ 0x300600 then lcfg (129 + (off - 0x300200) / 8)
      else match arrAt off 0x100000 0x20 16384, arrAt off 0x400000 0x20 65536, arrAt off 0x600000 8 65536,
          arrAt off 0x800000 0x20 262144 with
        | some (g, b), _, _, _ =>
          if b / 8 < 2 then
            modFwd (fun f => { f with nhg := tmod {} f.nhg g (fun n =>
              { n with memb := membOf (bput n.memb.toNat (64 * (b / 8)) 64 v) }) }) s
          else s
        | _, some (k, b), _, _ =>
          if b / 8 < 3 then
            filtPut 1 k (bput (filtOf s 1 k) (64 * (b / 8)) 64 v) s
          else s
        | _, _, some (k, _), _ => filtPut 0 k (v % 2 ^ 33) s
        | _, _, _, some (i, b) => modFwd (fun f => { f with lpm := tmod {} f.lpm i (putLpmWord (b / 8) v) }) s
        | _, _, _, _ => s

/-! ### Transport (Table 6-14) -/

/-- A write of the command register: TBL, OP, IDX; other operations are ignored. -/
def zmtCommand (v : Nat) (s : State) : State :=
  let tbl := bf v 0 2
  let idx := bf v 8 20
  match bf v 2 3 with
  | 1 => tsWriteOp tbl idx s
  | 2 => tsReadOp tbl idx s
  | 3 => tsArmOp tbl idx s
  | 4 => tsDisarmOp tbl idx s
  | 5 => tsAbortOp tbl idx s
  | _ => s

def wrZmtReg (off v : Nat) (s : State) : State :=
  match off with
  | 0x10 => setNum 0x7000 8 1 (bf v 3 2) (setNum 0x7000 0x0A 1 (bf v 2 1) (setNum 0x7000 1 1 (bf v 0 2) s))
  | 0x18 => setNum 0x7000 2 2 (v % 65536) s
  | 0x20 => modZmt (fun z => { z with d := setWord z.d 0 v }) s
  | 0x28 => modZmt (fun z => { z with d := setWord z.d 1 v }) s
  | 0x30 => modZmt (fun z => { z with d := setWord z.d 2 v }) s
  | 0x38 => modZmt (fun z => { z with d := setWord z.d 3 v }) s
  | 0x40 => zmtCommand v s
  | _ => s

/-! ### Scheduler (Table 10-6) -/

def wrSchedReg (t off v : Nat) (s : State) : State :=
  match off with
  | 0x10 => openChange (setNum 0x8402 1 2 (v % 4096)) s
  | 0x18 => drainWrite (v % 4096) s
  | 0x28 => setNum 0x8401 3 2 (bf v 16 12) (setNum 0x8401 1 2 (bf v 0 16) s)
  | _ =>
    match arrAt off 0x100 8 32, arrAt off 0x400 8 64, arrAt off 0x600 8 64, arrAt off 0x10000 0x80 769 with
    | some (q, _), _, _, _ => setVal 0x8410 (q + 1) (schedLayout 0x8410 v) s
    | _, some (c, _), _, _ => setVal 0x8420 (c + 1) (schedLayout 0x8420 v) s
    | _, _, some (c, _), _ => setVal 0x8430 (c + 1) (schedLayout 0x8430 v) s
    | _, _, _, some (m, b) =>
      if b < 0x40 then modPost m (fun x => { x with w := setWord x.w (b / 8) v }) s
      else if b = 0x40 then modPost m (fun x => { x with due := BitVec.ofNat 64 v }) s
      else if b = 0x48 ∧ bit v 0 then postGo m (masterOf t) (if bit v 1 then some (bf v 2 2) else none) s
      else s
    | _, _, _, _ => s

/-! ### Locks (Table 11-5) -/

def wrLockReg (off v : Nat) (s : State) : State :=
  if off = 0x10 then setNum 0x8800 2 1 (bf v 0 1) s
  else match arrAt off 0x100 8 64, arrAt off 0x1000 8 769 with
    | some (g, _), _ => groupWrite g v s
    | _, some (m, _) => modLocks (fun u => { u with notify := tset 0 u.notify m (BitVec.ofNat 9 v) }) s
    | _, _ => s

/-! ### Match engine (Table 12-9) -/

def wrMatchReg (off v : Nat) (s : State) : State :=
  match off with
  | 0x10 => setNum 0x8C02 1 1 (bf v 0 1) s
  | 0x18 => (blkClsWrite (v % 2 ^ 48) s).2
  | _ =>
    match arrAt off 0x10000 0x80 769 with
    | some (m, b) =>
      if b < 0x28 then modMat (fun x => { x with area := tmod {} x.area m (fun a => { a with w := setWord a.w (b / 8) v }) }) s
      else if b = 0x28 then
        modMat (fun x => { x with area := tmod {} x.area m (fun a => { a with w := setWord a.w 5 (v % 2 ^ 56) }) }) s
      else if b = 0x30 then mStart m v s
      else s
    | none => s

/-! ### Buffer pools (Table 14-9) -/

/-- Word `i` of a pool's configuration. -/
def putPoolWord (i v : Nat) (x : Pool) : Pool :=
  match i with
  | 0 => { x with cls := BitVec.ofNat 2 (bf v 0 2), gshift := BitVec.ofNat 5 (bf v 2 5), clrf := bit v 7 }
  | 1 => { x with first := bf v 0 28, count := bf v 28 29 }
  | 2 => { x with base := BitVec.ofNat 48 v }
  | 3 => { x with pasid := BitVec.ofNat 20 v }
  | _ => x

/-- A store of thread `t`; `bad`: the record the operation reads has an uncorrectable error. -/
def wrBufReg (t off v : Nat) (bad : Bool) (s : State) : State :=
  let r : W64 := BitVec.ofNat 64 v
  match arrAt off 0x100 0x40 64, arrAt off 0x10000 0x80 769 with
  | some (p, b), _ =>
    if p ≠ 0 ∧ (poolOf s p).state = 0 then modPool p (putPoolWord (b / 8) v) s else bump 0xC0C0 0x13 s
  | _, some (m, b) =>
    (match b / 8 with
     | 0 => modBufs (fun x => { x with arg := tset 0 x.arg m r }) s
     | 4 => (bufFree 21 (masterOf t) r bad s).2
     | 5 => (bufAddref 21 (masterOf t) r bad s).2
     | _ => s)
  | _, _ => s

/-! ### HBM (Table 15-7) -/

def wrHbmReg (k off v : Nat) (s : State) : State :=
  let put := fun (sub x : Nat) (s : State) => modHbm (fun h => { h with ownCfg := tput h.ownCfg (k * 8 + sub) x }) s
  match off with
  | 0x28 => put 4 (bf v 38 6) (put 3 (bf v 32 6) (put 2 (bf v 16 16) (put 1 (bf v 0 16) s)))
  | 0x30 => put 5 (bf v 0 16) s
  | _ => s

/-! ### Host interface, DMA and translation (Tables 16-11 and 16-12) -/

/-- A store to the host interface's queue registers. BASE of a command queue must have bits 11:0 zero, and the spec does
not say what a write with others leaves: they are cleared (DESIGN CHOICE, log 144). -/
def wrHostReg (off v : Nat) (s : State) : State :=
  match arrAt off 0x100000 0x20 4096, arrAt off 0x200000 0x20 4096 with
  | some (q, b), _ =>
    (match b / 8 with
     | 0 => modCmq q (fun x => { x with base := pageBase (BitVec.ofNat 64 v) }) s
     | 1 => modCmq q (fun x => { x with
         log2 := bf v 0 5, cpq := bf v 5 12, qprio := bf v 17 4, pslot := bf v 21 6, pv := bit v 27, admin := bit v 28,
         owner := bf v 29 8 }) s
     | 2 => modCmq q (fun x => { x with qjob := BitVec.ofNat 32 v }) s
     | _ => s)
  | _, some (j, b) =>
    (match b / 8 with
     | 0 => modCpq j (fun x => { x with base := BitVec.ofNat 64 v }) s
     | 1 => modCpq j (fun x => { x with
         log2 := bf v 0 5, vec := bf v 5 11, n := max 1 (bf v 16 16), t := bf v 32 16, dbm := bit v 48 }) s
     | _ => s)
  | _, _ => s

/-- A store to the registers of unit 19h. Bits 11:0 of an aperture's HBASE, which must be zero, are cleared (DESIGN
CHOICE, log 144). -/
def wrDmaReg (off v : Nat) (s : State) : State :=
  match arrAt off 0x100000 0x20 1024, arrAt off 0x400000 0x40 769 with
  | some (a, b), _ =>
    let put := fun (f : Aper → Aper) => modHost (fun h => { h with aper := tmod {} h.aper a f }) s
    (match b / 8 with
     | 0 => put (fun x => { x with ctl := BitVec.ofNat 13 v })
     | 1 => put (fun x => { x with hbase := pageBase (BitVec.ofNat 64 v) })
     | 2 => put (fun x => { x with len := bf v 0 25 })
     | _ => s)
  | _, some (m, b) =>
    if b < 0x30 then modDpost m (fun x => { x with w := setWord x.w (b / 8) v }) s
    else if b = 0x30 ∧ bit v 0 then dmaSubmit m s
    else s
  | _, _ => s

/-! ### Power (Table 18-6) -/

def wrPowerReg (off v : Nat) (s : State) : State :=
  if off = 0x28 then setNum 0xA020 1 8 v s
  else match arrAt off 0x100 8 80 with
    | some (d, _) => (wrDomainTarget d 0 (natLE 1 (bf v 3 2)) s).2
    | none => s

/-! ### Tiles (Tables 7-10, 9-7 and 13-7) -/

/-- The control word of an event group; N = 0 is stored as 1. A group that now qualifies delivers. -/
def groupCtl (tile g v : Nat) (s : State) : State :=
  tecDeliver tile g (modGroup tile g (fun x => { x with
    n := BitVec.ofNat 8 (max 1 (bf v 0 8)), t := BitVec.ofNat 12 (bf v 8 12), core := BitVec.ofNat 3 (bf v 20 3),
    thr := BitVec.ofNat 3 (bf v 23 3), en := bit v 26 }) s)

def wrTileReg (t off v : Nat) (s : State) : State :=
  match off with
  | 0x10 => modTile t (fun x => { x with cpEn := BitVec.ofNat 3 v }) s
  | 0x18 => tecCtrl t (bit v 0) s
  | 0x28 => modTile t (fun x => { x with stalled := x.stalled &&& ~~~(BitVec.ofNat 8 v) }) s
  | 0x30 => tecSwin t v s
  | 0x38 => tecAck t (bf v 0 5) s
  | 0x40 => tecActive t (bf v 0 8) true s
  | 0x48 => tecActive t (bf v 0 8) false s
  | 0x50 => tecComplete t (bf v 0 8) s
  | _ =>
    match arrAt off 0x100 8 32, arrAt off 0x200 8 32, arrAt off 0x300 8 4, arrAt off 0x800 0x40 4 with
    | some (g, _), _, _, _ => groupCtl t g v s
    | _, some (g, _), _, _ => tecPendClear t g v s
    | _, _, some (g, _), _ => tecSense t g v s
    | _, _, _, some (k, b) =>
      if b / 8 < 5 then modCop t (fun c => { c with tpz := tset 0 c.tpz (5 * k + b / 8) (BitVec.ofNat 64 v) }) s else s
    | _, _, _, _ => s

/-! ### One store -/

/-- A store of thread `t` of the value `v` to offset `off` of unit `u`. -/
def unitStore (t u off v : Nat) (bad : Bool) (s : State) : State :=
  if 2 ≤ u ∧ u ≤ 9 then wrPortReg (u - 2) off v s
  else if 0xA ≤ u ∧ u ≤ 0xD then wrClsReg (u - 0xA) off v s
  else if u = 0xE then wrFwdReg off v s
  else if u = 0xF then wrZmtReg off v s
  else if u = 0x10 then wrSchedReg t off v s
  else if u = 0x11 then wrLockReg off v s
  else if u = 0x12 then wrMatchReg off v s
  else if u = 0x13 then wrBufReg t off v bad s
  else if 0x14 ≤ u ∧ u ≤ 0x17 then wrHbmReg (u - 0x14) off v s
  else if u = 0x18 then wrHostReg off v s
  else if u = 0x19 then wrDmaReg off v s
  else if u = 0x1A then wrPowerReg off v s
  else if 0x20 ≤ u then wrTileReg (u - 0x20) off v s
  else s

end Sys2Proof.Machine
end

