-- ==== Sys2Proof/Machine/EntryWrite.lean ====
section
/-! DEFINITION. What a WRITE to every dictionary entry does, and the requests that reach any entry: DICT_WRITE, timed
writes and read groups (R553, R559, R570-R574). -/

namespace Sys2Proof.Machine

/-! ### The effect of a write -/

/-- 8E10h.04 installs or erases the key-table entry of the session's operands, in every tile (R442). -/
def wrKeyOp : WriteEff := fun sid v s =>
  let i := own s sid 0x8E10 1
  let put := fun (k : Tab (BitVec 256 × Bool)) =>
    if leNat v = 1 then tput k i (BitVec.ofNat 256 (leNat (ownVal s sid 0x8E10 2)), decide (own s sid 0x8E10 3 ≠ 0))
    else tdel k i
  (stOk, modCops (fun c => { c with key := put c.key }) s)

/-- B030h.01: the sessions on a transport that the write disables close (R559; DESIGN CHOICE, log 56). -/
def wrTransports : WriteEff := fun _ v s =>
  let s1 := setVal 0xB030 1 v s
  (stOk, closeWhere (fun _ e => !xportOn s1 e.xport) s1)

/-- D010h.04 starts a read-out over DBG_D. -/
def wrDumpStart : WriteEff := fun _ v s => if leNat v = 1 then startDump false s else (stRange, s)

/-- Congestion control is switched on: each R goes on from its egress port's rate, where it stayed (R236). -/
def ccImage (s0 s : State) : State :=
  if cfgB s0 0x7200 1 then s else modZmt (fun z => { z with peers := tmap (refill s0) z.peers }) s

/-- A value takes force, with what follows from it at once: the units whose registers are images of the entry. Bit 0 of a dump's scope
is forced to 1 (Table 20-9). -/
def wrNow (idx sub : Nat) : WriteEff := fun _ v s =>
  let s1 := if idx = 0x8402 ∧ sub = 1 then openChange (setVal idx sub v) s
    else setVal idx sub (if idx = 0x8410 ∨ idx = 0x8420 ∨ idx = 0x8430 then schedLayout idx (leNat v)
      else if idx = 0xD010 ∧ sub = 1 then natLE 2 (bput (leNat v) 0 1 1) else v) s
  (stOk,
    if idx = 0x6600 ∧ sub = 2 then tecLearn s1
    else if idx = 0x6020 ∧ sub = 2 then ageImage s1
    else if idx = 0x7200 ∧ sub = 1 then ccImage s s1
    else if idx = 0x8001 ∧ sub = 1 then (List.range 12).foldl (fun s t => tileImage t s) s1
    else if idx = 0x9402 then
      modHbm (fun h => { h with ownCfg := tfilter (fun k _ => decide (k % 8 ≠ sub)) h.ownCfg }) s1
    else s1)

/-- The effect of a write on an entry by its commit class (R553, R556). -/
def wrByClass (idx sub : Nat) : WriteEff := fun sid v s =>
  if sessionScoped idx sub then (stOk, storeOwn sid idx sub v s)
  else match entFind idx sub with
    | some e =>
      (match e.commit with
       | .course => wrCourseEntry idx sub sid v s
       | .dawn => (stOk, storePersist idx sub v s)
       | _ => wrNow idx sub sid v s)
    | none => (stNoEntry, s)

/-- The effect of a write on every entry: those that start something, and all others by class (DESIGN CHOICE, log 57). -/
def entryWrite (idx sub : Nat) : WriteEff :=
  if 0x3100 ≤ idx ∧ idx ≤ 0x3107 ∧ sub = 1 then wrPortAdmin (idx - 0x3100)
  else if 0x3100 ≤ idx ∧ idx ≤ 0x3107 ∧ sub = 2 then wrPortMode (idx - 0x3100)
  else if idx = 0x8801 then wrGroup (sub - 1)
  else if idx = 0x9010 then wrPoolConfig (sub - 1)
  else if idx = 0x9011 then wrPoolState (sub - 1)
  else if idx = 0xA002 then wrDomainTarget (sub - 1)
  else if idx = 0xB010 then wrOperatorKey (sub - 1)
  else match idx, sub with
    | 0x2002, 5 => wrTimeSet
    | 0x5100, 2 => wrCommit
    | 0x5100, 3 => wrCommitTime
    | 0x5100, 4 => wrAbort
    | 0x5200, 5 => wrStageOp
    | 0x5300, 2 => wrProgImage
    | 0x5400, 7 => wrMeterStage
    | 0x6100, 5 => wrEtOp
    | 0x6200, 5 => wrLpmOp
    | 0x6210, 1 => wrLpmLenCfg
    | 0x6300, 3 => wrNhg
    | 0x8402, 2 => wrTileDrain
    | 0x8804, 1 => wrBreakLock
    | 0x8C01, 1 => wrBlkCls
    | 0x8C01, 5 => wrRenumber
    | 0x8E10, 4 => wrKeyOp
    | 0x9405, 1 => wrRetireStack
    | 0x9405, 2 => wrRetirePc
    | 0x9406, 1 => wrLaneRepair
    | 0xA003, 1 => wrWakeGroup
    | 0xA010, 1 => wrDeviceMode
    | 0xA030, 2 => wrWakeAlarm
    | 0xB001, 1 => wrCloseSession
    | 0xB020, 2 => wrInstallerKey
    | 0xB020, 3 => wrUnclaim
    | 0xB030, 1 => wrTransports
    | 0xB040, 1 => wrConfigErase
    | 0xB050, 2 => wrTimedCancel
    | 0xC019, 3 => wrCoreReadmit
    | 0xD000, 2 => wrFreeze
    | 0xD000, 3 => wrFreezeTime
    | 0xD000, 4 => wrThaw
    | 0xD000, 5 => wrThawTime
    | 0xD010, 4 => wrDumpStart
    | 0xD100, 1 => wrDebugCmd
    | 0xE010, 2 => wrImageLoad
    | 0xE011, 1 => wrImageChunk
    | 0xE020, 2 => wrSwap
    | 0xE020, 3 => wrSwapTime
    | 0xE020, 4 => wrRollback
    | 0xE030, 1 => wrDeviceReset
    | _, _ => wrByClass idx sub

/-- DICT_WRITE (R553). -/
def execDictWrite (h : DHdr) (idx : BitVec 16) (sub : BitVec 8) (v : Bytes) (s : State) : Host.Outcome State Fault Refusal :=
  .next (takeReset (dictWriteRow h idx.toNat sub.toNat v (entryWrite idx.toNat sub.toNat) s))

/-! ### Timed writes (R570-R572) -/

/-- The class checks of a timed write: COURSE, DAWN, and TIMED entries of type TIME are ACCESS (R571). -/
def timedClass (idx sub : Nat) : Nat :=
  match entFind idx sub with
  | some e =>
    (match e.commit with
     | .now => stOk
     | .timed => if e.ty = .time then stAccess else stOk
     | _ => stAccess)
  | none => stNoEntry

/-- The acceptance status of a timed write: role, access, class, type and range, then R66 and R68, then room for it
(DESIGN CHOICE, log 54). -/
def timedWriteStatus (s : State) (role idx sub : Nat) (atime : Nat) (v : Bytes) : Nat :=
  if role ≠ 2 then stDenied
  else
    let a := accessStatus role idx sub true
    if a ≠ stOk then a
    else if timedClass idx sub ≠ stOk then timedClass idx sub
    else
      let w := writeStatus s role idx sub v
      if w ≠ stOk then w
      else if timedStatus atime s ≠ stOk then timedStatus atime s
      else if 256 ≤ s.dict.timed.length then stFull
      else stOk

/-- Body of a WRITE with ATIME. -/
def timedBody (idx sub : Nat) (atime : BitVec 80) (v : Bytes) : Bytes := natLE 2 idx ++ natLE 1 sub ++ [0] ++ timeLE atime ++ v

/-- TIMED_WRITE: recorded, and pending or refused (R571). -/
def execTimedWrite (h : DHdr) (idx : BitVec 16) (sub : BitVec 8) (atime : BitVec 80) (v : Bytes) (s : State) :
    Host.Outcome State Fault Refusal :=
  let i := idx.toNat
  let u := sub.toNat
  let t := nsOf atime
  .next (if !bit h.flags.toNat 1 then s
    else inSession h 4 (timedBody i u atime v) (fun e s =>
      if jFull s then refuseFull e h i u s
      else
        let st := timedWriteStatus s e.role i u t v
        let old := match entFind i u with | some d => oldDigest s h.sid.toNat i u d | none => []
        let w : TimedW :=
          { seq := jNextSeq s, sid := h.sid.toNat, role := e.role, xport := e.xport, idx := i, sub := u, val := v, atime := t,
            acceptedAt := now s }
        recordWrite e h i u st old (newDigest i u v) (fun s =>
          if st = stOk then modDict (fun d => { d with timed := d.timed ++ [w] }) s
          else timedCount st s) s) s)

/-- A timed write fires: it leaves the pending list, its record and its effect are made, and a LATE one is counted. With a full
journal it fails JOURNAL_FULL and is not performed, its record being one of those lost (R571, R576, R578). -/
def fireTimed (t : TimedW) (s : State) : State :=
  let late := timedLate t.atime t.acceptedAt s
  let s1 := modDict (fun d => { d with timed := d.timed.filter (fun x => x.seq ≠ t.seq) }) s
  if jFull s then bump 0xC0F0 0x09 (bump 0xC0F0 0x0A s1)
  else
  let ent := (entFind t.idx t.sub).getD ⟨0, 0, 0, 0, .blob, false, false, 0, [], .ro, .any⟩
  let old := oldDigest s t.sid t.idx t.sub ent
  let st := (entryWrite t.idx t.sub t.sid t.val s1).1
  let res := if st = stOk ∧ late = true then stLate else st
  let s2 := journal evTimedFire t.role t.sid t.idx t.sub res 5 old (newDigest t.idx t.sub t.val) s1
  let s3 := bump 0xC0F0 0x07 (entryWrite t.idx t.sub t.sid t.val s2).2
  takeReset (if late then bump 0xC0F0 0x08 (bump 0xC020 0x01 s3) else s3)

/-- TIMED_WRITE_FIRE: the pending timed write that is the next action of its boundary (R65, R67, R69, R571; DESIGN CHOICE,
log 126). -/
def execTimedWriteFire (s : State) : Host.Outcome State Fault Refusal :=
  .next (match nextDue s with
    | some e => (match e.act with | .write w => fireTimed w s | _ => s)
    | none => s)

/-! ### Read groups (R573, R574) -/

/-- Body of a READ_GROUP (DEDUCED, log 55). -/
def groupBody (timed : Bool) (atime : BitVec 80) (entries : List (BitVec 16 × BitVec 8)) : Bytes :=
  natLE 1 entries.length ++ [0] ++ (if timed then timeLE atime else []) ++
    entries.flatMap (fun e => natLE 2 e.1.toNat ++ natLE 1 e.2.toNat ++ [0])

/-- READ_GROUP: refused, or outstanding until its capture (R566, R573). -/
def execReadGroup (h : DHdr) (atime : BitVec 80) (entries : List (BitVec 16 × BitVec 8)) (s : State) :
    Host.Outcome State Fault Refusal :=
  let timed := bit h.flags.toNat 1
  let t := nsOf atime
  .next (inSession h 5 (groupBody timed atime entries) (fun e s =>
    let st := if entries.length < 1 ∨ 64 < entries.length then stRange
      else if timed then timedStatus t s else stOk
    if st ≠ stOk then respond h 5 h.sid.toNat (some e.key) st [] (timedCount st s)
    else
      let g : PGroup :=
        { hdr := h, role := e.role, entries := entries.map (fun x => (x.1.toNat, x.2.toNat)), atime := if timed then t else now s,
          acceptedAt := now s, timed := timed }
      modSess h.sid.toNat (fun e => { e with busy := true }) (modDict (fun d => { d with groups := d.groups ++ [g] }) s)) s)

/-- One record of a group: status and value, and what the read leaves. An access under R42 is recorded and counted as for a
READ. -/
def groupRead (g : PGroup) (xport : Nat) (e : Nat × Nat) (s : State) : Bytes × State :=
  let st := accessStatus g.role e.1 e.2 false
  let sid := g.hdr.sid.toNat
  let r := if st = stOk then entryRead e.1 e.2 false sid s
    else
      let s1 := if st = stNoEntry then bump 0xC0F0 0x0B s else s
      (st, [], if r42Access g.role e.1 then journal evNoEntry g.role sid e.1 e.2 stNoEntry xport [] [] s1 else s1)
  let v := if r.1 = stOk then r.2.1 else []
  (natLE 2 e.1 ++ natLE 1 e.2 ++ natLE 1 r.1 ++ natLE 2 v.length ++ v, r.2.2)

/-- The records of a group, in order. -/
def groupRecords (g : PGroup) (xport : Nat) : List (Nat × Nat) → State → Bytes × State
  | [], s => ([], s)
  | e :: l, s =>
    let r := groupRead g xport e s
    let q := groupRecords g xport l r.2
    (r.1 ++ q.1, q.2)

/-- A group captures and responds; with more than 4,096 bytes it returns no values and reads nothing. -/
def captureGroup (g : PGroup) (s : State) : State :=
  let sid := g.hdr.sid.toNat
  let s1 := modSess sid (fun e => { e with busy := false })
    (modDict (fun d => { d with groups := d.groups.filter (fun x => x ≠ g) }) s)
  match sessOf s sid with
  | none => s1
  | some e =>
    let late := g.timed && timedLate g.atime g.acceptedAt s
    let r := groupRecords g e.xport g.entries s1
    let body := timeLE (ofNs (fireAt s)) ++ r.1
    if 48 + body.length > 4096 then respond g.hdr 5 sid (some e.key) stTooBig [] s1
    else
      let s2 := respond g.hdr 5 sid (some e.key) (if late then stLate else stOk) body r.2
      if late then bump 0xC020 0x01 s2 else s2

/-- READ_GROUP_CAPTURE: the group that is the next action of its boundary (R69, R573). -/
def execReadGroupCapture (s : State) : Host.Outcome State Fault Refusal :=
  .next (match nextDue s with
    | some e => (match e.act with | .group g => captureGroup g s | _ => s)
    | none => s)

end Sys2Proof.Machine
end

