-- ==== Sys2Proof/Machine/HostCmd.lean ====
section
/-! DEFINITION. The host's commands (R529, Table 16-6). -/

namespace Sys2Proof.Machine

/-! ### Shared parts -/

/-- End a command with a status and no more. -/
def cmdEnd (id st : Nat) (s : State) : State := endCmd id st 0 false 0 0 0 s

/-- Note what a command started. -/
def cmdLink (id link : Nat) (s : State) : State :=
  modHost (fun h => { h with cmds := tupd h.cmds id (fun c => { c with link := some link }) }) s

/-- The master id of a function's requests under a PASID slot (Table 11-1). -/
def hostMaster (x : CmQ) : Nat := 0x4000 + 64 * x.owner + x.pslot

/-- A command with the OPC `o`. -/
def wantOpc (o : Nat) (c : HCmd) : Bool := decide (c.opc = o)

/-- NOP. -/
def execNop (q : Fin 4096) (s : State) : Host.Outcome State Fault Refusal :=
  .next (runCmd q.val (wantOpc 0) (fun id _ s => cmdEnd id 0 s) s)

/-! ### DMA (R542, R543) -/

/-- The item of a DMA command: words 1-6 with the queue's PASID, USER from word 7. -/
def cmdItem (s : State) (id : Nat) (c : HCmd) : DItem :=
  let x := cmqOf s c.q
  { words := [c.words.getD 1 0, c.words.getD 2 0, c.words.getD 3 0, c.words.getD 4 0, c.words.getD 5 0, c.words.getD 7 0],
    prio := bf (c.word 3) 34 4, pasid := cmqPasid s x, cmd := some id, master := hostMaster x, state := 0, engine := none,
    done := 0, fail := 0 }

/-- DMA: the item goes into the store; one outside its limits fails with RANGE; a full store leaves the command waiting. -/
def execDma (q : Fin 4096) (s : State) : Host.Outcome State Fault Refusal :=
  .next (if 8192 ≤ storeLoad s then s
    else runCmd q.val (wantOpc 1) (fun id c s =>
      let it := cmdItem s id c
      let r := newItem it s
      let s1 := cmdLink id r.1 r.2
      if itemLegal it.words then s1 else endItem r.1 0x0A 0 s1) s)

/-! ### MSG (R219-R224, R238) -/

/-- The outbound message of a MSG command; ATOMIC carries its operands, SEND its CTX, in words 5 and 6. -/
def cmdMsg (s : State) (id : Nat) (c : HCmd) : ZMsg :=
  let x := cmqOf s c.q
  let w1 := c.word 1
  let snd := decide (c.zop = opSend)
  { ep := bf w1 0 32, op := c.zop, job := x.qjob.toNat, tofs := c.word 3,
    ccid := if snd then bf (c.word 5) 8 24 else bf (c.word 4) 32 24,
    sub := if snd then bf (c.word 5) 0 8 else bf w1 36 8,
    tc := bf w1 44 3, nonmin := bit w1 47, n := if c.zop = opAtomic then 8 else bf (c.word 4) 0 32,
    laddr := bf (c.word 2) 0 48, pasid := cmqPasid s x, w5 := c.word 5, w6 := c.word 6, cmd := some id }

/-- MSG with ZOP `z`: one outbound message with JOB = QJOB is accepted; a PUT or GET of no bytes has no packets and is complete
(R219, R220). -/
def cmdSend (q z : Nat) (s : State) : State :=
  runCmd q (fun c => wantOpc 2 c && decide (c.zop = z)) (fun id c s =>
    let r := zmsgNew (cmdMsg s id c) s
    let s1 := cmdLink id r.1 (bump 0xC068 0x01 (ledAccept 2 r.2))
    if (z = opPut ∨ z = opGet) ∧ bf (c.word 4) 0 32 = 0 then zmsgDone r.1 s1 else s1) s

/-- MSG_PUT. -/
def execMsgPut (q : Fin 4096) (s : State) : Host.Outcome State Fault Refusal := .next (cmdSend q.val opPut s)
/-- MSG_GET. -/
def execMsgGet (q : Fin 4096) (s : State) : Host.Outcome State Fault Refusal := .next (cmdSend q.val opGet s)
/-- MSG_ATOMIC. -/
def execMsgAtomic (q : Fin 4096) (s : State) : Host.Outcome State Fault Refusal := .next (cmdSend q.val opAtomic s)
/-- MSG_SEND. -/
def execMsgSend (q : Fin 4096) (s : State) : Host.Outcome State Fault Refusal := .next (cmdSend q.val opSend s)
/-- MSG_REDUCE. -/
def execMsgReduce (q : Fin 4096) (s : State) : Host.Outcome State Fault Refusal := .next (cmdSend q.val opReduce s)

/-! ### MATCH -/

/-- The request of a MATCH command: words 1-7 are the request area words 0h-30h of Table 12-9. -/
def cmdReq (s : State) (id : Nat) (c : HCmd) : MReq :=
  let x := c.word 6
  let v := c.word 7
  { who := .host id, master := hostMaster (cmqOf s c.q), op := bf v 0 4, wc := bf v 4 3, auto := bit v 7, consume := bit v 8,
    hreq := bit v 9, cls := bf v 10 8, key := c.words.getD 2 0 ++ c.words.getD 1 0, mask := c.words.getD 4 0 ++ c.words.getD 3 0,
    pay := c.words.getD 5 0, prio := BitVec.ofNat 32 x, index := bf x 32 16, tcpos := bf x 48 2, handle := bf x 50 6 }

/-- MATCH: one match request. -/
def execMatchOp (q : Fin 4096) (s : State) : Host.Outcome State Fault Refusal :=
  .next (runCmd q.val (wantOpc 3) (fun id c s => mRequest (cmdReq s id c) s) s)

/-! ### BRICK (Table 10-2, Table 10-3) -/

/-- BRICK: a HOST brick with a copy of the entry, whose address is a free value; a refusal ends the command. -/
def execBrick (q : Fin 4096) (s : State) : Host.Outcome State Fault Refusal :=
  .next (runCmd q.val (wantOpc 4) (fun id c s =>
    let ws := hwBrick s 3 (bf (c.word 1) 0 6) (payWord (copyAddr s) 64) 0 (BitVec.ofNat 64 c.q) 0
    let m := hostMaster (cmqOf s c.q)
    let r := acceptBrick ws m false s
    if r.1 ≠ 0 then cmdEnd id (0x60 + r.1) r.2.2
    else cmdLink id r.2.1.toNat (placeCopy ((c.words.map (fun w => natLE 8 w.toNat)).flatten) r.2.2)) s)

/-! ### COUNTER and WINDOW (R208, R214, R241) -/

/-- COUNTER_ARM: with JOB = QJOB; RANGE for a CCID that does not exist or an action that is not permitted (R214, R216). -/
def execCounterArm (q : Fin 4096) (s : State) : Host.Outcome State Fault Refusal :=
  .next (runCmd q.val (fun c => wantOpc 5 c && decide (c.cop = 3)) (fun id c s =>
    let x := cmqOf s c.q
    let ccid := bf (c.word 1) 0 24
    let act := bf (c.word 3) 32 4
    let arg := bf (c.word 3) 36 28
    if 1048576 ≤ ccid ∨ actLegal s act arg (some x.owner) = false then cmdEnd id 0x0A s
    else
      let target := if bit (c.word 1) 27 then none else some (bf (c.word 2) 0 48)
      cmdEnd id 0 (ctrArm ccid x.qjob.toNat act arg (c.word 4) target s)) s)

/-- COUNTER_DISARM. The spec gives the status of a DISARM of an IDLE counter no code in Table 16-7: it is a free value
(DESIGN CHOICE, log 1). -/
def execCounterDisarm (q : Fin 4096) (s : State) : Host.Outcome State Fault Refusal :=
  .next (runCmd q.val (fun c => wantOpc 5 c && decide (c.cop = 4)) (fun id c s =>
    let ccid := bf (c.word 1) 0 24
    if 1048576 ≤ ccid then cmdEnd id 0x0A s
    else if (ctrOf s ccid).state = csIdle then cmdEnd id (freeNat s % 256) (drawn s)
    else cmdEnd id 0 (modCtrRec ccid (fun k => { k with state := csIdle }) s)) s)

/-- WINDOW: the entry with JOB forced to QJOB. R241 names no IN_USE for a window (its two are an armed counter and an armed slot),
so none arises. -/
def execWindow (q : Fin 4096) (s : State) : Host.Outcome State Fault Refusal :=
  .next (runCmd q.val (wantOpc 6) (fun id c s =>
    let x := cmqOf s c.q
    let w2 := BitVec.ofNat 64 (bput (c.word 4) 0 32 x.qjob.toNat)
    let ws := winRecord [c.words.getD 2 0, c.words.getD 3 0, w2]
    cmdEnd id 0 (modZmt (fun z => { z with win := tset [0, 0, 0, 0] z.win (bf (c.word 1) 0 16) ws }) s)) s)

/-! ### Queues (R523, R524) -/

/-- Command and completion queues a function has created, its admin pair apart. -/
def cmqsOf (s : State) (f : Nat) : Nat :=
  (s.host.cmq.filter (fun e => decide (e.2.state ≠ 0) && decide (e.2.owner = f) && !decide ((funcOf s f).pair.map (·.1) = some e.1))).length
def cpqsOf (s : State) (f : Nat) : Nat :=
  (s.host.cpq.filter (fun e => e.2.en && decide (e.2.owner = f) && !decide ((funcOf s f).pair.map (·.2) = some e.1))).length

/-- CREATE_CMQ: BASE in word 2; LOG2, CPQ, QPRIO, PSLOT, PV, ADMIN as at 10_0008h and QJOB in word 3. A queue
that is OFF belongs to no function (DESIGN CHOICE, log 64). -/
def execCreateCmq (q : Fin 4096) (s : State) : Host.Outcome State Fault Refusal :=
  .next (runCmd q.val (wantOpc 0x80) (fun id c s =>
    let f := (cmqOf s c.q).owner
    let n := bf (c.word 1) 0 12
    let w := c.word 3
    let cp := cpqOf s (bf w 5 12)
    if (cmqOf s n).state ≠ 0 then cmdEnd id 9 s
    else if quota s f 1 ≤ cmqsOf s f ∨ bf w 0 5 = 0 ∨ 16 < bf w 0 5 ∨ cp.en = false ∨ cp.owner ≠ f then cmdEnd id 0x0A s
    else
      let y : CmQ := { base := pageBase (c.words.getD 2 0), log2 := bf w 0 5, cpq := bf w 5 12, qprio := bf w 17 4, pslot := bf w 21 6,
                       pv := bit w 27, admin := bit w 28, owner := f, state := 1, qjob := BitVec.ofNat 32 (w / 2 ^ 32) }
      cmdEnd id 0 (openCmq n y s)) s)

/-- DELETE_CMQ: the queue drains, and the command completes when it is OFF; a queue that is OFF completes it at once
(R524, DESIGN CHOICE, log 64). -/
def execDeleteCmq (q : Fin 4096) (s : State) : Host.Outcome State Fault Refusal :=
  .next (runCmd q.val (wantOpc 0x81) (fun id c s =>
    let n := bf (c.word 1) 0 12
    let x := cmqOf s n
    if x.state = 0 then cmdEnd id 0 s
    else if x.owner ≠ (cmqOf s c.q).owner then cmdEnd id 3 s
    else if x.state = 3 then cmdEnd id 9 s
    else if s.host.cmds.any (fun e => decide (e.2.q = n) && decide (e.1 ≠ id)) then
      modCmq n (fun y => { y with state := 3, delBy := some id }) s
    else cmdEnd id 0 (modCmq n (fun y => { y with state := 0, delBy := none }) s)) s)

/-- CREATE_CPQ: BASE in word 2, the fields of 20_0008h in word 3. -/
def execCreateCpq (q : Fin 4096) (s : State) : Host.Outcome State Fault Refusal :=
  .next (runCmd q.val (wantOpc 0x82) (fun id c s =>
    let f := (cmqOf s c.q).owner
    let n := bf (c.word 1) 0 12
    let w := c.word 3
    if (cpqOf s n).en then cmdEnd id 9 s
    else if quota s f 1 ≤ cpqsOf s f ∨ bf w 0 5 = 0 ∨ 16 < bf w 0 5 ∨ quota s f 2 ≤ bf w 5 11 ∨ 62500 < bf w 32 16 then
      cmdEnd id 0x0A s
    else
      let y : CpQ := { base := c.words.getD 2 0, log2 := bf w 0 5, vec := bf w 5 11, n := max 1 (bf w 16 16), t := bf w 32 16,
                       dbm := bit w 48, en := true, owner := f }
      cmdEnd id 0 (modCpq n (fun _ => y) s)) s)

/-- DELETE_CPQ: refused IN_USE while a command queue names it. -/
def execDeleteCpq (q : Fin 4096) (s : State) : Host.Outcome State Fault Refusal :=
  .next (runCmd q.val (wantOpc 0x83) (fun id c s =>
    let n := bf (c.word 1) 0 12
    let x := cpqOf s n
    if x.en = false then cmdEnd id 0 s
    else if x.owner ≠ (cmqOf s c.q).owner then cmdEnd id 3 s
    else if s.host.cmq.any (fun e => decide (e.2.state ≠ 0) && decide (e.2.cpq = n)) then cmdEnd id 9 s
    else cmdEnd id 0 (modCpq n (fun y => { y with en := false }) s)) s)

/-! ### PASID slots and apertures (R535, R539, R541) -/

/-- PASID_REG. -/
def execPasidReg (q : Fin 4096) (s : State) : Host.Outcome State Fault Refusal :=
  .next (runCmd q.val (wantOpc 0x84) (fun id c s =>
    let k := 64 * (cmqOf s c.q).owner + bf (c.word 1) 0 6
    cmdEnd id 0 (modHost (fun h => { h with pslot := tput h.pslot k (bf (c.word 1) 8 20, cfg s 0x8401 0x02) }) s)) s)

/-- Remove the ATC entries that satisfy `p`. -/
def atcRemove (p : AtcEnt → Bool) (s : State) : State := modHost (fun h => { h with atc := h.atc.filter (fun e => !p e) }) s

/-- PASID_UNREG: IN_USE while a queue of the function names the slot; its ATC entries go. -/
def execPasidUnreg (q : Fin 4096) (s : State) : Host.Outcome State Fault Refusal :=
  .next (runCmd q.val (wantOpc 0x85) (fun id c s =>
    let f := (cmqOf s c.q).owner
    let k := bf (c.word 1) 0 6
    if s.host.cmq.any (fun e => decide (e.2.state ≠ 0) && decide (e.2.owner = f) && e.2.pv && decide (e.2.pslot = k)) then
      cmdEnd id 9 s
    else
      let s1 := match tfind s.host.pslot (64 * f + k) with
        | some (p, _) => atcRemove (fun e => decide (e.func = f) && decide (e.pasid = some p)) s
        | none => s
      cmdEnd id 0 (modHost (fun h => { h with pslot := tdel h.pslot (64 * f + k) }) s1)) s)

/-- The function of an aperture. -/
def aperFunc (a : Aper) : Nat := 128 * bf a.ctl.toNat 1 1 + bf a.ctl.toNat 2 7

/-- Valid apertures of a function. -/
def apersOf (s : State) (f : Nat) : Nat :=
  (s.host.aper.filter (fun e => e.2.ctl.getLsbD 0 && decide (aperFunc e.2 = f))).length

/-- Control word of an aperture with PORT and FUNC of the function `f` (DESIGN CHOICE, log 67). -/
def aperCtl (w f : Nat) : BitVec 13 := BitVec.ofNat 13 (bput (bput w 1 1 (f / 128)) 2 7 (f % 128))

/-- APERTURE: an aperture of the function's quota; one that is valid for another function, or beyond the quota, is
NOT_PERMITTED. -/
def execAperture (q : Fin 4096) (s : State) : Host.Outcome State Fault Refusal :=
  .next (runCmd q.val (wantOpc 0x86) (fun id c s =>
    let f := (cmqOf s c.q).owner
    let a := bf (c.word 1) 0 10
    let old := aperOf s a
    let len := bf (c.word 4) 0 25
    let mine := old.ctl.getLsbD 0 && decide (aperFunc old = f)
    if 2 ^ 24 < len then cmdEnd id 0x0A s
    else if (old.ctl.getLsbD 0 && !mine) || (bit (c.word 2) 0 && !mine && decide (quota s f 3 ≤ apersOf s f)) then cmdEnd id 3 s
    else
      let e : Aper := { ctl := aperCtl (c.word 2) f, hbase := pageBase (c.words.getD 3 0), len := len }
      cmdEnd id 0 (modHost (fun h => { h with aper := tset {} h.aper a e }) s)) s)

end Sys2Proof.Machine
end

