-- ==== Sys2Proof/Machine/HostLink.lean ====
section
/-! DEFINITION. Translation events, function-level resets and the host links (R517-R520, R536-R541, R547, R637, R650). -/

namespace Sys2Proof.Machine

/-! ### Translation requests (R536-R538) -/

/-- The request for a page: function, PASID, 4 KiB page, access. -/
def xlIs (f : Nat) (pasid : Option Nat) (page : Nat) (wr : Bool) (x : Xlate) : Bool :=
  decide (x.func = f) && decide (x.pasid = pasid) && decide (x.addr = page) && decide (x.wr = wr)

def xlFind (s : State) (f : Nat) (pasid : Option Nat) (page : Nat) (wr : Bool) : Option Xlate :=
  s.host.xl.find? (xlIs f pasid page wr)

/-- Change the request for a page. -/
def modXl (y : Xlate) (g : Xlate → Xlate) (s : State) : State :=
  modHost (fun h => { h with xl := h.xl.map (fun x => if x = y then g x else x) }) s

/-- The request for a page is over. -/
def dropXl (y : Xlate) (s : State) : State := modHost (fun h => { h with xl := h.xl.filter (fun x => decide (x ≠ y)) }) s

/-- The half of a held access that waits for its translation. -/
def missAt (s : State) (t : Nat) (m : MemOp) : Nat :=
  (((memParts m.op m.ea).find? (fun p => decide (regionOf p.1 = .hostWin) &&
    (translate s (apCheck s (memIsStore m.op) (decide (level s t = 0)) (pasidOf (thr s t).st) p.1).2 (memIsStore m.op)).isNone)).map
    (·.1)).getD m.ea

/-- A requester's translation has failed with XLATE_FAIL: a held access faults (R296), an item fails, a continuation takes its
response (R366), and a unit's own requester learns it when it looks again. -/
def failReq (s0 : State) (r : XReq) (s : State) : State :=
  match r with
  | .thread t =>
    (match (thr s t).hold with
     | .xlate m => faultAddr t 0x0C (missAt s0 t m) (modThr t (fun x => { x with hold := .none }) s)
     | _ => modThr t (fun x => { x with prg := false }) s)
  | .item i => (match itemOf s i with | some it => endItem i 5 it.done s | none => s)
  | .cont k => contResponse k false s
  | .other n => modHost (fun h => { h with denied := if n ∈ h.denied then h.denied else h.denied ++ [n] }) s

/-- A requester goes on with the translation at hand. -/
def grantReq (r : XReq) (s : State) : State :=
  match r with
  | .thread t => (match (thr s t).hold with | .xlate m => memGo t m s | _ => s)
  | .item i =>
    modItem i (fun it => if it.state = 2 then { it with state := 1 } else if it.state = 3 then { it with state := 0 } else it) s
  | _ => s

/-- A request fails: every requester fails with XLATE_FAIL. -/
def failXl (y : Xlate) (s : State) : State := y.reqs.foldl (fun t r => failReq s r t) (dropXl y s)

/-- Requesters that accept faults: cores and DMA items (R537). -/
def acceptsFault : XReq → Bool
  | .other _ => false
  | _ => true

/-- Page request groups of a function outstanding. -/
def prgsOut (s : State) (f : Nat) : Nat := (s.host.xl.filter (fun x => decide (x.func = f) && x.prgAt.isSome)).length

/-- Send the page request group of a request, or let it wait for an allocation. -/
def sendPrg (y : Xlate) (s : State) : State :=
  if prgsOut s y.func < (funcOf s y.func).alloc then
    bump 0xC0E8 0x08 (emit (.hostMsg (y.func / 128) "PAGE_REQUEST" (y.func % 128) [(y.pasid.map (· + 1)).getD 0, y.addr, b2n y.wr])
      (modXl y (fun x => { x with prgAt := some (now s), waiting := false }) s))
  else modXl y (fun x => { x with waiting := true }) s

/-- Allocations that have come free go to the page requests that wait, in arrival order. -/
def sendWaiting (f : Nat) (s : State) : State :=
  (s.host.xl.filter (fun x => decide (x.func = f) && x.waiting)).foldl (fun s y => sendPrg y s) s

/-- A page request is needed for a requester: a held access takes LONGFAULT when its PASID's estimate exceeds the threshold
(R363), an item goes back to the store (R544). -/
def pageFault (y : Xlate) (s0 : State) (r : XReq) (s : State) : State :=
  match r with
  | .thread t =>
    (match (thr s t).hold with
     | .xlate m =>
       if cfg s 0x8401 0x01 * 1024 < estOf s y.func y.pasid then
         bump 0xC080 0x04 (faultAddr t 0x0D (missAt s0 t m) (modThr t (fun x => { x with hold := .none, prg := true }) s))
       else s
     | _ => s)
  | .item i => modItem i (fun it => if it.state = 2 then { it with state := 3, engine := none } else it) s
  | _ => s

/-- A Translation Completion denies a request (R537). -/
def denyXl (y : Xlate) (s : State) : State :=
  let s1 := bump 0xC0E8 0x07 s
  let soft := y.reqs.filter acceptsFault
  let hard := y.reqs.filter (fun r => !acceptsFault r)
  if (funcOf s y.func).pri && !soft.isEmpty then
    let z := { y with reqs := soft }
    let s2 := hard.foldl (fun t r => failReq s r t) (modXl y (fun _ => z) s1)
    soft.foldl (fun t r => pageFault y s r t) (sendPrg z s2)
  else failXl y s1

/-- ATS_COMPLETION: a grant installs an entry and the requesters go on; a denial may start a page request group. -/
def execAtsCompletion (func : Fin 256) (pasid : Option (BitVec 20)) (addr : BitVec 64) (wr : Bool) (phys : BitVec 64)
    (log2 : Fin 31) (rd wt : Bool) (s : State) : Host.Outcome State Fault Refusal :=
  let page := addr.toNat / 4096 * 4096
  .next (match xlFind s func.val (pasid.map (·.toNat)) page wr with
    | none => s
    | some y =>
      if y.prgAt.isSome || y.waiting then s
      else if (if wr then wt else rd) then
        let k := max 12 log2.val
        let e : AtcEnt := { func := func.val, pasid := y.pasid, base := page / 2 ^ k * 2 ^ k, log2 := k,
                            phys := phys.toNat / 2 ^ k * 2 ^ k, rd := rd, wr := wt }
        y.reqs.foldl (fun s r => grantReq r s) (atcInstall e (dropXl y s))
      else denyXl y s)

/-- The estimate of a PASID takes a sample (R541). -/
def estSample (f : Nat) (pasid : Option Nat) (sample : Nat) (s : State) : State :=
  match pasid.bind (pasidSlot s f) with
  | some k =>
    modHost (fun h => { h with pslot := tupd h.pslot (64 * f + k) (fun e =>
      (e.1, ((e.2 : Int) + tdivInt ((sample : Int) - (e.2 : Int)) 8).toNat)) }) s
  | none => s

/-- A page response reaches a requester: a thread that took LONGFAULT, or the continuation it parked, learns it; the others
wait for the translation that is asked for again. -/
def pageAnswer (r : XReq) (s : State) : State :=
  match r with
  | .thread t => modThr t (fun x => { x with prg := false }) s
  | .cont k => contResponse k true s
  | _ => s

/-- The requesters that still wait after a page response. -/
def stillWaits (s : State) (r : XReq) : Bool :=
  match r with
  | .thread t => (match (thr s t).hold with | .xlate _ => true | _ => false)
  | .item _ => true
  | _ => false

/-- PRG_RESPONSE: on Success the ATS request is sent again, else the requesters fail; one that answers nothing is late
(R537, R538, R541). -/
def execPrgResponse (func : Fin 256) (pasid : Option (BitVec 20)) (addr : BitVec 64) (wr ok : Bool) (s : State) :
    Host.Outcome State Fault Refusal :=
  let page := addr.toNat / 4096 * 4096
  let f := func.val
  .next (match xlFind s f (pasid.map (·.toNat)) page wr with
    | none => bump 0xC0E8 0x0B s
    | some y =>
      match y.prgAt with
      | none => bump 0xC0E8 0x0B s
      | some t0 =>
        let s1 := estSample f y.pasid (now s - t0) s
        if ok then
          let s2 := y.reqs.foldl (fun s r => pageAnswer r s) s1
          let s3 := modXl y (fun x => { x with prgAt := none, reqs := x.reqs.filter (stillWaits s2) }) s2
          sendWaiting f (emit (.hostMsg (f / 128) "ATS_REQUEST" (f % 128) [(y.pasid.map (· + 1)).getD 0, page, b2n wr]) s3)
        else sendWaiting f (failXl y (bump 0xC0E8 0x09 s1)))

/-- PRG_TIMEOUT: no response within 4200h.01 ms (R538). -/
def execPrgTimeout (func : Fin 256) (pasid : Option (BitVec 20)) (addr : BitVec 64) (wr : Bool) (s : State) :
    Host.Outcome State Fault Refusal :=
  .next (match xlFind s func.val (pasid.map (·.toNat)) (addr.toNat / 4096 * 4096) wr with
    | some y =>
      (match y.prgAt with
       | some t0 =>
         if reached (expiryAt 2 (t0 + 1000000 * cfg s 0x4200 0x01) t0) s then
           sendWaiting func.val (failXl y (bump 0xC0E8 0x0A s))
         else s
       | none => s)
    | none => s)

/-- A posted host load that still waits reaches a range of a function. -/
def loadsUse (s : State) (f : Nat) (pasid : Option Nat) (lo hi : Nat) : Bool :=
  s.cpu.thr.any (fun e => e.2.posted.any (fun p => p.host && (memParts p.op p.ea).any (fun x =>
    let h := (apCheck s false false (pasidOf e.2.st) x.1).2
    decide (regionOf x.1 = .hostWin) && decide (h.func = f) && decide (h.pasid = pasid) && decide (lo ≤ h.addr) && decide (h.addr < hi))))

/-- ATS_INVALIDATE: the entries go; the Invalidate Completion is sent when no posted load uses them any more, and until then
the command is given again (R539, DESIGN CHOICE, log 68). -/
def execAtsInvalidate (func : Fin 256) (pasid : Option (BitVec 20)) (addr : BitVec 64) (log2 : Fin 65) (s : State) :
    Host.Outcome State Fault Refusal :=
  let f := func.val
  let ps := pasid.map (·.toNat)
  let lo := addr.toNat / 2 ^ log2.val * 2 ^ log2.val
  let hi := lo + 2 ^ log2.val
  let s1 := atcRemove (fun e => decide (e.func = f) && decide (e.pasid = ps) && decide (e.base < hi) && decide (lo < e.base + 2 ^ e.log2)) s
  .next (if loadsUse s f ps lo hi then s1
    else bump 0xC0E8 0x0C (emit (.hostMsg (f / 128) "INVALIDATE_COMPLETION" (f % 128) [(ps.map (· + 1)).getD 0, lo, log2.val]) s1))

/-! ### Function-level reset (R547) -/

/-- Take the queued and delayed bricks that satisfy `p` out of the scheduler. -/
def dropQueued (p : QBrick → Bool) (s : State) : State :=
  (List.range 4).foldl (fun s k => modDl k (fun l => l.filter (fun e => !p e.b)) s)
    ((List.range 32).foldl (fun s q => modRq q (fun l => l.filter (fun b => !p b)) s) s)

/-- The queued and delayed bricks. -/
def waitingBricks (s : State) : List QBrick :=
  (s.sched.rq.map (·.2)).flatten ++ (s.sched.dl.map (fun e => e.2.map (·.b))).flatten

/-- Fail a brick that is queued, delayed or parked; one that runs goes on (R547). -/
def failWaiting (bid reason : Nat) (s : State) : State :=
  let hit := fun (b : QBrick) => decide (bkBid b.words = bid) && b.cont.isNone
  let s1 := ((waitingBricks s).filter hit).foldl (fun s b => endBrick b.words reason 0 s) (dropQueued hit s)
  ((s1.sched.cont.filter (fun e => decide (bkBid e.2.words = bid))).map (·.1)).foldl
    (fun s k => contFail k reason (dropQueued (fun b => decide (b.cont = some k)) s)) s1

/-- One command of a function fails with FUNCTION_RESET: its item and its bricks with it; no completion is written. -/
def resetCmd (id : Nat) (c : HCmd) (s : State) : State :=
  let port := (cmqOf s c.q).owner / 128
  let s1 := endHostItem 0x56 (hostItem (c.word 0) c.q port) (modHost (fun h => { h with cmds := tdel h.cmds id }) s)
  match c.link with
  | none => s1
  | some l =>
    if c.opc = 1 then
      match itemOf s1 l with
      | some it => dropItem l 0x56 it.done s1
      | none => s1
    else if c.opc = 4 then failWaiting l 0x56 s1
    else s1

/-- The steps of R547 for a function (DESIGN CHOICE, log 71). -/
def resetFunc (f : Nat) (s : State) : State :=
  let mine := fun (q : Nat) => decide ((cmqOf s q).owner = f) && decide ((cmqOf s q).state ≠ 0)
  let mycq := fun (j : Nat) => (cpqOf s j).en && decide ((cpqOf s j).owner = f)
  -- queues OFF, commands, items and bricks fail
  let s1 := (s.host.cmds.filter (fun e => mine e.2.q)).foldl (fun s e => resetCmd e.1 e.2 s) s
  let s2 := (s1.host.posts.filter (fun p => mycq p.cpq)).foldl (fun s p =>
    match p.led with | some (_, item) => endHostItem 0x56 item s | none => s) s1
  let s3 := modHost (fun h => { h with
    posts := h.posts.filter (fun p => !mycq p.cpq),
    cmq := h.cmq.map (fun e => if mine e.1 then (e.1, { e.2 with state := 0, inline := [], delBy := none }) else e),
    cpq := h.cpq.map (fun e => if mycq e.1 then (e.1, { e.2 with en := false, count := 0, since := none }) else e) }) s2
  -- page requests, ATC entries, PASID slots
  let s4 := (s3.host.xl.filter (fun x => decide (x.func = f))).foldl (fun s y => failXl y s) s3
  let s5 := modHost (fun h => { h with
    atc := h.atc.filter (fun e => decide (e.func ≠ f)),
    pslot := h.pslot.filter (fun e => decide (e.1 / 64 ≠ f)),
    func := tdel h.func f,
    denied := h.denied.filter (fun n => !decide (n % 8 = 3 ∧ mine (n / 8)) && !decide (n % 8 = 2 ∧ mycq (n / 8))),
    masked := h.masked.filter (fun e => decide (e.1 / 2048 ≠ f)),
    pend := h.pend.filter (fun e => decide (e.1 / 2048 ≠ f)) }) s4
  -- locks
  (List.range 64).foldl (fun s k => breakMaster (0x4000 + 64 * f + k) 0x0C true s) s5

/-- FLR. -/
def execFlr (func : Fin 256) (s : State) : Host.Outcome State Fault Refusal :=
  .next (toFunc func.val (fun s => bumpPort func.val 0x09 (resetFunc func.val s)) s)

/-! ### Links (R519, R520, R637, R650) -/

/-- The functions of a link. -/
def linkFuncs (s : State) (k : Nat) : List Nat :=
  ((List.range 128).map (fun n => 128 * (k / 2) + n)).filter (fun f => funcExists s f && decide (linkOf s f = k))

/-- The widest width of a link: x16, or x8 of a bifurcated port. -/
def linkMax (s : State) (k : Nat) : Nat := if bifurcated s (k / 2) then 8 else 16

/-- Widths a link may have. -/
def widthLegal (s : State) (k w : Nat) : Bool := decide (w ∈ [1, 2, 4, 8, 16]) && decide (w ≤ linkMax s k)

/-- HOST_LINK_RESET: a link down or a PERST assertion acts as an FLR of every function of the link. -/
def execHostLinkReset (port half : Fin 2) (s : State) : Host.Outcome State Fault Refusal :=
  let k := 2 * port.val + half.val
  let s1 := (linkFuncs s k).foldl (fun s f => resetFunc f s) s
  .next (bumpIf (linkSt s k).up (0xC0E0 + port.val) 0x0A (modLink k (fun l => { l with up := false, width := 0, rate := 0, cxl := false, perstAt := none }) s1))

/-- HOST_LANE_FAIL: an up link retrains narrower, and the retrain is counted; replay loses nothing. -/
def execHostLaneFail (port half : Fin 2) (width : Fin 17) (s : State) : Host.Outcome State Fault Refusal :=
  let k := 2 * port.val + half.val
  let l := linkSt s k
  .next (if l.up && widthLegal s k width.val && decide (width.val < l.width) then
      bump (0xC0E0 + port.val) 0x0B (modLink k (fun l => { l with width := width.val, retrains := l.retrains + 1 }) s)
    else s)

/-- HOST_LINK_TRAINING_END: a link comes up, or an up link takes another width, which counts as a retrain (R519, R624). -/
def execHostLinkTrainingEnd (port half : Fin 2) (width : Fin 17) (rate : Fin 7) (cxl : Bool) (s : State) :
    Host.Outcome State Fault Refusal :=
  let k := 2 * port.val + half.val
  let l := linkSt s k
  let ok := widthLegal s k width.val && decide (1 ≤ rate.val) && decide (rate.val ≤ cfg s 0x4100 3) &&
    (!cxl || bit (cfg s 0x4100 2) port.val) && (decide (half.val = 0) || bifurcated s port.val)
  let s1 := modLink k (fun l => { l with up := true, width := width.val, rate := rate.val, cxl := cxl }) s
  .next (if !ok then s
    else if l.up && decide (width.val ≠ l.width) then
      bump (0xC0E0 + port.val) 0x0B (modLink k (fun l => { l with retrains := l.retrains + 1 }) s1)
    else s1)

/-- PERST_N_DEASSERT: the links of the port start training, and the time is noted for the retry-status window. -/
def execPerstNDeassert (port : Fin 2) (s : State) : Host.Outcome State Fault Refusal :=
  .next ((List.range 2).foldl (fun s h => modLink (2 * port.val + h) (fun l => { l with perstAt := some (now s) }) s) s)

/-- The retry-status window of a function's link is open: 100 ms have passed since PERST_N deasserted (R637). -/
def retryOpen (s : State) (f : Nat) : Bool :=
  match (linkSt s (linkOf s f)).perstAt with | some t => decide (t + 100000000 ≤ now s) | none => false

/-- CONFIGURATION_REQUEST: until Dawn-3 has ended Configuration Request Retry Status from 100 ms after PERST_N deasserts and no
answer before, and retry status while the device is frozen;
otherwise the request has its effect and is answered (DESIGN CHOICE, log 19; DESIGN CHOICE, log 114). -/
def execConfigurationRequest (func : Fin 256) (req : CfgReq) (s : State) : Host.Outcome State Fault Refusal :=
  let f := func.val
  let answer := fun (k : String) (s : State) => emit (.hostMsg (f / 128) k (f % 128) []) s
  .next (if s.dbg.fstate = 2 then answer "CFG_RETRY_STATUS" s
    else if s.dbg.phase < 4 then (if retryOpen s f then answer "CFG_RETRY_STATUS" s else s)
    else if !funcExists s f then answer "CFG_UNSUPPORTED_REQUEST" (bumpPort f 0x0C s)
    else match req with
      | .access => answer "CFG_COMPLETION" s
      | .ats on => answer "CFG_COMPLETION" (modFunc f (fun x => { x with ats := on }) s)
      | .pri on alloc => answer "CFG_COMPLETION" (sendWaiting f (modFunc f (fun x => { x with pri := on, alloc := alloc.toNat }) s))
      | .unsupported => answer "CFG_UNSUPPORTED_REQUEST" (bumpPort f 0x0C s))

end Sys2Proof.Machine
end

