-- ==== Sys2Proof/Machine/PoolDrain.lean ====
section
/-! DEFINITION. The drain timeout of a buffer pool (R476, R477). -/

namespace Sys2Proof.Machine

/-- POOL_RETIRED. -/
def poolRetired : Nat := 0x0E

/-- Status of a host command whose owner ended POOL_RETIRED: Table 16-7 names none, so it is a free value. -/
def retiredStatus (s : State) : Nat := freeNat s % 256

/-- Transit packet with an item id. -/
def failTransitOwner (oitem : Nat) (s : State) : Option State :=
  ((s.fab.pkts.find? (fun e => decide (e.2.item % 2 ^ 32 = oitem))).map (·.1)).map (fun k => failPkt k poolRetired 0x0E s)

/-- Inbound packet that waits at a slice, by its PSN: it leaves its slice and fails. -/
def failInboundOwner (oitem : Nat) (s : State) : Option State :=
  ((s.zmt.inq.map (fun e => e.2.map (fun z => (e.1, z)))).flatten.find? (fun e => decide (e.2.hdr.psn % 2 ^ 32 = oitem))).map (fun e =>
    ledFail 6 poolRetired 0x0F 0 (e.2.hdr.psn + e.2.hdr.srcEp * 2 ^ 32)
      (modZmt (fun x => { x with inq := tupd x.inq e.1 (fun l => l.filter (fun z => decide (z.id ≠ e.2.id))) }) s))

/-- Outbound message by its id: it fails, and its target is told (R232). -/
def failOutboundOwner (oitem : Nat) (s : State) : Option State :=
  match s.zmt.msgs.find? (fun e => decide (e.1 % 2 ^ 32 = oitem) && !e.2.inner) with
  | none => none
  | some (id, m) =>
    let s1 := bump 0xC068 0x03 (ledFail 2 poolRetired 0x0F 0 (m.id + m.ep * 2 ^ 32) (undeny (xoutId id) (zmsgDrop id s)))
    some (abortNotice m (match m.cmd with
      | some c => drawn (endCmd c (retiredStatus s) m.acked false 0 0 poolRetired s1)
      | none => s1))

/-- Brick by its BID: its thread is reset whatever its IDEM, or it leaves its queue. -/
def failBrickOwner (oitem : Nat) (s : State) : Option State :=
  let runs := fun (t : Nat) => match (thr s t).brick with | some ws => decide (bkBid ws = oitem) | none => false
  match (List.range 776).find? runs with
  | some t =>
    (match (thr s t).brick with
     | some ws => some (endBrick ws poolRetired 0 (resetThread t s))
     | none => none)
  | none =>
    if (waitingBricks s).any (fun b => decide (bkBid b.words = oitem)) || s.sched.cont.any (fun e => decide (bkBid e.2.words = oitem)) then
      some (failWaiting oitem poolRetired s)
    else none

/-- DMA item by its id; a command that started it completes with a status the specification leaves open. -/
def failDmaOwner (oitem : Nat) (s : State) : Option State :=
  match itemOf s oitem with
  | none => none
  | some it =>
    let s1 := dropItem oitem poolRetired it.done s
    some (match it.cmd with
      | some c => drawn (endCmd c (retiredStatus s) it.done false 0 0 poolRetired s1)
      | none => s1)

/-- Host command by its CID. -/
def failHostOwner (oitem : Nat) (s : State) : Option State :=
  ((s.host.cmds.find? (fun e => decide (bf (e.2.word 0) 32 32 = oitem))).map (·.1)).map (fun id =>
    drawn (endCmd id (retiredStatus s) 0 false 0 0 poolRetired s))

/-- The owner of a buffer, if it is still in flight, fails POOL_RETIRED (DESIGN CHOICE, log 88). -/
def failOwner (r : W64) (s : State) : Option State :=
  match recOcls r with
  | 1 => failTransitOwner (recOitem r) s
  | 2 => (failOutboundOwner (recOitem r) s).orElse (fun _ => failInboundOwner (recOitem r) s)
  | 3 => failBrickOwner (recOitem r) s
  | 4 => failDmaOwner (recOitem r) s
  | 5 => failHostOwner (recOitem r) s
  | _ => none

/-- A buffer still allocated at the timeout is reported with its record and freed. -/
def retireBuffer (p n : Nat) (s : State) : State :=
  bump 0xC0C0 0x0C (clearF p n (setRec (.buf p n) (recSetBit 16 false (tget 0 s.bufs.recs n)) s))

/-- The steward acts on the owners of the reported buffers: one still in flight is failed, once however many it held, and
the buffers of one that has ended are leaked. -/
def retireOwners : List W64 → State → State
  | [], s => s
  | r :: t, s =>
    let same := fun (q : W64) => decide (recOcls q = recOcls r ∧ recOitem q = recOitem r)
    if t.any same && decide (recOcls r ≠ 0) then
      retireOwners t (if (failOwner r s).isNone then bump 0xC0C0 0x0E s else s)
    else
      match failOwner r s with
      | some s1 => retireOwners t (bump 0xC0C0 0x0D s1)
      | none => retireOwners t (bump 0xC0C0 0x0E s)

/-- POOL_DRAIN_TIMEOUT: the pool's buffers are freed in rising order and the pool goes OFF. -/
def execPoolDrainTimeout (pool : Fin 64) (s : State) : Host.Outcome State Fault Refusal :=
  let p := pool.val
  let x := poolOf s p
  .next (if x.state = 2 ∧ reached (expiryAt 2 (x.drainAt + 2 ^ 20 * cfg s 0x9020 0x01) x.drainAt) s then
      let held := poolRecs s p recAlloc
      let s0 := held.foldl (fun s n => retireBuffer p n s) s
      let lost := if p = spillPool s then
          s.fab.pkts.filter (fun e => !e.2.transit && e.2.gran.any (fun n => decide (n ∈ held))) else []
      let s1 := retireOwners (held.map (fun n => tget 0 s.bufs.recs n)) (lost.foldl (fun s e => notSent e.1 s) s0)
      retireCheck (modPool p (fun y => { y with state := 0 }) s1)
    else s)

end Sys2Proof.Machine
end

