-- ==== Sys2Proof/Machine/Serve.lean ====
section
/-! DEFINITION. The actions of a DL0 boundary fire in the order of R69 before any other work of it (R69, R673), and the
entries that a freeze made overdue fire at the boundary that ends it (R74). -/

namespace Sys2Proof.Machine

/-- The state a meaning leaves. -/
def took (s : State) : Host.Outcome State Fault Refusal → State
  | .next t => t
  | _ => s

/-- One due action of classes 1 to 3 fires. -/
def DueAct.fire (a : DueAct) (s : State) : State :=
  match a with
  | .commit => commitNow s
  | .write w => fireTimed w s
  | .swap => swapNow s
  | .group g => captureGroup g s
  | .check => checkLedger s
  | .freeze timed => freezeNow timed s

/-- The due actions fire one after the other in the order of R69, at most `n`. -/
def fireDue : Nat → State → State
  | 0, s => s
  | n + 1, s => match nextDue s with | some e => fireDue n (e.act.fire s) | none => s

/-- Every action that is due fires; a timed write may make one more due. -/
def serve (s : State) : State := fireDue (2 * (dueActs s).length) s

/-- The clock has come to a DL0 boundary: what is due there fires (R65, R69, R673). -/
def serveAt (s : State) : State :=
  let n := now s / 64
  serve (modClk (fun c => { c with served := n, ivlAt := if c.served * 64 / 131072 < n * 64 / 131072 then n else c.ivlAt }) s)

/-! ### Overdue entries at the end of a freeze (R74) -/

/-- Boundaries of the delay-list entries and timers of class 4 that need nothing from outside the device to expire. -/
def timerDues (s : State) : List Nat :=
  (List.range 4).flatMap (fun k => (dlOf s k).map (·.due)) ++
    s.zmt.ctr.filterMap (fun e =>
      if (e.2.state = csArmed ∨ e.2.state = csAuto) ∧ e.2.deadline ≠ 0 then some (expiryAt 0 e.2.deadline e.2.armedAt) else none) ++
    s.cpu.thr.filterMap (fun e =>
      if e.2.tdl ≠ 0 ∧ e.2.timer = false then some (timedBoundary e.2.tdl.toNat e.2.tdlSet) else none) ++
    s.cpu.tile.flatMap (fun e => e.2.grp.filterMap (fun g =>
      if g.2.en && !g.2.deliv && !g.2.expired && decide (g.2.t ≠ 0) then
        g.2.start.map (fun st => expiryAt 0 (st + 64 * g.2.t.toNat) st) else none)) ++
    s.host.cpq.filterMap (fun e => coalesceDue e.2) ++
    s.zmt.peers.filterMap (fun e => e.2.ackAt.map (fun t => expiryAt 0 (t + cfg s 0x7100 7) t)) ++
    s.sched.drainAt.map (fun e => expiryAt 1 (e.2 + 1024 * cfg s 0x8402 0x04) e.2) ++
    s.mat.held.filterMap (fun h =>
      if h.late then none else some (expiryAt 2 (h.since + 1048576 * cfg s 0x8C01 0x02) h.since)) ++
    s.bufs.pool.filterMap (fun e =>
      if e.2.state = 2 then some (expiryAt 2 (e.2.drainAt + 2 ^ 20 * cfg s 0x9020 0x01) e.2.drainAt) else none) ++
    (s.power.alarm.map (fun e : Nat × Nat => timedBoundary e.1 e.2)).toList

/-- Those timers expire that the boundary now in force has reached. -/
def expireTimers (s : State) : State :=
  let s1 := took s (execWakeAlarmFire (took s (execDelayListRelease s)))
  let s2 := s1.zmt.ctr.foldl (fun s e => took s (execCounterDeadline e.1 s)) s1
  let s3 := (List.finRange 776).foldl (fun s t => if (tfind s.cpu.thr t.val).isSome then took s (execThreadDeadline t s) else s) s2
  let s4 := (List.finRange 12).foldl (fun s k => if (tfind s.cpu.tile k.val).isSome then
    (List.finRange 32).foldl (fun s g => took s (execTecGroupTimer k g s)) s else s) s3
  let s5 := s4.zmt.peers.foldl (fun s e => took s (execZmtAckSend (BitVec.ofNat 32 e.2.ep) s)) (took s4 (execCoalesceTimer s4))
  let s6 := (List.finRange 12).foldl (fun s k => took s (execDrainTimeout k s)) s5
  let s7 := s6.mat.held.foldl (fun s h => took s (execMseqHoldTimeout (Fin.ofNat 8 h.ts) (BitVec.ofNat 32 h.peer) s)) s6
  (List.finRange 64).foldl (fun s p => took s (execPoolDrainTimeout p s)) s7

/-- Boundary and place of the first entry that is overdue at `rel`, and what it is: an action, or the timers of a boundary. -/
def firstOverdue (rel : Nat) (s : State) : Option (Nat × Option DueAct) :=
  let acts := (dueActs s).map (fun e => (e.boundary :: e.place, e.boundary, some e.act))
  let timers := ((timerDues s).filter (fun b => decide (b < rel))).map (fun b => ([b, 4], b, none))
  (firstBy (·.1) (acts ++ timers)).map (·.2)

/-- Overdue entries fire in order of due time and then by R69, at most `n` times: the timers of a boundary go together. -/
def fireOverdue (rel : Nat) : Nat → State → State
  | 0, s => s
  | n + 1, s =>
    match firstOverdue rel s with
    | none => s
    | some (_, some a) => fireOverdue rel n (a.fire s)
    | some (b, none) =>
      let c := s.clk.served
      let t := expireTimers (modClk (fun k => { k with served := b / 64 }) s)
      fireOverdue rel n (modClk (fun k => { k with served := c }) t)

/-- THAW_RELEASE: at the first DL0 boundary after the clocks run, the frozen interval ends and what is overdue fires (R72,
R74, R653, R654). -/
def execThawRelease (s : State) : Host.Outcome State Fault Refusal :=
  let rel := fireAt s
  .next (if s.dbg.fstate = 3 ∧ thawRunsAt s ≤ rel then
      let s1 := endFreeze rel s
      fireOverdue rel (2 * (dueActs s1).length + (timerDues s1).length) s1
    else s)

end Sys2Proof.Machine
end

