-- ==== Sys2Proof/Machine/Clock.lean ====
section
/-! DEFINITION. What the clock does while no command waits (R45, R52, R69, R70, R673). -/

namespace Sys2Proof.Machine

/-- One nominal nanosecond of the clock: the FTC grows by 1 ns times 1 + rate, and keeps what is below 2^-16 ns
(R45, R52; DESIGN CHOICE, log 16). -/
def advance (s : State) : State :=
  let total := (65536 * (2 ^ 48 + s.clk.rate) + (s.clk.acc : Int)).toNat
  modClk (fun c => { c with ftc := c.ftc + BitVec.ofNat 80 (total / 2 ^ 48), acc := total % 2 ^ 48 }) s

/-- A time-set or a step has put the FTC on a DL0 boundary whose actions have not fired (R70). -/
def landed (s : State) : Bool := decide (now s % 64 = 0) && decide (s.clk.served < now s / 64)

/-- The device idles: the clock runs on by one nominal nanosecond, and when it comes to a DL0 boundary the actions of that
boundary fire, before any command that follows (R69, R70, R673). With AON off nothing counts (R43). -/
def idleTick (s : State) : State :=
  if !s.dbg.pwrGood then s
  else if landed s then serveAt s
  else
    let s1 := advance s
    if now s / 64 < now s1 / 64 then serveAt s1 else s1

end Sys2Proof.Machine
end

