-- ==== Sys2Proof/Machine/Casc.lean ====
section
/-! DEFINITION. The Eloan cascade: training, rounds, frames, the joint decision, members lost and returned
(R414-R422). -/

namespace Sys2Proof.Machine

/-! ### Operations in progress -/

/-- The record a frame carries for a request. -/
def recOf (r : MReq) : CRec :=
  { op := r.op, wc := r.wc, auto := r.auto, consume := r.consume, hreq := r.hreq, cls := r.cls, key := r.key, mask := r.mask,
    pay := r.pay, prio := r.prio, index := r.index, tcpos := r.tcpos, handle := r.handle }

/-- The request another member's record stands for. -/
def reqOf (c : CRec) : MReq :=
  { who := .member, op := c.op, wc := c.wc, auto := c.auto, consume := c.consume, hreq := c.hreq, cls := c.cls, key := c.key,
    mask := c.mask, pay := c.pay, prio := c.prio, index := c.index, tcpos := c.tcpos, handle := c.handle }

/-- Words of a record as a frame carries them in the model's output. -/
def recWords (c : CRec) : List Nat :=
  [c.op, c.wc, b2n c.auto, b2n c.consume, b2n c.hreq, c.cls, c.key.toNat, c.mask.toNat, c.pay.toNat, c.prio.toNat, c.index,
   c.tcpos, c.handle]

/-- Operation order: round, sending position, record order (R416). -/
def opBefore (a b : COp) : Bool :=
  decide (a.round < b.round) || (decide (a.round = b.round) && (decide (a.pos < b.pos) || (decide (a.pos = b.pos) && decide (a.ord < b.ord))))

def opInsert (o : COp) : List COp → List COp
  | [] => [o]
  | x :: t => if opBefore o x then o :: x :: t else x :: opInsert o t

/-- CTX and JP of a key. -/
def ctxJp (k : BitVec 128) : Nat := bf k.toNat 96 32 * 2 ^ 32 + bf k.toNat 0 32

/-- The operation compares every CTX and JP bit. -/
def comparesAll (r : MReq) : Bool :=
  if r.op = 1 then decide (ctxJp r.mask = 2 ^ 64 - 1) else decide (r.op ≠ 4)

/-- Two operations conflict (R418). -/
def conflicts (a b : MReq) : Bool := !comparesAll a || !comparesAll b || decide (ctxJp a.key = ctxJp b.key)

/-- Members whose results an operation needs. -/
def presentList (s : State) : List Nat := (List.range 4).filter (fun p => bit s.mat.present p)

/-- Every member present has sent its frame of the round (R416). -/
def roundKnown (s : State) (r : Nat) : Bool :=
  decide (r ≤ s.mat.round.toNat) &&
    (presentList s).all (fun p => decide (p = ownPos s) || decide (r ≤ tget 0 s.mat.heardRound p))

/-! ### A member's own search (R417) -/

/-- This device's matches for a cascaded operation. -/
def localMatches (s : State) (r : MReq) : List Nat :=
  match r.op with
  | 1 => mMatches s r.key (fun c => if c ≠ 7 ∧ bit r.cls c then some r.mask else none)
  | 3 => if r.tcpos = ownPos s ∧ (mEnt s r.index).v ∧ (mEnt s r.index).pay = r.pay then [r.index] else []
  | 4 => ((tfind s.mat.handle r.handle).map (·.list)).getD []
  | 6 => mMatches s r.key (fun c => if c = 4 then some (clsMask r.wc) else none)
  | 7 => mMatches s r.key (fun c => if c ≤ 3 then some (clsMask c) else none)
  | 8 => if r.tcpos = ownPos s then [r.index] else []
  | _ => []

/-- The local result; `room` is FULL or NO_CLASS where an insert on this device would end so. -/
def localResult (s : State) (r : MReq) : CRes :=
  let ms := localMatches s r
  let room := match r.op with
    | 2 | 6 => (mPlace s r.wc s.mat.base false).1
    | 7 => (mPlace s 4 s.mat.base true).1
    | _ => 0
  match ms with
  | [] => { room := room }
  | i :: _ =>
    let e := mEnt s i
    { hit := true, mult := decide (1 < ms.length), dup := mDup s ms, d := BitVec.ofNat 32 (mD s e.prio), index := i, pay := e.pay,
      key := if r.op = 8 then e.key else 0, v := decide (r.op = 8) && e.v, room := room }

/-- Words of a result as a frame carries them in the model's output. -/
def resWords (o : COp) (c : CRes) : List Nat :=
  [o.round, o.pos, o.ord, b2n c.hit, b2n c.mult, b2n c.dup, c.d.toNat, c.index, c.pay.toNat, c.room] ++
    (if o.req.op = 8 then [c.key.toNat, b2n c.v] else [])

/-- Search for one operation: keep the own result and send it; a handle keeps this device's matches (R420). -/
def searchOp (o : COp) (s : State) : State :=
  let c := localResult s o.req
  let s1 := if o.req.op = 1 && o.req.hreq && decide (o.req.handle < 64) then
      let h : MHandle := { owner := o.req.master, casc := true, list := localMatches s o.req }
      modMat (fun m => { m with handle := tput m.handle o.req.handle h }) s
    else s
  emit (.casc 1 (resWords o c)) (modMat (fun m => { m with ops := m.ops.map (fun x =>
    if x.round = o.round ∧ x.pos = o.pos ∧ x.ord = o.ord then { x with searched := true, res := tput x.res (ownPos s) c } else x) }) s1)

/-- The first operation that may be searched: its round is known and no earlier one conflicts (R418). -/
def searchable (s : State) : List COp → List COp → Option COp
  | _, [] => none
  | before, o :: t =>
    if !o.searched && roundKnown s o.round && before.all (fun b => !conflicts b.req o.req) then some o
    else searchable s (before ++ [o]) t

/-- Search for every operation that may be searched. -/
def searchAll : Nat → State → State
  | 0, s => s
  | n + 1, s => match searchable s [] s.mat.ops with
    | some o => searchAll n (searchOp o s)
    | none => s

/-! ### The joint outcome (R417) -/

/-- The winning member and its result: the lowest order key. -/
def cascWinner (s : State) (o : COp) : Option (Nat × CRes) :=
  (presentList s).foldl (fun best p =>
    match tfind o.res p with
    | some c =>
      if !c.hit then best
      else match best with
        | none => some (p, c)
        | some (q, b) => if c.d.toNat < b.d.toNat then some (p, c) else some (q, b)
    | none => best) none

/-- The operation consumes its winner. -/
def consumes (r : MReq) : Bool := decide (r.op = 6) || decide (r.op = 7) || decide (r.op = 3) || ((decide (r.op = 1) || decide (r.op = 4)) && r.consume)

/-- Class of a block of a member (R414). -/
def memberClass (s : State) (p b : Nat) : Nat :=
  if p = ownPos s then blkClass s b else bf (tget 0 s.mat.blk p).toNat (3 * b) 3

/-- RES0 and words of a cascaded result that names a member's entry; a READ's HIT shows V (R417; DESIGN CHOICE, log 81). -/
def cascRes (s : State) (o : COp) (p : Nat) (c : CRes) : MRes :=
  let mult := decide (1 < ((presentList s).filter (fun q => match tfind o.res q with | some x => x.hit | none => false)).length) || c.mult
  let dup := c.dup || (presentList s).any (fun q => decide (q ≠ p) && (match tfind o.res q with
    | some x => x.hit && decide (x.d = c.d)
    | none => false))
  let group := decide (o.req.op = 1) || decide (o.req.op = 6) || decide (o.req.op = 7)
  let found := group || decide (o.req.op = 4)
  let key := if o.req.op = 8 then c.key else if p = ownPos s then (mEnt s c.index).key else o.req.key
  { res0 := mkRes0 0 (found || (decide (o.req.op = 8) && c.v)) (group && mult) (group && dup) (consumes o.req && found) false
      (if (o.req.op = 1 ∧ o.req.hreq ∧ o.req.handle < 64) ∨ o.req.op = 4 then some o.req.handle else none) p c.index
      (memberClass s p (c.index / 4096)),
    w := [c.pay, key.extractLsb' 0 64, key.extractLsb' 64 64, (c.d + s.mat.base).zeroExtend 64] }

/-- The operation takes OSEQ when it inserts. -/
def takesOseq (r : MReq) : Bool := decide (r.op = 6) || decide (r.op = 7) || (decide (r.op = 2) && r.auto)

/-- A cascaded SEARCH that opened no handle: the number given to it is free again, and a home that had none to give counts
that when the search hit (R407). -/
def settleHandle (r : MReq) (home hit : Bool) (s : State) : State :=
  if r.op = 1 ∧ r.hreq then
    if 64 ≤ r.handle then bumpIf (home && hit) 0xC0A0 0x17 s
    else if hit then s else modMat (fun m => { m with handle := tdel m.handle r.handle }) s
  else s

/-- Apply a decided operation on this device. -/
def applyOp (o : COp) (s : State) : State :=
  let home := decide (o.pos = ownPos s)
  let r := o.req
  match cascWinner s o with
  | some (p, c) =>
    let s1 := if p = ownPos s then
        let s2 := if consumes r && (decide (r.op = 6) || decide (r.op = 1)) && decide (blkClass s (c.index / 4096) = 4) then mHand c.pay r.pay s else s
        let s3 := if r.op = 4 then modMat (fun m => { m with handle := tupd m.handle r.handle (fun h =>
            { h with list := h.list.erase c.index }) }) s2 else s2
        if consumes r then mClear c.index s3 else s3
      else s
    let s4 := settleHandle r home true s1
    if home then mDeliver r (cascRes s o p c) s4 else s4
  | none =>
    let room := match tfind o.res o.pos with | some c => c.room | none => 6
    let prio := if takesOseq r then s.mat.oseq else r.prio
    let ins := (decide (r.op = 2) || decide (r.op = 6) || decide (r.op = 7))
    if ins then
      let wc := if r.op = 7 then 4 else r.wc
      if room = 0 ∧ 2 ^ 31 ≤ mD s prio then
        if home then mDeliver r (mStatus 2) s else s
      else if room = 0 then
        let s1 := if home then
            let i := (mPlace s wc prio true).2
            let s2 := mPut i { key := r.key, prio := prio, wc := BitVec.ofNat 3 wc, v := true, pay := r.pay } s
            mDeliver r (mEntRes s2 i false false false false true none) s2
          else s
        if takesOseq r then mAdvance s1 else s1
      else if home then mDeliver r (mStatus room) s else s
    else if r.op = 4 then
      let s1 := modMat (fun m => { m with handle := tdel m.handle r.handle }) s
      if home then mDeliver r (mStatus 5) s1 else s1
    else
      let s1 := settleHandle r home false s
      if home then mDeliver r (mStatus (if r.op = 1 then 0 else 3)) s1 else s1

/-- Every member present has given its result. -/
def decided (s : State) (o : COp) : Bool := o.searched && (presentList s).all (fun p => (tfind o.res p).isSome)

/-- Apply, in operation order, what is decided; each application lets waiting operations search. A renumber holds them
(R402). -/
def progress : Nat → State → State
  | 0, s => s
  | n + 1, s =>
    if s.mat.renum then s else
    let s1 := searchAll s.mat.ops.length s
    match s1.mat.ops with
    | o :: rest => if decided s1 o then progress n (applyOp o (modMat (fun m => { m with ops := rest }) s1)) else s1
    | [] => s1

/-- Let the cascade go on as far as it can. -/
def cascGo (s : State) : State := progress (s.mat.ops.length + 1) s

/-! ### Commands -/

/-- CASCADE_TRAINING: with the cascade enabled, the members compare what they hold and join, or the device runs alone
(R414). -/
def execCascadeTraining (members : List CMember) (s : State) : Host.Outcome State Fault Refusal :=
  let mask := bf (cfg s 0x8C02 0x02) 0 4
  .next (if !cfgB s 0x8C02 0x01 || decide (s.dbg.phase < 5) then s
    else if members.isEmpty then modMat (fun m => { m with cstate := 1 }) s
    else if members.any (fun x => decide (x.pos = ownPos s) || decide (x.mask ≠ mask) || decide (x.value.toNat ≠ cfg s 0x8C02 0x03) ||
        decide (x.sel.toNat ≠ cfg s 0x8C02 0x04)) then
      bump 0xC0A0 0x19 (modMat (fun m => { m with cstate := 4, present := 2 ^ ownPos s }) s)
    else
      let all := 2 ^ ownPos s ||| members.foldl (fun a x => a ||| 2 ^ (x.pos % 4)) 0
      let low := members.foldl (fun (b : Option CMember) x => match b with
        | none => if x.pos < ownPos s then some x else none
        | some y => if x.pos < y.pos then some x else b) none
      let heard := fun (m : Match) => members.foldl (fun t x => tput t x.pos (now s)) m.heard
      let rounds := fun (m : Match) => members.foldl (fun t x => tset 0 t x.pos m.round.toNat) m.heardRound
      let blk := fun (m : Match) => members.foldl (fun t x => tput t x.pos x.classes) m.blk
      let oseq := fun (m : Match) => match low with | some x => x.oseq | none => m.oseq
      let base := fun (m : Match) => match low with | some x => x.base | none => m.base
      modMat (fun m => { m with heard := heard m, heardRound := rounds m, ahead := [], blk := blk m, oseq := oseq m, base := base m })
        (modMat (fun m => { m with cstate := if all = mask then 2 else 3, present := all }) s))

/-- Give a cascaded SEARCH that asks for one a handle of the home's quota; 64 is none (R420). -/
def giveHandle (r : MReq) (s : State) : MReq × State :=
  if r.op = 1 ∧ r.hreq then
    match freeHandle s with
    | some h => ({ r with handle := h },
        modMat (fun m => { m with handle := tput m.handle h { owner := r.master, casc := true, list := [] } }) s)
    | none => ({ r with handle := 64 }, s)
  else (r, s)

/-- Put the next operation of a round into the order, and into the frame. -/
def sendOps : Nat → List MReq → State → List Nat × State
  | _, [], s => ([], s)
  | k, r :: t, s =>
    let g := giveHandle r s
    let o : COp := { round := g.2.mat.round.toNat, pos := ownPos s, ord := k, req := g.1, searched := false, res := [] }
    let s1 := modMat (fun m => { m with ops := opInsert o m.ops }) g.2
    let s2 := if g.2.mat.ops.any (fun x => conflicts x.req g.1) then bump 0xC0A0 0x16 s1 else s1
    let q := sendOps (k + 1) t s2
    (recWords (recOf g.1) ++ q.1, q.2)

/-- CASCADE_ROUND: a round begins, and the member sends its frame with up to four operation records (R416; DESIGN
CHOICE, log 85). -/
def execCascadeRound (s : State) : Host.Outcome State Fault Refusal :=
  .next (if !cascJoined s || !decide (s.dbg.fstate ≤ 1) then s
    else
      let s1 := bump 0xC0A0 0x13 (modMat (fun m => { m with round := m.round + 1, out := m.out.drop 4 }) s)
      let q := sendOps 0 (s.mat.out.take 4) s1
      cascGo (emit (.casc 0 (s1.mat.round.toNat :: q.1)) q.2))

/-- A frame of a round comes from a member: the rounds known of it without a gap, and those beyond. -/
def hearRound (pos round : Nat) (m : Match) : Match :=
  let m1 := { m with ahead := m.ahead ++ [(pos, round)] }
  m1.ahead.foldl (fun m _ =>
    let next := tget 0 m.heardRound pos + 1
    if m.ahead.contains (pos, next) then
      { m with heardRound := tset 0 m.heardRound pos next, ahead := m.ahead.erase (pos, next) } else m) m1

/-- The frame of a round has come from a member. -/
def heardOf (s : State) (pos round : Nat) : Bool := decide (round ≤ tget 0 s.mat.heardRound pos) || s.mat.ahead.contains (pos, round)

/-- Add the records of another member's frame to the operation order. -/
def takeRecs (pos round : Nat) : Nat → List CRec → State → State
  | _, [], s => s
  | k, c :: t, s =>
    let o : COp := { round := round, pos := pos, ord := k, req := reqOf c, searched := false, res := [] }
    let s1 := if s.mat.ops.any (fun x => conflicts x.req o.req) then bump 0xC0A0 0x16 s else s
    takeRecs pos round (k + 1) t (modMat (fun m => { m with ops := opInsert o m.ops }) s1)

/-- CASCADE_FRAME_RECEIVE: a frame that fails its CRC is counted and will be sent again, and what depends on it waits; one that
comes a second time, the other way round, brings no new records (R416, R421). -/
def execCascadeFrameReceive (pos : Fin 4) (round : BitVec 32) (recs : List CRec) (results : List (Nat × Nat × Nat × CRes))
    (crcOk : Bool) (s : State) : Host.Outcome State Fault Refusal :=
  .next (if !clocked s || !cascJoined s || decide (pos.val = ownPos s) || !bit s.mat.present pos.val then s
    else if !crcOk then bump 0xC0A0 0x14 s
    else
      let s1 := modMat (fun m => { m with heard := tput m.heard pos.val (now s) }) s
      let s2 := if heardOf s pos.val round.toNat then s1
        else takeRecs pos.val round.toNat 0 (recs.take 4) (modMat (hearRound pos.val round.toNat) s1)
      let s3 := results.foldl (fun s e => modMat (fun m => { m with ops := m.ops.map (fun o =>
        if o.round = e.1 ∧ o.pos = e.2.1 ∧ o.ord = e.2.2.1 then { o with res := tput o.res pos.val e.2.2.2 } else o) }) s) s2
      cascGo s3)

/-- CASCADE_MEMBER_TIMEOUT: no frame from a member for 8C02h.05 DL1 ticks; the others run as a line (R422). -/
def execCascadeMemberTimeout (pos : Fin 4) (s : State) : Host.Outcome State Fault Refusal :=
  .next (match tfind s.mat.heard pos.val with
    | some a =>
      if cascJoined s && bit s.mat.present pos.val && decide (pos.val ≠ ownPos s) &&
          reached (expiryAt 1 (a + 1024 * cfg s 0x8C02 0x05) a) s then
        let left := fun (m : Match) => m.ops.map (fun o => { o with res := tdel o.res pos.val })
        cascGo (bump 0xC0A0 0x15
          (modMat (fun m => { m with present := bitPut m.present pos.val false, cstate := 3, ops := left m }) s))
      else s
    | none => s)

/-- MEMBER_REJOIN: a member returns. When it is this device, it adopts ROUND, OSEQ and BASE, and a different RGEN makes it
re-rank its entries after all others by a renumber (R422). -/
def execMemberRejoin (pos : Fin 4) (round oseq base rgen : BitVec 32) (s : State) : Host.Outcome State Fault Refusal :=
  let mask := bf (cfg s 0x8C02 0x02) 0 4
  .next (if !cfgB s 0x8C02 0x01 then s
    else if pos.val = ownPos s then
      let heard := fun (m : Match) => (List.range 4).foldl (fun t p => tput t p (now s)) m.heard
      let rounds := fun (m : Match) => (List.range 4).foldl (fun t p => tset 0 t p round.toNat) m.heardRound
      let s1 := modMat (fun m => { m with round := round, oseq := oseq, base := base, present := mask, cstate := 2,
                                          heard := heard m, heardRound := rounds m, ahead := [] }) s
      if rgen = s.mat.rgen then s1 else modMat (fun m => { m with renum := true, rerank := true, rgen := rgen }) s1
    else
      let all := bitPut s.mat.present pos.val true
      let rounds := fun (m : Match) => tset 0 m.heardRound pos.val m.round.toNat
      let s1 := modMat (fun m => { m with heard := tput m.heard pos.val (now s), heardRound := rounds m,
                                          ahead := m.ahead.filter (fun e => decide (e.1 ≠ pos.val)) })
        (modMat (fun m => { m with present := all, cstate := if all = mask then 2 else 3 }) s)
      if rgen = s.mat.rgen then s1 else modMat (fun m => { m with renum := true }) s1)

/-- RENUMBER_END: a renumber ends, and what it held goes on (R402). -/
def execRenumberEnd (others : List (BitVec 32)) (s : State) : Host.Outcome State Fault Refusal :=
  .next (if s.mat.renum then cascGo (renumEnd others s) else s)

end Sys2Proof.Machine
end

