-- ==== Sys2Proof/Machine/IkAlu.lean ====
section
/-! DEFINITION. Ikievo-72: arithmetic, bit fields, branches, shared registers, register moves (Table 7-7, R260-R262,
R272). Thread `t` executes the instruction at its pc; a thread that may not issue is left as it is. -/

namespace Sys2Proof.Machine

/-! ### Results -/

/-- Shift left; 72 or more gives 0 (R261). -/
def shl72 (a : W72) (n : Nat) : W72 := if 72 ≤ n then 0 else a <<< n
/-- Logical shift right. -/
def shr72 (a : W72) (n : Nat) : W72 := if 72 ≤ n then 0 else a >>> n
/-- Arithmetic shift right; 72 or more copies bit 71. -/
def sar72 (a : W72) (n : Nat) : W72 := a.sshiftRight (min n 72)

/-- A shift amount: bits 6:0. -/
def shAmt (b : W72) : Nat := b.toNat % 128

/-- Signed quotient, toward zero; by zero 2^72 - 1; -2^71 by -1 gives -2^71 (R261). -/
def div72 (a b : W72) : W72 := if b = 0 then BitVec.allOnes 72 else a.sdiv b
def divu72 (a b : W72) : W72 := if b = 0 then BitVec.allOnes 72 else a / b
/-- Remainder with the sign of the dividend; by zero the dividend. -/
def rem72 (a b : W72) : W72 := if b = 0 then a else a.srem b
def remu72 (a b : W72) : W72 := if b = 0 then a else a % b

/-- High 72 bits of the signed product. -/
def mulh72 (a b : W72) : W72 := BitVec.ofInt 72 (a.toInt * b.toInt / (2 ^ 72 : Int))
/-- High 72 bits of the unsigned product. -/
def mulhu72 (a b : W72) : W72 := BitVec.ofNat 72 (a.toNat * b.toNat / 2 ^ 72)

/-- Leading zeros; 72 of 0. -/
def clz72 (a : W72) : Nat := ((List.range 72).find? (fun i => a.getLsbD (71 - i))).getD 72
/-- Trailing zeros; 72 of 0. -/
def ctz72 (a : W72) : Nat := ((List.range 72).find? (fun i => a.getLsbD i)).getD 72
/-- Ones. -/
def popc72 (a : W72) : Nat := popcnt a.toNat 72
/-- The bytes of bits 63:0 reversed; bits 71:64 are 0. -/
def bswap72 (a : W72) : W72 := BitVec.ofNat 72 (beNat (natLE 8 (a.toNat % 2 ^ 64)))
/-- Bits POS + LEN to POS, zero-extended; bits above 71 read 0. -/
def ext72 (a : W72) (pos len : Nat) : W72 := BitVec.ofNat 72 (bf a.toNat pos (len + 1))
/-- Bits POS + LEN to POS of `d` become bits LEN to 0 of `a`; bits above 71 are not written. -/
def ins72 (d a : W72) (pos len : Nat) : W72 := BitVec.ofNat 72 (bput d.toNat pos (len + 1) a.toNat)
/-- Bits POS to 0, sign-extended from bit POS; a bit above 71 reads 0. -/
def sext72 (a : W72) (pos : Nat) : W72 :=
  if 72 ≤ pos then a else BitVec.ofInt 72 (sxt a.toNat (pos + 1))

/-! ### Shapes -/

/-- rd := f ra rb. -/
def aluR (cls : Nat) (t rd ra rb : Nat) (f : W72 → W72 → W72) (s : State) : State :=
  runWrite t cls rd [ra, rb] (f (getReg s t ra) (getReg s t rb)) s

/-- rd := f ra. -/
def aluU (t rd ra : Nat) (f : W72 → W72) (s : State) : State := runWrite t clsA rd [ra] (f (getReg s t ra)) s

/-- Branch: the target counts from the branch's own index, modulo 2^17 (R262). -/
def branch (t : Nat) (regs : List Nat) (taken : Bool) (ofs : BitVec 18) (s : State) : State :=
  runIns t clsB 0 regs (fun s1 =>
    retire t (if taken then (thr s t).pc + (ofs.truncate 17) else nextPc s t) s1) s

/-- A shared register of the thread's core. -/
def sharedReg (s : State) (t n : Nat) : W72 := tget 0 (coreSt s (coreOf t)).sr n

/-- Write a shared register: every other thread of the core that watches it has WATCH set (R315). -/
def setShared (t n : Nat) (v : W72) (s : State) : State :=
  (coreThreads (coreOf t)).foldl (fun s u =>
      let x := thr s u
      if u ≠ t && x.wctl.getLsbD 1 && decide (bf x.wctl.toNat 8 4 = n) then modThr u (fun x => { x with watch := true }) s
      else s)
    (modCore (coreOf t) (fun c => { c with sr := tset 0 c.sr n v }) s)

/-- rd := s[n]; s[n] := f s[n] (R272). -/
def sharedOp (t rd ra n : Nat) (f : W72 → W72 → W72) (s : State) : State :=
  runIns t clsM rd [ra] (fun s1 =>
    retire t (nextPc s t) (setReg t rd (sharedReg s t n) (setShared t n (f (sharedReg s t n) (getReg s t ra)) s1))) s

/-! ### Instructions -/

/-- ADD. -/
def execAdd (t : Fin 776) (rd ra rb : Fin 32) (s : State) : Host.Outcome State Fault Refusal :=
  .next (aluR clsA t.val rd.val ra.val rb.val (fun a b => a + b) s)

/-- SUB. -/
def execSub (t : Fin 776) (rd ra rb : Fin 32) (s : State) : Host.Outcome State Fault Refusal :=
  .next (aluR clsA t.val rd.val ra.val rb.val (fun a b => a - b) s)

/-- AND. -/
def execAndR (t : Fin 776) (rd ra rb : Fin 32) (s : State) : Host.Outcome State Fault Refusal :=
  .next (aluR clsA t.val rd.val ra.val rb.val (fun a b => a &&& b) s)

/-- OR. -/
def execOrR (t : Fin 776) (rd ra rb : Fin 32) (s : State) : Host.Outcome State Fault Refusal :=
  .next (aluR clsA t.val rd.val ra.val rb.val (fun a b => a ||| b) s)

/-- XOR. -/
def execXorR (t : Fin 776) (rd ra rb : Fin 32) (s : State) : Host.Outcome State Fault Refusal :=
  .next (aluR clsA t.val rd.val ra.val rb.val (fun a b => a ^^^ b) s)

/-- ANDN. -/
def execAndn (t : Fin 776) (rd ra rb : Fin 32) (s : State) : Host.Outcome State Fault Refusal :=
  .next (aluR clsA t.val rd.val ra.val rb.val (fun a b => a &&& ~~~b) s)

/-- SHL. -/
def execShl (t : Fin 776) (rd ra rb : Fin 32) (s : State) : Host.Outcome State Fault Refusal :=
  .next (aluR clsA t.val rd.val ra.val rb.val (fun a b => shl72 a (shAmt b)) s)

/-- SHR. -/
def execShr (t : Fin 776) (rd ra rb : Fin 32) (s : State) : Host.Outcome State Fault Refusal :=
  .next (aluR clsA t.val rd.val ra.val rb.val (fun a b => shr72 a (shAmt b)) s)

/-- SAR. -/
def execSar (t : Fin 776) (rd ra rb : Fin 32) (s : State) : Host.Outcome State Fault Refusal :=
  .next (aluR clsA t.val rd.val ra.val rb.val (fun a b => sar72 a (shAmt b)) s)

/-- SLT. -/
def execSlt (t : Fin 776) (rd ra rb : Fin 32) (s : State) : Host.Outcome State Fault Refusal :=
  .next (aluR clsA t.val rd.val ra.val rb.val (fun a b => b72 (a.slt b)) s)

/-- SLTU. -/
def execSltu (t : Fin 776) (rd ra rb : Fin 32) (s : State) : Host.Outcome State Fault Refusal :=
  .next (aluR clsA t.val rd.val ra.val rb.val (fun a b => b72 (a.ult b)) s)

/-- MIN. -/
def execMin (t : Fin 776) (rd ra rb : Fin 32) (s : State) : Host.Outcome State Fault Refusal :=
  .next (aluR clsA t.val rd.val ra.val rb.val (fun a b => if a.slt b then a else b) s)

/-- MAX. -/
def execMax (t : Fin 776) (rd ra rb : Fin 32) (s : State) : Host.Outcome State Fault Refusal :=
  .next (aluR clsA t.val rd.val ra.val rb.val (fun a b => if a.slt b then b else a) s)

/-- MINU. -/
def execMinu (t : Fin 776) (rd ra rb : Fin 32) (s : State) : Host.Outcome State Fault Refusal :=
  .next (aluR clsA t.val rd.val ra.val rb.val (fun a b => if a.ult b then a else b) s)

/-- MAXU. -/
def execMaxu (t : Fin 776) (rd ra rb : Fin 32) (s : State) : Host.Outcome State Fault Refusal :=
  .next (aluR clsA t.val rd.val ra.val rb.val (fun a b => if a.ult b then b else a) s)

/-- MUL. -/
def execMul (t : Fin 776) (rd ra rb : Fin 32) (s : State) : Host.Outcome State Fault Refusal :=
  .next (aluR clsX t.val rd.val ra.val rb.val (fun a b => a * b) s)

/-- MULH. -/
def execMulh (t : Fin 776) (rd ra rb : Fin 32) (s : State) : Host.Outcome State Fault Refusal :=
  .next (aluR clsX t.val rd.val ra.val rb.val (mulh72) s)

/-- MULHU. -/
def execMulhu (t : Fin 776) (rd ra rb : Fin 32) (s : State) : Host.Outcome State Fault Refusal :=
  .next (aluR clsX t.val rd.val ra.val rb.val (mulhu72) s)

/-- DIV. -/
def execDiv (t : Fin 776) (rd ra rb : Fin 32) (s : State) : Host.Outcome State Fault Refusal :=
  .next (aluR clsX t.val rd.val ra.val rb.val (div72) s)

/-- DIVU. -/
def execDivu (t : Fin 776) (rd ra rb : Fin 32) (s : State) : Host.Outcome State Fault Refusal :=
  .next (aluR clsX t.val rd.val ra.val rb.val (divu72) s)

/-- REM. -/
def execRem (t : Fin 776) (rd ra rb : Fin 32) (s : State) : Host.Outcome State Fault Refusal :=
  .next (aluR clsX t.val rd.val ra.val rb.val (rem72) s)

/-- REMU. -/
def execRemu (t : Fin 776) (rd ra rb : Fin 32) (s : State) : Host.Outcome State Fault Refusal :=
  .next (aluR clsX t.val rd.val ra.val rb.val (remu72) s)

/-- CLZ. -/
def execClz (t : Fin 776) (rd ra : Fin 32) (s : State) : Host.Outcome State Fault Refusal :=
  .next (aluU t.val rd.val ra.val (fun a => BitVec.ofNat 72 (clz72 a)) s)

/-- CTZ. -/
def execCtz (t : Fin 776) (rd ra : Fin 32) (s : State) : Host.Outcome State Fault Refusal :=
  .next (aluU t.val rd.val ra.val (fun a => BitVec.ofNat 72 (ctz72 a)) s)

/-- POPC. -/
def execPopc (t : Fin 776) (rd ra : Fin 32) (s : State) : Host.Outcome State Fault Refusal :=
  .next (aluU t.val rd.val ra.val (fun a => BitVec.ofNat 72 (popc72 a)) s)

/-- BSWAP. -/
def execBswap (t : Fin 776) (rd ra : Fin 32) (s : State) : Host.Outcome State Fault Refusal :=
  .next (aluU t.val rd.val ra.val (bswap72) s)

/-- EXT. -/
def execExt (t : Fin 776) (rd ra : Fin 32) (pos len : Fin 128) (s : State) : Host.Outcome State Fault Refusal :=
  .next (aluU t.val rd.val ra.val (fun a => ext72 a pos.val len.val) s)

/-- INS; rd is read and written. -/
def execIns (t : Fin 776) (rd ra : Fin 32) (pos len : Fin 128) (s : State) : Host.Outcome State Fault Refusal :=
  .next (aluU t.val rd.val ra.val (fun a => ins72 (getReg s t.val rd.val) a pos.val len.val) s)

/-- SEXT; LEN is 0. -/
def execSext (t : Fin 776) (rd ra : Fin 32) (pos : Fin 128) (s : State) : Host.Outcome State Fault Refusal :=
  .next (aluU t.val rd.val ra.val (fun a => sext72 a pos.val) s)

/-- ADDI. -/
def execAddi (t : Fin 776) (rd ra : Fin 32) (imm : BitVec 18) (s : State) : Host.Outcome State Fault Refusal :=
  .next (aluU t.val rd.val ra.val (fun a => a + imm72 imm) s)

/-- ANDI. -/
def execAndi (t : Fin 776) (rd ra : Fin 32) (imm : BitVec 18) (s : State) : Host.Outcome State Fault Refusal :=
  .next (aluU t.val rd.val ra.val (fun a => a &&& immZ imm) s)

/-- ORI. -/
def execOri (t : Fin 776) (rd ra : Fin 32) (imm : BitVec 18) (s : State) : Host.Outcome State Fault Refusal :=
  .next (aluU t.val rd.val ra.val (fun a => a ||| immZ imm) s)

/-- XORI. -/
def execXori (t : Fin 776) (rd ra : Fin 32) (imm : BitVec 18) (s : State) : Host.Outcome State Fault Refusal :=
  .next (aluU t.val rd.val ra.val (fun a => a ^^^ immZ imm) s)

/-- SHLI. -/
def execShli (t : Fin 776) (rd ra : Fin 32) (sh : Fin 128) (s : State) : Host.Outcome State Fault Refusal :=
  .next (aluU t.val rd.val ra.val (fun a => shl72 a sh.val) s)

/-- SHRI. -/
def execShri (t : Fin 776) (rd ra : Fin 32) (sh : Fin 128) (s : State) : Host.Outcome State Fault Refusal :=
  .next (aluU t.val rd.val ra.val (fun a => shr72 a sh.val) s)

/-- SARI. -/
def execSari (t : Fin 776) (rd ra : Fin 32) (sh : Fin 128) (s : State) : Host.Outcome State Fault Refusal :=
  .next (aluU t.val rd.val ra.val (fun a => sar72 a sh.val) s)

/-- SLTI. -/
def execSlti (t : Fin 776) (rd ra : Fin 32) (imm : BitVec 18) (s : State) : Host.Outcome State Fault Refusal :=
  .next (aluU t.val rd.val ra.val (fun a => b72 (a.slt (imm72 imm))) s)

/-- SLTIU. -/
def execSltiu (t : Fin 776) (rd ra : Fin 32) (imm : BitVec 18) (s : State) : Host.Outcome State Fault Refusal :=
  .next (aluU t.val rd.val ra.val (fun a => b72 (a.ult (imm72 imm))) s)

/-- LUI. -/
def execLui (t : Fin 776) (rd : Fin 32) (imm : BitVec 23) (s : State) : Host.Outcome State Fault Refusal :=
  .next (runWrite t.val clsA rd.val [] (imm.signExtend 72 <<< 18) s)

/-- BEQ. -/
def execBeq (t : Fin 776) (ra rb : Fin 32) (ofs : BitVec 18) (s : State) : Host.Outcome State Fault Refusal :=
  let a := getReg s t.val ra.val
  let b := getReg s t.val rb.val
  .next (branch t.val [ra.val, rb.val] (decide (a = b)) ofs s)

/-- BNE. -/
def execBne (t : Fin 776) (ra rb : Fin 32) (ofs : BitVec 18) (s : State) : Host.Outcome State Fault Refusal :=
  let a := getReg s t.val ra.val
  let b := getReg s t.val rb.val
  .next (branch t.val [ra.val, rb.val] (decide (a ≠ b)) ofs s)

/-- BLT. -/
def execBlt (t : Fin 776) (ra rb : Fin 32) (ofs : BitVec 18) (s : State) : Host.Outcome State Fault Refusal :=
  let a := getReg s t.val ra.val
  let b := getReg s t.val rb.val
  .next (branch t.val [ra.val, rb.val] (a.slt b) ofs s)

/-- BGE. -/
def execBge (t : Fin 776) (ra rb : Fin 32) (ofs : BitVec 18) (s : State) : Host.Outcome State Fault Refusal :=
  let a := getReg s t.val ra.val
  let b := getReg s t.val rb.val
  .next (branch t.val [ra.val, rb.val] (!a.slt b) ofs s)

/-- BLTU. -/
def execBltu (t : Fin 776) (ra rb : Fin 32) (ofs : BitVec 18) (s : State) : Host.Outcome State Fault Refusal :=
  let a := getReg s t.val ra.val
  let b := getReg s t.val rb.val
  .next (branch t.val [ra.val, rb.val] (a.ult b) ofs s)

/-- BGEU. -/
def execBgeu (t : Fin 776) (ra rb : Fin 32) (ofs : BitVec 18) (s : State) : Host.Outcome State Fault Refusal :=
  let a := getReg s t.val ra.val
  let b := getReg s t.val rb.val
  .next (branch t.val [ra.val, rb.val] (!a.ult b) ofs s)

/-- BEQI. -/
def execBeqi (t : Fin 776) (ra : Fin 32) (imm : BitVec 5) (ofs : BitVec 18) (s : State) : Host.Outcome State Fault Refusal :=
  let a := getReg s t.val ra.val
  let b := imm.signExtend 72
  .next (branch t.val [ra.val] (decide (a = b)) ofs s)

/-- BNEI. -/
def execBnei (t : Fin 776) (ra : Fin 32) (imm : BitVec 5) (ofs : BitVec 18) (s : State) : Host.Outcome State Fault Refusal :=
  let a := getReg s t.val ra.val
  let b := imm.signExtend 72
  .next (branch t.val [ra.val] (decide (a ≠ b)) ofs s)

/-- BLTI. -/
def execBlti (t : Fin 776) (ra : Fin 32) (imm : BitVec 5) (ofs : BitVec 18) (s : State) : Host.Outcome State Fault Refusal :=
  let a := getReg s t.val ra.val
  let b := imm.signExtend 72
  .next (branch t.val [ra.val] (a.slt b) ofs s)

/-- BGEI. -/
def execBgei (t : Fin 776) (ra : Fin 32) (imm : BitVec 5) (ofs : BitVec 18) (s : State) : Host.Outcome State Fault Refusal :=
  let a := getReg s t.val ra.val
  let b := imm.signExtend 72
  .next (branch t.val [ra.val] (!a.slt b) ofs s)

/-- JAL. -/
def execJal (t : Fin 776) (rd : Fin 32) (ofs : BitVec 23) (s : State) : Host.Outcome State Fault Refusal :=
  let pc := (thr s t.val).pc
  .next (runIns t.val clsB rd.val [] (fun s1 =>
    retire t.val (pc + ofs.truncate 17) (setReg t.val rd.val (BitVec.ofNat 72 (pc + 1).toNat) s1)) s)

/-- JALR; ra is read before rd is written. -/
def execJalr (t : Fin 776) (rd ra : Fin 32) (imm : BitVec 18) (s : State) : Host.Outcome State Fault Refusal :=
  let pc := (thr s t.val).pc
  let target := (getReg s t.val ra.val + imm72 imm).truncate 17
  .next (runIns t.val clsB rd.val [ra.val] (fun s1 =>
    retire t.val target (setReg t.val rd.val (BitVec.ofNat 72 (pc + 1).toNat) s1)) s)

/-- SRGET. -/
def execSrget (t : Fin 776) (rd : Fin 32) (sn : Fin 16) (s : State) : Host.Outcome State Fault Refusal :=
  .next (runWrite t.val clsM rd.val [] (sharedReg s t.val sn.val) s)

/-- SRSET. -/
def execSrset (t : Fin 776) (ra : Fin 32) (sn : Fin 16) (s : State) : Host.Outcome State Fault Refusal :=
  .next (runIns t.val clsM 0 [ra.val] (fun s1 =>
    retire t.val (nextPc s t.val) (setShared t.val sn.val (getReg s t.val ra.val) s1)) s)

/-- SRSWAP. -/
def execSrswap (t : Fin 776) (rd ra : Fin 32) (sn : Fin 16) (s : State) : Host.Outcome State Fault Refusal :=
  .next (sharedOp t.val rd.val ra.val sn.val (fun _ a => a) s)

/-- SRADD. -/
def execSradd (t : Fin 776) (rd ra : Fin 32) (sn : Fin 16) (s : State) : Host.Outcome State Fault Refusal :=
  .next (sharedOp t.val rd.val ra.val sn.val (fun x a => x + a) s)

/-- SRFOR. -/
def execSrfor (t : Fin 776) (rd ra : Fin 32) (sn : Fin 16) (s : State) : Host.Outcome State Fault Refusal :=
  .next (sharedOp t.val rd.val ra.val sn.val (fun x a => x ||| a) s)

/-- SIG: the threads of the core named in ra[7:0], the issuing one included (R272, R314). -/
def execSig (t : Fin 776) (ra : Fin 32) (s : State) : Host.Outcome State Fault Refusal :=
  let m := getReg s t.val ra.val
  .next (runIns t.val clsS 0 [ra.val] (fun s1 =>
    retire t.val (nextPc s t.val) ((coreThreads (coreOf t.val)).foldl
      (fun s u => if m.getLsbD (thrOf u) then signalThread u s else s) s1)) s)

/-- RGET: rd := w[ra[4:0]]. -/
def execRget (t : Fin 776) (rd ra : Fin 32) (s : State) : Host.Outcome State Fault Refusal :=
  let n := (getReg s t.val ra.val).toNat % 32
  .next (runWrite t.val clsS rd.val [ra.val, n] (getReg s t.val n) s)

/-- RSET: w[ra[4:0]] := rb. -/
def execRset (t : Fin 776) (ra rb : Fin 32) (s : State) : Host.Outcome State Fault Refusal :=
  let n := (getReg s t.val ra.val).toNat % 32
  .next (runWrite t.val clsS n [ra.val, rb.val] (getReg s t.val rb.val) s)

/-- ILL: FAULT ILLEGAL with the word in einst (R258). -/
def execIll (t : Fin 776) (ones : Bool) (low : BitVec 28) (s : State) : Host.Outcome State Fault Refusal :=
  .next (runIns t.val clsS 0 []
    (fun s => faultInst t.val 0x02 (BitVec.ofNat 36 ((if ones then 0xFF else 0) * 2 ^ 28 + low.toNat)) s) s)

/-- RESERVED_OP: FAULT RESERVED_OP with the word in einst and no effect of the instruction (R255, R257, R428). -/
def execReservedOp (t : Fin 776) (word : BitVec 36) (s : State) : Host.Outcome State Fault Refusal :=
  .next (if reservedWord word then runIns t.val clsS 0 [] (fun s => faultInst t.val 0x01 word s) s else s)

/-- SYSC: FAULT SYSCALL with IMM in einst; spc names the next instruction (R276). -/
def execSysc (t : Fin 776) (imm : BitVec 18) (s : State) : Host.Outcome State Fault Refusal :=
  .next (runIns t.val clsS 0 [] (fun s1 =>
    takeFault t.val 0x10 (nextPc s t.val).toNat
      (modThr t.val (fun x => { x with einst := imm.zeroExtend 36 }) (bumpTile t.val 0x01 s1))) s)

/-- ERET in its thread: st := sst at once; a change of cpen.ENU that was on its way keeps its shadow (R251). -/
def eretThr (x : Thread) : Thread :=
  let st := x.sst &&& stMask
  match x.shadow with
  | some (n, _, e) =>
    if e = x.enu ∨ n ≤ 1 then { x with pc := x.spc, st := st, enu := e, shadow := none }
    else { x with pc := x.spc, st := st, shadow := some (n - 1, st, e) }
  | none => { x with pc := x.spc, st := st }

/-- ERET: pc := spc and st := sst at once (Table 7-7, R251). -/
def execEret (t : Fin 776) (s : State) : Host.Outcome State Fault Refusal :=
  .next (runPriv t.val clsS 0 [] (fun s1 => bumpTile t.val 0x01 (modThr t.val eretThr s1)) s)

end Sys2Proof.Machine
end

