-- ==== Sys2Proof/Machine/Spdm.lean ====
section
/-! DEFINITION. SPDM 1.2 outside dictionary sessions (R581). The manual names the messages, algorithms, slots and
measurements; the codes and layouts are those of DSP0274 1.2 (PRESUMED, log 3). -/

namespace Sys2Proof.Machine

/-- A transport that carries SPDM: MCTP over 0 to 3 while B030h.01 enables it, DOE of HP0 and HP1 as 6 and 7. -/
def spdmXport (s : State) (x : Nat) : Bool := (decide (x < 4) && xportOn s x) || decide (x = 6) || decide (x = 7)

/-- SPDM on its carrier: an MCTP message of type 05h, or a DOE data object's content (R559, R581). -/
def sendSpdm (x : Nat) (m : Bytes) (s : State) : State := emit (.mgmt x (if x < 4 then mctpMsg 0x05 m else m)) s

def spdmOf (s : State) (x : Nat) : SpdmConn := tget {} s.dict.spdm x

def setSpdm (x : Nat) (c : SpdmConn) (s : State) : State := modDict (fun d => { d with spdm := tset {} d.spdm x c }) s

/-- Measurement `n` (R581): 1 steward ROM, 2 steward image, 3 and 4 code-store images A and B, 5 persistent configuration. -/
def measured (s : State) (n : Nat) : Bytes :=
  natBE 48 (Config.measurement n (match n with
    | 1 => []
    | 2 => slotSection s s.dbg.slot 1
    | 3 => if 3 ≤ s.dbg.phase then imageCode s 0 else []
    | 4 => if 3 ≤ s.dbg.phase then imageCode s 1 else []
    | _ => s.dict.persist.flatMap (fun e => natLE 3 e.1 ++ natLE 2 e.2.length ++ e.2))).toNat

/-- A measurement block: index, DMTF, its value with its type. -/
def measBlock (s : State) (n : Nat) : Bytes :=
  let ty := match n with | 1 => 0 | 5 => 3 | _ => 1
  natLE 1 n ++ [0x01] ++ natLE 2 51 ++ natLE 1 ty ++ natLE 2 48 ++ measured s n

/-- An ERROR response. -/
def spdmError (code data : Nat) : Bytes := [0x12, 0x7F] ++ natLE 1 code ++ natLE 1 data

/-- The chain of a slot and its digest. -/
def chainDigest (slot : Nat) : Bytes := sha384 (Config.certificate slot)

/-- What a request is answered with, and the exchange after it. `f` is the draw of this request. -/
def spdmAnswer (s : State) (c : SpdmConn) (f : Nat) (m : Bytes) : Bytes × SpdmConn :=
  let p1 := leAt m 2 1
  let p2 := leAt m 3 1
  let vca := fun (ph : Nat) (r : Bytes) => (r, { c with phase := ph, vca := c.vca ++ m ++ r, chal := [], meas := [] })
  let chal := fun (r : Bytes) => (r, { c with chal := c.chal ++ m ++ r, meas := [] })
  match leAt m 1 1 with
  | 0x84 =>
    let r : Bytes := [0x10, 0x04, 0, 0, 0, 0x01, 0x00, 0x12]
    (r, { phase := 1, vca := m ++ r })
  | 0xE1 =>
    if c.phase = 1 then vca 2 ([0x12, 0x61, 0, 0, 0] ++ natLE 1 (f % 256) ++ [0, 0, 0x16, 0, 0x01, 0] ++ natLE 4 4096 ++ natLE 4 4096)
    else (spdmError 0x04 0, c)
  | 0xE3 =>
    if c.phase = 2 then
      vca 3 ([0x12, 0x63, 0, 0] ++ natLE 2 36 ++ [0x01, 0] ++ natLE 4 4 ++ natLE 4 0x80 ++ natLE 4 2 ++ zeros 12 ++ zeros 4)
    else (spdmError 0x04 0, c)
  | 0x81 =>
    if c.phase = 3 then chal ([0x12, 0x01, 0, 0x03] ++ chainDigest 0 ++ chainDigest 1) else (spdmError 0x04 0, c)
  | 0x82 =>
    if c.phase ≠ 3 then (spdmError 0x04 0, c)
    else if 2 ≤ p1 then (spdmError 0x01 0, c)
    else
      let chain := Config.certificate p1
      let o := leAt m 4 2
      let part := (chain.drop o).take (min (leAt m 6 2) 4000)
      if chain.length ≤ o then (spdmError 0x01 0, c)
      else chal ([0x12, 0x02] ++ natLE 1 p1 ++ [0] ++ natLE 2 part.length ++ natLE 2 (chain.length - o - part.length) ++ part)
  | 0x83 =>
    if c.phase ≠ 3 then (spdmError 0x04 0, c)
    else if 2 ≤ p1 then (spdmError 0x01 0, c)
    else
      let sum := if p2 = 0 then [] else sha384 ((if p2 = 1 then [1] else [1, 2, 3, 4, 5]).flatMap (measured s))
      let r := [0x12, 0x03] ++ natLE 1 p1 ++ natLE 1 (2 ^ p1) ++ chainDigest p1 ++ natLE 32 f ++ sum ++ [0, 0]
      (r ++ natBE 96 (Config.deviceSign p1 (f / 2 ^ 256) (c.vca ++ c.chal ++ m ++ r)).toNat, { c with chal := [], meas := [] })
  | 0xE0 =>
    if c.phase ≠ 3 then (spdmError 0x04 0, c)
    else if 5 < p2 ∧ p2 ≠ 0xFF then (spdmError 0x01 0, c)
    else
      let ns := if p2 = 0 then [] else if p2 = 0xFF then [1, 2, 3, 4, 5] else [p2]
      let blocks := ns.flatMap (measBlock s)
      let slot := leAt m 36 1 % 16
      let r := [0x12, 0x60] ++ natLE 1 (if p2 = 0 then 5 else 0) ++ natLE 1 (if bit p1 0 then slot else 0) ++ natLE 1 ns.length ++
        natLE 3 blocks.length ++ blocks ++ natLE 32 f ++ [0, 0]
      if !bit p1 0 then (r, { c with meas := c.meas ++ m ++ r })
      else if 2 ≤ slot then (spdmError 0x01 0, c)
      else (r ++ natBE 96 (Config.deviceSign slot (f / 2 ^ 256) (c.vca ++ c.meas ++ m ++ r)).toNat, { c with meas := [] })
  | k => (spdmError 0x07 k, c)

/-- SPDM_REQUEST: answered on a transport that carries SPDM; another version than the one in force is an error. -/
def execSpdmRequest (xport : Nat) (msg : Bytes) (s : State) : Host.Outcome State Fault Refusal :=
  .next (if s.led.restart.isSome then (if xport ≤ 1 then s else bump 0xC018 0x09 s)
    else if !spdmXport s xport || decide (msg.length < 4) then bump 0xC0F0 0x0E s
    else
      let c := spdmOf s xport
      let want := if leAt msg 1 1 = 0x84 then 0x10 else 0x12
      if leAt msg 0 1 ≠ want then sendSpdm xport (spdmError 0x41 0) s
      else
        let r := spdmAnswer s c (freeNat s) msg
        sendSpdm xport r.1 (setSpdm xport r.2 (drawn s)))

end Sys2Proof.Machine
end

