-- ==== Sys2Proof/Machine/UnitSpace.lean ====
section
/-! DEFINITION. Unit-space loads and stores as they are performed, and the store buffer's drain (R35-R39, R271, R285, R295,
R299). -/

namespace Sys2Proof.Machine

/-! ### Loads (R295) -/

/-- A unit-space load has its data: the thread goes on. -/
def unitLoadDone (t : Nat) (m : MemOp) (v : W64) (s : State) : State :=
  memDone t m.op m.ea (setReg t m.rd (loadValue m.op v.toNat) s)

/-- Perform the load of thread `t`. It passes no earlier store of the thread (R271), waits while the unit's domain is not in
DAY (R38), and faults when the domain sleeps (R39; DEDUCED, log 30). -/
def unitLoadGo (t : Nat) (m : MemOp) (bad : Bool) (s : State) : State :=
  match regionOf (unalias (coreOf t) m.ea) with
  | .unitSpace u off =>
    if !(storesOf s t).isEmpty || unitHeld s u off then s
    else if unitOff s u off then faultAddr t 0x0B m.ea (modThr t (fun x => { x with hold := .none }) s)
    else match unitLoad t u off bad s with
      | .wait s1 => s1
      | .value v s1 => unitLoadDone t m v s1
  | _ => s

/-- UNIT_LOAD_RETURN. `bad`: a reference record that the access reads has an uncorrectable error (R483). -/
def execUnitLoadReturn (t : Fin 776) (bad : Bool) (s : State) : Host.Outcome State Fault Refusal :=
  .next (if !clocked s then s
    else match (thr s t.val).hold with
      | .unit m => unitLoadGo t.val m bad s
      | .unitVal m v => unitLoadDone t.val m v s
      | _ => s)

/-! ### The store buffer (R265, R267-R270, R299) -/

/-- Thread number `i` of core `c`. -/
def threadOn (c i : Nat) : Nat := if c < 96 then 8 * c + i else 768 + i

/-- Invalidate a line of the code store in the instruction caches of its tile, or of steward SRAM in that of core 96
(R270, R303, R639). -/
def icInvalidate (tile line : Nat) (s : State) : State :=
  (List.range 8).foldl (fun s k => modCore (8 * tile + k) (fun x =>
    { x with ic := tset [] x.ic (line % 128) ((tget [] x.ic (line % 128)).filter (· ≠ line)) }) s) s

/-- A store-buffer entry reaches a memory of the device: the requests that already stand at its word are answered first,
as far as the word is full (R268). -/
def drainStore (e : SbEnt) (s0 : State) : State :=
  let a := e.addr
  let s := feServe a s0.cpu.fe.length s0
  match e.kind with
  | 0 => storeMasked a e.mask (e.data.extractLsb' 0 64) s
  | 1 =>
    let s1 := memPutWord a e.data s
    (match regionOf a with
     | .codeStore t => icInvalidate t ((a - (0xE200000000 + t * 0x80000)) / 64) s1
     | .sram => icInvalidate 12 (4096 + (a - 0xE300000000) / 64) s1
     | _ => s1)
  | 2 => tagPut (a / 8) (sttagValue e.lvl (memTag s a) (e.data.extractLsb' 0 8)) s
  | _ =>
    let s1 := memWrite a (natLE 8 (e.data.toNat % 2 ^ 64)) s
    tagPut (a / 8) (tagSetP false (tagSetF true (memTag s a))) s1

/-- First byte and bytes that an entry writes of its word. -/
def entRun (e : SbEnt) : Nat × Bytes :=
  let m := if e.kind = 0 then e.mask.toNat else 0xFF
  let is := (List.range 8).filter (fun i => bit m i)
  (is.headD 0, is.map (fun i => e.data.extractLsb' (8 * i) 8))

/-- Requester number of a core's store buffer among those that wait for a translation. -/
def xsbId (c : Nat) : Nat := 5 + 8 * c

/-- The head entry `e` of core `c` has left the buffer; `k` is what it does at its target. -/
def drainHead (c : Nat) (e : SbEnt) (k : State → State) (s : State) : State :=
  settle (threadOn c e.thr) (k (modCore c (fun x => { x with sb := x.sb.drop 1 }) s))

/-- A head entry that addresses a host window: it is sent, or waits for a translation again; one that its aperture, its
PASID or the translation now refuses is discarded (R296, R535; DESIGN CHOICE, log 72). -/
def drainHost (c : Nat) (e : SbEnt) (s : State) : State :=
  let r := apCheck s true (decide (e.lvl = 0)) e.pasid e.addr
  let w := entRun e
  let p : HPlace := { r.2 with addr := (r.2.addr + w.1) % 2 ^ 64 }
  if r.1 ≠ 0 then drainHead c e id s
  else if (translate s p true).isSome then drainHead c e (fun s => atcTouch p true (hostPut p w.2 s)) s
  else if xsbId c ∈ s.host.denied then
    drainHead c e id (modHost (fun h => { h with denied := h.denied.filter (· ≠ xsbId c) }) s)
  else requestXlate p true (.other (xsbId c)) s

/-- STORE_BUFFER_DRAIN: the head entry of a core's store buffer is accepted by its target. `bad`: a reference record that a
FREEP or ADDREFP reads has an uncorrectable error (DESIGN CHOICE, log 31). -/
def execStoreBufferDrain (core : Fin 97) (bad : Bool) (s : State) : Host.Outcome State Fault Refusal :=
  let c := core.val
  .next (match (coreSt s c).sb with
    | [] => s
    | e :: _ =>
      if !clocked s then s
      else match regionOf e.addr with
        | .unitSpace u off =>
          if unitHeld s u off then s
          else if unitOff s u off then drainHead c e id s
          else drainHead c e (unitStore (threadOn c e.thr) u off (e.data.toNat % 2 ^ 64) bad) s
        | .hostWin => drainHost c e s
        | .rom => drainHead c e id s
        | .hbm => drainHead c e (if hbmRetired s e.addr then id else drainStore e) s
        | _ => drainHead c e (drainStore e) s)

/-! ### A store as its unit sees it (R35-R39) -/

/-- The opcode of a store of `n` bytes. -/
def storeOp (n : Nat) : Nat := if n = 1 then 0x49 else if n = 2 then 0x4A else if n = 4 then 0x4B else 0x4C

/-- UNIT_REGISTER_WRITE: a store of thread `t`, of 2^`size` bytes, to an address of unit space: checked for width, level and
domain, held while the domain is not in DAY, then performed (DESIGN CHOICE, log 32). -/
def execUnitRegisterWrite (t : Fin 776) (addr : BitVec 48) (size : Fin 4) (v : W64) (bad : Bool) (s : State) :
    Host.Outcome State Fault Refusal :=
  let a := addr.toNat
  .next (if !canIssue s t.val clsM [] then s
    else match regionOf a with
      | .unitSpace u off =>
        (match partFault s t.val (storeOp (2 ^ size.val)) a with
         | some f => faultAddr t.val f.2 a s
         | none => if unitHeld s u off || !(storesOf s t.val).isEmpty then s else unitStore t.val u off v.toNat bad s)
      | _ => s)

end Sys2Proof.Machine
end

