-- ==== Sys2Proof/Machine/Dispatch.lean ====
section
/-! DEFINITION. The command table: one arm for each constructor of `Instr`. -/

namespace Sys2Proof.Machine

/-- The effect of a command on everything but the queue. -/
def exec (i : Instr) (s : State) : Host.Outcome State Fault Refusal :=
  match i with
  | .pwrGoodRise bootSel cpos => Sys2Proof.Machine.execPwrGoodRise bootSel cpos s
  | .pwrGoodFall => Sys2Proof.Machine.execPwrGoodFall s
  | .resetNAssert bootSel cpos => Sys2Proof.Machine.execResetNAssert bootSel cpos s
  | .dawnPhaseEnd trained => Sys2Proof.Machine.execDawnPhaseEnd trained s
  | .dawn4Timeout => Sys2Proof.Machine.execDawn4Timeout s
  | .timeReqSend sp => Sys2Proof.Machine.execTimeReqSend sp s
  | .timeReqReceive sp srcEp payload => Sys2Proof.Machine.execTimeReqReceive sp srcEp payload s
  | .timeRespReceive sp payload => Sys2Proof.Machine.execTimeRespReceive sp payload s
  | .exchangeIntervalEnd => Sys2Proof.Machine.execExchangeIntervalEnd s
  | .timeSet h v => Sys2Proof.Machine.execTimeSet h v s
  | .timeinEdge => Sys2Proof.Machine.execTimeinEdge s
  | .timeoutPulseStart => Sys2Proof.Machine.execTimeoutPulseStart s
  | .timeoutPulseEnd => Sys2Proof.Machine.execTimeoutPulseEnd s
  | .ptpMessageReceive sp transport msg => Sys2Proof.Machine.execPtpMessageReceive sp transport msg s
  | .frameReceive sp rx frame => Sys2Proof.Machine.execFrameReceive sp rx frame s
  | .pfcRefresh sp => Sys2Proof.Machine.execPfcRefresh sp s
  | .pfcFrameReceive sp vector timers => Sys2Proof.Machine.execPfcFrameReceive sp vector timers s
  | .pauseExpiry sp prio => Sys2Proof.Machine.execPauseExpiry sp prio s
  | .creditLcfSend sp => Sys2Proof.Machine.execCreditLcfSend sp s
  | .creditLcfReceive sp grants => Sys2Proof.Machine.execCreditLcfReceive sp grants s
  | .egressDequeue sp => Sys2Proof.Machine.execEgressDequeue sp s
  | .llrFrameSend sp => Sys2Proof.Machine.execLlrFrameSend sp s
  | .llrAckReceive sp ack => Sys2Proof.Machine.execLlrAckReceive sp ack s
  | .llrNackReceive sp n => Sys2Proof.Machine.execLlrNackReceive sp n s
  | .llrAckTimeout sp => Sys2Proof.Machine.execLlrAckTimeout sp s
  | .ackLcfSend sp => Sys2Proof.Machine.execAckLcfSend sp s
  | .linkTrainingEnd sp lanes oui caps => Sys2Proof.Machine.execLinkTrainingEnd sp lanes oui caps s
  | .syncReceive sp lseq lost => Sys2Proof.Machine.execSyncReceive sp lseq lost s
  | .llrHoldExpiry sp => Sys2Proof.Machine.execLlrHoldExpiry sp s
  | .laneFailureDeclare port lane lol => Sys2Proof.Machine.execLaneFailureDeclare port lane lol s
  | .shed sp lanes => Sys2Proof.Machine.execShed sp lanes s
  | .receiverLock sp => Sys2Proof.Machine.execReceiverLock sp s
  | .shedAck sp lseq => Sys2Proof.Machine.execShedAck sp lseq s
  | .restoreHoldExpiry port lane => Sys2Proof.Machine.execRestoreHoldExpiry port lane s
  | .restore sp lanes => Sys2Proof.Machine.execRestore sp lanes s
  | .portAdminWrite h port v => Sys2Proof.Machine.execPortAdminWrite h port v s
  | .portModeWrite h port v => Sys2Proof.Machine.execPortModeWrite h port v s
  | .linkLoss sp => Sys2Proof.Machine.execLinkLoss sp s
  | .signalDetectWake rx => Sys2Proof.Machine.execSignalDetectWake rx s
  | .frameEnterPipeline sp head => Sys2Proof.Machine.execFrameEnterPipeline sp head s
  | .parseEnd pl engine => Sys2Proof.Machine.execParseEnd pl engine s
  | .parseBudgetExpiry pl engine => Sys2Proof.Machine.execParseBudgetExpiry pl engine s
  | .classifierSearch pl => Sys2Proof.Machine.execClassifierSearch pl s
  | .meterLengthRelease pl => Sys2Proof.Machine.execMeterLengthRelease pl s
  | .fenceRelease => Sys2Proof.Machine.execFenceRelease s
  | .classifierEntryWrite inst index word v => Sys2Proof.Machine.execClassifierEntryWrite inst index word v s
  | .counterPktsRead master pair => Sys2Proof.Machine.execCounterPktsRead master pair s
  | .counterWrite pair bytes v => Sys2Proof.Machine.execCounterWrite pair bytes v s
  | .stageAdd h => Sys2Proof.Machine.execStageAdd h s
  | .stageKill h => Sys2Proof.Machine.execStageKill h s
  | .programLoad h v => Sys2Proof.Machine.execProgramLoad h v s
  | .meterStage h v => Sys2Proof.Machine.execMeterStage h v s
  | .courseEntryStage h idx sub v => Sys2Proof.Machine.execCourseEntryStage h idx sub v s
  | .commit h v => Sys2Proof.Machine.execCommit h v s
  | .commitTime h v => Sys2Proof.Machine.execCommitTime h v s
  | .abort h v => Sys2Proof.Machine.execAbort h v s
  | .courseCommitFire => Sys2Proof.Machine.execCourseCommitFire s
  | .slotCopyEnd => Sys2Proof.Machine.execSlotCopyEnd s
  | .courseSweepEnd => Sys2Proof.Machine.execCourseSweepEnd s
  | .waitedCommitFire => Sys2Proof.Machine.execWaitedCommitFire s
  | .counterRead h => Sys2Proof.Machine.execCounterRead h s
  | .forwardDecision pl => Sys2Proof.Machine.execForwardDecision pl s
  | .etMissComplete pl bucket => Sys2Proof.Machine.execEtMissComplete pl bucket s
  | .packetLastByteSent sp => Sys2Proof.Machine.execPacketLastByteSent sp s
  | .learnInsert => Sys2Proof.Machine.execLearnInsert s
  | .etInsert h => Sys2Proof.Machine.execEtInsert h s
  | .etDelete h => Sys2Proof.Machine.execEtDelete h s
  | .fwdLookup levelM lt => Sys2Proof.Machine.execFwdLookup levelM lt s
  | .fwdInsert levelM lt => Sys2Proof.Machine.execFwdInsert levelM lt s
  | .fwdDelete levelM lt => Sys2Proof.Machine.execFwdDelete levelM lt s
  | .readWay levelM lt way bucket => Sys2Proof.Machine.execReadWay levelM lt way bucket s
  | .agingSweepStart => Sys2Proof.Machine.execAgingSweepStart s
  | .agingSweepEnd lt => Sys2Proof.Machine.execAgingSweepEnd lt s
  | .lnqPop master => Sys2Proof.Machine.execLnqPop master s
  | .lnqRead h => Sys2Proof.Machine.execLnqRead h s
  | .lpmAdd h => Sys2Proof.Machine.execLpmAdd h s
  | .lpmDelete h => Sys2Proof.Machine.execLpmDelete h s
  | .lpmLenCfg h v => Sys2Proof.Machine.execLpmLenCfg h v s
  | .nhgWrite h v => Sys2Proof.Machine.execNhgWrite h v s
  | .zmtPacketReceive ts => Sys2Proof.Machine.execZmtPacketReceive ts s
  | .put ts => Sys2Proof.Machine.execPut ts s
  | .get ts host => Sys2Proof.Machine.execGet ts host s
  | .getr ts => Sys2Proof.Machine.execGetr ts s
  | .atomic ts host => Sys2Proof.Machine.execAtomic ts host s
  | .atomr ts => Sys2Proof.Machine.execAtomr ts s
  | .send ts host => Sys2Proof.Machine.execSend ts host s
  | .reduce ts host => Sys2Proof.Machine.execReduce ts host s
  | .ack ts => Sys2Proof.Machine.execAck ts s
  | .nack ts => Sys2Proof.Machine.execNack ts s
  | .credit ts => Sys2Proof.Machine.execCredit ts s
  | .mgmt ts => Sys2Proof.Machine.execMgmt ts s
  | .fin ts => Sys2Proof.Machine.execFin ts s
  | .zmtAckSend ep => Sys2Proof.Machine.execZmtAckSend ep s
  | .zmtCreditSend ep => Sys2Proof.Machine.execZmtCreditSend ep s
  | .outboundPacketSend ep host => Sys2Proof.Machine.execOutboundPacketSend ep host s
  | .retransmitTimerExpiry ep psn host => Sys2Proof.Machine.execRetransmitTimerExpiry ep psn host s
  | .ccRateUpdate ep => Sys2Proof.Machine.execCcRateUpdate ep s
  | .counterDeadline ccid => Sys2Proof.Machine.execCounterDeadline ccid s
  | .reduceFallbackBrick msg => Sys2Proof.Machine.execReduceFallbackBrick msg s
  | .matchResolve ts host => Sys2Proof.Machine.execMatchResolve ts host s
  | .tsWrite tbl idx => Sys2Proof.Machine.execTsWrite tbl idx s
  | .tsRead tbl idx => Sys2Proof.Machine.execTsRead tbl idx s
  | .arm tbl idx => Sys2Proof.Machine.execArm tbl idx s
  | .disarm tbl idx => Sys2Proof.Machine.execDisarm tbl idx s
  | .tsAbort tbl idx => Sys2Proof.Machine.execTsAbort tbl idx s
  | .peerStateRead h => Sys2Proof.Machine.execPeerStateRead h s
  | .traceRingRead h => Sys2Proof.Machine.execTraceRingRead h s
  | .add t rd ra rb => Sys2Proof.Machine.execAdd t rd ra rb s
  | .sub t rd ra rb => Sys2Proof.Machine.execSub t rd ra rb s
  | .andR t rd ra rb => Sys2Proof.Machine.execAndR t rd ra rb s
  | .orR t rd ra rb => Sys2Proof.Machine.execOrR t rd ra rb s
  | .xorR t rd ra rb => Sys2Proof.Machine.execXorR t rd ra rb s
  | .andn t rd ra rb => Sys2Proof.Machine.execAndn t rd ra rb s
  | .shl t rd ra rb => Sys2Proof.Machine.execShl t rd ra rb s
  | .shr t rd ra rb => Sys2Proof.Machine.execShr t rd ra rb s
  | .sar t rd ra rb => Sys2Proof.Machine.execSar t rd ra rb s
  | .slt t rd ra rb => Sys2Proof.Machine.execSlt t rd ra rb s
  | .sltu t rd ra rb => Sys2Proof.Machine.execSltu t rd ra rb s
  | .min t rd ra rb => Sys2Proof.Machine.execMin t rd ra rb s
  | .max t rd ra rb => Sys2Proof.Machine.execMax t rd ra rb s
  | .minu t rd ra rb => Sys2Proof.Machine.execMinu t rd ra rb s
  | .maxu t rd ra rb => Sys2Proof.Machine.execMaxu t rd ra rb s
  | .mul t rd ra rb => Sys2Proof.Machine.execMul t rd ra rb s
  | .mulh t rd ra rb => Sys2Proof.Machine.execMulh t rd ra rb s
  | .mulhu t rd ra rb => Sys2Proof.Machine.execMulhu t rd ra rb s
  | .div t rd ra rb => Sys2Proof.Machine.execDiv t rd ra rb s
  | .divu t rd ra rb => Sys2Proof.Machine.execDivu t rd ra rb s
  | .rem t rd ra rb => Sys2Proof.Machine.execRem t rd ra rb s
  | .remu t rd ra rb => Sys2Proof.Machine.execRemu t rd ra rb s
  | .clz t rd ra => Sys2Proof.Machine.execClz t rd ra s
  | .ctz t rd ra => Sys2Proof.Machine.execCtz t rd ra s
  | .popc t rd ra => Sys2Proof.Machine.execPopc t rd ra s
  | .bswap t rd ra => Sys2Proof.Machine.execBswap t rd ra s
  | .ext t rd ra pos len => Sys2Proof.Machine.execExt t rd ra pos len s
  | .ins t rd ra pos len => Sys2Proof.Machine.execIns t rd ra pos len s
  | .sext t rd ra pos => Sys2Proof.Machine.execSext t rd ra pos s
  | .addi t rd ra imm => Sys2Proof.Machine.execAddi t rd ra imm s
  | .andi t rd ra imm => Sys2Proof.Machine.execAndi t rd ra imm s
  | .ori t rd ra imm => Sys2Proof.Machine.execOri t rd ra imm s
  | .xori t rd ra imm => Sys2Proof.Machine.execXori t rd ra imm s
  | .shli t rd ra sh => Sys2Proof.Machine.execShli t rd ra sh s
  | .shri t rd ra sh => Sys2Proof.Machine.execShri t rd ra sh s
  | .sari t rd ra sh => Sys2Proof.Machine.execSari t rd ra sh s
  | .slti t rd ra imm => Sys2Proof.Machine.execSlti t rd ra imm s
  | .sltiu t rd ra imm => Sys2Proof.Machine.execSltiu t rd ra imm s
  | .lui t rd imm => Sys2Proof.Machine.execLui t rd imm s
  | .beq t ra rb ofs => Sys2Proof.Machine.execBeq t ra rb ofs s
  | .bne t ra rb ofs => Sys2Proof.Machine.execBne t ra rb ofs s
  | .blt t ra rb ofs => Sys2Proof.Machine.execBlt t ra rb ofs s
  | .bge t ra rb ofs => Sys2Proof.Machine.execBge t ra rb ofs s
  | .bltu t ra rb ofs => Sys2Proof.Machine.execBltu t ra rb ofs s
  | .bgeu t ra rb ofs => Sys2Proof.Machine.execBgeu t ra rb ofs s
  | .beqi t ra imm ofs => Sys2Proof.Machine.execBeqi t ra imm ofs s
  | .bnei t ra imm ofs => Sys2Proof.Machine.execBnei t ra imm ofs s
  | .blti t ra imm ofs => Sys2Proof.Machine.execBlti t ra imm ofs s
  | .bgei t ra imm ofs => Sys2Proof.Machine.execBgei t ra imm ofs s
  | .jal t rd ofs => Sys2Proof.Machine.execJal t rd ofs s
  | .jalr t rd ra imm => Sys2Proof.Machine.execJalr t rd ra imm s
  | .ld8 t rd ra disp => Sys2Proof.Machine.execLd8 t rd ra disp s
  | .ld8u t rd ra disp => Sys2Proof.Machine.execLd8u t rd ra disp s
  | .ld16 t rd ra disp => Sys2Proof.Machine.execLd16 t rd ra disp s
  | .ld16u t rd ra disp => Sys2Proof.Machine.execLd16u t rd ra disp s
  | .ld32 t rd ra disp => Sys2Proof.Machine.execLd32 t rd ra disp s
  | .ld32u t rd ra disp => Sys2Proof.Machine.execLd32u t rd ra disp s
  | .ld64 t rd ra src => Sys2Proof.Machine.execLd64 t rd ra src s
  | .ld64u t rd ra disp => Sys2Proof.Machine.execLd64u t rd ra disp s
  | .ldw t rd ra disp => Sys2Proof.Machine.execLdw t rd ra disp s
  | .st8 t rs ra disp => Sys2Proof.Machine.execSt8 t rs ra disp s
  | .st16 t rs ra disp => Sys2Proof.Machine.execSt16 t rs ra disp s
  | .st32 t rs ra disp => Sys2Proof.Machine.execSt32 t rs ra disp s
  | .st64 t rs ra disp => Sys2Proof.Machine.execSt64 t rs ra disp s
  | .stw t rs ra disp => Sys2Proof.Machine.execStw t rs ra disp s
  | .ldtag t rd ra disp => Sys2Proof.Machine.execLdtag t rd ra disp s
  | .sttag t rs ra disp => Sys2Proof.Machine.execSttag t rs ra disp s
  | .ldf t rd ra disp => Sys2Proof.Machine.execLdf t rd ra disp s
  | .ldfe t rd ra disp => Sys2Proof.Machine.execLdfe t rd ra disp s
  | .stf t rs ra disp => Sys2Proof.Machine.execStf t rs ra disp s
  | .fence t => Sys2Proof.Machine.execFence t s
  | .srget t rd sn => Sys2Proof.Machine.execSrget t rd sn s
  | .srset t ra sn => Sys2Proof.Machine.execSrset t ra sn s
  | .srswap t rd ra sn => Sys2Proof.Machine.execSrswap t rd ra sn s
  | .sradd t rd ra sn => Sys2Proof.Machine.execSradd t rd ra sn s
  | .srfor t rd ra sn => Sys2Proof.Machine.execSrfor t rd ra sn s
  | .sig t ra => Sys2Proof.Machine.execSig t ra s
  | .rget t rd ra => Sys2Proof.Machine.execRget t rd ra s
  | .rset t ra rb => Sys2Proof.Machine.execRset t ra rb s
  | .getsr t rd idx => Sys2Proof.Machine.execGetsr t rd idx s
  | .setsr t ra idx => Sys2Proof.Machine.execSetsr t ra idx s
  | .chput t ra => Sys2Proof.Machine.execChput t ra s
  | .chseal t ra => Sys2Proof.Machine.execChseal t ra s
  | .chget t rd => Sys2Proof.Machine.execChget t rd s
  | .wfe t rd => Sys2Proof.Machine.execWfe t rd s
  | .wait t rd => Sys2Proof.Machine.execWait t rd s
  | .park t => Sys2Proof.Machine.execPark t s
  | .endb t ra => Sys2Proof.Machine.execEndb t ra s
  | .eret t => Sys2Proof.Machine.execEret t s
  | .sysc t imm => Sys2Proof.Machine.execSysc t imm s
  | .cptest t rd u => Sys2Proof.Machine.execCptest t rd u s
  | .ill t ones low => Sys2Proof.Machine.execIll t ones low s
  | .reservedOp t word => Sys2Proof.Machine.execReservedOp t word s
  | .crc32c t rd ra rb nb busy => Sys2Proof.Machine.execCrc32c t rd ra rb nb busy s
  | .crc64 t rd ra rb nb busy => Sys2Proof.Machine.execCrc64 t rd ra rb nb busy s
  | .tpz t rd ra rb k nb busy => Sys2Proof.Machine.execTpz t rd ra rb k nb busy s
  | .enc t rd ra rb len busy => Sys2Proof.Machine.execEnc t rd ra rb len busy s
  | .dec t rd ra rb len busy => Sys2Proof.Machine.execDec t rd ra rb len busy s
  | .aad t rd ra rb len busy => Sys2Proof.Machine.execAad t rd ra rb len busy s
  | .gcmTag t rd ra rb busy => Sys2Proof.Machine.execGcmTag t rd ra rb busy s
  | .xsumClr t rd ra slot busy => Sys2Proof.Machine.execXsumClr t rd ra slot busy s
  | .xsumAdd t rd ra slot typ busy => Sys2Proof.Machine.execXsumAdd t rd ra slot typ busy s
  | .xsumAddv t rd ra rb slot typ busy => Sys2Proof.Machine.execXsumAddv t rd ra rb slot typ busy s
  | .xsumMerge t rd ra slot image busy => Sys2Proof.Machine.execXsumMerge t rd ra slot image busy s
  | .xsumRnd t rd ra slot busy => Sys2Proof.Machine.execXsumRnd t rd ra slot busy s
  | .xsumRnd2 t rd ra rb slot busy => Sys2Proof.Machine.execXsumRnd2 t rd ra rb slot busy s
  | .xsumSave t rd ra slot busy => Sys2Proof.Machine.execXsumSave t rd ra slot busy s
  | .xsumRest t rd ra slot busy => Sys2Proof.Machine.execXsumRest t rd ra slot busy s
  | .xsumCxa t rd ra slot busy => Sys2Proof.Machine.execXsumCxa t rd ra slot busy s
  | .xsumFlags t rd ra slot busy => Sys2Proof.Machine.execXsumFlags t rd ra slot busy s
  | .cpCommit t ok => Sys2Proof.Machine.execCpCommit t ok s
  | .depositChunk tile => Sys2Proof.Machine.execDepositChunk tile s
  | .eventEntry t => Sys2Proof.Machine.execEventEntry t s
  | .postedLoadReturn t rd data err => Sys2Proof.Machine.execPostedLoadReturn t rd data err s
  | .unitLoadReturn t bad => Sys2Proof.Machine.execUnitLoadReturn t bad s
  | .fullEmptyAnswer t => Sys2Proof.Machine.execFullEmptyAnswer t s
  | .storeBufferDrain core bad => Sys2Proof.Machine.execStoreBufferDrain core bad s
  | .loadReplay t => Sys2Proof.Machine.execLoadReplay t s
  | .icacheFill core line => Sys2Proof.Machine.execIcacheFill core line s
  | .waitWake t => Sys2Proof.Machine.execWaitWake t s
  | .threadDeadline t => Sys2Proof.Machine.execThreadDeadline t s
  | .tecCompletion tile src => Sys2Proof.Machine.execTecCompletion tile src s
  | .tecComplete tile v => Sys2Proof.Machine.execTecComplete tile v s
  | .tecActset tile v => Sys2Proof.Machine.execTecActset tile v s
  | .tecActclr tile v => Sys2Proof.Machine.execTecActclr tile v s
  | .tecAck tile v => Sys2Proof.Machine.execTecAck tile v s
  | .tecPendClear tile g v => Sys2Proof.Machine.execTecPendClear tile g v s
  | .tecCtrlWrite tile v => Sys2Proof.Machine.execTecCtrlWrite tile v s
  | .tecSwinWrite tile v => Sys2Proof.Machine.execTecSwinWrite tile v s
  | .tecStrayRead tile => Sys2Proof.Machine.execTecStrayRead tile s
  | .tecGroupTimer tile g => Sys2Proof.Machine.execTecGroupTimer tile g s
  | .stallDetect core => Sys2Proof.Machine.execStallDetect core s
  | .postImmediate area => Sys2Proof.Machine.execPostImmediate area s
  | .postDelayed area list => Sys2Proof.Machine.execPostDelayed area list s
  | .spillRefill => Sys2Proof.Machine.execSpillRefill s
  | .dispatch => Sys2Proof.Machine.execDispatch s
  | .delayListRelease => Sys2Proof.Machine.execDelayListRelease s
  | .budgetFault t => Sys2Proof.Machine.execBudgetFault t s
  | .budgetReset t => Sys2Proof.Machine.execBudgetReset t s
  | .tileDrain h v => Sys2Proof.Machine.execTileDrain h v s
  | .drainTimeout tile => Sys2Proof.Machine.execDrainTimeout tile s
  | .acquireTry lock master prio => Sys2Proof.Machine.execAcquireTry lock master prio s
  | .acquireQueue lock master req => Sys2Proof.Machine.execAcquireQueue lock master req s
  | .release lock master => Sys2Proof.Machine.execRelease lock master s
  | .lockQuery lock master => Sys2Proof.Machine.execLockQuery lock master s
  | .leaseExpiry lock => Sys2Proof.Machine.execLeaseExpiry lock s
  | .breakLock h v => Sys2Proof.Machine.execBreakLock h v s
  | .lockGroupConfig h g v => Sys2Proof.Machine.execLockGroupConfig h g v s
  | .lockStateRead h => Sys2Proof.Machine.execLockStateRead h s
  | .matchSearch area v => Sys2Proof.Machine.execMatchSearch area v s
  | .matchInsert area v => Sys2Proof.Machine.execMatchInsert area v s
  | .matchDelete area v => Sys2Proof.Machine.execMatchDelete area v s
  | .matchStep area v => Sys2Proof.Machine.execMatchStep area v s
  | .hfree area v => Sys2Proof.Machine.execHfree area v s
  | .post area v => Sys2Proof.Machine.execPost area v s
  | .arrive => Sys2Proof.Machine.execArrive s
  | .matchRead area v => Sys2Proof.Machine.execMatchRead area v s
  | .heldArriveIssue ts peer => Sys2Proof.Machine.execHeldArriveIssue ts peer s
  | .mseqHoldTimeout ts peer => Sys2Proof.Machine.execMseqHoldTimeout ts peer s
  | .renumber h v => Sys2Proof.Machine.execRenumber h v s
  | .renumberEnd others => Sys2Proof.Machine.execRenumberEnd others s
  | .cascadeTraining members => Sys2Proof.Machine.execCascadeTraining members s
  | .cascadeRound => Sys2Proof.Machine.execCascadeRound s
  | .cascadeFrameReceive pos round recs results crcOk => Sys2Proof.Machine.execCascadeFrameReceive pos round recs results crcOk s
  | .cascadeMemberTimeout pos => Sys2Proof.Machine.execCascadeMemberTimeout pos s
  | .blockClassWrite h v => Sys2Proof.Machine.execBlockClassWrite h v s
  | .matchEntryRead h => Sys2Proof.Machine.execMatchEntryRead h s
  | .alloc req master pool ocls oitem => Sys2Proof.Machine.execAlloc req master pool ocls oitem s
  | .addref req master r bad => Sys2Proof.Machine.execAddref req master r bad s
  | .free req master r bad => Sys2Proof.Machine.execFree req master r bad s
  | .bufferQuery req master r bad => Sys2Proof.Machine.execBufferQuery req master r bad s
  | .freep req master r bad => Sys2Proof.Machine.execFreep req master r bad s
  | .addrefp req master r bad => Sys2Proof.Machine.execAddrefp req master r bad s
  | .fifoRefill pool bad => Sys2Proof.Machine.execFifoRefill pool bad s
  | .poolConfigWrite h pool v => Sys2Proof.Machine.execPoolConfigWrite h pool v s
  | .poolStateWrite h pool v => Sys2Proof.Machine.execPoolStateWrite h pool v s
  | .poolDrainTimeout pool => Sys2Proof.Machine.execPoolDrainTimeout pool s
  | .poisonLogRead h => Sys2Proof.Machine.execPoisonLogRead h s
  | .hbmRequestAccept tag block write mask data tsel tags prio => Sys2Proof.Machine.execHbmRequestAccept tag block write mask data tsel tags prio s
  | .hbmCommandIssue pc => Sys2Proof.Machine.execHbmCommandIssue pc s
  | .hbmReadReturn pc sev0 sev1 sevTag => Sys2Proof.Machine.execHbmReadReturn pc sev0 sev1 sevTag s
  | .watchRetry t => Sys2Proof.Machine.execWatchRetry t s
  | .idleClose pc bank => Sys2Proof.Machine.execIdleClose pc bank s
  | .refreshDue pc => Sys2Proof.Machine.execRefreshDue pc s
  | .hbmTemperatureRead stack temp => Sys2Proof.Machine.execHbmTemperatureRead stack temp s
  | .powerDownEntry pc => Sys2Proof.Machine.execPowerDownEntry pc s
  | .parityAlert pc late => Sys2Proof.Machine.execParityAlert pc late s
  | .retirePc h v => Sys2Proof.Machine.execRetirePc h v s
  | .laneRepair h v => Sys2Proof.Machine.execLaneRepair h v s
  | .retireStack h v => Sys2Proof.Machine.execRetireStack h v s
  | .doorbellTail func q tail => Sys2Proof.Machine.execDoorbellTail func q tail s
  | .doorbellInline func q whole entry => Sys2Proof.Machine.execDoorbellInline func q whole entry s
  | .cmdFetch port data err => Sys2Proof.Machine.execCmdFetch port data err s
  | .nop q => Sys2Proof.Machine.execNop q s
  | .dma q => Sys2Proof.Machine.execDma q s
  | .msgPut q => Sys2Proof.Machine.execMsgPut q s
  | .msgGet q => Sys2Proof.Machine.execMsgGet q s
  | .msgAtomic q => Sys2Proof.Machine.execMsgAtomic q s
  | .msgSend q => Sys2Proof.Machine.execMsgSend q s
  | .msgReduce q => Sys2Proof.Machine.execMsgReduce q s
  | .matchOp q => Sys2Proof.Machine.execMatchOp q s
  | .brick q => Sys2Proof.Machine.execBrick q s
  | .counterArm q => Sys2Proof.Machine.execCounterArm q s
  | .counterDisarm q => Sys2Proof.Machine.execCounterDisarm q s
  | .window q => Sys2Proof.Machine.execWindow q s
  | .createCmq q => Sys2Proof.Machine.execCreateCmq q s
  | .deleteCmq q => Sys2Proof.Machine.execDeleteCmq q s
  | .createCpq q => Sys2Proof.Machine.execCreateCpq q s
  | .deleteCpq q => Sys2Proof.Machine.execDeleteCpq q s
  | .pasidReg q => Sys2Proof.Machine.execPasidReg q s
  | .pasidUnreg q => Sys2Proof.Machine.execPasidUnreg q s
  | .aperture q => Sys2Proof.Machine.execAperture q s
  | .adminQueueEnable func reg v => Sys2Proof.Machine.execAdminQueueEnable func reg v s
  | .completionWrite j => Sys2Proof.Machine.execCompletionWrite j s
  | .cqHeadWrite func j head => Sys2Proof.Machine.execCqHeadWrite func j head s
  | .coalesceTimer => Sys2Proof.Machine.execCoalesceTimer s
  | .cxlSnoop q tail => Sys2Proof.Machine.execCxlSnoop q tail s
  | .atsCompletion func pasid addr wr phys log2 rd wt => Sys2Proof.Machine.execAtsCompletion func pasid addr wr phys log2 rd wt s
  | .prgResponse func pasid addr wr ok => Sys2Proof.Machine.execPrgResponse func pasid addr wr ok s
  | .prgTimeout func pasid addr wr => Sys2Proof.Machine.execPrgTimeout func pasid addr wr s
  | .atsInvalidate func pasid addr log2 => Sys2Proof.Machine.execAtsInvalidate func pasid addr log2 s
  | .dmaPost area => Sys2Proof.Machine.execDmaPost area s
  | .dmaContextTake => Sys2Proof.Machine.execDmaContextTake s
  | .dmaItemEnd item host err => Sys2Proof.Machine.execDmaItemEnd item host err s
  | .flr func => Sys2Proof.Machine.execFlr func s
  | .hostLinkReset port half => Sys2Proof.Machine.execHostLinkReset port half s
  | .hostLaneFail port half width => Sys2Proof.Machine.execHostLaneFail port half width s
  | .dictOpen h body => Sys2Proof.Machine.execDictOpen h body s
  | .dictProve h proof => Sys2Proof.Machine.execDictProve h proof s
  | .dictRead h idx sub => Sys2Proof.Machine.execDictRead h idx sub s
  | .dictWrite h idx sub v => Sys2Proof.Machine.execDictWrite h idx sub v s
  | .timedWrite h idx sub atime v => Sys2Proof.Machine.execTimedWrite h idx sub atime v s
  | .readGroup h atime entries => Sys2Proof.Machine.execReadGroup h atime entries s
  | .dictClose h => Sys2Proof.Machine.execDictClose h s
  | .claim h serial number key pub sig => Sys2Proof.Machine.execClaim h serial number key pub sig s
  | .timedWriteFire => Sys2Proof.Machine.execTimedWriteFire s
  | .readGroupCapture => Sys2Proof.Machine.execReadGroupCapture s
  | .timedCancel h v => Sys2Proof.Machine.execTimedCancel h v s
  | .challengeTimeout sid => Sys2Proof.Machine.execChallengeTimeout sid s
  | .idleSessionTimeout sid => Sys2Proof.Machine.execIdleSessionTimeout sid s
  | .closeSession h v => Sys2Proof.Machine.execCloseSession h v s
  | .operatorKey h slot v => Sys2Proof.Machine.execOperatorKey h slot v s
  | .installerKey h v => Sys2Proof.Machine.execInstallerKey h v s
  | .unclaim h v => Sys2Proof.Machine.execUnclaim h v s
  | .configErase h v => Sys2Proof.Machine.execConfigErase h v s
  | .journalRead h => Sys2Proof.Machine.execJournalRead h s
  | .journalMirror => Sys2Proof.Machine.execJournalMirror s
  | .spdmRequest xport msg => Sys2Proof.Machine.execSpdmRequest xport msg s
  | .mctpControl xport msg => Sys2Proof.Machine.execMctpControl xport msg s
  | .domainTargetWrite h dom v => Sys2Proof.Machine.execDomainTargetWrite h dom v s
  | .wakeGroup h v => Sys2Proof.Machine.execWakeGroup h v s
  | .deviceModeWrite h v => Sys2Proof.Machine.execDeviceModeWrite h v s
  | .wakeAlarm h v => Sys2Proof.Machine.execWakeAlarm h v s
  | .wakeAlarmFire => Sys2Proof.Machine.execWakeAlarmFire s
  | .mgmtWakeByte addr first => Sys2Proof.Machine.execMgmtWakeByte addr first s
  | .pairWake t => Sys2Proof.Machine.execPairWake t s
  | .duskIdleEntry dom => Sys2Proof.Machine.execDuskIdleEntry dom s
  | .duskUngate dom => Sys2Proof.Machine.execDuskUngate dom s
  | .softStartBegin => Sys2Proof.Machine.execSoftStartBegin s
  | .softStartEnd dom => Sys2Proof.Machine.execSoftStartEnd dom s
  | .restoreEnd dom => Sys2Proof.Machine.execRestoreEnd dom s
  | .governorWindow => Sys2Proof.Machine.execGovernorWindow s
  | .domainLeaveEnd dom => Sys2Proof.Machine.execDomainLeaveEnd dom s
  | .lstepDeassert => Sys2Proof.Machine.execLstepDeassert s
  | .ledgerCheck => Sys2Proof.Machine.execLedgerCheck s
  | .ledgerAlertClear h => Sys2Proof.Machine.execLedgerAlertClear h s
  | .failureLogRead h => Sys2Proof.Machine.execFailureLogRead h s
  | .coreFault core => Sys2Proof.Machine.execCoreFault core s
  | .tecChannelFault tile => Sys2Proof.Machine.execTecChannelFault tile s
  | .selfTestEnd core pass => Sys2Proof.Machine.execSelfTestEnd core pass s
  | .coreReadmit h v => Sys2Proof.Machine.execCoreReadmit h v s
  | .stewardMismatch => Sys2Proof.Machine.execStewardMismatch s
  | .warmRestartEnd => Sys2Proof.Machine.execWarmRestartEnd s
  | .stallReset core => Sys2Proof.Machine.execStallReset core s
  | .imageLoad h v => Sys2Proof.Machine.execImageLoad h v s
  | .imageChunk h v => Sys2Proof.Machine.execImageChunk h v s
  | .swap h v => Sys2Proof.Machine.execSwap h v s
  | .swapTime h v => Sys2Proof.Machine.execSwapTime h v s
  | .swapFire => Sys2Proof.Machine.execSwapFire s
  | .rollback h v => Sys2Proof.Machine.execRollback h v s
  | .deviceReset h v => Sys2Proof.Machine.execDeviceReset h v s
  | .dbgNonce => Sys2Proof.Machine.execDbgNonce s
  | .dbgUnlock proof => Sys2Proof.Machine.execDbgUnlock proof s
  | .halt via tile core th => Sys2Proof.Machine.execHalt via tile core th s
  | .haltEffect t => Sys2Proof.Machine.execHaltEffect t s
  | .resume via tile core th => Sys2Proof.Machine.execResume via tile core th s
  | .step via tile core th n => Sys2Proof.Machine.execStep via tile core th n s
  | .readRegs via tile core th => Sys2Proof.Machine.execReadRegs via tile core th s
  | .writeReg via tile core th reg v => Sys2Proof.Machine.execWriteReg via tile core th reg v s
  | .readMem via tile core th addr len => Sys2Proof.Machine.execReadMem via tile core th addr len s
  | .writeMem via tile core th addr data tags => Sys2Proof.Machine.execWriteMem via tile core th addr data tags s
  | .setBp via tile core th slot index mask en => Sys2Proof.Machine.execSetBp via tile core th slot index mask en s
  | .setWp via tile core th slot base mask rd wr thr en => Sys2Proof.Machine.execSetWp via tile core th slot base mask rd wr thr en s
  | .chanAbort via tile core th chan => Sys2Proof.Machine.execChanAbort via tile core th chan s
  | .trace via tile core th masks stop first last => Sys2Proof.Machine.execTrace via tile core th masks stop first last s
  | .traceRead via tile core th first => Sys2Proof.Machine.execTraceRead via tile core th first s
  | .breakpointHit t => Sys2Proof.Machine.execBreakpointHit t s
  | .watchpointHit t => Sys2Proof.Machine.execWatchpointHit t s
  | .freezeNEdge => Sys2Proof.Machine.execFreezeNEdge s
  | .freeze h v => Sys2Proof.Machine.execFreeze h v s
  | .freezeTime h v => Sys2Proof.Machine.execFreezeTime h v s
  | .freezeFire => Sys2Proof.Machine.execFreezeFire s
  | .freezeStop => Sys2Proof.Machine.execFreezeStop s
  | .dumpStart via => Sys2Proof.Machine.execDumpStart via s
  | .dumpEnd => Sys2Proof.Machine.execDumpEnd s
  | .thaw h v => Sys2Proof.Machine.execThaw h v s
  | .thawTime h v => Sys2Proof.Machine.execThawTime h v s
  | .thawFire => Sys2Proof.Machine.execThawFire s
  | .thawRelease => Sys2Proof.Machine.execThawRelease s
  | .unitRegisterWrite t addr size v bad => Sys2Proof.Machine.execUnitRegisterWrite t addr size v bad s
  | .ptpMessageInterval sp => Sys2Proof.Machine.execPtpMessageInterval sp s
  | .memberRejoin pos round oseq base rgen => Sys2Proof.Machine.execMemberRejoin pos round oseq base rgen s
  | .msixUnmask func vec mask => Sys2Proof.Machine.execMsixUnmask func vec mask s
  | .configurationRequest func req => Sys2Proof.Machine.execConfigurationRequest func req s
  | .perstNDeassert port => Sys2Proof.Machine.execPerstNDeassert port s
  | .hostLinkTrainingEnd port half width rate cxl => Sys2Proof.Machine.execHostLinkTrainingEnd port half width rate cxl s
  | .imageLoadEnd err => Sys2Proof.Machine.execImageLoadEnd err s
  | .metadataMoveComplete => Sys2Proof.Machine.execMetadataMoveComplete s

end Sys2Proof.Machine
end

