-- ==== Sys2Proof/Machine/Words.lean ====
section
/-! DEFINITION. The decoder of a 36-bit Ikievo-72 word into the command that runs it (R253-R258, Tables 7-4, 7-5 and 7-7,
Tables 13-2 to 13-5). -/

namespace Sys2Proof.Machine

/-- Bits `pos + 4` to `pos` of a word: a register number or a field of that width. -/
def field5 (n pos : Nat) : Fin 32 := Fin.ofNat 32 (bf n pos 5)

/-- Format C with opcode 70h: the function FN of a unit (Tables 13-2, 13-3, 13-5). `busy` is what the sender says of the
unit's cycles (DESIGN CHOICE, log 26). -/
def decodeCpx (t : Fin 776) (busy : Bool) (w : BitVec 36) : Instr :=
  let n := w.toNat
  let rd := field5 n 23
  let ra := field5 n 18
  let rb := field5 n 13
  let fn := bf n 0 10
  let nb := Fin.ofNat 8 fn
  let len := Fin.ofNat 64 fn
  let slot := Fin.ofNat 16 (fn / 4)
  let typ := Fin.ofNat 3 (fn % 4)
  match bf n 10 3, fn / 64 with
  | 0, 0 => .crc32c t rd ra rb nb busy
  | 0, 1 => .crc64 t rd ra rb nb busy
  | 0, 2 => .tpz t rd ra rb (Fin.ofNat 4 (fn / 16)) nb busy
  | 1, 0 => .enc t rd ra rb len busy
  | 1, 2 => .dec t rd ra rb len busy
  | 1, 4 => .aad t rd ra rb len busy
  | 1, 6 => .gcmTag t rd ra rb busy
  | 2, 0 => .xsumClr t rd ra slot busy
  | 2, 1 => .xsumAdd t rd ra slot typ busy
  | 2, 2 => .xsumAddv t rd ra rb slot typ busy
  | 2, 3 => .xsumMerge t rd ra slot (bit fn 0) busy
  | 2, 4 => .xsumRnd t rd ra slot busy
  | 2, 5 => .xsumRnd2 t rd ra rb slot busy
  | 2, 6 => .xsumSave t rd ra slot busy
  | 2, 7 => .xsumRest t rd ra slot busy
  | 2, 8 => .xsumCxa t rd ra slot busy
  | 2, 9 => .xsumFlags t rd ra slot busy
  | _, _ => .reservedOp t w

/-- The instruction that thread `t` finds in a word: 00h and FFh are ILL, a reserved word is RESERVED_OP (R255-R258). In
formats B and BI the first field is RA. -/
def decodeIns (t : Fin 776) (busy : Bool) (w : BitVec 36) : Instr :=
  let n := w.toNat
  let op := bf n 28 8
  let rd := field5 n 23
  let ra := field5 n 18
  let rb := field5 n 13
  let imm : BitVec 18 := w.truncate 18
  let imm5 : BitVec 5 := w.extractLsb' 18 5
  let ofs23 : BitVec 23 := w.truncate 23
  let pos := Fin.ofNat 128 (bf n 11 7)
  let len := Fin.ofNat 128 (bf n 4 7)
  let sh := Fin.ofNat 128 n
  let sn := Fin.ofNat 16 (bf n 14 4)
  let idx := Fin.ofNat 256 n
  if reservedWord w then .reservedOp t w
  else
    match op with
    | 0x00 => .ill t false (w.truncate 28)
    | 0xFF => .ill t true (w.truncate 28)
    | 0x01 => .add t rd ra rb
    | 0x02 => .sub t rd ra rb
    | 0x03 => .andR t rd ra rb
    | 0x04 => .orR t rd ra rb
    | 0x05 => .xorR t rd ra rb
    | 0x06 => .andn t rd ra rb
    | 0x07 => .shl t rd ra rb
    | 0x08 => .shr t rd ra rb
    | 0x09 => .sar t rd ra rb
    | 0x0A => .slt t rd ra rb
    | 0x0B => .sltu t rd ra rb
    | 0x0C => .min t rd ra rb
    | 0x0D => .max t rd ra rb
    | 0x0E => .minu t rd ra rb
    | 0x0F => .maxu t rd ra rb
    | 0x10 => .mul t rd ra rb
    | 0x11 => .mulh t rd ra rb
    | 0x12 => .mulhu t rd ra rb
    | 0x13 => .div t rd ra rb
    | 0x14 => .divu t rd ra rb
    | 0x15 => .rem t rd ra rb
    | 0x16 => .remu t rd ra rb
    | 0x18 => .clz t rd ra
    | 0x19 => .ctz t rd ra
    | 0x1A => .popc t rd ra
    | 0x1B => .bswap t rd ra
    | 0x1C => .ext t rd ra pos len
    | 0x1D => .ins t rd ra pos len
    | 0x1E => .sext t rd ra pos
    | 0x20 => .addi t rd ra imm
    | 0x21 => .andi t rd ra imm
    | 0x22 => .ori t rd ra imm
    | 0x23 => .xori t rd ra imm
    | 0x24 => .shli t rd ra sh
    | 0x25 => .shri t rd ra sh
    | 0x26 => .sari t rd ra sh
    | 0x27 => .slti t rd ra imm
    | 0x28 => .sltiu t rd ra imm
    | 0x29 => .lui t rd ofs23
    | 0x30 => .beq t rd ra imm
    | 0x31 => .bne t rd ra imm
    | 0x32 => .blt t rd ra imm
    | 0x33 => .bge t rd ra imm
    | 0x34 => .bltu t rd ra imm
    | 0x35 => .bgeu t rd ra imm
    | 0x36 => .beqi t rd imm5 imm
    | 0x37 => .bnei t rd imm5 imm
    | 0x38 => .blti t rd imm5 imm
    | 0x39 => .bgei t rd imm5 imm
    | 0x3A => .jal t rd ofs23
    | 0x3B => .jalr t rd ra imm
    | 0x40 => .ld8 t rd ra imm
    | 0x41 => .ld8u t rd ra imm
    | 0x42 => .ld16 t rd ra imm
    | 0x43 => .ld16u t rd ra imm
    | 0x44 => .ld32 t rd ra imm
    | 0x45 => .ld32u t rd ra imm
    | 0x46 => .ld64 t rd ra ⟨imm, 0⟩
    | 0x47 => .ld64u t rd ra imm
    | 0x48 => .ldw t rd ra imm
    | 0x49 => .st8 t rd ra imm
    | 0x4A => .st16 t rd ra imm
    | 0x4B => .st32 t rd ra imm
    | 0x4C => .st64 t rd ra imm
    | 0x4D => .stw t rd ra imm
    | 0x4E => .ldtag t rd ra imm
    | 0x4F => .sttag t rd ra imm
    | 0x50 => .ldf t rd ra imm
    | 0x51 => .ldfe t rd ra imm
    | 0x52 => .stf t rd ra imm
    | 0x58 => .fence t
    | 0x60 => .srget t rd sn
    | 0x61 => .srset t ra sn
    | 0x62 => .srswap t rd ra sn
    | 0x63 => .sradd t rd ra sn
    | 0x64 => .srfor t rd ra sn
    | 0x65 => .sig t ra
    | 0x66 => .rget t rd ra
    | 0x67 => .rset t ra rb
    | 0x68 => .getsr t rd idx
    | 0x69 => .setsr t ra idx
    | 0x6A => .wfe t rd
    | 0x6B => .wait t rd
    | 0x6C => .park t
    | 0x6D => .endb t ra
    | 0x6E => .eret t
    | 0x6F => .sysc t imm
    | 0x70 => decodeCpx t busy w
    | 0x71 => .cptest t rd (Fin.ofNat 3 (bf n 10 3))
    | _ => .reservedOp t w

/-- The instruction at index `pc` of a code-store word pair: slot 0 in bits 35:0, slot 1 in bits 71:36 (R253). -/
def codeSlot (pair : W72) (pc : BitVec 17) : BitVec 36 := pair.extractLsb' (if pc.getLsbD 0 then 36 else 0) 36

/-- The instruction word at a thread's pc, in the code store of its tile, or in steward ROM and SRAM (R253, R639). -/
def fetchWord (s : State) (t : Nat) : BitVec 36 :=
  let pc := (thr s t).pc
  let o := pc.toNat / 2 * 8
  let a := if t < 768 then 0xE200000000 + tileOf t * 0x80000 + o
    else if o < 0x40000 then 0xE300100000 + o else 0xE300000000 + (o - 0x40000)
  codeSlot (memWord s a) pc

end Sys2Proof.Machine
end

