-- ==== Sys2Proof/Safety.lean ====
section
/-! DEFINITION. What counts as a safe step, in the terms the statements use. -/

namespace Sys2Proof.Machine

/-- The step completes: neither a fault nor a refusal. -/
def completes (o : Host.Outcome State Fault Refusal) : Prop := ∃ t, o = .next t


/-- What every state of the machine has: memory in its canonical form, every ledger row balanced (R613), and at most 15
claim number fuses burnt (R562). -/
structure Inv (s : State) : Prop where
  mem : s.mem.wf = true
  ledger : ∀ r, (ledRow s r).balanced = true
  fuses : s.dict.claimFuses.toNat ≤ 15

/-- What a command keeps between the state `k` it starts from and the state `s` it reaches: the invariant holds, the queue
is untouched, what was sent stays sent, no free value is drawn twice, and no burnt fuse is undone. -/
structure Kept (k s : State) : Prop where
  inv : Inv s
  pending : s.pending = k.pending
  out : k.out <+: s.out
  free : k.free ≤ s.free
  fuses : k.dict.claimFuses.toNat ≤ s.dict.claimFuses.toNat

/-- An outcome keeps it when the next state, if there is one, does. -/
def KeptO (k : State) : Host.Outcome State Fault Refusal → Prop
  | .next t => Kept k t
  | .fault _ => True
  | .refused _ => True

end Sys2Proof.Machine
end

