-- ==== Sys2Proof/Claims.lean ====
section
/-! DEFINITION. The shapes the statements share: what an instruction leaves unchanged, when a request is admitted, and what
one shape of command answers. -/

namespace Sys2Proof.Machine

/-! ### Frames of the cores -/

/-- The state but for what every issue touches: the threads, the statistics counters and the debugger's trace. -/
def restOf (s : State) : State := { s with cpu := { s.cpu with thr := [] }, ctr := [], dbg := { s.dbg with trace := [] } }

/-- A thread but for its registers, its pc, its mode, the bookkeeping of an issue (which commits the coprocessor instruction in
flight, R429) and the mark a watchpoint leaves. -/
def quietOf (x : Thread) : Thread :=
  { x with w := [], pc := 0, st := 0, enu := 0, shadow := none, state := .run, bpSkip := false, charge := 0,
           stepLeft := none, haltAt := 0, pair := none, wpHit := false,
           cpx := x.cpx.map (fun c => { c with committed := false }) }

/-- Thread `t` executed an instruction that writes no register but `rd`: memory, every other thread, every other register
and every special register of the thread are as before; its mode changes only where a mode shadow ends (R251); the only
counters that move are those of its tile. -/
structure RegFrame (t rd : Nat) (s s' : State) : Prop where
  rest : restOf s' = restOf s
  others : ∀ u, u ≠ t → thr s' u = thr s u
  regs : ∀ r, r ≠ rd → getReg s' t r = getReg s t r
  quiet : quietOf (thr s' t) = quietOf (thr s t)
  mode : (thr s t).shadow = none → (thr s' t).st = (thr s t).st ∧ (thr s' t).enu = (thr s t).enu ∧ (thr s' t).shadow = none
  counters : ∀ k, k / 256 ≠ 0xC070 + t / 64 → tget 0 s'.ctr k = tget 0 s.ctr k

/-- A register instruction of three operands: issued, it writes f ra rb to rd (0 stays 0 in w0), goes on at pc + 1, and
changes nothing else. -/
def RegOp3 (op : Fin 776 → Fin 32 → Fin 32 → Fin 32 → Instr) (cls : Nat) (f : W72 → W72 → W72) : Prop :=
  ∀ (t : Fin 776) (rd ra rb : Fin 32) (s : State), canIssue s t.val cls [rd.val, ra.val, rb.val] = true →
    ∃ s', exec (op t rd ra rb) s = .next s' ∧
      getReg s' t.val rd.val = (if rd.val = 0 then 0 else f (getReg s t.val ra.val) (getReg s t.val rb.val)) ∧
      (thr s' t.val).pc = (thr s t.val).pc + 1 ∧ RegFrame t.val rd.val s s'

/-- A register instruction of two operands. -/
def RegOp2 (op : Fin 776 → Fin 32 → Fin 32 → Instr) (f : W72 → W72) : Prop :=
  ∀ (t : Fin 776) (rd ra : Fin 32) (s : State), canIssue s t.val clsA [rd.val, ra.val] = true →
    ∃ s', exec (op t rd ra) s = .next s' ∧
      getReg s' t.val rd.val = (if rd.val = 0 then 0 else f (getReg s t.val ra.val)) ∧
      (thr s' t.val).pc = (thr s t.val).pc + 1 ∧ RegFrame t.val rd.val s s'

/-- A branch of class B that reads the registers `regs` and writes none: it goes to pc + ofs when `taken`, else to pc + 1,
modulo 2^17. -/
def Branches (i : Instr) (t : Fin 776) (regs : List Nat) (taken : State → Prop) (ofs : BitVec 18) : Prop :=
  ∀ s, canIssue s t.val clsB (0 :: regs) = true →
    ∃ s', exec i s = .next s' ∧
      (taken s → (thr s' t.val).pc = (thr s t.val).pc + ofs.truncate 17) ∧
      (¬taken s → (thr s' t.val).pc = (thr s t.val).pc + 1) ∧ RegFrame t.val 0 s s'

/-- Thread `t` wrote `v` to shared register `n` of its core and went on: rd (but w0) holds the register's old value; every
other thread of the core whose WCTL watches `n` has WATCH set, and is otherwise as it was; the core's other shared
registers, its store buffer and its caches, the other cores, the tiles and all the rest of the machine are as before. -/
structure SharedWrite (t rd n : Nat) (v : W72) (s s' : State) : Prop where
  written : sharedReg s' t n = v
  result : getReg s' t rd = if rd = 0 then 0 else sharedReg s t n
  next : (thr s' t).pc = (thr s t).pc + 1
  regs : ∀ r, r ≠ rd → getReg s' t r = getReg s t r
  quiet : quietOf (thr s' t) = quietOf (thr s t)
  watchers : ∀ u, u ≠ t → thr s' u = if u ∈ coreThreads (coreOf t) ∧ (thr s u).wctl.getLsbD 1 = true ∧
    bf (thr s u).wctl.toNat 8 4 = n then { thr s u with watch := true } else thr s u
  core : ∀ m, m ≠ n → sharedReg s' t m = sharedReg s t m
  buffer : (coreSt s' (coreOf t)).sb = (coreSt s (coreOf t)).sb
  cores : ∀ c, c ≠ coreOf t → coreSt s' c = coreSt s c
  rest : { restOf s' with cpu := { s'.cpu with thr := [], core := [] } } = { restOf s with cpu := { s.cpu with thr := [], core := [] } }

/-! ### Loads and stores -/

/-- Only thread `t`, the counters of its tile and the debugger's trace changed. -/
structure ThreadFrame (t : Nat) (s s' : State) : Prop where
  rest : restOf s' = restOf s
  others : ∀ u, u ≠ t → thr s' u = thr s u
  counters : ∀ k, k / 256 ≠ 0xC070 + t / 64 → tget 0 s'.ctr k = tget 0 s.ctr k

/-- As `ThreadFrame`, and the thread's own core is another. -/
structure CoreFrame (t : Nat) (s s' : State) : Prop where
  rest : { restOf s' with cpu := { s'.cpu with thr := [], core := [] } } = { restOf s with cpu := { s.cpu with thr := [], core := [] } }
  others : ∀ u, u ≠ t → thr s' u = thr s u
  cores : ∀ c, c ≠ coreOf t → coreSt s' c = coreSt s c
  counters : ∀ k, k / 256 ≠ 0xC070 + t / 64 → tget 0 s'.ctr k = tget 0 s.ctr k

/-- The number that `n` bytes from effective address `ea` spell, lowest address least significant, as thread `t` reaches
them. -/
def spelled (s : State) (t ea n : Nat) : Nat :=
  ((List.range n).map (fun i => (memByte s (unalias (coreOf t) ((ea + i) % 2 ^ 48))).toNat * 256 ^ i)).sum

/-- A load of opcode `op` from `ea` by thread `t` finds all it reads in stores of the device beside its core (no HBM, no
unit space, no host window), with no store of its own waiting there and, but for LDW and LDTAG, no poisoned word. -/
structure ReadsAtHome (s : State) (t op ea : Nat) : Prop where
  noFault : memFault s t op ea = none
  buffer : (coreSt s (coreOf t)).sb.length ≤ 8
  near : ∀ x ∈ memParts op ea, regionOf (unalias (coreOf t) x.1) ≠ .hbm ∧ regionOf (unalias (coreOf t) x.1) ≠ .hostWin ∧
    ∀ u o, regionOf (unalias (coreOf t) x.1) ≠ .unitSpace u o
  drained : ∀ x ∈ memParts op ea, ∀ e ∈ storesOf s t, e.addr ≠ unalias (coreOf t) x.1 / 8 * 8
  clean : op ≠ 0x48 → op ≠ 0x4E → ∀ x ∈ memParts op ea,
    ((regionOf (unalias (coreOf t) x.1)).tagged && tagP (memTag s (unalias (coreOf t) x.1))) = false

/-- A load that finds its data at home: rd takes `f` of the bytes at the effective address (as numbers of each width) and the
tag of its word; nothing else of the machine changes. -/
def LoadOp (op : Fin 776 → Fin 32 → Fin 32 → BitVec 18 → Instr) (code : Nat) (f : (Nat → Nat) → Byte → W72) : Prop :=
  ∀ (t : Fin 776) (rd ra : Fin 32) (disp : BitVec 18) (s : State) (ea : Nat),
    ea = (getReg s t.val ra.val + disp.signExtend 72).toNat % 2 ^ 48 → canIssue s t.val clsM [rd.val, ra.val] = true →
    ReadsAtHome s t.val code ea →
    ∃ s', exec (op t rd ra disp) s = .next s' ∧
      getReg s' t.val rd.val = (if rd.val = 0 then 0 else f (spelled s t.val ea) (memTag s (unalias (coreOf t.val) ea))) ∧
      (thr s' t.val).pc = (thr s t.val).pc + 1 ∧ RegFrame t.val rd.val s s'

/-- A store that passes its checks with room in the store buffer: its entries join the end of its core's buffer, the thread
goes on, and no register and no memory changes. -/
def StoreOp (op : Fin 776 → Fin 32 → Fin 32 → BitVec 18 → Instr) (code : Nat) (entries : State → Nat → Nat → W72 → List SbEnt) :
    Prop :=
  ∀ (t : Fin 776) (rs ra : Fin 32) (disp : BitVec 18) (s : State) (ea : Nat),
    ea = (getReg s t.val ra.val + disp.signExtend 72).toNat % 2 ^ 48 → canIssue s t.val clsM [rs.val, ra.val] = true →
    memFault s t.val code ea = none → memMiss s t.val code ea = none →
    (coreSt s (coreOf t.val)).sb.length + (memParts code ea).length ≤ 8 →
    ∃ s', exec (op t rs ra disp) s = .next s' ∧
      (coreSt s' (coreOf t.val)).sb = (coreSt s (coreOf t.val)).sb ++ entries s t.val ea (getReg s t.val rs.val) ∧
      { coreSt s' (coreOf t.val) with sb := [] } = { coreSt s (coreOf t.val) with sb := [] } ∧
      (thr s' t.val).pc = (thr s t.val).pc + 1 ∧ (∀ r, getReg s' t.val r = getReg s t.val r) ∧
      quietOf (thr s' t.val) = quietOf (thr s t.val) ∧ s'.mem = s.mem ∧ CoreFrame t.val s s'

/-- A store-buffer entry of thread `t`: the word at the home of `a`. -/
def entryOf (s : State) (t a kind : Nat) (mask : BitVec 8) (data : W72) : SbEnt :=
  { thr := thrOf t, addr := unalias (coreOf t) a / 8 * 8, kind := kind, mask := mask, data := data, lvl := level s t,
    pasid := pasidOf (thr s t).st }

/-- The entries of a data store of `n` bytes: one for each word it touches, with the bytes of the register that fall there. -/
def dataEntries (n : Nat) (s : State) (t ea : Nat) (v : W72) : List SbEnt :=
  let k := min n (8 - ea % 8)
  entryOf s t ea 0 (BitVec.ofNat 8 ((2 ^ k - 1) * 2 ^ (ea % 8))) (BitVec.ofNat 72 (v.toNat % 256 ^ k * 256 ^ (ea % 8))) ::
    if n ≤ k then [] else
      [entryOf s t ((ea + k) % 2 ^ 48) 0 (BitVec.ofNat 8 (2 ^ (n - k) - 1)) (BitVec.ofNat 72 (v.toNat / 256 ^ k % 256 ^ (n - k)))]

/-! ### Faults and system registers -/

/-- Thread `t`, with no mode shadow and st.IH 0, took FAULT `cause` with `spc`: Table 7-3's registers say so, it runs in its
handler at the level that handles events with EV 0 and IH 1, and its registers are as they were. -/
structure EntersFault (t cause spc : Nat) (s s' : State) : Prop where
  handler : (thr s' t).pc = BitVec.ofNat 17 ((thr s t).evbase.toNat * 16)
  spc : (thr s' t).spc = BitVec.ofNat 17 spc
  sst : (thr s' t).sst = stOf s t
  ecause : (thr s' t).ecause = BitVec.ofNat 64 (cause * 2 ^ 8 + (thr s t).pc.toNat % 2 * 2 ^ 16)
  st : (thr s' t).st = ((thr s t).st &&& ~~~0xF) ||| (if t < 768 then 9 else 10)
  entry : (thr s' t).state = .entry ∧ (thr s' t).hold = .none
  regs : ∀ r, getReg s' t r = getReg s t r
  frame : ThreadFrame t s s'

/-- SETSR of index `idx` whose checks pass: `f` of the value happens to the thread, which goes on; nothing else moves. -/
def SetsRegister (idx : Fin 256) (f : State → W72 → Thread → Thread) : Prop :=
  ∀ (t : Fin 776) (ra : Fin 32) (s : State), canIssue s t.val clsS [0, ra.val] = true →
    setsrFault s t.val idx.val (getReg s t.val ra.val) = none → (thr s t.val).shadow = none →
    ∃ s' x, exec (.setsr t ra idx) s = .next s' ∧ thr s' t.val = f s (getReg s t.val ra.val) x ∧ x.pc = (thr s t.val).pc + 1 ∧
      x.st = (thr s t.val).st ∧ x.enu = (thr s t.val).enu ∧ x.shadow = none ∧ x.w = (thr s t.val).w ∧
      quietOf x = quietOf (thr s t.val) ∧ ThreadFrame t.val s s'

/-! ### Coprocessor instructions -/

/-- The coprocessor instructions (Table 7-7, chapter 13): thread, unit, FN, RD, RA, RB, whether the register fields are ones the
unit takes, the registers read or written, and whether the unit answers that it is busy. -/
inductive CpxForm : Instr → Nat → Nat → Nat → Nat → Nat → Nat → Bool → List Nat → Bool → Prop
  | crc32c (t : Fin 776) (rd ra rb : Fin 32) (nb : Fin 8) (busy : Bool) :
      CpxForm (.crc32c t rd ra rb nb busy) t 0 nb rd ra rb true [rd, ra, rb] busy
  | crc64 (t : Fin 776) (rd ra rb : Fin 32) (nb : Fin 8) (busy : Bool) :
      CpxForm (.crc64 t rd ra rb nb busy) t 0 (64 + nb) rd ra rb true [rd, ra, rb] busy
  | tpz (t : Fin 776) (rd ra rb : Fin 32) (k : Fin 4) (nb : Fin 8) (busy : Bool) :
      CpxForm (.tpz t rd ra rb k nb busy) t 0 (128 + 16 * k + nb) rd ra rb true [rd, ra, rb] busy
  | enc (t : Fin 776) (rd ra rb : Fin 32) (len : Fin 64) (busy : Bool) :
      CpxForm (.enc t rd ra rb len busy) t 1 len rd ra rb (decide (1 ≤ ra.val ∧ ra.val ≤ 28 ∧ 1 ≤ rb.val ∧ rb.val ≤ 30))
        [rd, ra, ra + 1, ra + 2, ra + 3, rb, rb + 1] busy
  | dec (t : Fin 776) (rd ra rb : Fin 32) (len : Fin 64) (busy : Bool) :
      CpxForm (.dec t rd ra rb len busy) t 1 (128 + len) rd ra rb (decide (1 ≤ ra.val ∧ ra.val ≤ 28 ∧ 1 ≤ rb.val ∧ rb.val ≤ 30))
        [rd, ra, ra + 1, ra + 2, ra + 3, rb, rb + 1] busy
  | aad (t : Fin 776) (rd ra rb : Fin 32) (len : Fin 64) (busy : Bool) :
      CpxForm (.aad t rd ra rb len busy) t 1 (256 + len) rd ra rb (decide (1 ≤ ra.val ∧ ra.val ≤ 28 ∧ 1 ≤ rb.val ∧ rb.val ≤ 30))
        [rd, ra, ra + 1, ra + 2, ra + 3, rb, rb + 1] busy
  | gcmTag (t : Fin 776) (rd ra rb : Fin 32) (busy : Bool) :
      CpxForm (.gcmTag t rd ra rb busy) t 1 384 rd ra rb (decide (1 ≤ ra.val ∧ ra.val ≤ 28 ∧ 1 ≤ rb.val ∧ rb.val ≤ 30))
        [rd, ra, ra + 1, ra + 2, ra + 3, rb, rb + 1] busy
  | xsumClr (t : Fin 776) (rd ra : Fin 32) (slot : Fin 16) (busy : Bool) :
      CpxForm (.xsumClr t rd ra slot busy) t 2 (4 * slot) rd ra 0 (decide (ra.val = 0)) [rd] busy
  | xsumAdd (t : Fin 776) (rd ra : Fin 32) (slot : Fin 16) (typ : Fin 3) (busy : Bool) :
      CpxForm (.xsumAdd t rd ra slot typ busy) t 2 (64 + 4 * slot + typ) rd ra 0 true [rd, ra] busy
  | xsumAddv (t : Fin 776) (rd ra rb : Fin 32) (slot : Fin 16) (typ : Fin 3) (busy : Bool) :
      CpxForm (.xsumAddv t rd ra rb slot typ busy) t 2 (128 + 4 * slot + typ) rd ra rb true [rd, ra, rb] busy
  | xsumMerge (t : Fin 776) (rd ra : Fin 32) (slot : Fin 16) (image busy : Bool) :
      CpxForm (.xsumMerge t rd ra slot image busy) t 2 (192 + 4 * slot + image.toNat) rd ra 0 true [rd, ra] busy
  | xsumRnd (t : Fin 776) (rd ra : Fin 32) (slot : Fin 16) (busy : Bool) :
      CpxForm (.xsumRnd t rd ra slot busy) t 2 (256 + 4 * slot) rd ra 0 (decide (ra.val = 0)) [rd] busy
  | xsumRnd2 (t : Fin 776) (rd ra rb : Fin 32) (slot : Fin 16) (busy : Bool) :
      CpxForm (.xsumRnd2 t rd ra rb slot busy) t 2 (320 + 4 * slot) rd ra rb (decide (ra.val = 0)) [rd, rb] busy
  | xsumSave (t : Fin 776) (rd ra : Fin 32) (slot : Fin 16) (busy : Bool) :
      CpxForm (.xsumSave t rd ra slot busy) t 2 (384 + 4 * slot) rd ra 0 true [rd, ra] busy
  | xsumRest (t : Fin 776) (rd ra : Fin 32) (slot : Fin 16) (busy : Bool) :
      CpxForm (.xsumRest t rd ra slot busy) t 2 (448 + 4 * slot) rd ra 0 true [rd, ra] busy
  | xsumCxa (t : Fin 776) (rd ra : Fin 32) (slot : Fin 16) (busy : Bool) :
      CpxForm (.xsumCxa t rd ra slot busy) t 2 (512 + 4 * slot) rd ra 0 true [rd, ra] busy
  | xsumFlags (t : Fin 776) (rd ra : Fin 32) (slot : Fin 16) (busy : Bool) :
      CpxForm (.xsumFlags t rd ra slot busy) t 2 (576 + 4 * slot) rd ra 0 (decide (ra.val = 0)) [rd] busy

/-! ### Requests of the object dictionary (chapter 17) -/

/-- A request of kind `kind` with body `body` that the checks of R558, R563 and R565-R567 let through, in the session `e`: the
steward runs, the transport is enabled, the message is well formed, the session is open, the MAC is right, no group is being
collected and SEQ is above the last one. -/
structure Admitted (s : State) (h : DHdr) (kind : Nat) (body : Bytes) (e : Sess) : Prop where
  running : s.led.restart = none
  transport : xportOn s h.xport = true
  form : malformed s h body = false
  session : sessOf s h.sid.toNat = some e
  opened : e.isOpen = true
  mac : dmsgMac e.key (reqHeader kind h) body = h.mac
  idle : e.busy = false
  fresh : ∀ q, e.lastSeq = some q → q < h.seq.toNat

/-- The session has seen a message now. -/
def touched (h : DHdr) (s : State) : State := modSess h.sid.toNat (fun e => { e with lastAct := now s }) s

/-- The session has taken a request: its time and its SEQ. -/
def arrived (h : DHdr) (s : State) : State := modSess h.sid.toNat (fun e => { e with lastSeq := some h.seq.toNat }) (touched h s)

/-- The debug commands of Table 20-4: CMD, target bytes, ARG bytes and effect. -/
inductive DebugForm : (DbgVia → Instr) → Nat → BitVec 8 → BitVec 8 → BitVec 8 → Bytes → DbgEff → Prop
  | halt (x y z) : DebugForm (.halt · x y z) 0x01 x y z [] dbgHalt
  | resume (x y z) : DebugForm (.resume · x y z) 0x02 x y z [] dbgResume
  | step (x y z) (n : BitVec 16) : DebugForm (.step · x y z n) 0x03 x y z (natLE 2 n.toNat) (dbgStep n.toNat)
  | readRegs (x y z) : DebugForm (.readRegs · x y z) 0x04 x y z [] (fun t s => (stOk, regsBytes s t, s))
  | writeReg (x y z) (reg : BitVec 8) (v : W72) :
      DebugForm (.writeReg · x y z reg v) 0x05 x y z ([reg] ++ natLE 9 v.toNat) (fun t s => writeReg t reg.toNat v s)
  | readMem (x y z) (addr : BitVec 48) (len : Fin 65) :
      DebugForm (.readMem · x y z addr len) 0x06 x y z (natLE 8 addr.toNat ++ natLE 1 len.val) (dbgReadMem addr.toNat len.val)
  | writeMem (x y z) (addr : BitVec 48) (data tags : Bytes) :
      DebugForm (.writeMem · x y z addr data tags) 0x07 x y z (natLE 8 addr.toNat ++ natLE 1 data.length ++ data ++ tags)
        (dbgWriteMem addr.toNat data tags)
  | setBp (x y z) (slot : Fin 4) (index : BitVec 17) (mask : BitVec 8) (en : Bool) :
      DebugForm (.setBp · x y z slot index mask en) 0x08 x y z
        (natLE 1 slot.val ++ natLE 3 index.toNat ++ [mask] ++ natLE 1 (b2n en))
        (dbgSetBp slot.val { index := index, mask := mask, en := en })
  | setWp (x y z) (slot : Fin 4) (base mask : BitVec 48) (rd wr : Bool) (thr : BitVec 8) (en : Bool) :
      DebugForm (.setWp · x y z slot base mask rd wr thr en) 0x09 x y z
        (natLE 1 slot.val ++ natLE 6 base.toNat ++ natLE 6 mask.toNat ++ natLE 1 (b2n rd + 2 * b2n wr) ++ [thr] ++ natLE 1 (b2n en))
        (dbgSetWp slot.val { base := base, mask := mask, rd := rd, wr := wr, thr := thr, en := en })
  | chanAbort (x y z) (chan : Fin 64) : DebugForm (.chanAbort · x y z chan) 0x0A x y z (natLE 1 chan.val) (dbgChanAbort chan.val)
  | trace (x y z) (masks : BitVec 64) (stop : Bool) (first last : Option (Fin 4)) :
      DebugForm (.trace · x y z masks stop first last) 0x0B x y z
        (natLE 8 masks.toNat ++ natLE 1 (b2n stop) ++ natLE 1 (slotNo first) ++ natLE 1 (slotNo last))
        (dbgTrace masks (b2n stop) (slotNo first) (slotNo last))
  | traceRead (x y z) (first : BitVec 16) : DebugForm (.traceRead · x y z first) 0x0C x y z (natLE 2 first.toNat) (dbgTraceRead first.toNat)

/-- The commands that are a WRITE of one entry: header, index, subindex, value, what the entry does, and what follows the
response (a Dawn that was asked for). -/
inductive WriteRow : Instr → DHdr → Nat → Nat → Bytes → WriteEff → (State → State) → Prop
  | any (h idx sub v) : WriteRow (.dictWrite h idx sub v) h idx.toNat sub.toNat v (entryWrite idx.toNat sub.toNat) takeReset
  | timeSet (h v) : WriteRow (.timeSet h v) h 0x2002 0x05 v wrTimeSet id
  | portAdmin (h) (p : Fin 8) (v) : WriteRow (.portAdminWrite h p v) h (0x3100 + p.val) 0x01 v (wrPortAdmin p.val) id
  | portMode (h) (p : Fin 8) (v) : WriteRow (.portModeWrite h p v) h (0x3100 + p.val) 0x02 v (wrPortMode p.val) id
  | stageAdd (h) : WriteRow (.stageAdd h) h 0x5200 0x05 [1] wrStageOp id
  | stageKill (h) : WriteRow (.stageKill h) h 0x5200 0x05 [2] wrStageOp id
  | programLoad (h v) : WriteRow (.programLoad h v) h 0x5300 0x02 v wrProgImage id
  | meterStage (h v) : WriteRow (.meterStage h v) h 0x5400 0x07 v wrMeterStage id
  | courseEntry (h) (idx : BitVec 16) (sub : BitVec 8) (v) (d : Ent) (hd : entFind idx.toNat sub.toNat = some d)
      (hc : d.commit = .course) (h1 : ¬(sub = 5 ∧ idx = 0x5200)) (h2 : ¬(sub = 2 ∧ idx = 0x5300)) (h3 : ¬(sub = 7 ∧ idx = 0x5400)) :
      WriteRow (.courseEntryStage h idx sub v) h idx.toNat sub.toNat v (wrCourseEntry idx.toNat sub.toNat) id
  | commit (h v) : WriteRow (.commit h v) h 0x5100 0x02 v wrCommit id
  | commitTime (h v) : WriteRow (.commitTime h v) h 0x5100 0x03 v wrCommitTime id
  | abort (h v) : WriteRow (.abort h v) h 0x5100 0x04 v wrAbort id
  | etInsert (h) : WriteRow (.etInsert h) h 0x6100 0x05 [1] wrEtOp id
  | etDelete (h) : WriteRow (.etDelete h) h 0x6100 0x05 [2] wrEtOp id
  | lpmAdd (h) : WriteRow (.lpmAdd h) h 0x6200 0x05 [1] wrLpmOp id
  | lpmDelete (h) : WriteRow (.lpmDelete h) h 0x6200 0x05 [2] wrLpmOp id
  | lpmLen (h v) : WriteRow (.lpmLenCfg h v) h 0x6210 0x01 v wrLpmLenCfg id
  | nhg (h v) : WriteRow (.nhgWrite h v) h 0x6300 0x03 v wrNhg id
  | tileDrain (h v) : WriteRow (.tileDrain h v) h 0x8402 0x02 v wrTileDrain id
  | breakLock (h v) : WriteRow (.breakLock h v) h 0x8804 0x01 v wrBreakLock id
  | lockGroup (h) (g : Fin 64) (v) : WriteRow (.lockGroupConfig h g v) h 0x8801 (g.val + 1) v (wrGroup g.val) id
  | renumber (h v) : WriteRow (.renumber h v) h 0x8C01 0x05 v wrRenumber id
  | blkCls (h v) : WriteRow (.blockClassWrite h v) h 0x8C01 0x01 v wrBlkCls id
  | poolConfig (h) (p : Fin 64) (v) : WriteRow (.poolConfigWrite h p v) h 0x9010 (p.val + 1) v (wrPoolConfig p.val) id
  | poolState (h) (p : Fin 64) (v) : WriteRow (.poolStateWrite h p v) h 0x9011 (p.val + 1) v (wrPoolState p.val) id
  | retirePc (h v) : WriteRow (.retirePc h v) h 0x9405 0x02 v wrRetirePc id
  | laneRepair (h v) : WriteRow (.laneRepair (some h) v) h 0x9406 0x01 v wrLaneRepair id
  | retireStack (h v) : WriteRow (.retireStack h v) h 0x9405 0x01 v wrRetireStack id
  | timedCancel (h v) : WriteRow (.timedCancel h v) h 0xB050 0x02 v wrTimedCancel id
  | closeSession (h v) : WriteRow (.closeSession h v) h 0xB001 0x01 v wrCloseSession id
  | operatorKey (h) (slot : Fin 8) (v) : WriteRow (.operatorKey h slot v) h 0xB010 (slot.val + 1) v (wrOperatorKey slot.val) id
  | installerKey (h v) : WriteRow (.installerKey h v) h 0xB020 0x02 v wrInstallerKey id
  | unclaim (h v) : WriteRow (.unclaim h v) h 0xB020 0x03 v wrUnclaim id
  | configErase (h v) : WriteRow (.configErase h v) h 0xB040 0x01 v wrConfigErase id
  | domainTarget (h) (dom : Fin 80) (v) : WriteRow (.domainTargetWrite h dom v) h 0xA002 (dom.val + 1) v (wrDomainTarget dom.val) id
  | wakeGroup (h v) : WriteRow (.wakeGroup h v) h 0xA003 0x01 v wrWakeGroup id
  | deviceMode (h v) : WriteRow (.deviceModeWrite h v) h 0xA010 0x01 v wrDeviceMode id
  | wakeAlarm (h v) : WriteRow (.wakeAlarm h v) h 0xA030 0x02 v wrWakeAlarm id
  | coreReadmit (h v) : WriteRow (.coreReadmit h v) h 0xC019 0x03 v wrCoreReadmit id
  | imageLoad (h v) : WriteRow (.imageLoad h v) h 0xE010 0x02 v wrImageLoad id
  | imageChunk (h v) : WriteRow (.imageChunk h v) h 0xE011 0x01 v wrImageChunk id
  | swap (h v) : WriteRow (.swap h v) h 0xE020 0x02 v wrSwap id
  | swapTime (h v) : WriteRow (.swapTime h v) h 0xE020 0x03 v wrSwapTime id
  | rollback (h v) : WriteRow (.rollback h v) h 0xE020 0x04 v wrRollback id
  | deviceReset (h v) : WriteRow (.deviceReset h v) h 0xE030 0x01 v wrDeviceReset takeReset
  | freeze (h v) : WriteRow (.freeze h v) h 0xD000 0x02 v wrFreeze id
  | freezeTime (h v) : WriteRow (.freezeTime h v) h 0xD000 0x03 v wrFreezeTime id
  | thaw (h v) : WriteRow (.thaw h v) h 0xD000 0x04 v wrThaw id
  | thawTime (h v) : WriteRow (.thawTime h v) h 0xD000 0x05 v wrThawTime id
  | dump (h v) : WriteRow (.dumpStart (.session h v)) h 0xD010 0x04 v
      (fun _ v s => if leNat v = 1 then startDump false s else (stRange, s)) id
  | debug (h) (f : DbgVia → Instr) (cmd : Nat) (x y z : BitVec 8) (arg : Bytes) (eff : DbgEff) (hf : DebugForm f cmd x y z arg eff) :
      WriteRow (f (.session h)) h 0xD100 0x01 (natLE 1 cmd ++ [x, y, z] ++ arg) (dbgWrite x.toNat y.toNat z.toNat eff) id

/-- The commands that are a READ of one entry: header, index, subindex, what the read returns and leaves. -/
inductive ReadRow : Instr → DHdr → Nat → Nat → ReadEff → Prop
  | any (h : DHdr) (idx : BitVec 16) (sub : BitVec 8) (hn : ¬(h.sid = 0 ∧ idx.toNat = 0x1000 ∧ 1 ≤ sub.toNat ∧ sub.toNat ≤ 8)) :
      ReadRow (.dictRead h idx sub) h idx.toNat sub.toNat (entryRead idx.toNat sub.toNat (bit h.flags.toNat 0))
  | counters (h) : ReadRow (.counterRead h) h 0x5600 0x01 rdCounters
  | lnq (h) : ReadRow (.lnqRead h) h 0x6600 0x01 rdLnq
  | peerState (h) : ReadRow (.peerStateRead h) h 0x7400 0x02 rdPeerState
  | traceRing (h) : ReadRow (.traceRingRead h) h 0x7500 0x01 rdTrace
  | lockState (h) : ReadRow (.lockStateRead h) h 0x8802 0x02 rdLockState
  | matchEntry (h) : ReadRow (.matchEntryRead h) h 0x8C03 0x02 rdMatchEntry
  | poisonLog (h) : ReadRow (.poisonLogRead h) h 0x9040 0x01 rdPoisonLog
  | journal (h) : ReadRow (.journalRead h) h 0xB100 0x02 rdJournal
  | ledgerAlert (h) : ReadRow (.ledgerAlertClear h) h 0xC000 0x02 rdMismatches
  | failureLog (h) : ReadRow (.failureLogRead h) h 0xC017 0x01 rdFailureLog

/-- The commands that are one request in a session: header, KIND and body. -/
inductive SessionRequest : Instr → DHdr → Nat → Bytes → Prop
  | write {i h idx sub v eff post} (w : WriteRow i h idx sub v eff post) (hf : bit h.flags.toNat 1 = false) :
      SessionRequest i h 4 (writeBody idx sub v)
  | read {i h idx sub eff} (r : ReadRow i h idx sub eff) : SessionRequest i h 3 (readBody idx sub)
  | close (h) : SessionRequest (.dictClose h) h 6 []
  | timed (h) (idx : BitVec 16) (sub : BitVec 8) (atime v) (hf : bit h.flags.toNat 1 = true) :
      SessionRequest (.timedWrite h idx sub atime v) h 4 (timedBody idx.toNat sub.toNat atime v)
  | group (h atime entries) : SessionRequest (.readGroup h atime entries) h 5 (groupBody (bit h.flags.toNat 1) atime entries)

/-! ### The match engine -/

/-- Entry `j` is valid and agrees with key `k` wherever the mask of its block's class says to compare. -/
def Matching (s : State) (k : BitVec 128) (mask : Nat → Option (BitVec 128)) (j : Nat) : Prop :=
  (mEnt s j).v = true ∧ ∃ m, mask (blkClass s (j / 4096)) = some m ∧ ((mEnt s j).key ^^^ k) &&& m = 0

/-- Entry `i` matches and is before every other match: a lower PRIO - BASE, or the same and a lower index. -/
def Wins (s : State) (k : BitVec 128) (mask : Nat → Option (BitVec 128)) (i : Nat) : Prop :=
  Matching s k mask i ∧ ∀ j, Matching s k mask j → j ≠ i →
    mD s (mEnt s i).prio < mD s (mEnt s j).prio ∨ mD s (mEnt s i).prio = mD s (mEnt s j).prio ∧ i < j

/-- MULT of a winner: another entry matches too. -/
def MultOf (s : State) (k : BitVec 128) (mask : Nat → Option (BitVec 128)) (i : Nat) (b : Bool) : Prop :=
  b = true ↔ ∃ j, j ≠ i ∧ Matching s k mask j

/-- DUP of a winner: another match has the winner's PRIO - BASE. -/
def DupOf (s : State) (k : BitVec 128) (mask : Nat → Option (BitVec 128)) (i : Nat) (b : Bool) : Prop :=
  b = true ↔ ∃ j, j ≠ i ∧ Matching s k mask j ∧ mD s (mEnt s j).prio = mD s (mEnt s i).prio

/-- What a SEARCH compares, by class of block. -/
def searchMask (r : MReq) (c : Nat) : Option (BitVec 128) := if c ≠ 7 ∧ bit r.cls c then some r.mask else none
/-- What a POST of class `wc` compares: the unexpected messages. -/
def postMask (wc c : Nat) : Option (BitVec 128) := if c = 4 then some (clsMask wc) else none
/-- What an ARRIVE compares: the posted receives. -/
def arriveMask (c : Nat) : Option (BitVec 128) := if c ≤ 3 then some (clsMask c) else none

/-- The words of a result that names entry `i` of this device: RES0, its payload, its key and its PRIO. -/
def entWords (s : State) (i res0 : Nat) : List W64 :=
  [BitVec.ofNat 64 res0, (mEnt s i).pay, (mEnt s i).key.extractLsb' 0 64, (mEnt s i).key.extractLsb' 64 64,
   (mEnt s i).prio.zeroExtend 64]

/-- RES0 of such a result. -/
def entRes0 (s : State) (i : Nat) (hit mult dup cons ins : Bool) (hv : Option Nat) : Nat :=
  mkRes0 0 hit mult dup cons ins hv (ownPos s) i (blkClass s (i / 4096))

/-- Beside the match engine, its counters and what the machine sends, nothing changes. -/
structure MatchFrame (s s' : State) : Prop where
  rest : { s' with mat := {}, ctr := [], out := [] } = { s with mat := {}, ctr := [], out := [] }
  counters : ∀ k, k / 256 ≠ 0xC0A0 → tget 0 s'.ctr k = tget 0 s.ctr k

/-- A request area has its result and is not BUSY; its request words, every other area, the sequencer, the cascade and the
rest of the machine are as before. -/
structure AreaDone (a : Nat) (res : List W64) (s s' : State) : Prop where
  area : mArea s' a = { mArea s a with res := res }
  others : ∀ b, b ≠ a → mArea s' b = mArea s b
  seq : s'.mat.arrq = s.mat.arrq ∧ s'.mat.held = s.mat.held ∧ s'.mat.exp = s.mat.exp ∧ s'.mat.wait = s.mat.wait
  casc : s'.mat.cstate = s.mat.cstate ∧ s'.mat.present = s.mat.present ∧ s'.mat.round = s.mat.round ∧
    s'.mat.out = s.mat.out ∧ s'.mat.ops = s.mat.ops
  base : s'.mat.base = s.mat.base ∧ s'.mat.rgen = s.mat.rgen ∧ s'.mat.rerank = s.mat.rerank
  frame : MatchFrame s s'

/-- The entries, the handles, OSEQ and the matches handed to slices are as before, and nothing is sent. -/
def EntriesSame (s s' : State) : Prop :=
  s'.mat.ent = s.mat.ent ∧ s'.mat.handle = s.mat.handle ∧ s'.mat.oseq = s.mat.oseq ∧ s'.mat.renum = s.mat.renum ∧
    s'.mat.done = s.mat.done ∧ s'.out = s.out

/-- Entry `i` lost its V and left the list of every handle; no other entry changed. -/
def EntryCleared (i : Nat) (s s' : State) : Prop :=
  mEnt s' i = { mEnt s i with v := false } ∧ (∀ j, j ≠ i → mEnt s' j = mEnt s j) ∧
    (∀ h x, tfind s'.mat.handle h = some x → i ∉ x.list)

/-- Entry `i` is `e` and left the list of every handle; no other entry changed. -/
def EntryPut (i : Nat) (e : MEnt) (s s' : State) : Prop :=
  mEnt s' i = e ∧ (∀ j, j ≠ i → mEnt s' j = mEnt s j) ∧ (∀ h x, tfind s'.mat.handle h = some x → i ∉ x.list)

/-- OSEQ moved on by one, and a renumber starts if it is enabled and OSEQ is 2^30 ahead of BASE. -/
def Advanced (s s' : State) : Prop :=
  s'.mat.oseq = s.mat.oseq + 1 ∧
    s'.mat.renum = (s.mat.renum || cfgB s 0x8C01 4 && decide (2 ^ 30 ≤ (s.mat.oseq + 1 - s.mat.base).toNat))

/-- The receive descriptor `desc` goes to the slice that holds the data of arrival `record`: a slice of this device, or one
of another member. -/
def HandedOver (record desc : W64) (s s' : State) : Prop :=
  (bf record.toNat 19 2 = ownPos s → s'.mat.done = s.mat.done ++ [(bf record.toNat 16 3, record, some desc)] ∧ s'.out = s.out) ∧
  (bf record.toNat 19 2 ≠ ownPos s → s'.mat.done = s.mat.done ∧
    s'.out = s.out ++ [.casc 2 [bf record.toNat 19 2, record.toNat, desc.toNat]])

/-- An operation that a request area which is not BUSY starts by a write of OP, on a device that does not renumber, for its
own entries alone: under `pre` its result is `res`, with `eff` on the entries, and nothing else changes. -/
def AreaOp (op : Fin 769 → W64 → Instr) (n : Nat) (pre : MReq → State → Prop) (res : MReq → State → List W64)
    (eff : MReq → State → State → Prop) : Prop :=
  ∀ (area : Fin 769) (v : W64) (s : State) (r : MReq), r = areaReq s area.val (opWord n v.toNat) →
    (mArea s area.val).busy = false → s.mat.renum = false → mCascaded s r = false → pre r s →
    ∃ s', exec (op area v) s = .next s' ∧ AreaDone area.val (res r s) s s' ∧ eff r s s'

/-- The seven commands of a request area, with the operation each writes. -/
inductive AreaForm : (Fin 769 → W64 → Instr) → Nat → Prop
  | search : AreaForm .matchSearch 1
  | insert : AreaForm .matchInsert 2
  | delete : AreaForm .matchDelete 3
  | step : AreaForm .matchStep 4
  | hfree : AreaForm .hfree 5
  | post : AreaForm .post 6
  | read : AreaForm .matchRead 8

/-! ### Host commands -/

/-- Command queue `q` is ACTIVE and holds one command, accepted and not yet started, which R529 does not refuse; no other
command is in flight. -/
structure CmdAlone (s : State) (q : Fin 4096) (id : Nat) (c : HCmd) : Prop where
  only : s.host.cmds = [(id, c)]
  queue : c.q = q.val
  fresh : c.started = false
  active : (cmqOf s q.val).state = 1
  legal : cmdStatus s c = 0

/-- The command ended with status `st` and words 2 and 3 `res` and `res2`: it is gone, and its completion waits to be written,
with the ledger reason and the item it carries; a success under NOCPL posts none. -/
structure CmdEnded (c : HCmd) (st : Nat) (res res2 : W64) (s s' : State) : Prop where
  gone : s'.host.cmds = []
  quiet : bit (c.word 0) 9 = true → st = 0 → s'.host.posts = s.host.posts
  posted : bit (c.word 0) 9 = false ∨ st ≠ 0 → s'.host.posts = s.host.posts ++ [{
    cpq := (cmqOf s c.q).cpq, words := [cplWord0 (bf (c.word 0) 32 32) st false c.q, 0, res, res2],
    led := some (cplReason st 0, hostItem (c.word 0) c.q ((cmqOf s c.q).owner / 128)) }]

/-- Beside the host queues, the ledger and the counters nothing changed. -/
def HostOnly (s s' : State) : Prop := { s' with host := {}, ctr := [], led := s.led } = { s with host := {}, ctr := [] }

/-- The commands of a queue, with what each wants to find there. -/
inductive HostForm : (Fin 4096 → Instr) → (HCmd → Bool) → Prop
  | nop : HostForm .nop (wantOpc 0)
  | put : HostForm .msgPut (fun c => wantOpc 2 c && decide (c.zop = 1))
  | get : HostForm .msgGet (fun c => wantOpc 2 c && decide (c.zop = 2))
  | atomic : HostForm .msgAtomic (fun c => wantOpc 2 c && decide (c.zop = opAtomic))
  | send : HostForm .msgSend (fun c => wantOpc 2 c && decide (c.zop = opSend))
  | reduce : HostForm .msgReduce (fun c => wantOpc 2 c && decide (c.zop = opReduce))
  | matchOp : HostForm .matchOp (wantOpc 3)
  | brick : HostForm .brick (wantOpc 4)
  | arm : HostForm .counterArm (fun c => wantOpc 5 c && decide (c.cop = 3))
  | disarm : HostForm .counterDisarm (fun c => wantOpc 5 c && decide (c.cop = 4))
  | window : HostForm .window (wantOpc 6)
  | createCmq : HostForm .createCmq (wantOpc 0x80)
  | deleteCmq : HostForm .deleteCmq (wantOpc 0x81)
  | createCpq : HostForm .createCpq (wantOpc 0x82)
  | deleteCpq : HostForm .deleteCpq (wantOpc 0x83)
  | pasidReg : HostForm .pasidReg (wantOpc 0x84)
  | pasidUnreg : HostForm .pasidUnreg (wantOpc 0x85)
  | aperture : HostForm .aperture (wantOpc 0x86)

/-- A MSG command of a queue: its message is accepted in the ledger, with JOB = QJOB, and the command goes on until it ends. A
SEND takes its peer's next MSEQ. -/
def MsgForm (op : Fin 4096 → Instr) (z : Nat) : Prop :=
  ∀ (q : Fin 4096) (s : State) (id : Nat) (c : HCmd), CmdAlone s q id c → wantOpc 2 c = true → c.zop = z →
    ((z = opPut ∨ z = opGet) → bf (c.word 4) 0 32 ≠ 0) →
    ∃ s' x, exec (op q) s = .next s' ∧
      tfind s'.zmt.msgs s.zmt.nextMsg = some { cmdMsg s id c with id := s.zmt.nextMsg, mseq := x } ∧
      (z ≠ opSend ∨ peerIdx s (cmdMsg s id c).ep = none → x = 0 ∧ s'.zmt.peers = s.zmt.peers) ∧
      (∀ k p, z = opSend → peerIdx s (cmdMsg s id c).ep = some k → peerOf s k = some p →
        x = p.mseq ∧ peerOf s' k = some { p with mseq := p.mseq + 1 }) ∧
      (∀ k, k ≠ s.zmt.nextMsg → tfind s'.zmt.msgs k = tfind s.zmt.msgs k) ∧
      s'.host.cmds = [(id, { c with started := true, link := some s.zmt.nextMsg })] ∧ s'.host.posts = s.host.posts ∧
      ledRow s' 2 = (ledRow s 2).accept ∧ ctrVal s' 0xC068 1 = ctrVal s 0xC068 1 + 1 ∧ s'.mem = s.mem ∧ s'.out = s.out

/-- A MSG command of no bytes: its message has no packets, and is complete when it is accepted (R219, R220). -/
def MsgEmpty (op : Fin 4096 → Instr) (z : Nat) : Prop :=
  ∀ (q : Fin 4096) (s : State) (id : Nat) (c : HCmd), CmdAlone s q id c → wantOpc 2 c = true → c.zop = z → bf (c.word 4) 0 32 = 0 →
    ∃ s', exec (op q) s = .next s' ∧ CmdEnded c 0 0 0 s s' ∧ (∀ k, k ≠ s.zmt.nextMsg → tfind s'.zmt.msgs k = tfind s.zmt.msgs k) ∧
      ledRow s' 2 = ((ledRow s 2).accept).complete ∧ ctrVal s' 0xC068 2 = ctrVal s 0xC068 2 + 1 ∧ s'.mem = s.mem ∧ s'.out = s.out

/-- A command of a queue that ends at once: under `pre` it ends with the status, word 2 and effect given. -/
def EndsAtOnce (op : Fin 4096 → Instr) (want : HCmd → Bool) (pre : State → HCmd → Prop) (st : State → HCmd → Nat)
    (eff : HCmd → State → State → Prop) : Prop :=
  ∀ (q : Fin 4096) (s : State) (id : Nat) (c : HCmd), CmdAlone s q id c → want c = true → pre s c →
    ∃ s', exec (op q) s = .next s' ∧ CmdEnded c (st s c) 0 0 s s' ∧ eff c s s'

end Sys2Proof.Machine
end

