-- ==== Sys2Proof/Certificates/Slice0/Obligations.lean ====
section
/-! DEFINITION. The statements for the provers. -/

open Sys2Proof Sys2Proof.Machine

/-! ### The queue, reset and the invariant -/

/-- Step of a state with a command at the front of its queue is exec of that command on the state with the queue's
rest. -/
def Obligations.StepRunsTheFrontCommand : Prop :=
  ∀ (s : State) (c : Instr) (rest : List Instr), s.pending = c :: rest → step s = exec c { s with pending := rest }

/-- On an empty queue a step is one nominal nanosecond of the clock (the model's choice, log 16): the FTC and the part
of it below 2^-16 ns grow by 1 ns times 1 + rate, modulo 2^80, and nothing else changes; when that brings a DL0 boundary, what
is due at it fires then and there, and where nothing is due nothing but the clock's own record of the boundary changes. A
boundary that a time-set or a step of the FTC has put the clock on fires first. With AON off nothing counts. -/
def Obligations.IdleStepAdvancesTheClock : Prop :=
  (∀ s : State, s.pending = [] → s.dbg.pwrGood = false → step s = .next s) ∧
  (∀ s : State, s.pending = [] → s.dbg.pwrGood = true → landed s = true → step s = .next (serveAt s)) ∧
  (∀ s : State, s.pending = [] → s.dbg.pwrGood = true → landed s = false → s.clk.acc < 2 ^ 48 → -(2 ^ 48 : Int) ≤ s.clk.rate →
    ∃ u : State, step s = .next (if now s / 64 < now u / 64 then serveAt u else u) ∧ { u with clk := s.clk } = s ∧
      { u.clk with ftc := s.clk.ftc, acc := s.clk.acc } = s.clk ∧
      ((u.clk.acc : Int) + 2 ^ 48 * (u.clk.ftc.toNat : Int)) % 2 ^ 128 =
        ((s.clk.acc : Int) + 2 ^ 48 * (s.clk.ftc.toNat : Int) + 65536 * (2 ^ 48 + s.clk.rate)) % 2 ^ 128) ∧
  (∀ s : State, dueActs (modClk (fun c => { c with served := now s / 64 }) s) = [] →
    { serveAt s with clk := s.clk } = s ∧
      { (serveAt s).clk with served := s.clk.served, ivlAt := s.clk.ivlAt } = s.clk ∧ (serveAt s).clk.served = now s / 64)

/-- Every command completes: in every state, with every operand, exec answers a next state, never a fault or a refusal. No command
changes the queue of the commands that wait: what is commanded first is performed first.
Over every step what the device has sent stays sent, burnt claim number fuses stay burnt, and the model's count of free
values drawn never goes back (no free value is used twice). -/
def Obligations.StepTakesNothingBack : Prop :=
  (∀ (c : Instr) (s : State), ∃ t, exec c s = .next t) ∧
  (∀ (c : Instr) (s t : State), Inv s → exec c s = .next t → t.pending = s.pending) ∧
  (∀ s t : State, Inv s → step s = .next t →
    s.out <+: t.out ∧ s.dict.claimFuses.toNat ≤ t.dict.claimFuses.toNat ∧ s.free ≤ t.free)

/-- What every state keeps over every step: device memory in its canonical form (strictly rising addresses, no entry equal
to what an unlisted address reads as), every ledger row balanced (accepted = completed + failed + in flight, modulo 2^64),
at most 15 claim number fuses burnt. -/
def Obligations.StepKeepsTheInvariant : Prop :=
  ∀ s t : State, Inv s → step s = .next t → Inv t

/-- What State.reset holds: the invariant; an empty queue; fabric time 0 in state FREE_RUN; every register, shared register and
system register 0, every tile thread IDLE; every counter and every ledger row 0; every dictionary entry at its default; Dawn-0.
That memory reads 0, that every domain is in DAY and which state is called reset is the model's choice (logs 14, 15, 17 and 18). -/
def Obligations.ResetValues : Prop :=
  Inv State.reset ∧ State.reset.pending = [] ∧ State.reset.out = [] ∧ State.reset.clk.ftc = 0 ∧ State.reset.clk.state = 0 ∧
  (∀ t r, getReg State.reset t r = 0) ∧ (∀ t n, sharedReg State.reset t n = 0) ∧
  (∀ t, t < 768 → (thr State.reset t).state = .idle ∧ (thr State.reset t).hold = .none) ∧
  (∀ t, (thr State.reset t).pc = 0 ∧ (thr State.reset t).cs = 0 ∧ (thr State.reset t).spc = 0 ∧ (thr State.reset t).sst = 0 ∧
    (thr State.reset t).ecause = 0 ∧ (thr State.reset t).eaddr = 0 ∧ (thr State.reset t).einst = 0 ∧ (thr State.reset t).wctl = 0 ∧
    (thr State.reset t).tdl = 0) ∧
  (∀ idx sub, ctrVal State.reset idx sub = 0) ∧ (∀ r, ledRow State.reset r = {}) ∧
  (∀ idx sub, entVal State.reset idx sub = entDefault idx sub) ∧ State.reset.dbg.phase = 0 ∧
  (∀ d, domState State.reset d = 0) ∧ (∀ a, tget 0 State.reset.mem.byte a = 0 ∧ tget 0 State.reset.mem.tag a = 0)

/-- The FTC is 0 when AON has powered up, counts with every idle step (whose length is the model's choice, log 16) that brings no
boundary, and a RESET_N changes neither it nor the time state. -/
def Obligations.FabricTimeCountsFromPowerUp : Prop :=
  State.reset.clk.ftc = 0 ∧ (∀ s : State, ∃ s', exec .pwrGoodFall s = .next s' ∧ s'.clk.ftc = 0) ∧
  (∀ (b c : BitVec 2) (s : State), s.dbg.pwrGood = false → ∃ s', exec (.pwrGoodRise b c) s = .next s' ∧ s'.clk.ftc = 0 ∧
    s'.clk.acc = 0 ∧ s'.clk.state = 0) ∧
  (∀ s : State, s.pending = [] → s.dbg.pwrGood = true → now s % 64 < 62 → s.clk.acc < 2 ^ 48 → -(2 ^ 48 : Int) ≤ s.clk.rate →
    s.clk.rate < 2 ^ 48 → (landed s = false) → ∃ t, step s = .next t ∧
    ((t.clk.acc : Int) + 2 ^ 48 * (t.clk.ftc.toNat : Int)) % 2 ^ 128 =
      ((s.clk.acc : Int) + 2 ^ 48 * (s.clk.ftc.toNat : Int) + 65536 * (2 ^ 48 + s.clk.rate)) % 2 ^ 128) ∧
  (∀ (b c : BitVec 2) (s : State), ∃ s', exec (.resetNAssert b c) s = .next s' ∧ s'.clk.ftc = s.clk.ftc ∧ s'.clk.acc = s.clk.acc ∧
    s'.clk.state = s.clk.state)

/-! ### The cores: arithmetic, branches, registers (chapter 07) -/

/-- A read of w0 returns 0, and a write to w0 is discarded; a write to another register is what the next read returns, and
every other register of the thread reads as before. -/
def Obligations.RegisterZeroIsHardWired : Prop :=
  ∀ (t r : Nat) (v : W72) (s : State), getReg s t 0 = 0 ∧
    getReg (setReg t 0 v s) t 0 = 0 ∧ (r ≠ 0 → getReg (setReg t r v s) t r = v) ∧
    (∀ q, q ≠ r → getReg (setReg t r v s) t q = getReg s t q)

/-- Ikievo-72 arithmetic of Table 7-7 and R261: each instruction of three registers writes to rd what the table gives of ra
and rb; shift amounts are bits 6:0, a division by zero and the overflowing division have the results of R261.
Counts, byte reversal, bit fields, shifts and immediates of Table 7-7: each writes to rd what the table gives of ra and
its immediate fields; EXT takes LEN + 1 bits from POS (bits above 71 read 0), SEXT extends from bit POS. -/
def Obligations.RegisterResults : Prop :=
  (RegOp3 .add clsA (fun a b => a + b) ∧
  RegOp3 .sub clsA (fun a b => a - b) ∧
  RegOp3 .andR clsA (fun a b => a &&& b) ∧
  RegOp3 .orR clsA (fun a b => a ||| b) ∧
  RegOp3 .xorR clsA (fun a b => a ^^^ b) ∧
  RegOp3 .andn clsA (fun a b => a &&& ~~~b) ∧
  RegOp3 .shl clsA (fun a b => a <<< (b.toNat % 128)) ∧
  RegOp3 .shr clsA (fun a b => a >>> (b.toNat % 128)) ∧
  RegOp3 .sar clsA (fun a b => a.sshiftRight (b.toNat % 128)) ∧
  RegOp3 .slt clsA (fun a b => if a.toInt < b.toInt then 1 else 0) ∧
  RegOp3 .sltu clsA (fun a b => if a.toNat < b.toNat then 1 else 0) ∧
  RegOp3 .min clsA (fun a b => BitVec.ofInt 72 (min a.toInt b.toInt)) ∧
  RegOp3 .max clsA (fun a b => BitVec.ofInt 72 (max a.toInt b.toInt)) ∧
  RegOp3 .minu clsA (fun a b => BitVec.ofNat 72 (min a.toNat b.toNat)) ∧
  RegOp3 .maxu clsA (fun a b => BitVec.ofNat 72 (max a.toNat b.toNat)) ∧
  RegOp3 .mul clsX (fun a b => BitVec.ofNat 72 (a.toNat * b.toNat)) ∧
  RegOp3 .mulh clsX (fun a b => BitVec.ofInt 72 (a.toInt * b.toInt / 2 ^ 72)) ∧
  RegOp3 .mulhu clsX (fun a b => BitVec.ofNat 72 (a.toNat * b.toNat / 2 ^ 72)) ∧
  RegOp3 .div clsX (fun a b => if b = 0 then BitVec.ofInt 72 (-1) else BitVec.ofInt 72 (a.toInt.tdiv b.toInt)) ∧
  RegOp3 .divu clsX (fun a b => if b = 0 then BitVec.ofInt 72 (-1) else BitVec.ofNat 72 (a.toNat / b.toNat)) ∧
  RegOp3 .rem clsX (fun a b => if b = 0 then a else BitVec.ofInt 72 (a.toInt.tmod b.toInt)) ∧
  RegOp3 .remu clsX (fun a b => if b = 0 then a else BitVec.ofNat 72 (a.toNat % b.toNat))) ∧
  (RegOp2 .clz (fun a => BitVec.ofNat 72 ((List.range 72).takeWhile (fun i => !a.getLsbD (71 - i))).length) ∧
  RegOp2 .ctz (fun a => BitVec.ofNat 72 ((List.range 72).takeWhile (fun i => !a.getLsbD i)).length) ∧
  RegOp2 .popc (fun a => BitVec.ofNat 72 ((List.range 72).filter (fun i => a.getLsbD i)).length) ∧
  RegOp2 .bswap (fun a => BitVec.ofNat 72 ((List.range 8).map (fun i => a.toNat / 256 ^ i % 256 * 256 ^ (7 - i))).sum) ∧
  (∀ pos len : Fin 128, RegOp2 (fun t rd ra => .ext t rd ra pos len)
    (fun a => BitVec.ofNat 72 (a.toNat / 2 ^ pos.val % 2 ^ (len.val + 1)))) ∧
  (∀ pos : Fin 128, RegOp2 (fun t rd ra => .sext t rd ra pos)
    (fun a => (a <<< (71 - pos.val)).sshiftRight (71 - pos.val))) ∧
  (∀ sh : Fin 128, RegOp2 (fun t rd ra => .shli t rd ra sh) (fun a => a <<< sh.val) ∧
    RegOp2 (fun t rd ra => .shri t rd ra sh) (fun a => a >>> sh.val) ∧
    RegOp2 (fun t rd ra => .sari t rd ra sh) (fun a => a.sshiftRight sh.val)) ∧
  (∀ imm : BitVec 18,
    RegOp2 (fun t rd ra => .addi t rd ra imm) (fun a => a + imm.signExtend 72) ∧
    RegOp2 (fun t rd ra => .andi t rd ra imm) (fun a => a &&& imm.zeroExtend 72) ∧
    RegOp2 (fun t rd ra => .ori t rd ra imm) (fun a => a ||| imm.zeroExtend 72) ∧
    RegOp2 (fun t rd ra => .xori t rd ra imm) (fun a => a ^^^ imm.zeroExtend 72) ∧
    RegOp2 (fun t rd ra => .slti t rd ra imm) (fun a => if a.toInt < imm.toInt then 1 else 0) ∧
    RegOp2 (fun t rd ra => .sltiu t rd ra imm) (fun a => if a.toNat < (imm.signExtend 72).toNat then 1 else 0)))

/-- INS writes bits LEN to 0 of ra into rd at POS and keeps rd's other bits; LUI writes its sign-extended immediate shifted
left by 18; RGET and RSET move the register numbered by ra[4:0]; SRGET reads a shared register. -/
def Obligations.InsertUpperAndMoves : Prop :=
  (∀ (t : Fin 776) (rd ra : Fin 32) (pos len : Fin 128) (s : State), canIssue s t.val clsA [rd.val, ra.val] = true →
    ∃ s', exec (.ins t rd ra pos len) s = .next s' ∧ (thr s' t.val).pc = (thr s t.val).pc + 1 ∧ RegFrame t.val rd.val s s' ∧
      (rd.val ≠ 0 → ∀ i, i < 72 → (getReg s' t.val rd.val).getLsbD i =
        if pos.val ≤ i ∧ i ≤ pos.val + len.val then (getReg s t.val ra.val).getLsbD (i - pos.val)
        else (getReg s t.val rd.val).getLsbD i)) ∧
  (∀ (t : Fin 776) (rd : Fin 32) (imm : BitVec 23) (s : State), canIssue s t.val clsA [rd.val] = true →
    ∃ s', exec (.lui t rd imm) s = .next s' ∧ (thr s' t.val).pc = (thr s t.val).pc + 1 ∧ RegFrame t.val rd.val s s' ∧
      getReg s' t.val rd.val = (if rd.val = 0 then 0 else (imm.signExtend 72).shiftLeft 18)) ∧
  (∀ (t : Fin 776) (rd ra : Fin 32) (s : State) (n : Nat), n = (getReg s t.val ra.val).toNat % 32 →
    canIssue s t.val clsS [rd.val, ra.val, n] = true →
    ∃ s', exec (.rget t rd ra) s = .next s' ∧ (thr s' t.val).pc = (thr s t.val).pc + 1 ∧ RegFrame t.val rd.val s s' ∧
      getReg s' t.val rd.val = (if rd.val = 0 then 0 else getReg s t.val n)) ∧
  (∀ (t : Fin 776) (ra rb : Fin 32) (s : State) (n : Nat), n = (getReg s t.val ra.val).toNat % 32 →
    canIssue s t.val clsS [n, ra.val, rb.val] = true →
    ∃ s', exec (.rset t ra rb) s = .next s' ∧ (thr s' t.val).pc = (thr s t.val).pc + 1 ∧ RegFrame t.val n s s' ∧
      getReg s' t.val n = (if n = 0 then 0 else getReg s t.val rb.val)) ∧
  (∀ (t : Fin 776) (rd : Fin 32) (sn : Fin 16) (s : State), canIssue s t.val clsM [rd.val] = true →
    ∃ s', exec (.srget t rd sn) s = .next s' ∧ (thr s' t.val).pc = (thr s t.val).pc + 1 ∧ RegFrame t.val rd.val s s' ∧
      getReg s' t.val rd.val = (if rd.val = 0 then 0 else sharedReg s t.val sn.val))

/-- Compare-and-branch instructions compare all 72 bits and count their target from their own index, modulo 2^17; JAL and
JALR write the index after their own to rd, and JALR reads ra before it writes rd. -/
def Obligations.BranchTargets : Prop :=
  (∀ (t : Fin 776) (ra rb : Fin 32) (ofs : BitVec 18),
    Branches (.beq t ra rb ofs) t [ra.val, rb.val] (fun s => getReg s t.val ra.val = getReg s t.val rb.val) ofs ∧
    Branches (.bne t ra rb ofs) t [ra.val, rb.val] (fun s => getReg s t.val ra.val ≠ getReg s t.val rb.val) ofs ∧
    Branches (.blt t ra rb ofs) t [ra.val, rb.val]
      (fun s => (getReg s t.val ra.val).toInt < (getReg s t.val rb.val).toInt) ofs ∧
    Branches (.bge t ra rb ofs) t [ra.val, rb.val]
      (fun s => (getReg s t.val rb.val).toInt ≤ (getReg s t.val ra.val).toInt) ofs ∧
    Branches (.bltu t ra rb ofs) t [ra.val, rb.val]
      (fun s => (getReg s t.val ra.val).toNat < (getReg s t.val rb.val).toNat) ofs ∧
    Branches (.bgeu t ra rb ofs) t [ra.val, rb.val]
      (fun s => (getReg s t.val rb.val).toNat ≤ (getReg s t.val ra.val).toNat) ofs) ∧
  (∀ (t : Fin 776) (ra : Fin 32) (imm : BitVec 5) (ofs : BitVec 18),
    Branches (.beqi t ra imm ofs) t [ra.val] (fun s => getReg s t.val ra.val = imm.signExtend 72) ofs ∧
    Branches (.bnei t ra imm ofs) t [ra.val] (fun s => getReg s t.val ra.val ≠ imm.signExtend 72) ofs ∧
    Branches (.blti t ra imm ofs) t [ra.val] (fun s => (getReg s t.val ra.val).toInt < imm.toInt) ofs ∧
    Branches (.bgei t ra imm ofs) t [ra.val] (fun s => imm.toInt ≤ (getReg s t.val ra.val).toInt) ofs) ∧
  (∀ (t : Fin 776) (rd : Fin 32) (ofs : BitVec 23) (s : State), canIssue s t.val clsB [rd.val] = true →
    ∃ s', exec (.jal t rd ofs) s = .next s' ∧ (thr s' t.val).pc = (thr s t.val).pc + ofs.truncate 17 ∧
      getReg s' t.val rd.val = (if rd.val = 0 then 0 else ((thr s t.val).pc + 1).zeroExtend 72) ∧ RegFrame t.val rd.val s s') ∧
  (∀ (t : Fin 776) (rd ra : Fin 32) (imm : BitVec 18) (s : State), canIssue s t.val clsB [rd.val, ra.val] = true →
    ∃ s', exec (.jalr t rd ra imm) s = .next s' ∧
      (thr s' t.val).pc = (getReg s t.val ra.val + imm.signExtend 72).truncate 17 ∧
      getReg s' t.val rd.val = (if rd.val = 0 then 0 else ((thr s t.val).pc + 1).zeroExtend 72) ∧ RegFrame t.val rd.val s s')

/-- SRSET, SRSWAP, SRADD and SRFOR change one shared register of the thread's core in one action: rd takes its old value,
every other thread of the core that watches it has WATCH set whether or not the value changes, and nothing else of the
machine moves but the issue's own bookkeeping. -/
def Obligations.SharedRegisterOperations : Prop :=
  (∀ (t : Fin 776) (ra : Fin 32) (sn : Fin 16) (s : State), canIssue s t.val clsM [0, ra.val] = true →
    ∃ s', exec (.srset t ra sn) s = .next s' ∧ SharedWrite t.val 0 sn.val (getReg s t.val ra.val) s s') ∧
  (∀ (t : Fin 776) (rd ra : Fin 32) (sn : Fin 16) (s : State), canIssue s t.val clsM [rd.val, ra.val] = true →
    (∃ s', exec (.srswap t rd ra sn) s = .next s' ∧ SharedWrite t.val rd.val sn.val (getReg s t.val ra.val) s s') ∧
    (∃ s', exec (.sradd t rd ra sn) s = .next s' ∧
      SharedWrite t.val rd.val sn.val (sharedReg s t.val sn.val + getReg s t.val ra.val) s s') ∧
    (∃ s', exec (.srfor t rd ra sn) s = .next s' ∧
      SharedWrite t.val rd.val sn.val (sharedReg s t.val sn.val ||| getReg s t.val ra.val) s s'))


/-! ### The cores: memory (chapters 07, 08) -/

/-- The loads of Table 7-7 at a store beside the core: LD8 to LD64 sign-extend, LD8U to LD64U zero-extend what the bytes at the
effective address spell with the lowest address least significant, LDW reads the whole 72-bit word, LDTAG its tag. An SRAM word
whose one bad bit SECDED corrects is read as it was and counted; one it cannot correct is poisoned and logged, and the load
faults POISON. -/
def Obligations.LoadsReadTheirBytes : Prop :=
  LoadOp .ld8 0x40 (fun b _ => BitVec.ofInt 72 (BitVec.ofNat 8 (b 1)).toInt) ∧
  LoadOp .ld8u 0x41 (fun b _ => BitVec.ofNat 72 (b 1)) ∧
  LoadOp .ld16 0x42 (fun b _ => BitVec.ofInt 72 (BitVec.ofNat 16 (b 2)).toInt) ∧
  LoadOp .ld16u 0x43 (fun b _ => BitVec.ofNat 72 (b 2)) ∧
  LoadOp .ld32 0x44 (fun b _ => BitVec.ofInt 72 (BitVec.ofNat 32 (b 4)).toInt) ∧
  LoadOp .ld32u 0x45 (fun b _ => BitVec.ofNat 72 (b 4)) ∧
  LoadOp (fun t rd ra disp => .ld64 t rd ra ⟨disp, 0⟩) 0x46 (fun b _ => BitVec.ofInt 72 (BitVec.ofNat 64 (b 8)).toInt) ∧
  LoadOp .ld64u 0x47 (fun b _ => BitVec.ofNat 72 (b 8)) ∧
  LoadOp .ldw 0x48 (fun b tag => tag ++ BitVec.ofNat 64 (b 8)) ∧
  LoadOp .ldtag 0x4E (fun _ tag => tag.zeroExtend 72) ∧
  (∀ (t : Fin 776) (rd ra : Fin 32) (disp : BitVec 18) (s : State) (ea k : Nat),
    ea = (getReg s t.val ra.val + disp.signExtend 72).toNat % 2 ^ 48 → canIssue s t.val clsM [rd.val, ra.val] = true →
    ReadsAtHome s t.val 0x46 ea → ea % 8 = 0 → sramPlace (unalias (coreOf t.val) ea) = some k →
    (∃ s', exec (.ld64 t rd ra ⟨disp, 1⟩) s = .next s' ∧ ctrVal s' 0xC0C0 0x10 = ctrVal s 0xC0C0 0x10 + 1 ∧
      getReg s' t.val rd.val = (if rd.val = 0 then 0 else BitVec.ofInt 72 (BitVec.ofNat 64 (spelled s t.val ea 8)).toInt) ∧
      (thr s' t.val).pc = (thr s t.val).pc + 1 ∧ s'.mem = s.mem) ∧
    (stIH (thr s t.val).st = false → (thr s t.val).shadow = none →
      ∃ s', exec (.ld64 t rd ra ⟨disp, 2⟩) s = .next s' ∧ ctrVal s' 0xC0C0 0x11 = ctrVal s 0xC0C0 0x11 + 1 ∧
        memTag s' (unalias (coreOf t.val) ea) = memTag s (unalias (coreOf t.val) ea) ||| 0x80 ∧
        (∀ a, memByte s' a = memByte s a) ∧ (∀ a, a / 8 ≠ unalias (coreOf t.val) ea / 8 → memTag s' a = memTag s a) ∧
        (s.bufs.plog.length < 16 → s'.bufs.plog = s.bufs.plog ++ [natLE 8 (unalias (coreOf t.val) ea / 8 * 8) ++ [1] ++ natLE 1 k ++
          zeros 6 ++ natLE 8 (now s)]) ∧
        bf (thr s' t.val).ecause.toNat 8 8 = 0x0E ∧ (thr s' t.val).eaddr = BitVec.ofNat 48 ea ∧
        (thr s' t.val).spc = (thr s t.val).pc ∧ (∀ r, getReg s' t.val r = getReg s t.val r)))

/-- A load from HBM is posted: it issues, the thread goes on with its registers as they were, and the load waits in the
thread's list with what its bytes spell (its word, for LDW and LDTAG).
The answer of a thread's oldest posted load to a register: the load leaves the list and its register takes the value (what
the HBM held, or the completion's bytes but where the thread's own stores covered them); a poisoned or failed one writes no
register and leaves a deferred fault with its address and word instead.
Where the spec is silent it rests on the model's choices of logs 28 and 29. -/
def Obligations.HbmLoads : Prop :=
  (∀ x ∈ ([(0x40, .ld8), (0x41, .ld8u), (0x42, .ld16), (0x43, .ld16u), (0x44, .ld32), (0x45, .ld32u), (0x46, fun t rd ra disp => .ld64 t rd ra ⟨disp, 0⟩),
      (0x47, .ld64u), (0x48, .ldw), (0x4E, .ldtag)] : List (Nat × (Fin 776 → Fin 32 → Fin 32 → BitVec 18 → Instr))),
  ∀ (t : Fin 776) (rd ra : Fin 32) (disp : BitVec 18) (s : State) (ea : Nat),
    ea = (getReg s t.val ra.val + disp.signExtend 72).toNat % 2 ^ 48 → canIssue s t.val clsM [rd.val, ra.val] = true →
    memFault s t.val x.1 ea = none → (coreSt s (coreOf t.val)).sb.length ≤ 8 → (thr s t.val).posted.length < 8 →
    ((coreThreads (coreOf t.val)).map (fun v => (thr s v).posted.length)).sum < 32 →
    (∀ p ∈ memParts x.1 ea, regionOf (unalias (coreOf t.val) p.1) = .hbm ∧
      ∀ e ∈ storesOf s t.val, e.addr ≠ unalias (coreOf t.val) p.1 / 8 * 8) →
    ∃ s', exec (x.2 t rd ra disp) s = .next s' ∧ (thr s' t.val).pc = (thr s t.val).pc + 1 ∧
      (∀ r, getReg s' t.val r = getReg s t.val r) ∧ ThreadFrame t.val s s' ∧
      ∃ p, (thr s' t.val).posted = (thr s t.val).posted ++ [p] ∧ p.rd = rd.val ∧ p.op = x.1 ∧ p.ea = ea ∧ p.host = false ∧
        p.val = (if x.1 = 0x48 ∨ x.1 = 0x4E then memTag s ea ++ BitVec.ofNat 64 (spelled s t.val ea 8)
          else BitVec.ofNat 72 (spelled s t.val ea (memWidth x.1)))) ∧
  (∀ (t : Fin 776) (rd : Fin 32) (data : W64) (err : Bool) (s : State) (p : Posted),
    (thr s t.val).posted.find? (fun q => decide (q.rd = rd.val)) = some p → s.dbg.fstate ≤ 1 → (thr s t.val).hold = .none →
    ((p.poison || (p.host && err)) = false →
      exec (.postedLoadReturn t rd data err) s = .next (setReg t.val rd.val
        (loadValue p.op (if p.host then mixBytes p.own p.val.toNat data.toNat else p.val.toNat))
        (modThr t.val (fun x => { x with posted := x.posted.filter (fun q => decide (q.seq ≠ p.seq)) }) s))) ∧
    ((p.poison || (p.host && err)) = true →
      ∃ ps, (p.ea, p.word, p.seq) ∈ ps ∧ (∀ q, q ∈ ps ↔ q = (p.ea, p.word, p.seq) ∨ q ∈ (thr s t.val).poisons) ∧
        exec (.postedLoadReturn t rd data err) s = .next (modThr t.val (fun x => { x with
          posted := x.posted.filter (fun q => decide (q.seq ≠ p.seq)), poisons := ps }) s)))

/-- Stores go to the core's store buffer and change no memory yet: ST8 to ST64 one entry for each word they touch, STW the whole
word with its tag, STTAG a tag.
The store buffer drains from its head: the entry leaves the buffer, its bytes (all eight, and the tag, of a whole word; the
tag of an STTAG) are in memory at its word, and every other byte and every other word's tag reads as before. An STTAG at U
keeps a P of 1. A word that is written whole as data loses its poison mark and keeps the rest of its tag. A load that stands
at a full word is answered with what the word holds before the store. -/
def Obligations.StoresAndTheirBuffer : Prop :=
  (StoreOp .st8 0x49 (dataEntries 1) ∧
  StoreOp .st16 0x4A (dataEntries 2) ∧
  StoreOp .st32 0x4B (dataEntries 4) ∧
  StoreOp .st64 0x4C (dataEntries 8) ∧
  StoreOp .stw 0x4D (fun s t ea v => [entryOf s t ea 1 0xFF v]) ∧
  StoreOp .sttag 0x4F (fun s t ea v => [entryOf s t ea 2 0 v])) ∧
  (∀ (core : Fin 97) (bad : Bool) (s : State) (e : SbEnt) (es : List SbEnt),
    (coreSt s core.val).sb = e :: es → s.dbg.fstate ≤ 1 → (thr s (threadOn core.val e.thr)).hold = .none →
    e.addr % 8 = 0 → feHead s e.addr = none → (regionOf e.addr = .sram ∨ (∃ n, regionOf e.addr = .tileStore n) ∨ (∃ n, regionOf e.addr = .nearStore n) ∨
      (regionOf e.addr = .hbm ∧ hbmRetired s e.addr = false ∧ hbmFailed s e.addr = false)) →
    ∃ s', exec (.storeBufferDrain core bad) s = .next s' ∧ (coreSt s' core.val).sb = es ∧
      (∀ a, a / 8 ≠ e.addr / 8 → memByte s' a = memByte s a ∧ memTag s' a = memTag s a) ∧
      (e.kind = 0 → ∀ i < 8, memByte s' (e.addr + i) =
        (if e.mask.getLsbD i then e.data.extractLsb' (8 * i) 8 else memByte s (e.addr + i))) ∧
      (e.kind = 0 → memTag s' e.addr = (if e.mask = 0xFF then memTag s e.addr &&& 0x7F else memTag s e.addr)) ∧
      (e.kind = 1 → memWord s' e.addr = e.data) ∧
      (e.kind = 2 → (∀ i < 8, memByte s' (e.addr + i) = memByte s (e.addr + i)) ∧ memTag s' e.addr =
        (if e.lvl = 0 then e.data.extractLsb' 0 8 ||| (memTag s e.addr &&& 0x80) else e.data.extractLsb' 0 8)) ∧
      (e.kind = 3 → (∀ i < 8, memByte s' (e.addr + i) = e.data.extractLsb' (8 * i) 8) ∧
        memTag s' e.addr = (memTag s e.addr &&& 0x7F) ||| 0x40) ∧
      { s' with mem := s.mem, cpu := { s'.cpu with core := [] } } = { s with cpu := { s.cpu with core := [] } } ∧
      (∀ c, c ≠ core.val → { coreSt s' c with ic := [] } = { coreSt s c with ic := [] } ∧
        (regionOf e.addr ≠ .sram → coreSt s' c = coreSt s c))) ∧
  (∀ (core : Fin 97) (bad : Bool) (s : State) (e : SbEnt) (es : List SbEnt) (v rd ea : Nat) (take : Bool),
    (coreSt s core.val).sb = e :: es → s.dbg.fstate ≤ 1 → (thr s (threadOn core.val e.thr)).hold = .none →
    e.addr % 8 = 0 → e.kind = 3 → (∃ n, regionOf e.addr = .tileStore n) → s.cpu.fe = [v] → (thr s v).hold = .full rd ea take →
    v ∉ s.hbm.noWatch.map (·.2) → unalias (coreOf v) ea = e.addr → tagF (memTag s e.addr) = true → tagP (memTag s e.addr) = false →
    ∃ s', exec (.storeBufferDrain core bad) s = .next s' ∧ (coreSt s' core.val).sb = es ∧
      getReg s' v rd = (if rd = 0 then 0 else (memData s e.addr).zeroExtend 72) ∧ (thr s' v).hold = .none ∧ s'.cpu.fe = [] ∧
      memData s' e.addr = e.data.extractLsb' 0 64 ∧ tagF (memTag s' e.addr) = true)


/-- Where the head of a store buffer goes when it is not a plain store of bytes: a store to unit space is performed by its unit,
waits while the unit's domain is not in DAY, and is discarded when it sleeps; a store to a retired stack is discarded; one to a
host window is sent to the host when its translation is at hand, and asks for it when it is not; a whole word written to a code
store leaves no copy of its line in the instruction caches of the tile; nothing drains while the clocks stand.
Where the spec is silent it rests on the model's choices of logs 31 and 72. -/
def Obligations.StoreBufferTargets : Prop :=
  ∀ (core : Fin 97) (bad : Bool) (s : State) (e : SbEnt) (es : List SbEnt), (coreSt s core.val).sb = e :: es →
    (2 ≤ s.dbg.fstate → exec (.storeBufferDrain core bad) s = .next s) ∧
    (s.dbg.fstate ≤ 1 → (thr s (threadOn core.val e.thr)).hold = .none →
      (∀ u off, regionOf e.addr = .unitSpace u off →
        (unitHeld s u off = true → exec (.storeBufferDrain core bad) s = .next s) ∧
        (unitHeld s u off = false → unitOff s u off = true →
          exec (.storeBufferDrain core bad) s = .next (modCore core.val (fun c => { c with sb := es }) s))) ∧
      (regionOf e.addr = .hbm → hbmRetired s e.addr = true →
        exec (.storeBufferDrain core bad) s = .next (modCore core.val (fun c => { c with sb := es }) s)) ∧
      (∀ n, regionOf e.addr = .codeStore n → e.kind = 1 → e.addr % 8 = 0 →
        ∃ s', exec (.storeBufferDrain core bad) s = .next s' ∧ (coreSt s' core.val).sb = es ∧ memWord s' e.addr = e.data ∧
          (∀ a, a / 8 ≠ e.addr / 8 → memByte s' a = memByte s a) ∧
          ∀ c, c / 8 = n → ∀ set, (e.addr - 0xE200000000) % 0x80000 / 64 ∉ tget [] (coreSt s' c).ic set ∨
            set ≠ (e.addr - 0xE200000000) % 0x80000 / 64 % 128) ∧
      (regionOf e.addr = .hostWin → e.kind = 0 → e.mask = 0xFF →
        ∀ p, apCheck s true (decide (e.lvl = 0)) e.pasid e.addr = (0, p) → p.addr < 2 ^ 64 →
        (translate s p true = none → xsbId core.val ∉ s.host.denied →
          exec (.storeBufferDrain core bad) s = .next (requestXlate p true (.other (xsbId core.val)) s)) ∧
        (∀ phys, translate s p true = some phys →
          ∃ s', exec (.storeBufferDrain core bad) s = .next s' ∧ (coreSt s' core.val).sb = es ∧ s'.mem = s.mem ∧
            s'.out = s.out ++ [.hostWrite (p.func / 128) (p.func % 128) (sentPasid s p) phys
              ((List.range 8).map (fun i => e.data.extractLsb' (8 * i) 8))])))

/-- An eight-byte load of unit space issues and then holds its thread; once the thread's older stores have drained and the
unit's domain is in DAY, the unit answers: the thread takes the value and goes on, or waits on with what the unit did, or, with
the domain asleep, faults UNIT_OFF. A store checked against its unit is performed at once, or faults, or waits.
Where the spec is silent it rests on the model's choices of logs 30 and 32. -/
def Obligations.UnitSpaceAccesses : Prop :=
  (∀ x ∈ ([(0x46, fun t rd ra disp => .ld64 t rd ra ⟨disp, 0⟩), (0x47, .ld64u), (0x48, .ldw)] : List (Nat × (Fin 776 → Fin 32 → Fin 32 → BitVec 18 → Instr))),
    ∀ (t : Fin 776) (rd ra : Fin 32) (disp : BitVec 18) (s : State) (ea u off : Nat),
    ea = (getReg s t.val ra.val + disp.signExtend 72).toNat % 2 ^ 48 → canIssue s t.val clsM [rd.val, ra.val] = true →
    memFault s t.val x.1 ea = none → (coreSt s (coreOf t.val)).sb.length ≤ 8 → regionOf ea = .unitSpace u off →
    ∃ s' m, exec (x.2 t rd ra disp) s = .next s' ∧ (thr s' t.val).hold = .unit m ∧ m.op = x.1 ∧ m.rd = rd.val ∧ m.ea = ea ∧
      (thr s' t.val).pc = (thr s t.val).pc ∧ (∀ r, getReg s' t.val r = getReg s t.val r) ∧ ThreadFrame t.val s s') ∧
  (∀ (t : Fin 776) (bad : Bool) (s : State) (m : MemOp) (u off : Nat), s.dbg.fstate ≤ 1 → (thr s t.val).hold = .unit m →
    regionOf (unalias (coreOf t.val) m.ea) = .unitSpace u off →
    (storesOf s t.val ≠ [] ∨ unitHeld s u off = true → exec (.unitLoadReturn t bad) s = .next s) ∧
    (storesOf s t.val = [] → unitHeld s u off = false →
      (unitOff s u off = true → exec (.unitLoadReturn t bad) s =
        .next (faultAddr t.val 0x0B m.ea (modThr t.val (fun x => { x with hold := .none }) s))) ∧
      (unitOff s u off = false →
        (∀ v s1, unitLoad t.val u off bad s = .value v s1 → ∃ s', exec (.unitLoadReturn t bad) s = .next s' ∧
          getReg s' t.val m.rd = (if m.rd = 0 then 0 else loadValue m.op v.toNat) ∧ (thr s' t.val).hold = .none ∧
          (thr s' t.val).pc = (thr s1 t.val).pc + 1 ∧ restOf s' = restOf s1) ∧
        (∀ s1, unitLoad t.val u off bad s = .wait s1 → exec (.unitLoadReturn t bad) s = .next s1)))) ∧
  (∀ (t : Fin 776) (addr : BitVec 48) (size : Fin 4) (v : W64) (bad : Bool) (s : State) (u off : Nat),
    canIssue s t.val clsM [] = true → regionOf addr.toNat = .unitSpace u off →
    (∀ f, partFault s t.val (storeOp (2 ^ size.val)) addr.toNat = some f →
      exec (.unitRegisterWrite t addr size v bad) s = .next (faultAddr t.val f.2 addr.toNat s)) ∧
    (partFault s t.val (storeOp (2 ^ size.val)) addr.toNat = none →
      (unitHeld s u off = true ∨ storesOf s t.val ≠ [] → exec (.unitRegisterWrite t addr size v bad) s = .next s) ∧
      (unitHeld s u off = false → storesOf s t.val = [] →
        exec (.unitRegisterWrite t addr size v bad) s = .next (unitStore t.val u off v.toNat bad s))))

/-- Full and empty words: LDF of a full word takes its data and leaves it full, LDFE leaves it empty, a poisoned word faults POISON
at its address, and an empty one, or one that an older request stands at, makes the thread wait at its instruction; STF puts a store that fills its word behind the
thread's earlier stores. No other word changes. -/
def Obligations.FullEmptyInstructions : Prop :=
  (∀ x ∈ ([(0x50, .ldf), (0x51, .ldfe)] : List (Nat × (Fin 776 → Fin 32 → Fin 32 → BitVec 18 → Instr))),
    ∀ (t : Fin 776) (rd ra : Fin 32) (disp : BitVec 18) (s : State) (ea p : Nat),
    ea = (getReg s t.val ra.val + disp.signExtend 72).toNat % 2 ^ 48 → p = unalias (coreOf t.val) ea →
    canIssue s t.val clsM [rd.val, ra.val] = true → memFault s t.val x.1 ea = none →
    (coreSt s (coreOf t.val)).sb.length ≤ 8 → (∀ e ∈ storesOf s t.val, e.addr ≠ p / 8 * 8) → hbmFailed s p = false →
    (tagP (memTag s p) = true ∧ feHead s p = none → stIH (thr s t.val).st = false ∧ (thr s t.val).shadow = none) →
    ∃ s', exec (x.2 t rd ra disp) s = .next s' ∧ (∀ r, r ≠ rd.val → getReg s' t.val r = getReg s t.val r) ∧
      (∀ a, memByte s' a = memByte s a) ∧ (∀ a, a / 8 ≠ p / 8 → memTag s' a = memTag s a) ∧
      (tagP (memTag s p) = false → tagF (memTag s p) = true → feHead s p = none → (thr s' t.val).pc = (thr s t.val).pc + 1 ∧
        getReg s' t.val rd.val = (if rd.val = 0 then 0 else (memData s p).zeroExtend 72) ∧
        memTag s' p = (if x.1 = 0x51 then memTag s p &&& 0xBF else memTag s p)) ∧
      (tagP (memTag s p) = false ∧ tagF (memTag s p) = false ∨ feHead s p ≠ none → (thr s' t.val).pc = (thr s t.val).pc ∧
        (thr s' t.val).hold = .full rd.val ea (decide (x.1 = 0x51)) ∧ getReg s' t.val rd.val = getReg s t.val rd.val ∧
        memTag s' p = memTag s p ∧ t.val ∈ s'.cpu.fe) ∧
      (tagP (memTag s p) = true → feHead s p = none → memTag s' p = memTag s p ∧
        (thr s' t.val).eaddr = BitVec.ofNat 48 ea ∧ (thr s' t.val).einst = 0 ∧ bf (thr s' t.val).ecause.toNat 8 8 = 0x0E ∧
        (thr s' t.val).spc = (thr s t.val).pc)) ∧
  (∀ (t : Fin 776) (rs ra : Fin 32) (disp : BitVec 18) (s : State) (ea : Nat),
    ea = (getReg s t.val ra.val + disp.signExtend 72).toNat % 2 ^ 48 → canIssue s t.val clsM [rs.val, ra.val] = true →
    memFault s t.val 0x52 ea = none → (coreSt s (coreOf t.val)).sb.length < 8 →
    ∃ s', exec (.stf t rs ra disp) s = .next s' ∧ (∀ r, getReg s' t.val r = getReg s t.val r) ∧ s'.mem = s.mem ∧
      CoreFrame t.val s s' ∧
      (storesOf s t.val = [] → (thr s' t.val).pc = (thr s t.val).pc + 1 ∧ ∃ e, (coreSt s' (coreOf t.val)).sb =
        (coreSt s (coreOf t.val)).sb ++ [e] ∧ e.kind = 3 ∧ e.addr = unalias (coreOf t.val) ea ∧ e.data = getReg s t.val rs.val) ∧
      (storesOf s t.val ≠ [] → (thr s' t.val).pc = (thr s t.val).pc ∧ (coreSt s' (coreOf t.val)).sb = (coreSt s (coreOf t.val)).sb ∧
        (thr s' t.val).hold = .stf (unalias (coreOf t.val) ea) (getReg s t.val rs.val)))

/-- A thread that waits on a word is answered when the word is full and no older request to the word waits; a request that found
no watch entry is counted each time it tries again, and takes an entry, behind those that wait, once the stack has one; a load squashed by older stores is
done again when they have drained; a line enters its set of the instruction cache first of at most four. -/
def Obligations.WaitersAndReplays : Prop :=
  (∀ (t : Fin 776) (s : State) (rd ea p : Nat) (take : Bool), (thr s t.val).hold = .full rd ea take → p = unalias (coreOf t.val) ea →
    tagP (memTag s p) = false → hbmFailed s p = false → regionOf p ≠ .rom →
    (s.dbg.fstate ≤ 1 → tagF (memTag s p) = true → t.val ∉ s.hbm.noWatch.map (·.2) →
      (∃ l r, s.cpu.fe = l ++ t.val :: r ∧ ∀ v ∈ l, ∀ rd' ea' take', (thr s v).hold = .full rd' ea' take' → unalias (coreOf v) ea' ≠ p) →
      ∃ s', exec (.fullEmptyAnswer t) s = .next s' ∧ getReg s' t.val rd = (if rd = 0 then 0 else (memData s p).zeroExtend 72) ∧
        memTag s' p = (if take then memTag s p &&& 0xBF else memTag s p) ∧ (∀ a, a / 8 ≠ p / 8 → memTag s' a = memTag s a) ∧
        (∀ a, memByte s' a = memByte s a) ∧ (thr s' t.val).hold = .none ∧ (thr s' t.val).pc = (thr s t.val).pc + 1 ∧
        t.val ∉ s'.cpu.fe) ∧
    (∀ k, s.hbm.noWatch.find? (fun w => decide (w.2 = t.val)) = some (k, t.val) → tagF (memTag s p) = false →
      ((s.hbm.watch.filter (fun w => decide (w.1 = k))).length < 1024 →
        exec (.watchRetry t) s = .next (modCpu (fun c => { c with fe := c.fe.filter (fun v => decide (v ≠ t.val)) ++ [t.val] })
          (modHbm (fun h => { h with watch := h.watch ++ [(k, t.val)], noWatch := h.noWatch.filter (fun w => decide (w.2 ≠ t.val)) })
            (bump (0xC0D0 + k) 0x15 s)))) ∧
      (1024 ≤ (s.hbm.watch.filter (fun w => decide (w.1 = k))).length →
        exec (.watchRetry t) s = .next (bump (0xC0D0 + k) 0x15 s)))) ∧
  (∀ (t : Fin 776) (s : State) (m : MemOp), (thr s t.val).hold = .replay m → s.dbg.fstate ≤ 1 →
    m.op ≤ 0x48 ∨ m.op = 0x4E → ReadsAtHome s t.val m.op m.ea →
    ∃ s', exec (.loadReplay t) s = .next s' ∧ (thr s' t.val).hold = .none ∧ (thr s' t.val).pc = (thr s t.val).pc + 1 ∧
      getReg s' t.val m.rd = (if m.rd = 0 then 0 else loadValue m.op (memRaw s t.val m.op m.ea)) ∧ ThreadFrame t.val s s') ∧
  (∀ (core : Fin 97) (line : BitVec 13) (s : State), s.dbg.fstate ≤ 1 →
    ∃ s', exec (.icacheFill core line) s = .next s' ∧
      (line.toNat ∈ tget [] (coreSt s core.val).ic (line.toNat % 128) → s' = s) ∧
      (line.toNat ∉ tget [] (coreSt s core.val).ic (line.toNat % 128) →
        tget [] (coreSt s' core.val).ic (line.toNat % 128) =
          line.toNat :: (tget [] (coreSt s core.val).ic (line.toNat % 128)).take 3 ∧
        (∀ set, set ≠ line.toNat % 128 → tget [] (coreSt s' core.val).ic set = tget [] (coreSt s core.val).ic set) ∧
        { coreSt s' core.val with ic := (coreSt s core.val).ic } = coreSt s core.val ∧
        (∀ c, c ≠ core.val → coreSt s' c = coreSt s c) ∧ { s' with cpu := { s'.cpu with core := s.cpu.core }, ctr := s.ctr } = s))

/-! ### The cores: waits, system registers, channels, events (chapters 07, 09) -/

/-- WFE and WAIT return at once with the pending sources that are armed (0 when none is armed), clearing the SIG and WATCH they
report; otherwise the thread waits at its instruction, WAIT with the vote st.PM, WFE with none, until WAIT_WAKE finds a source.
SIG sets SIG of each thread of its core that ra[7:0] names and that is not IDLE; it changes nothing else of any other thread
and goes on. -/
def Obligations.WaitsAndSignals : Prop :=
  ((∀ (t : Fin 776) (rd : Fin 32) (s : State) (i : Instr) (vote : Nat), canIssue s t.val clsS [rd.val] = true →
    (i = .wfe t rd ∧ vote = 0 ∨ i = .wait t rd ∧ vote = bf (thr (commitCpx t.val s) t.val).st.toNat 4 2) →
    ((thr s t.val).wctl.toNat % 32 = 0 ∨ wakeBits s t.val ≠ 0 →
      ∃ s', exec i s = .next s' ∧ getReg s' t.val rd.val = (if rd.val = 0 then 0 else BitVec.ofNat 72 (wakeBits s t.val)) ∧
        (∀ r, r ≠ rd.val → getReg s' t.val r = getReg s t.val r) ∧ (thr s' t.val).pc = (thr s t.val).pc + 1 ∧
        (thr s' t.val).sig = ((thr s t.val).sig && !bit (wakeBits s t.val) 0) ∧
        (thr s' t.val).watch = ((thr s t.val).watch && !bit (wakeBits s t.val) 1) ∧ (thr s' t.val).hold = .none ∧
        CoreFrame t.val s s') ∧
    ((thr s t.val).wctl.toNat % 32 ≠ 0 → wakeBits s t.val = 0 →
      ∃ s', exec i s = .next s' ∧ (thr s' t.val).hold = .wake rd.val vote ∧ (thr s' t.val).pc = (thr s t.val).pc ∧
        (∀ r, getReg s' t.val r = getReg s t.val r) ∧ (∀ u, u ≠ t.val → thr s' u = thr s u) ∧
        (t.val < 768 → s'.mem = s.mem))) ∧
  (∀ (t : Fin 776) (rd v : Nat) (s : State), (thr s t.val).hold = .wake rd v → wakeBits s t.val ≠ 0 →
    isHalted (thr s t.val) = false → pairDay s t.val = true → s.dbg.fstate ≤ 1 →
    ∃ s', exec (.waitWake t) s = .next s' ∧ getReg s' t.val rd = (if rd = 0 then 0 else BitVec.ofNat 72 (wakeBits s t.val)) ∧
      (∀ r, r ≠ rd → getReg s' t.val r = getReg s t.val r) ∧ (thr s' t.val).pc = (thr s t.val).pc + 1 ∧
      (thr s' t.val).sig = ((thr s t.val).sig && !bit (wakeBits s t.val) 0) ∧
      (thr s' t.val).watch = ((thr s t.val).watch && !bit (wakeBits s t.val) 1) ∧ (thr s' t.val).hold = .none ∧
      CoreFrame t.val s s') ∧
  (∀ (t : Fin 776) (rd v : Nat) (s : State), (thr s t.val).hold = .wake rd v → wakeBits s t.val = 0 →
    exec (.waitWake t) s = .next s) ∧
  (∀ (t : Fin 776) (s : State), (thr s t.val).tdl ≠ 0 → (thr s t.val).timer = false → s.clk.frozen = none →
    exec (.threadDeadline t) s = .next (if timedBoundary (thr s t.val).tdl.toNat (thr s t.val).tdlSet ≤ fireAt s
      then modThr t.val (fun x => { x with timer := true }) s else s))) ∧
  (∀ (t : Fin 776) (ra : Fin 32) (s : State), canIssue s t.val clsS [0, ra.val] = true →
    ∃ s', exec (.sig t ra) s = .next s' ∧ (thr s' t.val).pc = (thr s t.val).pc + 1 ∧
      (∀ r, getReg s' t.val r = getReg s t.val r) ∧
      (thr s' t.val).sig = ((thr s t.val).sig || (getReg s t.val ra.val).getLsbD (t.val % 8)) ∧
      (∀ u, u ≠ t.val → thr s' u = if u ∈ coreThreads (coreOf t.val) ∧ (getReg s t.val ra.val).getLsbD (u % 8) = true ∧
        (thr s u).state ≠ .idle then { thr s u with sig := true } else thr s u) ∧
      restOf s' = restOf s ∧ (∀ k, k / 256 ≠ 0xC070 + t.val / 64 → tget 0 s'.ctr k = tget 0 s.ctr k))

/-- GETSR reads the register its index names (Tables 7-3 and 9-3), in the state that a coprocessor instruction before it leaves
when it commits, RESERVED_OP for an index that names none, PRIV at U for one that
only S and M read.
Where the spec is silent it rests on the model's choices of log 25. -/
def Obligations.SystemRegisterReads : Prop :=
  ∀ (t : Fin 776) (rd : Fin 32) (idx : Fin 256) (s u : State), canIssue s t.val clsS [rd.val] = true → u = commitCpx t.val s →
    (∀ v, (level u t.val ≠ 0 ∨ idx.val ∈ [0x00, 0x01, 0x07, 0x08, 0x09, 0x0A, 0x0C, 0x0D, 0x0F]) →
      (idx.val, v) ∈ [(0x00, (stOf u t.val).zeroExtend 72),
        (0x01, BitVec.ofNat 72 (((thr s t.val).cs.toNat &&& 0xFFFF000F) + busyUnits u t.val * 2 ^ 8)), (0x02, (thr s t.val).spc.zeroExtend 72),
        (0x03, (thr s t.val).sst.zeroExtend 72), (0x04, (thr s t.val).ecause.zeroExtend 72),
        (0x05, (thr s t.val).eaddr.zeroExtend 72), (0x06, (thr s t.val).einst.zeroExtend 72),
        (0x07, BitVec.ofNat 72 ((ensOf s t.val).toNat + (thr u t.val).enu.toNat * 2 ^ 8)),
        (0x08, (thr s t.val).wctl.zeroExtend 72), (0x09, BitVec.ofNat 72 (wpend s t.val)), (0x0A, (thr s t.val).tdl.zeroExtend 72),
        (0x0B, BitVec.ofNat 72 ((thr s t.val).evbase.toNat * 16)), (0x0C, (thr s t.val).chsel.zeroExtend 72),
        (0x0D, BitVec.ofNat 72 (chstat s t.val)), (0x0F, (thr s t.val).charm.zeroExtend 72), (0x10, tget 0 (thr s t.val).scr 0),
        (0x11, tget 0 (thr s t.val).scr 1), (0x12, tget 0 (thr s t.val).scr 2), (0x13, tget 0 (thr s t.val).scr 3)] →
      ∃ s', exec (.getsr t rd idx) s = .next s' ∧ getReg s' t.val rd.val = (if rd.val = 0 then 0 else v) ∧
        (thr s' t.val).pc = (thr s t.val).pc + 1 ∧ RegFrame t.val rd.val s s') ∧
    (stIH (thr s t.val).st = false → (thr s t.val).shadow = none →
      (0x13 < idx.val → ∃ s', exec (.getsr t rd idx) s = .next s' ∧ EntersFault t.val 0x01 (thr s t.val).pc.toNat s s' ∧
        (thr s' t.val).einst = BitVec.ofNat 36 (0x68 * 2 ^ 28 + rd.val * 2 ^ 23 + idx.val)) ∧
      (level s t.val = 0 → (2 ≤ idx.val ∧ idx.val ≤ 6) ∨ idx.val = 0x0B ∨ (0x10 ≤ idx.val ∧ idx.val ≤ 0x13) →
        ∃ s', exec (.getsr t rd idx) s = .next s' ∧ EntersFault t.val 0x03 (thr s t.val).pc.toNat s s'))

/-- SETSR writes the register its index names where its checks pass, a change of st.PL or st.PASID, or of cpen.ENU, after two
more instructions; where they fail it faults with their cause and writes nothing. -/
def Obligations.SystemRegisterWrites : Prop :=
  (∀ x ∈ ([(0x02, fun _ w x => { x with spc := w.truncate 17 }), (0x03, fun _ w x => { x with sst := w.truncate 64 &&& sstMask }),
      (0x04, fun _ w x => { x with ecause := w.truncate 64 &&& 0x3FF07 }), (0x05, fun _ w x => { x with eaddr := w.truncate 48 }),
      (0x06, fun _ w x => { x with einst := w.truncate 36 }), (0x08, fun _ w x => { x with wctl := w.truncate 64 &&& 0xF1F }),
      (0x09, fun _ w x => { x with sig := x.sig && !w.getLsbD 0, watch := x.watch && !w.getLsbD 1 }),
      (0x0A, fun s w x => { x with tdl := w.truncate 64, tdlSet := now s, timer := false }),
      (0x0B, fun _ w x => { x with evbase := w.extractLsb' 4 13 }), (0x0C, fun _ w x => { x with chsel := w.truncate 64 &&& 0x3F3F }),
      (0x0F, fun _ w x => { x with charm := w.truncate 64 }), (0x10, fun _ w x => { x with scr := tset 0 x.scr 0 w }),
      (0x11, fun _ w x => { x with scr := tset 0 x.scr 1 w }), (0x12, fun _ w x => { x with scr := tset 0 x.scr 2 w }),
      (0x13, fun _ w x => { x with scr := tset 0 x.scr 3 w }),
      (0x07, fun _ w x => if w.extractLsb' 8 3 = x.enu then x else { x with shadow := some (2, x.st, w.extractLsb' 8 3) }),
      (0x01, fun _ w x => if w.getLsbD 0 then x else { x with cs := x.cs &&& 0xFFFFFFFFFFFFFFFE }),
      (0x00, fun _ w x => if w.toNat % 4 = x.st.toNat % 4 ∧ w.toNat / 2 ^ 32 % 2 ^ 20 = x.st.toNat / 2 ^ 32 % 2 ^ 20
        then { x with st := w.truncate 64 &&& stMask } else { x with shadow := some (2, w.truncate 64 &&& stMask, x.enu) })] :
      List (Fin 256 × (State → W72 → Thread → Thread))), SetsRegister x.1 x.2) ∧
  (∀ (t : Fin 776) (ra : Fin 32) (idx : Fin 256) (s : State) (c : Nat), canIssue s t.val clsS [0, ra.val] = true →
    setsrFault s t.val idx.val (getReg s t.val ra.val) = some c → stIH (thr s t.val).st = false → (thr s t.val).shadow = none →
    ∃ s', exec (.setsr t ra idx) s = .next s' ∧ EntersFault t.val c (thr s t.val).pc.toNat s s' ∧
      (c = 0x01 → (thr s' t.val).einst = BitVec.ofNat 36 (0x69 * 2 ^ 28 + ra.val * 2 ^ 18 + idx.val)))

/-- CHPUT and CHSEAL (and SETSR of 0Dh and 0Eh) append a word to the thread's reserved slot of channel WCH, or reserve one of at most
four; CHSEAL seals the message behind those sealed before. Refused, they leave the channels alone and WSTAT says why: 1 another
thread holds the reservation, 2 no slot is free, 3 the message has eight words, 4 the thread reserves another channel.
Where the spec is silent it rests on the model's choices of log 25. -/
def Obligations.ChannelWrites : Prop :=
  ∀ (t : Fin 776) (ra : Fin 32) (s : State) (i : Instr) (done : Bool) (k : Nat) (c : Chan),
    (i = .chput t ra ∨ i = .setsr t ra 0x0D) ∧ done = false ∨ (i = .chseal t ra ∨ i = .setsr t ra 0x0E) ∧ done = true →
    canIssue s t.val clsS [0, ra.val] = true → k = (thr s t.val).chsel.toNat % 64 → c = chanOf s (t.val / 64) k →
    ∃ s', exec i s = .next s' ∧ (thr s' t.val).pc = (thr s t.val).pc + 1 ∧ (∀ r, getReg s' t.val r = getReg s t.val r) ∧
      (∀ u, u ≠ t.val → thr s' u = thr s u) ∧ s'.mem = s.mem ∧
      (t.val < 768 → ∀ ws, (rsvChan s (t.val / 64) (t.val % 64) = none ∧ c.rsv = none ∧ c.used < 4 ∧ ws = [] ∨
          rsvChan s (t.val / 64) (t.val % 64) = some k ∧ c.rsv = some (t.val % 64, ws) ∧ ws.length < 8) →
        (thr s' t.val).wstat = 0 ∧ (∀ j, j ≠ k → chanOf s' (t.val / 64) j = chanOf s (t.val / 64) j) ∧
        (∀ j, j ≠ t.val / 64 → tileSt s' j = tileSt s j) ∧ (chanOf s' (t.val / 64) k).claimed = c.claimed ∧
        (chanOf s' (t.val / 64) k).rsv = (if done then none else some (t.val % 64, ws ++ [getReg s t.val ra.val])) ∧
        (chanOf s' (t.val / 64) k).sealed = (if done then c.sealed ++ [ws ++ [getReg s t.val ra.val]] else c.sealed)) ∧
      (∀ code, (code = 4 ∧ t.val < 768 ∧ (∃ j, j ≠ k ∧ rsvChan s (t.val / 64) (t.val % 64) = some j) ∨
          code = 1 ∧ t.val < 768 ∧ rsvChan s (t.val / 64) (t.val % 64) = none ∧ c.rsv.isSome = true ∨
          code = 2 ∧ (768 ≤ t.val ∨ rsvChan s (t.val / 64) (t.val % 64) = none ∧ c.rsv = none ∧ 4 ≤ c.used) ∨
          code = 3 ∧ t.val < 768 ∧ rsvChan s (t.val / 64) (t.val % 64) = some k ∧ (∃ o ws, c.rsv = some (o, ws) ∧ ws.length = 8)) →
        (thr s' t.val).wstat = code ∧ s'.cpu.tile = s.cpu.tile)

/-- CHGET (and GETSR of 0Eh) takes the next word of the message the thread has claimed, or claims the oldest sealed message of
channel RCH; LAST tells its last word, and an empty channel gives 0 with EMPTY and without LAST.
Where the spec is silent it rests on the model's choices of logs 25 and 159. -/
def Obligations.ChannelReads : Prop :=
  ∀ (t : Fin 776) (rd : Fin 32) (s : State) (i : Instr) (k : Nat) (c : Chan),
    (i = .chget t rd ∨ i = .getsr t rd 0x0E) → canIssue s t.val clsS [rd.val] = true →
    c = chanOf s (t.val / 64) k →
    ∃ s', exec i s = .next s' ∧ (thr s' t.val).pc = (thr s t.val).pc + 1 ∧
      (∀ r, r ≠ rd.val → getReg s' t.val r = getReg s t.val r) ∧ (∀ u, u ≠ t.val → thr s' u = thr s u) ∧ s'.mem = s.mem ∧
      ((768 ≤ t.val ∨ claimChan s (t.val / 64) (t.val % 64) = none ∧ k = bf (thr s t.val).chsel.toNat 8 6 ∧ c.sealed = []) →
        getReg s' t.val rd.val = 0 ∧ (thr s' t.val).chEmpty = true ∧ (thr s' t.val).chLast = false ∧ s'.cpu.tile = s.cpu.tile) ∧
      (∀ w ws l, t.val < 768 → (∀ m ∈ c.claimed, m.1 ≠ t.val % 64) → claimChan s (t.val / 64) (t.val % 64) = none →
        k = bf (thr s t.val).chsel.toNat 8 6 → c.sealed = (w :: ws) :: l →
        getReg s' t.val rd.val = (if rd.val = 0 then 0 else w) ∧ (thr s' t.val).chEmpty = false ∧
        (thr s' t.val).chLast = ws.isEmpty ∧ (thr s' t.val).rlen = ws.length + 1 ∧ (chanOf s' (t.val / 64) k).sealed = l ∧
        (chanOf s' (t.val / 64) k).claimed = c.claimed ++ (if ws = [] then [] else [(t.val % 64, ws, ws.length + 1)]) ∧
        (chanOf s' (t.val / 64) k).rsv = c.rsv ∧ ∀ j, j ≠ k → chanOf s' (t.val / 64) j = chanOf s (t.val / 64) j) ∧
      (∀ w ws n, t.val < 768 → claimChan s (t.val / 64) (t.val % 64) = some k →
        c.claimed.find? (fun m => decide (m.1 = t.val % 64)) = some (t.val % 64, w :: ws, n) →
        getReg s' t.val rd.val = (if rd.val = 0 then 0 else w) ∧ (thr s' t.val).chEmpty = false ∧
        (thr s' t.val).chLast = ws.isEmpty ∧ (chanOf s' (t.val / 64) k).sealed = c.sealed ∧ (chanOf s' (t.val / 64) k).rsv = c.rsv ∧
        (chanOf s' (t.val / 64) k).claimed = c.claimed.filter (fun m => decide (m.1 ≠ t.val % 64)) ++
          (if ws = [] then [] else [(t.val % 64, ws, n)]) ∧ ∀ j, j ≠ k → chanOf s' (t.val / 64) j = chanOf s (t.val / 64) j)

/-- SYSC, ILL and the reserved encodings take their FAULT, with the word in einst (SYSC its immediate, and spc at the next
instruction); PRIV instructions fault PRIV at U; ERET goes to spc with the st of sst at once, and keeps what is left of the mode
shadow of a change of cpen.ENU; a FAULT in a handler is a double fault, which halts the thread and leaves a tile thread that runs no
brick IDLE. The words of ILL and of the reserved encodings, and those of the worked example of chapter 7, decode to their commands.
Where the spec is silent it rests on the model's choices of log 118. -/
def Obligations.FaultsAndReturn : Prop :=
  (∀ (t : Fin 776) (s : State), canIssue s t.val clsS [0] = true → stIH (thr s t.val).st = false → (thr s t.val).shadow = none →
    (∀ imm : BitVec 18, ∃ s', exec (.sysc t imm) s = .next s' ∧ (thr s' t.val).einst = imm.zeroExtend 36 ∧
      EntersFault t.val 0x10 ((thr s t.val).pc + 1).toNat s s') ∧
    (∀ (ones : Bool) (low : BitVec 28), ∃ s', exec (.ill t ones low) s = .next s' ∧
      (thr s' t.val).einst = (if ones then 0xFF else 0 : BitVec 8) ++ low ∧ EntersFault t.val 0x02 (thr s t.val).pc.toNat s s') ∧
    (∀ word : BitVec 36, reservedWord word = true → ∃ s', exec (.reservedOp t word) s = .next s' ∧
      (thr s' t.val).einst = word ∧ EntersFault t.val 0x01 (thr s t.val).pc.toNat s s') ∧
    (level s t.val = 0 → (∃ s', exec (.eret t) s = .next s' ∧ EntersFault t.val 0x03 (thr s t.val).pc.toNat s s') ∧
      (∃ s', exec (.park t) s = .next s' ∧ EntersFault t.val 0x03 (thr s t.val).pc.toNat s s'))) ∧
  (∀ (t : Fin 776) (busy : Bool) (word : BitVec 36), (reservedWord word = true → decodeIns t busy word = .reservedOp t word) ∧
    (word.toNat / 2 ^ 28 = 0 → decodeIns t busy word = .ill t false (word.truncate 28)) ∧
    (word.toNat / 2 ^ 28 = 0xFF → decodeIns t busy word = .ill t true (word.truncate 28)) ∧
    decodeIns t busy 0x463100000 = .ld64 t 6 4 ⟨0, 0⟩ ∧ decodeIns t busy 0x0139CC000 = .add t 7 7 6 ∧
    decodeIns t busy 0x202100008 = .addi t 4 4 8 ∧ decodeIns t busy 0x31217FFFD = .bne t 4 5 (-3)) ∧
  (∀ (t : Fin 776) (s u : State), canIssue s t.val clsS [0] = true → u = commitCpx t.val s → level u t.val ≠ 0 →
    ∃ s', exec (.eret t) s = .next s' ∧ (thr s' t.val).pc = (thr s t.val).spc ∧
      (thr s' t.val).st = (thr s t.val).sst &&& stMask ∧ (∀ r, getReg s' t.val r = getReg s t.val r) ∧ ThreadFrame t.val s s' ∧
      ((thr u t.val).shadow = none → (thr s' t.val).shadow = none ∧ (thr s' t.val).enu = (thr u t.val).enu) ∧
      (∀ n st e, (thr u t.val).shadow = some (n, st, e) →
        (e = (thr u t.val).enu ∨ n ≤ 1 → (thr s' t.val).shadow = none ∧ (thr s' t.val).enu = e) ∧
        (e ≠ (thr u t.val).enu → 1 < n →
          (thr s' t.val).shadow = some (n - 1, (thr s t.val).sst &&& stMask, e) ∧ (thr s' t.val).enu = (thr u t.val).enu))) ∧
  (∀ (t : Fin 776) (s : State) (ones : Bool) (low : BitVec 28), canIssue s t.val clsS [0] = true → stIH (thr s t.val).st = true →
    (thr s t.val).shadow = none → (thr s t.val).brick = none →
    ∃ s', exec (.ill t ones low) s = .next s' ∧ (thr s' t.val).halted = true ∧ (t.val < 768 → (thr s' t.val).state = .idle))

/-- Event entry: with nothing pending that may be delivered nothing happens; a deferred POISON comes first, with its address and
word; else the pending event of lowest class enters its handler with ecause its class, at the level that handles events, IH 1 and
EV 0; one that ends a wait completes the wait first. -/
def Obligations.EventsEnterTheirHandlers : Prop :=
  ∀ (t : Fin 776) (s : State), (thr s t.val).state ≠ .idle → (thr s t.val).state ≠ .entry → isHalted (thr s t.val) = false →
    s.dbg.fstate ≤ 1 → pairDay s t.val = true → (thr s t.val).shadow = none → uncommitted (thr s t.val) = false →
    stIH (thr s t.val).st = false →
    ((thr s t.val).hold = .none → (thr s t.val).poisons = [] → deliverable s t.val (thr s t.val).st = [] →
      exec (.eventEntry t) s = .next s) ∧
    (∀ a w n ps, (thr s t.val).hold = .none → (thr s t.val).poisons = (a, w, n) :: ps →
      ∃ s', exec (.eventEntry t) s = .next s' ∧ EntersFault t.val 0x0E (thr s t.val).pc.toNat s s' ∧
        (thr s' t.val).eaddr = BitVec.ofNat 48 a ∧ (thr s' t.val).einst = w ∧ (thr s' t.val).poisons = ps) ∧
    (∀ c cs, deliverable s t.val (thr s t.val).st = c :: cs →
      ((thr s t.val).hold = .none ∧ (thr s t.val).poisons = [] ∨ ∃ rd v, (thr s t.val).hold = .wake rd v) →
      ∃ s', exec (.eventEntry t) s = .next s' ∧
        (thr s' t.val).pc = BitVec.ofNat 17 ((thr s t.val).evbase.toNat * 16 + 16 * c) ∧ (thr s' t.val).sst = stOf s t.val ∧
        (thr s' t.val).st = ((thr s t.val).st &&& ~~~0xF) ||| (if t.val < 768 then 9 else 10) ∧ (thr s' t.val).state = .entry ∧
        (thr s' t.val).stall = ((thr s t.val).stall && decide (c ≠ 1)) ∧
        ((thr s t.val).hold = .none → (thr s' t.val).spc = (thr s t.val).pc ∧
          (thr s' t.val).ecause = BitVec.ofNat 64 (c + (thr s t.val).pc.toNat % 2 * 2 ^ 16) ∧
          (∀ r, getReg s' t.val r = getReg s t.val r)) ∧
        (∀ rd v, (thr s t.val).hold = .wake rd v → (thr s' t.val).spc = (thr s t.val).pc + 1 ∧
          getReg s' t.val rd = (if rd = 0 then 0 else BitVec.ofNat 72 (wakeBits s t.val)) ∧
          (∀ r, r ≠ rd → getReg s' t.val r = getReg s t.val r)) ∧ s'.mem = s.mem)

/-- FENCE, PARK and ENDB wait until the thread's posted loads are answered and its stores have drained, PARK and ENDB for its
coprocessor instructions as well. Then FENCE goes on; a
thread that runs no brick goes on after PARK and ENDB; PARK of a brick leaves the thread IDLE and keeps its registers, pc + 1 and
event registers in a continuation that is queued at once when TDL is 0; ENDB frees the thread and ends its brick with its status.
CPTEST reads whether a unit is ready and enabled, and a stall detector that fires reports to its core's first thread, once.
Where the spec is silent it rests on the model's choices of logs 25, 26, 36 and 160. -/
def Obligations.FenceParkAndEnd : Prop :=
  (∀ (t : Fin 776) (s : State), canIssue s t.val clsS [0] = true →
    ((thr s t.val).posted ≠ [] ∨ storesOf s t.val ≠ [] →
      (∃ s', exec (.fence t) s = .next s' ∧ (thr s' t.val).hold = .fence ∧ (thr s' t.val).pc = (thr s t.val).pc ∧
        (∀ r, getReg s' t.val r = getReg s t.val r) ∧ ThreadFrame t.val s s') ∧
      (level (commitCpx t.val s) t.val ≠ 0 → ∃ s', exec (.park t) s = .next s' ∧ (thr s' t.val).hold = .park ∧ ThreadFrame t.val s s')) ∧
    ((thr s t.val).posted = [] → storesOf s t.val = [] →
      (∃ s', exec (.fence t) s = .next s' ∧ (thr s' t.val).pc = (thr s t.val).pc + 1 ∧ RegFrame t.val 0 s s') ∧
      (level (commitCpx t.val s) t.val ≠ 0 → (∃ c ∈ (thr s t.val).cpx, c.dead = false) →
        ∃ s', exec (.park t) s = .next s' ∧ (thr s' t.val).hold = .park ∧ ThreadFrame t.val s s') ∧
      ((thr s t.val).brick = none → level s t.val ≠ 0 → (thr s t.val).cpx = [] →
        ∃ s', exec (.park t) s = .next s' ∧ (thr s' t.val).pc = (thr s t.val).pc + 1 ∧ RegFrame t.val 0 s s') ∧
      (∀ ws, (thr s t.val).brick = some ws → level s t.val ≠ 0 → (thr s t.val).cpx = [] → s.sched.cont.length < 262144 → (thr s t.val).prg = false →
        (thr s t.val).tdl = 0 →
        ∃ s' slot c q b, exec (.park t) s = .next s' ∧ tfind s.sched.cont slot = none ∧ tfind s'.sched.cont slot = some c ∧
          c.words = ws ∧ c.w = (thr s t.val).w ∧ c.pc = (thr s t.val).pc + 1 ∧ ((thr s t.val).shadow = none → c.st = (thr s t.val).st) ∧
          c.spc = (thr s t.val).spc ∧ c.sst = (thr s t.val).sst ∧ c.ecause = (thr s t.val).ecause ∧ b ∈ rqOf s' q ∧
          b.cont = some slot ∧ b.words = ws ∧ (thr s' t.val).state = .idle ∧ (thr s' t.val).brick = none))) ∧
  (∀ (t : Fin 776) (ra : Fin 32) (s : State), canIssue s t.val clsS [0, ra.val] = true → (thr s t.val).posted = [] →
    storesOf s t.val = [] → (thr s t.val).cpx = [] →
    ((thr s t.val).brick = none →
      ∃ s', exec (.endb t ra) s = .next s' ∧ (thr s' t.val).pc = (thr s t.val).pc + 1 ∧ RegFrame t.val 0 s s') ∧
    (∀ ws, (thr s t.val).brick = some ws →
      ∀ st s1, st = (getReg s t.val ra.val).toNat % 2 ^ 16 → s1 = freeThread t.val (bumpTile t.val 0x01
          (modThr t.val (fun x => { x with hold := .endb st }) (issue t.val clsS 0 [0, ra.val] 0 s))) →
        exec (.endb t ra) s = .next (endBrick ws (endbReason st) st s1) ∧ (thr s1 t.val).state = .idle ∧
          (thr s1 t.val).brick = none)) ∧
  (∀ (t : Fin 776) (rd : Fin 32) (u : Fin 3) (s : State), canIssue s t.val clsC [rd.val] = true →
    ∃ (s' : State) (ready : Bool), exec (.cptest t rd u) s = .next s' ∧ (thr s' t.val).pc = (thr s t.val).pc + 1 ∧
      RegFrame t.val rd.val s s' ∧ (ready = true ↔ t.val < 768 ∧ ∀ v ∈ tileThreads (t.val / 64), ∀ c ∈ (thr s v).cpx, c.unit = u.val →
        u.val ≠ 2 ∧ (c.committed = true ∨ v = t.val)) ∧
      getReg s' t.val rd.val = (if rd.val = 0 then 0 else (if ready then 1 else 0) + (if cpEnabled (commitCpx t.val s) t.val u.val then 2 else 0))) ∧
  (∀ (core : Fin 96) (s : State), stallCounted s core.val = true → s.dbg.fstate ≤ 1 →
    ((coreSt s core.val).fired = true → exec (.stallDetect core) s = .next s) ∧
    ((coreSt s core.val).fired = false → ∃ s', exec (.stallDetect core) s = .next s' ∧ (coreSt s' core.val).fired = true ∧
      thr s' (8 * core.val) = { thr s (8 * core.val) with stall := true } ∧ (∀ u, u ≠ 8 * core.val → thr s' u = thr s u) ∧
      (tileSt s' (core.val / 8)).stalled.getLsbD (core.val % 8) = true ∧ s'.mem = s.mem))

/-! ### The coprocessors (chapter 13) -/

/-- A coprocessor instruction faults RESERVED_OP where its register fields are none its unit takes, CP_DISABLED where its unit is not
enabled for the thread; a unit that is busy answers in cs with bits 3:0 = 1 + 2 UNIT and the thread goes on; else it is accepted:
the thread goes on with the operands handed over and no register changed. An instruction before it has committed by then.
Where the spec is silent it rests on the model's choices of log 26. -/
def Obligations.CoprocessorIssue : Prop :=
  ∀ (i : Instr) (t unit fn rd ra rb : Nat) (ok : Bool) (regs : List Nat) (busy : Bool) (s u : State),
    CpxForm i t unit fn rd ra rb ok regs busy → canIssue s t clsC regs = true → u = commitCpx t s →
    (ok = false → stIH (thr s t).st = false → (thr s t).shadow = none →
      ∃ s', exec i s = .next s' ∧ EntersFault t 0x01 (thr s t).pc.toNat s s' ∧ (thr s' t).einst =
        BitVec.ofNat 36 (0x70 * 2 ^ 28 + rd * 2 ^ 23 + ra * 2 ^ 18 + rb * 2 ^ 13 + unit * 2 ^ 10 + fn)) ∧
    (ok = true → cpEnabled s t unit = false → stIH (thr s t).st = false → (thr s t).shadow = none →
      ∃ s', exec i s = .next s' ∧ EntersFault t 0x05 (thr s t).pc.toNat s s') ∧
    (ok = true → cpEnabled u t unit = true →
      ∃ s', exec i s = .next s' ∧ (thr s' t).pc = (thr s t).pc + 1 ∧ (∀ r, getReg s' t r = getReg s t r) ∧
        (∀ v, v ≠ t → thr s' v = thr s v) ∧ { restOf s' with cops := s.cops } = restOf s ∧
        (busy = true ∨ bit (busyUnits u t) unit = true → (thr s' t).cpx = (thr u t).cpx ∧ s'.cops = s.cops ∧
          (thr s' t).cs = ((thr s t).cs &&& ~~~0xF) ||| BitVec.ofNat 64 (1 + 2 * unit)) ∧
        (busy = false → bit (busyUnits u t) unit = false → ∃ c, (thr s' t).cpx = (thr u t).cpx ++ [c] ∧ c.unit = unit ∧ c.fn = fn ∧
          c.rd = rd ∧ c.ra = ra ∧ c.rb = rb ∧ c.a = getReg s t ra ∧ c.b = getReg s t rb ∧ c.pc = (thr s t).pc.toNat ∧
          c.lvl = level u t ∧ c.committed = false ∧ c.dead = false ∧
          s'.cops.key = s.cops.key ∧ ∀ k, (copOf s' k).slot = (copOf s k).slot))

/-- A coprocessor instruction that is squashed leaves its thread standing at it again. Committed, its unit does the oldest it can,
which leaves the thread's list; one with a memory operand waits for the thread's stores. CRC32C and CRC64 return the register state
after the bytes of ra, TPZ the hash; XSUM.CLR clears its slot, ADD and ADDV fold their elements into it exactly, RND returns it
rounded once and FLAGS its flags; an instruction that changes a slot which deposits hold armed returns SLOT_BUSY; an AES instruction
without its key returns status 1. One whose thread has been reset since writes no register.
Where the spec is silent it rests on the model's choices of logs 27, 37 and 128. -/
def Obligations.CoprocessorCommit : Prop :=
  ∀ (t : Fin 776) (s u : State), s.dbg.fstate ≤ 1 → u = commitCpx t.val s →
    (uncommitted (thr s t.val) = false → exec (.cpCommit t false) s = .next s) ∧
    ((thr s t.val).cpx = [] → exec (.cpCommit t true) s = .next s) ∧
    (∀ c, (thr s t.val).cpx.find? (fun x => !x.committed) = some c →
      ∃ s', exec (.cpCommit t false) s = .next s' ∧ (thr s' t.val).cpx = (thr s t.val).cpx.filter (·.committed) ∧
        (thr s' t.val).pc = BitVec.ofNat 17 c.pc ∧ (∀ r, getReg s' t.val r = getReg s t.val r) ∧
        { restOf s' with cops := s.cops } = restOf s ∧ (c.unit ≠ 2 → s'.cops = s.cops)) ∧
    (∀ c, (thr s t.val).cpx = [c] → c.dead = false → cpxMem c = true → storesOf s t.val ≠ [] → exec (.cpCommit t true) s = .next u) ∧
    (∀ c, cpxNext u t.val = some c → (thr s t.val).hold = .none →
        ∃ s', exec (.cpCommit t true) s = .next s' ∧ (thr s' t.val).cpx = (thr u t.val).cpx.erase c ∧
          (∀ v, v ≠ t.val → thr s' v = thr s v) ∧ (c.dead = true → ∀ r, getReg s' t.val r = getReg s t.val r) ∧
          (c.unit = 0 → (∀ r, r ≠ c.rd → getReg s' t.val r = getReg s t.val r) ∧ restOf s' = restOf s ∧ (c.dead = false →
            (c.fn / 64 = 0 → getReg s' t.val c.rd = if c.rd = 0 then 0 else
              BitVec.ofNat 72 (crc32cRaw (c.b.toNat % 2 ^ 32) (natLE (c.fn % 8 + 1) (c.a.toNat % 2 ^ 64)))) ∧
            (c.fn / 64 = 1 → getReg s' t.val c.rd = if c.rd = 0 then 0 else
              BitVec.ofNat 72 (crc64Raw (c.b.toNat % 2 ^ 64) (natLE (c.fn % 8 + 1) (c.a.toNat % 2 ^ 64)))) ∧
            (2 ≤ c.fn / 64 → getReg s' t.val c.rd = if c.rd = 0 then 0 else BitVec.ofNat 72 ((c.b.toNat % 2 ^ 32) ^^^
              toeplitz s (tileOf t.val) (c.fn / 16 % 4) (c.fn % 8 + 1) (c.b.toNat / 2 ^ 40 % 64) (c.a.toNat % 2 ^ 64))))) ∧
          (c.unit = 1 → c.key = none → s'.mem = s.mem ∧
            (c.dead = false → getReg s' t.val c.rd = if c.rd = 0 then 0 else 1)) ∧
          (c.unit = 2 → ∀ k, k = c.fn / 4 % 16 →
            (∀ j, j ≠ k → slotOf s' (tileOf t.val) j = slotOf s (tileOf t.val) j) ∧
            ((slotOf s (tileOf t.val) k).later = none →
            ((slotOf s (tileOf t.val) k).armed.isSome = true → c.fn / 64 ∈ [0, 1, 2, 3, 7] →
              slotOf s' (tileOf t.val) k = slotOf s (tileOf t.val) k ∧
              (c.dead = false → getReg s' t.val c.rd = if c.rd = 0 then 0 else 1)) ∧
            ((slotOf s (tileOf t.val) k).armed = none →
              (c.fn / 64 = 0 → slotOf s' (tileOf t.val) k = { slotOf s (tileOf t.val) k with v := 0, flags := 0 }) ∧
              (c.fn / 64 = 1 → (slotOf s' (tileOf t.val) k).v.toInt = ((slotOf s (tileOf t.val) k).v.toInt +
                (xsElem (c.fn % 4) (c.a.toNat % 2 ^ (8 * xsSize (c.fn % 4)))).2).bmod (2 ^ 2232))) ∧
            (c.fn / 64 = 4 → slotOf s' (tileOf t.val) k = slotOf s (tileOf t.val) k ∧
              (c.dead = false → getReg s' t.val c.rd = if c.rd = 0 then 0 else BitVec.ofNat 72 (xsRnd (slotOf s (tileOf t.val) k)))) ∧
            (c.fn / 64 = 9 → slotOf s' (tileOf t.val) k = slotOf s (tileOf t.val) k ∧
              (c.dead = false →
                getReg s' t.val c.rd = if c.rd = 0 then 0 else BitVec.ofNat 72 (xsFlags (slotOf s (tileOf t.val) k)))))))

/-- A deposit's turn: up to 64 elements (or one compact form) go into its slot and the rest waits at the front of its tile's queue;
after its last chunk, unless its counter may not yet count, the deposit leaves the queue and is counted. A tile with no deposit has
nothing to do.
Where the spec is silent it rests on the model's choices of log 37. -/
def Obligations.DepositsTakeTurns : Prop :=
  ∀ (tile : Fin 12) (s : State),
    ((copOf s tile.val).dep = [] → exec (.depositChunk tile) s = .next s) ∧
    (∀ d more, (copOf s tile.val).dep = d :: more → d.mode = 0 → d.rest.length % xsSize d.typ = 0 → 64 * xsSize d.typ < d.rest.length →
      ∃ s', exec (.depositChunk tile) s = .next s' ∧
        (copOf s' tile.val).dep = { d with rest := d.rest.drop (64 * xsSize d.typ) } :: more ∧
        slotOf s' tile.val d.slot = (slotOf s tile.val d.slot).fold (xsElems d.typ 64 d.rest).1 (xsElems d.typ 64 d.rest).2 ∧
        (∀ j, j ≠ d.slot → slotOf s' tile.val j = slotOf s tile.val j) ∧ s'.cpu = s.cpu ∧ s'.mem = s.mem ∧ s'.zmt = s.zmt) ∧
    (∀ d more, (copOf s tile.val).dep = d :: more → d.mode = 0 → d.rest.length % xsSize d.typ = 0 → d.rest.length ≤ 64 * xsSize d.typ →
      ctrBlocked s d.slice d.ccid d.ep = false →
      ∃ s', exec (.depositChunk tile) s = .next s' ∧ (copOf s' tile.val).dep = more ∧
        slotOf s' tile.val d.slot = (slotOf s tile.val d.slot).fold (xsElems d.typ (d.rest.length / xsSize d.typ) d.rest).1
          (xsElems d.typ (d.rest.length / xsSize d.typ) d.rest).2)

/-! ### Tile event controller, scheduler, locks (chapters 09, 10, 11) -/

/-- A completion to an ACTIVE source clears ACTIVE, sets its pending bit, and counts one event of its group when the group is enabled:
the count saturates at 255, the group's timer starts with its first event, and the group delivers when the count reaches N (or
the timer has expired) unless the tile disables delivery. A completion to any other source only counts as stray. -/
def Obligations.TecCompletions : Prop :=
  ∀ (tile : Fin 12) (src : Fin 256) (v : W64) (s : State) (i : Instr) (g : Nat),
    (i = .tecCompletion tile src ∨ i = .tecComplete tile v ∧ v.toNat % 256 = src.val) → g = src.val / 8 →
    (src.val < 32 ∨ (tileSt s tile.val).active.getLsbD src.val = false →
      exec i s = .next (bump (0xC070 + tile.val) 0x1E (modTile tile.val (fun x => { x with
        stray := if x.stray = 0xFFFF then 0xFFFF else x.stray + 1 }) s))) ∧
    (32 ≤ src.val → (tileSt s tile.val).active.getLsbD src.val = true →
      ∃ s', exec i s = .next s' ∧ { s' with cpu := { s'.cpu with tile := [] }, ctr := [] } =
          { s with cpu := { s.cpu with tile := [] }, ctr := [] } ∧ (∀ k, k ≠ tile.val → tileSt s' k = tileSt s k) ∧
        (∀ j, j < 256 → (tileSt s' tile.val).active.getLsbD j = ((tileSt s tile.val).active.getLsbD j && decide (j ≠ src.val)) ∧
          (tileSt s' tile.val).pend.getLsbD j = ((tileSt s tile.val).pend.getLsbD j || decide (j = src.val))) ∧
        (∀ k, k ≠ g → tecGroup s' tile.val k = tecGroup s tile.val k) ∧
        ((tecGroup s tile.val g).en = false → tecGroup s' tile.val g = tecGroup s tile.val g) ∧
        ((tecGroup s tile.val g).en = true → ∀ x, x = tecGroup s tile.val g →
          tecGroup s' tile.val g = { x with
            count := min 255 (x.count + 1), start := x.start.or (some (now s)),
            deliv := x.deliv || (!(tileSt s tile.val).gdis && (decide (x.n.toNat ≤ min 255 (x.count + 1)) || x.expired)) }))

/-- The other writes of a tile event controller: ACTSET and ACTCLR of a source above 31; ACK clears a group, which counts one event
again when a bit of it is still pending; PEND is write-one-to-clear but for a level-mode source whose input is high; CTRL sets
GDIS, and at 0 delivers every group that qualifies; SWIN sets the inputs; STRAY reads and clears; the group timer delivers. -/
def Obligations.TecRegisters : Prop :=
  ∀ (tile : Fin 12) (s : State),
    (∀ v : W64, (32 ≤ v.toNat % 256 →
        exec (.tecActset tile v) s = .next (modTile tile.val (fun x => { x with
          active := x.active ||| BitVec.ofNat 256 (2 ^ (v.toNat % 256)) }) s) ∧
        exec (.tecActclr tile v) s = .next (modTile tile.val (fun x => { x with
          active := x.active &&& ~~~(BitVec.ofNat 256 (2 ^ (v.toNat % 256))) }) s)) ∧
      (v.toNat % 256 < 32 → exec (.tecActset tile v) s = .next s ∧ exec (.tecActclr tile v) s = .next s)) ∧
    (∀ (v : W64) (g : Nat) (x : TecGroup) (again : Bool), g = v.toNat % 32 → x = tecGroup s tile.val g →
      again = (x.en && decide (bf (tileSt s tile.val).pend.toNat (8 * g) 8 ≠ 0)) →
      ∃ s', exec (.tecAck tile v) s = .next s' ∧ (∀ k, k ≠ g → tecGroup s' tile.val k = tecGroup s tile.val k) ∧
        tecGroup s' tile.val g = { x with
          count := again.toNat, start := (if again then some (now s) else none), expired := false,
          deliv := again && !(tileSt s tile.val).gdis && decide (x.n.toNat ≤ 1) }) ∧
    (∀ (g : Fin 32) (v : W64), ∃ s', exec (.tecPendClear tile g v) s = .next s' ∧
      { tileSt s' tile.val with pend := 0 } = { tileSt s tile.val with pend := 0 } ∧
      ∀ j, j < 256 → (tileSt s' tile.val).pend.getLsbD j = ((tileSt s tile.val).pend.getLsbD j &&
        !(decide (j / 8 = g.val) && v.getLsbD (j % 8) &&
          !(decide (j < 16) && decide (bf (tileSt s tile.val).sense.toNat (2 * j) 2 = 0) && (tileSt s tile.val).input.getLsbD j)))) ∧
    (∀ v : W64, ∃ s', exec (.tecCtrlWrite tile v) s = .next s' ∧ (tileSt s' tile.val).gdis = v.getLsbD 0 ∧
      ∀ g, g < 32 → ∀ x, x = tecGroup s tile.val g → tecGroup s' tile.val g = { x with deliv := x.deliv ||
        (!v.getLsbD 0 && x.en && (decide (x.n.toNat ≤ x.count) || x.expired)) }) ∧
    (∀ v : W64, ∃ s', exec (.tecSwinWrite tile v) s = .next s' ∧ (tileSt s' tile.val).swin = BitVec.ofNat 16 (v.toNat / 2 * 2) ∧
      (∀ j, 1 ≤ j → j < 16 → (tileSt s' tile.val).input.getLsbD j = v.getLsbD j) ∧
      (tileSt s' tile.val).input.getLsbD 0 = (tileSt s tile.val).input.getLsbD 0 ∧
      (∀ j, 1 ≤ j → j < 16 → (tileSt s tile.val).pend.getLsbD j = true → (tileSt s' tile.val).pend.getLsbD j = true) ∧
      (∀ j, 1 ≤ j → j < 16 → bf (tileSt s tile.val).sense.toNat (2 * j) 2 = 1 → (tileSt s tile.val).input.getLsbD j = false →
        v.getLsbD j = true → (tileSt s' tile.val).pend.getLsbD j = true)) ∧
    (exec (.tecStrayRead tile) s = .next (emit (.reply "TEC_STRAY" tile.val [(tileSt s tile.val).stray.toNat])
      (modTile tile.val (fun x => { x with stray := 0 }) s))) ∧
    (∀ (g : Fin 32) (st : Nat) (x : TecGroup), x = tecGroup s tile.val g.val → x.start = some st → x.en = true → x.deliv = false →
      x.expired = false → x.t ≠ 0 → s.clk.frozen = none →
      (fireAt s < expiryAt 0 (st + 64 * x.t.toNat) st → exec (.tecGroupTimer tile g) s = .next s) ∧
      (expiryAt 0 (st + 64 * x.t.toNat) st ≤ fireAt s → ∃ s', exec (.tecGroupTimer tile g) s = .next s' ∧
        tecGroup s' tile.val g.val = { x with expired := true, deliv := !(tileSt s tile.val).gdis }))

/-- Posting a brick: one that is wrong in form or names no tile, and one for which there is no room, is refused with its code and
leaves every queue as it was; else it takes the next BID, joins the tail of its class's queue with its BID and creator in word 7,
and counts as accepted in the ledger. A delayed post joins its list in due order, at most 2^40 ns ahead; one whose boundary has
passed joins its queue at once and counts as late, where there is room. Before Dawn-4 ends every post is refused for want of room.
Where the spec is silent it rests on the model's choices of log 39, and log 19 for a post before Dawn-4. -/
def Obligations.PostedBricks : Prop :=
  ∀ (area : Fin 769) (s : State) (ws : List W64) (m q : Nat), ws = (postOf s area.val).w →
    m = (if area.val < 768 then area.val else 0xC000) → q = classRq s (bkClass ws) →
    (awake s = false → exec (.postImmediate area) s = .next (modPost area.val (fun x => { x with status := 1 }) (countRefusal 1 s)) ∧
      ∀ k : Fin 4, exec (.postDelayed area k) s = .next (modPost area.val (fun x => { x with status := 1 }) (countRefusal 1 s))) ∧
    (∀ c, c = brickCheck s ws false → c ≠ 0 → awake s = true →
      exec (.postImmediate area) s = .next (modPost area.val (fun x => { x with status := c }) (countRefusal c s))) ∧
    (brickCheck s ws false = 0 → awake s = true →
      (brickRoom s q = true →
        ∃ s', exec (.postImmediate area) s = .next s' ∧ (postOf s' area.val).status = 0 ∧
          (postOf s' area.val).bid = s.sched.nextBid ∧ s'.sched.nextBid = s.sched.nextBid + 1 ∧
          rqOf s' q = rqOf s q ++ [⟨ws.take 7 ++ [BitVec.ofNat 64 (s.sched.nextBid.toNat + m * 2 ^ 32)], none,
            !(decide (onchipCount s < 16384) && !rqSpilled s q)⟩] ∧
          (∀ p, p ≠ q → rqOf s' p = rqOf s p) ∧ ledRow s' 3 = (ledRow s 3).accept ∧ s'.cpu = s.cpu) ∧
      (brickRoom s q = false →
        exec (.postImmediate area) s = .next (modPost area.val (fun x => { x with status := 1 }) (countRefusal 1 s))) ∧
      (∀ (k : Fin 4) (due : Nat), due = (postOf s area.val).due.toNat →
        (now s + 2 ^ 40 < due → exec (.postDelayed area k) s =
          .next (modPost area.val (fun x => { x with status := 3 }) (countRefusal 3 s))) ∧
        (dlUp k.val due ≤ now s → brickRoom s q = false → exec (.postDelayed area k) s =
          .next (modPost area.val (fun x => { x with status := 1 }) (countRefusal 1 s))) ∧
        (dlUp k.val due ≤ now s → brickRoom s q = true → ∃ s', exec (.postDelayed area k) s = .next s' ∧
          (postOf s' area.val).status = 0 ∧ (rqOf s' q).length = (rqOf s q).length + 1 ∧ (∀ p, p ≠ q → rqOf s' p = rqOf s p) ∧
          (∀ j, dlOf s' j = dlOf s j) ∧ ledRow s' 3 = (ledRow s 3).accept) ∧
        (due ≤ now s + 2 ^ 40 → now s < dlUp k.val due → (dlOf s k.val).length < 262144 → overflowCount s < 1048576 →
          ∃ s', exec (.postDelayed area k) s = .next s' ∧ (postOf s' area.val).status = 0 ∧
            (postOf s' area.val).bid = s.sched.nextBid ∧ (∀ p, rqOf s' p = rqOf s p) ∧ ledRow s' 3 = (ledRow s 3).accept ∧
            dlOf s' k.val = dlInsert { due := dlUp k.val due, b := { words := ws.take 7 ++
              [BitVec.ofNat 64 (s.sched.nextBid.toNat + m * 2 ^ 32)], cont := none, spilled := true } } (dlOf s k.val))))

/-- Dispatch gives the first eligible brick of the queues, in order of priority, to the tile's picked IDLE thread: w1 to w8 hold its
words, w9 the lock hint's outcome (0 with none), it starts at its ENTRY at the level and PASID it names with its budget, and every
other thread is as it was; a continuation resumes with the registers and pc that PARK saved. With the clocks stopped nothing is
dispatched.
Where the spec is silent it rests on the model's choices of log 38. -/
def Obligations.DispatchStartsBricks : Prop :=
  (∀ s : State, 2 ≤ s.dbg.fstate → exec .dispatch s = .next s) ∧
  (∀ (s : State) (tile t q i : Nat) (b : QBrick) (qs rest : List Nat), s.dbg.fstate ≤ 1 → tile < 12 → s.sched.tilePtr < 12 →
    (∀ k, k < 12 → k ≠ tile → bit (tileEn s) k = false) → pickThread s tile = some t →
    queueOrder s = qs ++ q :: rest → (∀ p ∈ qs, queuePick s p tile 32 = none) → queuePick s q tile 32 = some (i, b) →
    domState s (pairDomain t) = 0 →
    ∃ s', exec .dispatch s = .next s' ∧ rqOf s' q = (rqOf s q).eraseIdx i ∧ (∀ p, p ≠ q → rqOf s' p = rqOf s p) ∧
      (∀ u, u ≠ t → thr s' u = thr s u) ∧ s'.sched.tilePtr = (tile + 1) % 12 ∧ s'.mem = s.mem ∧
      (b.cont = none → bkLhv b.words = false →
        (∀ j, j < 8 → getReg s' t (j + 1) = (b.words.getD j 0).zeroExtend 72) ∧
        (∀ j, 9 ≤ j → getReg s' t j = 0) ∧ (thr s' t).pc = BitVec.ofNat 17 (bkEntry b.words) ∧
        (thr s' t).st = BitVec.ofNat 64 ((if bkPl b.words = 1 then 0 else 1) + bkPasid b.words * 2 ^ 32) ∧
        (thr s' t).state = .run ∧ (thr s' t).brick = some b.words ∧ (thr s' t).limit = budgetOf s b.words ∧
        (thr s' t).charge = 0) ∧
      (∀ slot c, b.cont = some slot → tfind s.sched.cont slot = some c →
        (∀ r, r ≠ 0 → getReg s' t r = tget 0 c.w r) ∧ (thr s' t).pc = c.pc ∧ (thr s' t).st = c.st ∧ (thr s' t).spc = c.spc ∧
        (thr s' t).sst = c.sst ∧ (thr s' t).ecause = c.ecause ∧ (thr s' t).state = .run ∧ (thr s' t).brick = some c.words))

/-- The scheduler's other events: a refill brings the oldest spilled brick of the next queue in rotation on chip; a delay list gives up
every brick whose boundary has come, each to its class's queue; a brick at its budget faults BUDGET once; at its budget plus the
reset allowance its thread is reset and the brick fails; the drain limit resets the threads of a tile that still run. -/
def Obligations.SchedulerEvents : Prop :=
  (∀ s : State, (16384 ≤ onchipCount s ∨ (∀ q, q < 32 → rqSpilled s q = false) → exec .spillRefill s = .next s) ∧
    (∀ k, onchipCount s < 16384 → k < 32 → rqSpilled s ((s.sched.refillPtr + k) % 32) = true →
      (∀ j, j < k → rqSpilled s ((s.sched.refillPtr + j) % 32) = false) →
      exec .spillRefill s = .next (modSched (fun u => { u with refillPtr := ((s.sched.refillPtr + k) % 32 + 1) % 32 })
        (modRq ((s.sched.refillPtr + k) % 32) unspill s))) ∧
    (∃ s', exec .delayListRelease s = .next s' ∧ (∀ k, k < 4 → dlOf s' k = (dlOf s k).filter (fun e => !reached e.due s)) ∧
      (∀ k e, k < 4 → e ∈ dlOf s k → reached e.due s = true → e.b.cont = none →
        ∃ b ∈ rqOf s' (classRq s (bkClass e.b.words)), b.words = e.b.words) ∧ s'.cpu = s.cpu ∧ s'.mem = s.mem)) ∧
  (∀ (t : Fin 776) (s : State) (ws : List W64), (thr s t.val).brick = some ws →
    ((thr s t.val).budgetTaken = false → (thr s t.val).limit ≤ (thr s t.val).charge → stIH (thr s t.val).st = false →
      (thr s t.val).shadow = none → (thr s t.val).hold = .none → (thr s t.val).state ≠ .idle → isHalted (thr s t.val) = false →
      s.dbg.fstate ≤ 1 → uncommitted (thr s t.val) = false → ∃ s1, exec (.budgetFault t) s = .next (bump 0xC080 0x05 s1) ∧
        EntersFault t.val 0x0F (thr s t.val).pc.toNat s s1 ∧ (thr s1 t.val).budgetTaken = true) ∧
    ((thr s t.val).budgetTaken = true ∨ (thr s t.val).charge < (thr s t.val).limit → exec (.budgetFault t) s = .next s) ∧
    ((thr s t.val).charge < budgetOf s ws + cfg s 0x8401 0x03 → exec (.budgetReset t) s = .next s) ∧
    (budgetOf s ws + cfg s 0x8401 0x03 ≤ (thr s t.val).charge → ∀ s1, s1 = resetThread t.val s →
      exec (.budgetReset t) s = .next (bump 0xC080 0x06 (endBrick ws 0x45 0 s1)) ∧ (thr s1 t.val).state = .idle ∧
        (thr s1 t.val).brick = none)) ∧
  (∀ (tile : Fin 12) (s : State) (a : Nat), tfind s.sched.drainAt tile.val = some a → s.clk.frozen = none →
    (fireAt s < expiryAt 1 (a + 1024 * cfg s 0x8402 0x04) a → exec (.drainTimeout tile) s = .next s) ∧
    (expiryAt 1 (a + 1024 * cfg s 0x8402 0x04) a ≤ fireAt s → (∀ t ∈ tileThreads tile.val, (thr s t).brick = none) →
      ∃ s', exec (.drainTimeout tile) s = .next s' ∧
        ∀ t ∈ tileThreads tile.val, isHalted (thr s t) = false → (thr s' t).state = .idle))

/-! ### Time (chapter 02) -/

/-- Fabric time: a REQ goes out once an interval and is answered by one RESP that copies TSEQ and T1; the RESP that answers the last REQ
gives delay and offset, any other is discarded. At an interval's end the lowest tuple decides: the device itself becomes
grandmaster, or it follows its parent, or it holds over. TIMEIN aligns a grandmaster to whole seconds, TIMEOUT is high for 100 ms from
each, and the 1588 edge sends and takes the messages of the subset.
Where the spec is silent it rests on the model's choices of logs 11, 13, 46, 131, 136 and 137. -/
def Obligations.FabricTime : Prop :=
  (∀ (sp : Fin 16) (s : State) (y : SubTime), y = timeSub s sp.val →
    (timeRole s sp.val ≠ 1 ∨ linkUp s sp.val = false ∨ atInterval s = false ∨ y.reqIvl = fireAt s / 131072 → exec (.timeReqSend sp) s = .next s) ∧
    (timeRole s sp.val = 1 → linkUp s sp.val = true → atInterval s = true → y.reqIvl ≠ fireAt s / 131072 → ∃ s' f, exec (.timeReqSend sp) s = .next s' ∧
      (subOf s' sp.val).ctl = (subOf s sp.val).ctl.takeWhile (fun e => decide (e.1 ≠ 0)) ++ [(1, f)] ++
        (subOf s sp.val).ctl.dropWhile (fun e => e.1 ≠ 0) ∧
      timeSub s' sp.val = { y with
        reqIvl := fireAt s / 131072, tseq := y.tseq + 1, missed := y.missed || missedReq s (fireAt s / 131072) sp.val } ∧
      f = timeFrame (drawn s) sp.val (freeNat s % 2 ^ 32) (timePayload s 1 y.tseq 0 0)) ∧
    (∀ b : Bytes, timeRole s sp.val = 1 → 64 ≤ b.length →
      (∀ ep : BitVec 32, beAt b 0 1 = 1 → ∃ s', exec (.timeReqReceive sp ep b) s = .next s' ∧ s'.clk = s.clk ∧
        (subOf s' sp.val).ctl = (subOf s sp.val).ctl.takeWhile (fun e => e.1 ≠ 0) ++ [(2, timeFrame s sp.val ep.toNat
          (timePayload s 2 (BitVec.ofNat 16 (beAt b 2 2)) (beAt b 16 10) s.clk.ftc.toNat))] ++
          (subOf s sp.val).ctl.dropWhile (fun e => e.1 ≠ 0)) ∧
      (beAt b 0 1 = 2 → y.lastReq = none ∨ y.answered = true ∨ (∃ q t, y.lastReq = some (q, t) ∧ q.toNat ≠ beAt b 2 2) →
        exec (.timeRespReceive sp b) s = .next (bump 0xC020 0x08 s)) ∧
      (∀ q t1, beAt b 0 1 = 2 → y.lastReq = some (q, t1) → y.answered = false → q.toNat = beAt b 2 2 →
        ∃ s' z, exec (.timeRespReceive sp b) s = .next s' ∧ z = timeSub s' sp.val ∧ z.answered = true ∧ z.respAge = 0 ∧
          z.offset = some (tdivInt (((beAt b 26 10 : Int) - t1.toNat) - ((s.clk.ftc.toNat : Int) - beAt b 36 10)) 2 - asymOf s sp.val) ∧
          z.delays.head? = some (tdivInt (((s.clk.ftc.toNat : Int) - t1.toNat) - ((beAt b 36 10 : Int) - beAt b 26 10)) 2 +
            asymOf s sp.val) ∧
          z.resp = some (beAt b 4 1, beAt b 8 8, beAt b 5 1, beAt b 1 1) ∧ s'.clk.ftc = s.clk.ftc ∧ s'.clk.state = s.clk.state)) ∧
    (∀ (ep : BitVec 32) (b : Bytes), b.length < 64 → exec (.timeReqReceive sp ep b) s = .next s ∧
      exec (.timeRespReceive sp b) s = .next s) ∧
    (∀ (ep : BitVec 32) (b : Bytes), timeRole s sp.val ≠ 1 → 64 ≤ b.length →
      (beAt b 0 1 = 1 → exec (.timeReqReceive sp ep b) s = .next s) ∧
      (beAt b 0 1 ≠ 1 → exec (.timeRespReceive sp b) s = .next (bump 0xC020 0x08 s)))) ∧
  (∀ s : State, (fireAt s / 131072 ≤ s.clk.ivl → exec .exchangeIntervalEnd s = .next s) ∧
    (s.clk.ivl < fireAt s / 131072 → ∃ s', exec .exchangeIntervalEnd s = .next s' ∧ s'.clk.ivl = fireAt s / 131072 ∧
      s'.cpu = s.cpu ∧ s'.mem = s.mem ∧ s'.fab = s.fab ∧
      (cfg s 0x2002 0x01 < 0xFF → (∀ c ∈ candidates s, candLt (cfg s 0x2002 0x01, Config.serial.toNat, 0, 0, 0) c = true) →
        s'.clk.state = 4 ∧ s'.clk.parent = none ∧ s'.clk.hops = 0 ∧ s'.clk.gmId = Config.serial) ∧
      (∀ c, elected s (some c) = false → bestCand (candidates s) = some c → (timeSub s c.2.2.2.1).offset = none →
        s'.clk.parent = some c.2.2.2.1 ∧ s'.clk.gmId = BitVec.ofNat 64 c.2.1 ∧ s'.clk.gmPrio = BitVec.ofNat 8 c.1 ∧
        s'.clk.hops = BitVec.ofNat 8 (min (c.2.2.1 + 1) 0xFF) ∧
        s'.clk.state = (if s.clk.state = 1 ∨ s.clk.state = 2 then s.clk.state else 1)) ∧
      (cfg s 0x2002 0x01 = 0xFF → candidates s = [] → s.clk.state = 4 → s'.clk.state = 3 ∧ s'.clk.rate = meanRate s.clk ∧
        s'.clk.holdStart = s.clk.ftc.toNat))) ∧
  (∀ s : State, (∀ t, s.clk.timeinLast = some t → now s < t + 500000000 → exec .timeinEdge s = .next s) ∧
    ((∀ t, s.clk.timeinLast = some t → t + 500000000 ≤ now s) → ∃ s', exec .timeinEdge s = .next s' ∧
      s'.clk.timeinLast = some (now s) ∧
      (cfgB s 0x2002 0x02 = false ∨ s.clk.state ≠ 4 → s'.clk.ftc = s.clk.ftc ∧ s'.clk.rate = s.clk.rate) ∧
      (∀ o, cfgB s 0x2002 0x02 = true → s.clk.state = 4 → o = secondOffset s.clk.ftc.toNat →
        ((cfg s 0x2006 0x01 * 65536 : Nat) < o → s'.clk.ftc = BitVec.ofInt 80 ((s.clk.ftc.toNat : Int) + o) ∧
          ctrVal s' 0xC020 0x03 = ctrVal s 0xC020 0x03 + 1) ∧
        (o ≤ (cfg s 0x2006 0x01 * 65536 : Nat) → s.led.restart = none → s'.clk.ftc = s.clk.ftc ∧
          (s'.clk.freq, s'.clk.rate) = servo (slew48 s) s.clk.freq o 1000000000))) ∧
    (timeoutOn s = true → s.clk.timeout = false → now s % 10 ^ 9 < 100000000 → ∃ s', exec .timeoutPulseStart s = .next s' ∧
      s'.clk = { s.clk with timeout := true, pulseSec := now s / 10 ^ 9 } ∧ s'.out = s.out ++ [.pin "TIMEOUT" true]) ∧
    (timeoutOn s = false ∨ s.clk.timeout = true ∨ 100000000 ≤ now s % 10 ^ 9 → exec .timeoutPulseStart s = .next s) ∧
    (s.clk.timeout = true → timeoutOn s = false ∨ s.clk.pulseSec * 10 ^ 9 + 100000000 ≤ now s → ∃ s',
      exec .timeoutPulseEnd s = .next s' ∧ s'.clk = { s.clk with timeout := false } ∧ s'.out = s.out ++ [.pin "TIMEOUT" false]) ∧
    (s.clk.timeout = false ∨ (timeoutOn s = true ∧ now s < s.clk.pulseSec * 10 ^ 9 + 100000000) →
      exec .timeoutPulseEnd s = .next s)) ∧
  (∀ (sp : Fin 16) (tr : Nat) (m : Bytes) (s : State),
    (timeRole s sp.val ≠ 2 ∨ linkUp s sp.val = false → exec (.ptpMessageReceive sp tr m) s = .next s) ∧
    (timeRole s sp.val = 2 → linkUp s sp.val = true →
      (tr ≠ cfg s 0x2005 0x03 ∨ m.length < 34 ∨ beAt m 1 1 % 16 ≠ 2 ∨ beAt m 4 1 ≠ cfg s 0x2005 0x01 ∨ ptpInSubset m = false →
        exec (.ptpMessageReceive sp tr m) s = .next (bump 0xC020 0x07 s)) ∧
      (tr = cfg s 0x2005 0x03 → 34 ≤ m.length → beAt m 1 1 % 16 = 2 → beAt m 4 1 = cfg s 0x2005 0x01 → ptpInSubset m = true →
        (beAt m 0 1 % 16 = 1 → cfg s 0x2005 0x02 ≠ 1 → exec (.ptpMessageReceive sp tr m) s = .next (emit (.ptp sp.val (portMacOf sp.val)
          (ptpMsg s sp.val 9 (beAt m 30 2) 0 (ptpStamp (ptpNs s (now80 s)) ++ slice m 20 10))) s)) ∧
        (beAt m 0 1 % 16 = 1 → cfg s 0x2005 0x02 = 1 → exec (.ptpMessageReceive sp tr m) s = .next (bump 0xC020 0x07 s)) ∧
        (beAt m 0 1 % 16 = 0 ∨ beAt m 0 1 % 16 = 8 → ptpSlave s sp.val = false → exec (.ptpMessageReceive sp tr m) s = .next s) ∧
        (beAt m 0 1 % 16 = 0xB → beAt m 61 2 = 255 ∨ beAt m 20 10 / 65536 = Config.serial.toNat →
          exec (.ptpMessageReceive sp tr m) s = .next s) ∧
        (beAt m 0 1 % 16 = 0xB → (ptpOf s sp.val).foreign = none → beAt m 61 2 < 255 → beAt m 20 10 / 65536 ≠ Config.serial.toNat →
          ∃ s', exec (.ptpMessageReceive sp tr m) s = .next s' ∧ s'.out = s.out ∧
            (ptpOf s' sp.val).foreign = some { ds := announceSet m, heardAt := now s, ivl := logNs (ptpLog m) }))) ∧
    (now s / roundUp (syncNs s) 1048576 ≤ (ptpOf s sp.val).lastIvl → exec (.ptpMessageInterval sp) s = .next s) ∧
    (timeRole s sp.val = 2 → linkUp s sp.val = true → (ptpOf s sp.val).lastIvl < now s / roundUp (syncNs s) 1048576 →
      ∃ s' l, exec (.ptpMessageInterval sp) s = .next s' ∧ s'.out = s.out ++ l ∧
        (ptpOf s' sp.val).seq = (ptpOf s sp.val).seq + 1 ∧ (ptpOf s' sp.val).lastIvl = now s / roundUp (syncNs s) 1048576 ∧
        (ptpP2p s = false → ptpSlave s sp.val = true →
          l = [.ptp sp.val (portMacOf sp.val) (ptpMsg s sp.val 1 (ptpOf s sp.val).seq.toNat 0 (zeros 10))]) ∧
        (ptpP2p s = false → ptpRole s sp.val = 2 → l = []) ∧
        (ptpP2p s = false → ptpRole s sp.val = 0 →
          l = [.ptp sp.val (portMacOf sp.val) (ptpAnnounce s sp.val (ptpOf s sp.val).seq.toNat),
               .ptp sp.val (portMacOf sp.val) (ptpMsg s sp.val 0 (ptpOf s sp.val).seq.toNat 0x200 (zeros 10)),
               .ptp sp.val (portMacOf sp.val) (ptpMsg s sp.val 8 (ptpOf s sp.val).seq.toNat 0 (ptpStamp (ptpNs s (now80 s))))])))

/-- ACQUIRE: without the group's right it is denied; a FREE lock is taken, a BROKEN one taken with AB; the owner refreshes its lease; a
try fails on a lock another owner holds; a queued request waits in order of priority, unless eight wait or the master already
waits. Each answer is the result word of its outcome, and a lease runs from the grant where the group leases.
RELEASE by the owner frees the lock or grants it to its first waiter; a waiter gives up its place; the owner before a break
learns of it once; any other release is foreign. QUERY changes nothing. A lease that has run out breaks its lock, and a paused one
does not. Of two requests of one group and priority in one CCLK the one whose master comes first from the group's turn pointer is
performed first, and the pointer moves to the master after it. -/
def Obligations.Locks : Prop :=
  (∀ (l l2 : Fin 4096) (m m2 a b : BitVec 16) (p p2 : Fin 16) (s : State) (g : Nat), g = l.val / 64 → g = l2.val / 64 → m ≠ m2 →
    reqPrio s m.toNat p.val = reqPrio s m2.toNat p2.val →
    (a, b) = (if (m - tget 0 s.locks.tp g).toNat < (m2 - tget 0 s.locks.tp g).toNat then (m, m2) else (m2, m)) →
    ∃ s' v w, exec (.acquireQueue l m ⟨p, [⟨1, l2, m2, p2⟩]⟩) s = .next s' ∧ tget 0 s'.locks.tp g = a + 1 ∧
      (∀ k, k ≠ g → tget 0 s'.locks.tp k = tget 0 s.locks.tp k) ∧
      s'.out = s.out ++ [.reply "LOCKS" a.toNat [v], .reply "LOCKS" b.toNat [w]]) ∧
  (∀ (l : Fin 4096) (m : BitVec 16) (prio : Fin 16) (s : State) (x : Lock) (i : Instr) (queue : Bool), x = lockOf s l.val →
    (i = .acquireTry l m prio ∧ queue = false ∨ i = .acquireQueue l m ⟨prio, []⟩ ∧ queue = true) →
    ∃ s' outcome, exec i s = .next s' ∧ s'.out = s.out ++ [.reply "LOCKS" m.toNat [(lockWord s' l.val outcome).toNat]] ∧
      (∀ k, k ≠ l.val → lockOf s' k = lockOf s k) ∧ s'.mem = s.mem ∧
      (lockRight s (l.val / 64) m.toNat ≠ 3 → outcome = 11 ∧ lockOf s' l.val = x) ∧
      (lockRight s (l.val / 64) m.toNat = 3 →
        (x.state = 0 ∨ x.state = 2 → outcome = (if x.state = 0 then 1 else 2) ∧ (lockOf s' l.val).state = 1 ∧
          (lockOf s' l.val).owner = m.toNat ∧ (lockOf s' l.val).pk = false ∧ (lockOf s' l.val).ab = decide (x.state = 2) ∧
          (lockOf s' l.val).waiters = x.waiters ∧ (lockOf s' l.val).deadline = (if bit (groupCfg s (l.val / 64)) 8
            then now s + leaseN (groupCfg s (l.val / 64)) * dlPeriod (leaseDl (groupCfg s (l.val / 64))) else 0)) ∧
        (x.state = 1 → x.owner = m.toNat → x.pk = false → outcome = 6 ∧ (lockOf s' l.val).owner = m.toNat ∧
          (lockOf s' l.val).waiters = x.waiters ∧ (lockOf s' l.val).deadline = (if bit (groupCfg s (l.val / 64)) 8
            then now s + leaseN (groupCfg s (l.val / 64)) * dlPeriod (leaseDl (groupCfg s (l.val / 64))) else 0)) ∧
        (x.state = 1 → x.owner ≠ m.toNat ∨ x.pk = true →
          (queue = false → outcome = 4 ∧ lockOf s' l.val = x) ∧
          (queue = true → x.waiters.length = 8 ∨ waitsAny s m.toNat = true → outcome = 5 ∧ lockOf s' l.val = x) ∧
          (queue = true → x.waiters.length ≠ 8 → waitsAny s m.toNat = false → outcome = 3 ∧ ∃ before after,
            x.waiters = before ++ after ∧ lockOf s' l.val = { x with
              waiters := before ++ (m.toNat, reqPrio s m.toNat prio.val) :: after } ∧
            (∀ w ∈ before, reqPrio s m.toNat prio.val ≤ w.2) ∧
            (∀ w, after.head? = some w → w.2 < reqPrio s m.toNat prio.val))))) ∧
  (∀ (l : Fin 4096) (m : BitVec 16) (s : State) (x : Lock), x = lockOf s l.val →
    (lockRight s (l.val / 64) m.toNat ≠ 3 → exec (.release l m) s = .next (emit
      (.reply "LOCKS" m.toNat [(lockWord s l.val 11).toNat]) (bump 0xC090 0x0A s))) ∧
    (lockRight s (l.val / 64) m.toNat = 3 → ∃ s', exec (.release l m) s = .next s' ∧
      (∀ k, k ≠ l.val → lockOf s' k = lockOf s k) ∧
      (x.state = 1 → x.owner = m.toNat → x.pk = false → x.waiters = [] → (lockOf s' l.val).state = 0 ∧
        (lockOf s' l.val).owner = 0 ∧ (lockOf s' l.val).deadline = 0) ∧
      (∀ w ws, x.state = 1 → x.owner = m.toNat → x.pk = false → x.waiters = w :: ws → (lockOf s' l.val).state = 1 ∧
        (lockOf s' l.val).owner = w.1 ∧ (lockOf s' l.val).waiters = ws ∧ (lockOf s' l.val).ab = false) ∧
      (¬(x.state = 1 ∧ x.owner = m.toNat ∧ x.pk = false) → (∃ w ∈ x.waiters, w.1 = m.toNat) →
        lockOf s' l.val = { x with waiters := x.waiters.filter (fun w => decide (w.1 ≠ m.toNat)) }) ∧
      (¬(x.state = 1 ∧ x.owner = m.toNat ∧ x.pk = false) → (∀ w ∈ x.waiters, w.1 ≠ m.toNat) →
        lockOf s' l.val = { x with brk := if x.brk = some (m.toNat, false) then none else x.brk })) ∧
    (∃ s', exec (.lockQuery l m) s = .next s' ∧ s'.locks = s.locks ∧ s'.out = s.out ++ [.reply "LOCKS" m.toNat
      [(lockWord s l.val (if lockRight s (l.val / 64) m.toNat = 0 then 11 else 12)).toNat]]) ∧
    (x.state = 1 → x.deadline ≠ 0 → s.clk.frozen = none →
      (leasePaused s x = true ∨ fireAt s < expiryAt x.leaseDl x.deadline x.leaseAt → exec (.leaseExpiry l) s = .next s) ∧
      (leasePaused s x = false → expiryAt x.leaseDl x.deadline x.leaseAt ≤ fireAt s → ∃ s', exec (.leaseExpiry l) s = .next s' ∧
        (lockOf s' l.val).brk = some (x.owner, x.pk) ∧ (x.waiters = [] → (lockOf s' l.val).state = 2) ∧
        (∀ w ws, x.waiters = w :: ws → (lockOf s' l.val).state = 1 ∧ (lockOf s' l.val).owner = w.1 ∧ (lockOf s' l.val).ab = true ∧
          (lockOf s' l.val).waiters = ws))))


/-! ### Fabric ports, links, egress (chapter 03, R20-R22, R135, R192) -/

/-- Frames and flow control: a frame of wrong length, wrong FCS or stomped FCS is counted as such and takes no room; a good one joins
its port's ingress FIFO and the ledger; under LLR only the expected SEQ is taken. PFC pauses and releases, credit grants and its
frames, the order of the egress scheduler, and the last byte: the frame goes out with its FCS and its packet is gone.
The PCS counts its codewords beside. Before Dawn-4 ends a good frame that carries no TIME message becomes no item.
Where the spec is silent it rests on the model's choices of logs 10, 19, 41, 42, 121, 145 and 146. -/
def Obligations.FramesAndFlowControl : Prop :=
  (∀ (sp : Fin 16) (pre f : Bytes) (ok bad : Nat) (s s0 : State),
    s0 = bumpBy (0xC030 + sp.val / 2) 0x08 bad (bumpBy (0xC030 + sp.val / 2) 0x07 ok s) →
    (linkUp s sp.val = false ∨ clocked s = false → exec (.frameReceive sp ⟨pre, ok, bad⟩ f) s = .next s) ∧
    (linkUp s sp.val = true → clocked s = true → (subOf s sp.val).llr = false → openPkt s sp.val = none →
      ¬(frameDa f = 0x0180C200000E ∧ beAt f 12 2 = 0x88B5) →
      (f.length < 64 ∨ 9216 < f.length → exec (.frameReceive sp ⟨pre, ok, bad⟩ f) s = .next (bump (0xC030 + sp.val / 2) 0x06 s0)) ∧
      (64 ≤ f.length → f.length ≤ 9216 →
        (fcsStomped f = true → ∃ s', exec (.frameReceive sp ⟨pre, ok, bad⟩ f) s = .next s' ∧ s'.fab.port = s.fab.port ∧ s'.led = s.led ∧
          ctrVal s' (0xC030 + sp.val / 2) 0x0E = ctrVal s (0xC030 + sp.val / 2) 0x0E + 1) ∧
        (fcsStomped f = false → fcsGood f = false →
          exec (.frameReceive sp ⟨pre, ok, bad⟩ f) s = .next (bump (0xC030 + sp.val / 2) 0x05 s0)) ∧
        (fcsGood f = true → beAt f 12 2 ≠ 0x8808 → tagsUnsupported (frameBody f) = false →
          (16384 < fifoBytes s (sp.val / 2) + f.length →
            exec (.frameReceive sp ⟨pre, ok, bad⟩ f) s = .next (bump (0xC030 + sp.val / 2) 0x19 s0)) ∧
          (fifoBytes s (sp.val / 2) + f.length ≤ 16384 → mayEnter s (frameBody f) = false → ∃ s',
            exec (.frameReceive sp ⟨pre, ok, bad⟩ f) s = .next s' ∧ s'.fab.port = s.fab.port ∧ s'.led = s.led ∧
            ctrVal s' (0xC030 + sp.val / 2) 0x01 = ctrVal s (0xC030 + sp.val / 2) 0x01 + 1) ∧
          (fifoBytes s (sp.val / 2) + f.length ≤ 16384 → mayEnter s (frameBody f) = true → ∃ s', exec (.frameReceive sp ⟨pre, ok, bad⟩ f) s = .next s' ∧
            (portSt s' (sp.val / 2)).fifo = (portSt s (sp.val / 2)).fifo ++ [(sp.val, f.take (f.length - 4))] ∧
            ledRow s' 1 = (ledRow s 1).accept ∧
            ctrVal s' (0xC030 + sp.val / 2) 0x01 = ctrVal s (0xC030 + sp.val / 2) 0x01 + 1 ∧
            ctrVal s' (0xC030 + sp.val / 2) 0x03 = ctrVal s (0xC030 + sp.val / 2) 0x03 + BitVec.ofNat 64 f.length)))) ∧
    (∀ seq : BitVec 16, linkUp s sp.val = true → clocked s = true → (subOf s sp.val).llr = true → openPkt s sp.val = none →
      (subOf s sp.val).drainAt = none → (subOf s sp.val).replay = [] → pre = llrPre 0xA6 seq.toNat (subOf s sp.val).txAcked.toNat →
      64 ≤ f.length → f.length ≤ 9216 → fcsGood f = true → fifoBytes s (sp.val / 2) + f.length ≤ 16384 →
      ∃ s', exec (.frameReceive sp ⟨pre, ok, bad⟩ f) s = .next s' ∧
        (subOf s' sp.val).rxExpect = (if seq = (subOf s sp.val).rxExpect then seq + 1 else (subOf s sp.val).rxExpect) ∧
        (seq ≠ (subOf s sp.val).rxExpect → s'.fab.port = s.fab.port))) ∧
  (∀ (sp : Fin 16) (s : State),
    (flowCtl s sp.val ≠ 1 ∨ linkUp s sp.val = false → exec (.pfcRefresh sp) s = .next s) ∧
    (flowCtl s sp.val = 1 → linkUp s sp.val = true → ∃ s' old, exec (.pfcRefresh sp) s = .next s' ∧
      old = (subOf s sp.val).xoff.toNat ∧ (subOf s' sp.val).xoff =
        BitVec.ofNat 8 ((old ||| (overXoff s sp.val &&& (255 - old))) - (old &&& underXon s sp.val))) ∧
    (∀ (vec : BitVec 8) (timers : List (BitVec 16)),
      (linkUp s sp.val = false → exec (.pfcFrameReceive sp vec timers) s = .next s) ∧
      (linkUp s sp.val = true → ∃ s', exec (.pfcFrameReceive sp vec timers) s = .next s' ∧
        ctrVal s' (0xC030 + sp.val / 2) 0x10 = ctrVal s (0xC030 + sp.val / 2) 0x10 + 1 ∧
        ctrVal s' (0xC030 + sp.val / 2) 0x01 = ctrVal s (0xC030 + sp.val / 2) 0x01 + 1 ∧ s'.out = s.out ∧
        ∀ i, tfind (subOf s' sp.val).paused i =
          if flowCtl s sp.val = 1 ∧ i < 8 ∧ vec.getLsbD i = true then
            (if timers.getD i 0 = 0 then none else
              some (now80 s + ((timers.getD i 0).toNat * 512 * 65536 + nominalRate s sp.val - 1) / nominalRate s sp.val))
          else tfind (subOf s sp.val).paused i)) ∧
    (∀ (prio : Fin 8) (e : Nat), tfind (subOf s sp.val).paused prio.val = some e →
      (now80 s < e → exec (.pauseExpiry sp prio) s = .next s) ∧
      (e ≤ now80 s → ∃ s', exec (.pauseExpiry sp prio) s = .next s' ∧ tfind (subOf s' sp.val).paused prio.val = none)) ∧
    ((subOf s sp.val).cbfc = false ∨ linkUp s sp.val = false ∨ creditDue s sp.val = false → exec (.creditLcfSend sp) s = .next s) ∧
    ((subOf s sp.val).cbfc = true → linkUp s sp.val = true → creditDue s sp.val = true → ∃ s', exec (.creditLcfSend sp) s = .next s' ∧
      (subOf s' sp.val).freedSince = 0 ∧ (subOf s' sp.val).creditAt = some (now s) ∧ s'.out = s.out ++
        [.llrPreamble sp.val (llrPre 0xA9 0 (subOf s sp.val).rxExpect.toNat),
         .lcf sp.val 6 (lcfBytes sp.val 6 0 0 0 (grantWords (subOf s sp.val)))]) ∧
    (∀ grants : List (BitVec 32),
      ((subOf s sp.val).llr = false ∨ linkUp s sp.val = false →
        exec (.creditLcfReceive sp grants) s = .next (bump (0xC030 + sp.val / 2) 0x18 s)) ∧
      ((subOf s sp.val).llr = true → linkUp s sp.val = true → (subOf s sp.val).cbfc = true → ∃ s',
        exec (.creditLcfReceive sp grants) s = .next s' ∧ (subOf s' sp.val).gotCredit = true ∧
        ∀ c, c < 8 → tget 0 (subOf s' sp.val).granted c = grants.getD c 0))) ∧
  (∀ (sp : Fin 16) (s : State), (txFree s sp.val = false ∨ (subOf s sp.val).tx ≠ [] → exec (.egressDequeue sp) s = .next s) ∧
    (txFree s sp.val = true → (subOf s sp.val).tx = [] →
      (∀ kind b rest, (subOf s sp.val).ctl = (kind, b) :: rest → ∃ s', exec (.egressDequeue sp) s = .next s' ∧
        (subOf s' sp.val).ctl = rest ∧ (subOf s' sp.val).tx = [s.fab.nextPkt] ∧ s'.fab.queue = s.fab.queue) ∧
      ((subOf s sp.val).ctl = [] → (subOf s sp.val).cbfc = true → (subOf s sp.val).gotCredit = false →
        exec (.egressDequeue sp) s = .next s) ∧
      ((subOf s sp.val).ctl = [] → (subOf s sp.val).cbfc = false ∨ (subOf s sp.val).gotCredit = true →
        (∀ c k p, c < 8 → isStrict s sp.val c = true → readyHead s sp.val c = some (k, p) →
          (∀ b, c < b → b < 8 → isStrict s sp.val b = true → readyHead s sp.val b = none) →
          ∃ s', exec (.egressDequeue sp) s = .next s' ∧ (subOf s' sp.val).tx = [k] ∧
            queueOf s' sp.val c = (queueOf s sp.val c).drop 1 ∧ (∀ b, b < 8 → b ≠ c → queueOf s' sp.val b = queueOf s sp.val b)) ∧
        (∀ c d q k p, pickStrict s sp.val = none → pickDrr s sp.val 17 (tget 0 s.fab.drr sp.val) true s.fab.deficit = (some c, d, q) →
          readyHead s sp.val c = some (k, p) → exec (.egressDequeue sp) s = .next (startPkt sp.val c k p
            (modFab (fun f => { f with deficit := d, drr := tset 0 f.drr sp.val q }) s)))))) ∧
  (∀ (sp : Fin 16) (s : State), ((subOf s sp.val).tx = [] → exec (.packetLastByteSent sp) s = .next s) ∧
    (∀ k rest p, (subOf s sp.val).tx = k :: rest → pktOf s k = some p → linkUp s sp.val = true →
      p.complete = true ∨ p.stomp = true ∨ p.transit = false →
      (subOf s sp.val).llr = false ∨ (tfind (subOf s sp.val).txSeq k).isSome = true →
      ∃ s' more, exec (.packetLastByteSent sp) s = .next s' ∧ s'.out = s.out ++ [.frame sp.val (p.bytes ++
          natLE 4 (ethFcs p.bytes ^^^ (if p.stomp then 0xFFFFFFFF else 0))) p.stomp] ++ more ∧
        pktOf s' k = none ∧ ctrVal s' (0xC030 + sp.val / 2) 0x02 = ctrVal s (0xC030 + sp.val / 2) 0x02 + 1 ∧
        ledRow s' 1 = (if p.transit = true ∧ p.stomp = false then (ledRow s 1).complete else ledRow s 1)))

/-- Link-level retry, training, lanes: a frame that has room takes tx_next and is kept; an acknowledgement releases what is before it; a
NACK and the timeout replay the rest in order; training fixes what both ends offer and clears the lanes' state; STATE_LOST
restarts the numbers; a failed lane is shed while enough lanes stay, else the link is lost; each control frame is acted on only
where LLR runs.
SHED and RESTORE wait for the frame in progress, and a lane is restored once it has been clean for 3100h.0A.
Where the spec is silent it rests on the model's choices of logs 9, 130, 145, 146 and 147. -/
def Obligations.LinkRetryAndLanes : Prop :=
  (∀ (sp : Fin 16) (s : State) (x : SubPort), x = subOf s sp.val →
    (unsequenced s sp.val = none → exec (.llrFrameSend sp) s = .next s) ∧
    (∀ k p, unsequenced s sp.val = some (k, p) →
      (x.llr = false ∨ txFree s sp.val = false ∨ replayCap s sp.val < replayBytes x + copyLen p ∨ 8192 ≤ (x.txNext - x.txAcked).toNat →
        exec (.llrFrameSend sp) s = .next s) ∧
      (x.llr = true → txFree s sp.val = true → replayBytes x + copyLen p ≤ replayCap s sp.val → (x.txNext - x.txAcked).toNat < 8192 →
        ∃ s', exec (.llrFrameSend sp) s = .next s' ∧
          s'.out = s.out ++ [.llrPreamble sp.val (llrPre 0xA6 x.txNext.toNat x.rxExpect.toNat)] ∧
          (subOf s' sp.val).txNext = x.txNext + 1 ∧ tfind (subOf s' sp.val).txSeq k = some x.txNext ∧
          ∃ c, (subOf s' sp.val).replay = x.replay ++ [c] ∧ c.seq = x.txNext ∧ c.bytes = p.bytes ∧ c.pkt = some k ∧
            c.sentAt = now s ∧ c.tries = 0 ∧ c.len = copyLen p)) ∧
    (∀ i f, i = Instr.llrAckReceive sp f ∨ i = .llrNackReceive sp f ∨ (∃ lost, i = .syncReceive sp f lost) ∨ i = .shedAck sp f ∨
        (∃ lanes, i = .shed sp lanes ∨ i = .restore sp lanes) →
      x.llr = false ∨ linkUp s sp.val = false → exec i s = .next (bump (0xC030 + sp.val / 2) 0x18 s)) ∧
    (x.llr = true → linkUp s sp.val = true →
      (∀ a : BitVec 16, (a - x.txAcked).toNat ≤ (x.txNext - x.txAcked).toNat → ∃ s', exec (.llrAckReceive sp a) s = .next s' ∧
        (subOf s' sp.val).txAcked = a ∧ (subOf s' sp.val).replay = x.replay.filter (fun c => !seqBefore c.seq a)) ∧
      (∀ a : BitVec 16, (x.txNext - x.txAcked).toNat < (a - x.txAcked).toNat → x.drainAt = none →
        exec (.llrAckReceive sp a) s = .next s) ∧
      (∀ i, (i = .llrNackReceive sp x.txAcked ∨ (i = .llrAckTimeout sp ∧ ∃ c cs, x.replay = c :: cs ∧
          reached (dlUp 0 (c.sentAt + cfg s (0x3100 + sp.val / 2) 7 * 64)) s = true)) → x.replay ≠ [] →
        x.replay.length ≤ 8192 → x.replay.map (·.seq) = (List.range x.replay.length).map (fun i => x.txAcked + BitVec.ofNat 16 i) →
        (∀ c ∈ x.replay, mayReplay s { x with gotCredit := false } c = true ∧ c.tries < 7) → ∃ s', exec i s = .next s' ∧
          s'.out = s.out ++ x.replay.flatMap (fun c => [.llrPreamble sp.val (llrPre 0xA6 c.seq.toNat x.rxExpect.toNat),
            .frame sp.val (c.bytes ++ natLE 4 (ethFcs c.bytes ^^^ (if c.stomp then 0xFFFFFFFF else 0))) c.stomp]) ∧
          (subOf s' sp.val).replay = x.replay.map (fun c => { c with
            sentAt := now s, tries := c.tries + (if c.seq = x.txAcked then 1 else 0), paid := true })) ∧
      (∀ c cs, x.replay = c :: cs → reached (dlUp 0 (c.sentAt + cfg s (0x3100 + sp.val / 2) 7 * 64)) s = false →
        exec (.llrAckTimeout sp) s = .next s) ∧
      (∀ lseq, ∃ s', exec (.syncReceive sp lseq true) s = .next s' ∧ (subOf s' sp.val).txNext = 0 ∧ (subOf s' sp.val).txAcked = 0 ∧
        (subOf s' sp.val).rxExpect = 0) ∧
      (∀ lseq, x.replay = [] → lseq = x.txAcked → ∃ s', exec (.syncReceive sp lseq false) s = .next s' ∧ s'.out = s.out ∧
        (subOf s' sp.val).txNext = x.txNext ∧ (subOf s' sp.val).replayFrom = none) ∧
      (∀ lanes keep i, (i = .shed sp lanes ∨ i = .restore sp lanes) →
        keep = (if i = .shed sp lanes ∧ (x.lockDue = true ∨ x.ackWait = true) then lanes &&& fullLanes s sp.val &&& ~~~x.badLanes
          else lanes &&& fullLanes s sp.val) →
        (x.shedOn = false → exec i s = .next (bump (0xC030 + sp.val / 2) 0x18 s)) ∧
        (x.shedOn = true → (if portMode s (sp.val / 2) = 0 then 2 else 1) ≤ popcnt keep.toNat 4 → ∃ s', exec i s = .next s' ∧
          (subOf s' sp.val).lanes = keep ∧ (subOf s' sp.val).badLanes = fullLanes s sp.val &&& ~~~keep ∧ (subOf s' sp.val).oper = (if keep = fullLanes s sp.val then 2 else 3) ∧
          (subOf s' sp.val).lockDue = true ∧ (subOf s' sp.val).ackWait = true ∧ (subOf s' sp.val).replay = x.replay)) ∧
      (∀ lseq, x.ackWait = false → exec (.shedAck sp lseq) s = .next s) ∧
      (x.ackWait = true → x.replay = [] → ∃ s', exec (.shedAck sp x.txAcked) s = .next s' ∧ s'.out = s.out ∧
        (subOf s' sp.val).ackWait = false)) ∧
    (x.ackDue = false ∨ x.llr = false ∨ linkUp s sp.val = false ∨ x.tx ≠ [] → exec (.ackLcfSend sp) s = .next s) ∧
    (x.ackDue = true → x.llr = true → linkUp s sp.val = true → x.tx = [] → ∃ s', exec (.ackLcfSend sp) s = .next s' ∧
      (subOf s' sp.val).ackDue = false ∧ s'.out = s.out ++ [.llrPreamble sp.val (llrPre 0xA9 0 x.rxExpect.toNat),
        .lcf sp.val 1 (lcfBytes sp.val 1 0 0 0 [])]) ∧
    (x.lockDue = false ∨ linkUp s sp.val = false ∨ x.lcfDue ≠ none ∨ inProgress s sp.val = true → exec (.receiverLock sp) s = .next s) ∧
    (x.lockDue = true → linkUp s sp.val = true → x.lcfDue = none → inProgress s sp.val = false → ∃ s', exec (.receiverLock sp) s = .next s' ∧ (subOf s' sp.val).lockDue = false ∧
      s'.out = s.out ++ [.llrPreamble sp.val (llrPre 0xA9 0 x.rxExpect.toNat),
        .lcf sp.val 4 (lcfBytes sp.val 4 x.rxExpect.toNat 0 0 [])]) ∧
    (∀ lanes oui caps, (x.oper ≠ 1 ∨ lanes ≠ fullLanes s sp.val → exec (.linkTrainingEnd sp lanes oui caps) s = .next s) ∧
      (x.oper = 1 → lanes = fullLanes s sp.val → lanes ≠ 0 → ∃ s' y, exec (.linkTrainingEnd sp lanes oui caps) s = .next s' ∧
        y = subOf s' sp.val ∧ y.oper = 2 ∧ y.lanes = lanes ∧ y.badLanes = 0 ∧ y.lockDue = false ∧ y.ackWait = false ∧
        y.downAt = none ∧ y.peerCaps = caps ∧ y.peerZy = decide (oui = Config.vendorOui) ∧
        y.llr = (decide (oui = Config.vendorOui) && caps.getLsbD 0 && bit (offeredCaps s sp.val) 0) ∧
        y.shedOn = (decide (oui = Config.vendorOui) && caps.getLsbD 1 && bit (offeredCaps s sp.val) 1) ∧
        y.cbfc = (decide (oui = Config.vendorOui) && caps.getLsbD 2 && bit (offeredCaps s sp.val) 2))) ∧
    (x.drainAt = none → x.downAt = none → exec (.llrHoldExpiry sp) s = .next s) ∧
    (∀ t, x.drainAt = none → x.downAt = some t → linkUp s sp.val = false →
      (reached (dlUp 2 (t + x.holdMs * 1000000)) s = false → exec (.llrHoldExpiry sp) s = .next s) ∧
      (reached (dlUp 2 (t + x.holdMs * 1000000)) s = true → ∃ s', exec (.llrHoldExpiry sp) s = .next s' ∧
        (subOf s' sp.val).replay = [] ∧
        ctrVal s' (0xC030 + sp.val / 2) 0x0C = ctrVal s (0xC030 + sp.val / 2) 0x0C + BitVec.ofNat 64 x.replay.length)) ∧
    (linkUp s sp.val = false → exec (.linkLoss sp) s = .next s) ∧
    (linkUp s sp.val = true → ∃ s', exec (.linkLoss sp) s = .next s' ∧ (subOf s' sp.val).lanes = 0 ∧
      (subOf s' sp.val).downAt = some (now s) ∧ (subOf s' sp.val).oper =
        (if adminUp s (sp.val / 2) = true ∧ fullLanes s sp.val ≠ 0 then 1 else 0))) ∧
  (∀ (port : Fin 8) (lane : Fin 4) (s : State) (sp : Nat) (x : SubPort) (m : BitVec 4), sp = laneSub s port.val lane.val →
    x = subOf s sp → m = BitVec.ofNat 4 (2 ^ lane.val) →
    (∀ lol, (linkUp s sp = false ∨ x.badLanes &&& m ≠ 0 → ∃ s', exec (.laneFailureDeclare port lane lol) s = .next s' ∧ s'.fab.sub = s.fab.sub ∧
        s'.out = s.out ∧ (portSt s' port.val).failed = (portSt s port.val).failed ||| m) ∧
      (∀ keep, linkUp s sp = true → x.shedOn = true → x.badLanes &&& m = 0 → keep = fullLanes s sp &&& ~~~(x.badLanes ||| m) →
        (if portMode s port.val = 0 then 2 else 1) ≤ popcnt keep.toNat 4 → ∃ s',
        exec (.laneFailureDeclare port lane lol) s = .next s' ∧ (subOf s' sp).lanes = keep ∧ (subOf s' sp).oper = 3 ∧
          (subOf s' sp).badLanes = x.badLanes ||| m ∧ (subOf s' sp).lockDue = true ∧
          (inProgress s sp = true → (subOf s' sp).lcfDue = some 3 ∧ s'.out = s.out) ∧
          (inProgress s sp = false → (subOf s' sp).lcfDue = none ∧ s'.out = s.out ++
            [.llrPreamble sp (llrPre 0xA9 0 x.rxExpect.toNat), .lcf sp 3 (lcfBytes sp 3 0 keep.toNat 0 [])]))) ∧
    (∀ since at1, since = tget 0 (portSt s port.val).failAt lane.val →
      at1 = expiryAt 2 (since + cfg s (0x3100 + port.val) 0x0A * 1048576) since →
    (linkUp s sp = false ∨ x.shedOn = false ∨ x.badLanes &&& m = 0 ∨ reached at1 s = false → exec (.restoreHoldExpiry port lane) s = .next s) ∧
    (∀ keep, linkUp s sp = true → x.shedOn = true → x.badLanes &&& m ≠ 0 → reached at1 s = true → keep = fullLanes s sp &&& ~~~(x.badLanes &&& ~~~m) →
      ∃ s', exec (.restoreHoldExpiry port lane) s = .next s' ∧ (subOf s' sp).lanes = keep ∧
        (subOf s' sp).badLanes = x.badLanes &&& ~~~m ∧
        (inProgress s sp = true → (subOf s' sp).lcfDue = some 5 ∧ s'.out = s.out) ∧
        (inProgress s sp = false → s'.out = s.out ++
          [.llrPreamble sp (llrPre 0xA9 0 x.rxExpect.toNat), .lcf sp 5 (lcfBytes sp 5 0 keep.toNat 0 [])])))) ∧
  (∀ (port : Fin 8) (mv : Nat) (s : State),
    (mv ≤ cfg s (0x3100 + port.val) 0x0B ∨ cfgB s (0x3100 + port.val) 0x0C = false ∨
        (domState s (60 + port.val) ≠ 2 ∧ domState s (60 + port.val) ≠ 3) ∨ s.clk.frozen ≠ none →
      exec (.signalDetectWake ⟨port, mv⟩) s = .next (modPort port.val (fun q => { q with
        level := decide (cfg s (0x3100 + port.val) 0x0B < mv) }) s)) ∧
    (cfg s (0x3100 + port.val) 0x0B < mv → cfgB s (0x3100 + port.val) 0x0C = true → domState s (60 + port.val) = 2 ∨ domState s (60 + port.val) = 3 → s.clk.frozen = none →
      ∃ s', exec (.signalDetectWake ⟨port, mv⟩) s = .next s' ∧ (portSt s' port.val).wakePend = true ∧
        (portSt s' port.val).level = true ∧ ctrVal s' (0xC030 + port.val) 0x17 = ctrVal s (0xC030 + port.val) 0x17 + 1))

/-! ### Classification and courses (chapter 04) -/

/-- A packet takes the active course and the lowest free engine at entry; its parse leaves key and metadata; the search takes the
lowest-indexed entry that its course sees and that matches, else the default action; a fence holds the new course's packets.
Entry words and counters are written; a commit fires at its boundary, in its turn, with one course live, else waits; its staged values take
force; the sweep reclaims the older course.
Where the spec is silent it rests on the model's choices of logs 19, 49, 50, 140 and 148. -/
def Obligations.PacketsAndCourses : Prop :=
  (∀ (sp : Fin 16) (head : Bytes) (s : State) (pl c : Nat), pl = sp.val / 2 → c = activeCourse s →
    (freeEngine s pl = none ∨ clocked s = false → exec (.frameEnterPipeline sp head) s = .next s) ∧
    (∀ e, freeEngine s pl = some e → clocked s = true → e < 24 ∧ e ∉ busyEngines s pl ∧ (∀ d, d < e → d ∈ busyEngines s pl) ∧
      (∀ q b rest, (portSt s pl).fifo = (q, b) :: rest → q ≠ sp.val ∨ bodyRoom s pl b = false → exec (.frameEnterPipeline sp head) s = .next s) ∧
      ((portSt s pl).fifo = [] → mayEnter s head = false ∨ head.length < 64 ∨ linkUp s sp.val = false ∨ beAt head 12 2 = 0x8808 ∨
          bodyRoom s pl head = false →
        exec (.frameEnterPipeline sp head) s = .next s) ∧
      (∀ b rest complete, bodyRoom s pl b = true → bit (tget 0 s.cls.entry (pl * 2 + c % 2)).toNat 12 = true →
        ((portSt s pl).fifo = (sp.val, b) :: rest ∧ complete = true ∨ (portSt s pl).fifo = [] ∧ rest = [] ∧ b = head ∧
          complete = false ∧ 64 ≤ head.length ∧ head.length ≤ 9212 ∧ linkUp s sp.val = true ∧ openPkt s sp.val = none ∧
          beAt head 12 2 ≠ 0x8808 ∧ tagsUnsupported head = false ∧ mayEnter s head = true ∧
          ((subOf s sp.val).llr = true ∨ lcfAddressed head = false)) →
        ∃ s' p, exec (.frameEnterPipeline sp head) s = .next s' ∧ (portSt s' pl).fifo = rest ∧
          pktOf s' s.fab.nextPkt = some p ∧ p.bytes = b ∧ p.sp = sp.val ∧ p.course = c ∧ p.engine = some e ∧ p.phase = 0 ∧
          p.complete = complete ∧ orderOf s' pl = orderOf s pl ++ [s.fab.nextPkt] ∧
          tget 0 s'.cls.drain (c * 8 + pl) = tget 0 s.cls.drain (c * 8 + pl) + 1))) ∧
  (∀ (pl : Fin 8) (engine : Fin 24) (s : State),
    (parsing s pl.val engine.val = none → exec (.parseEnd pl engine) s = .next s ∧ exec (.parseBudgetExpiry pl engine) s = .next s) ∧
    (∀ k p o, parsing s pl.val engine.val = some (k, p) → o = parsePkt s pl.val p →
      (o.reason = rsBudget → exec (.parseEnd pl engine) s = .next s ∧
        exec (.parseBudgetExpiry pl engine) s = .next (endParse k pl.val o s)) ∧
      (o.reason ≠ rsBudget → exec (.parseBudgetExpiry pl engine) s = .next s ∧
        exec (.parseEnd pl engine) s = .next (endParse k pl.val o s)) ∧
      (∀ rest, o.reason = 0 → orderOf s pl.val = k :: rest → ∃ s' q, exec (.parseEnd pl engine) s = .next s' ∧
        pktOf s' k = some q ∧ q.phase = 1 ∧ q.meta1 = 0 ∧ q.key = o.key ++ hwKey o.m q.tc ∧
        q.tc = (if bit o.m 11 then bf o.m 8 3 else p.tc) ∧ q.bytes = p.bytes ∧ orderOf s' pl.val = k :: rest ∧
        ctrVal s' (0xC040 + pl.val) 0x01 = ctrVal s (0xC040 + pl.val) 0x01 + 1))) ∧
  (∀ (pl : Fin 8) (s : State), (orderOf s pl.val = [] → exec (.classifierSearch pl) s = .next s ∧
      exec (.meterLengthRelease pl) s = .next s) ∧
    (∀ k rest p, orderOf s pl.val = k :: rest → pktOf s k = some p →
      (p.phase ≠ 1 → exec (.classifierSearch pl) s = .next s) ∧
      (p.phase = 1 → fenced s p = true → ∃ s', exec (.classifierSearch pl) s = .next s' ∧
        pktOf s' k = some { p with phase := 8 } ∧ ctrVal s' (0xC040 + pl.val) 0x10 = ctrVal s (0xC040 + pl.val) 0x10 + 1) ∧
      (p.phase = 1 → fenced s p = false → p.parseReason = 0 → ∀ key, key = BitVec.ofNat 640 (beNat p.key) →
        (∀ i e, clsSearch s (pl.val / 2) p.course key = some (i, e) → exec (.classifierSearch pl) s =
          .next (flushHeads pl.val (applyAction k pl.val (modPkt k (fun p => { p with
            act := e.action, meta1 := BitVec.ofNat 64 (i * 2 ^ 4 + 3 * 2 ^ 18) }) s)))) ∧
        (clsSearch s (pl.val / 2) p.course key = none → exec (.classifierSearch pl) s = .next (flushHeads pl.val
          (applyAction k pl.val (modPkt k (fun p => { p with
            act := tget dropAction s.cls.dflt (pl.val * 2 + p.course % 2),
            meta1 := BitVec.ofNat 64 (1 + 2 ^ 17 + 3 * 2 ^ 18) }) (bump (0xC040 + pl.val) 0x07 s)))))) ∧
      (p.phase ≠ 2 ∨ p.complete = false → exec (.meterLengthRelease pl) s = .next s) ∧
      (p.phase = 2 → p.complete = true → exec (.meterLengthRelease pl) s = .next (flushHeads pl.val
        (meterPkt k pl.val p.len p (modOrder pl.val (fun l => l.filter (· ≠ k)) s)))))) ∧
  (∀ (s : State) (inst c : Nat) (key : BitVec 640),
    (∀ i e, clsSearch s inst c key = some (i, e) → i < 8192 ∧ e = clsEntry s inst i ∧ visible e c = true ∧ entryMatch e key = true ∧
      ∀ j, j < i → (visible (clsEntry s inst j) c && entryMatch (clsEntry s inst j) key) = false) ∧
    (clsSearch s inst c key = none → ∀ j, j < 8192 →
      (visible (clsEntry s inst j) c && entryMatch (clsEntry s inst j) key) = false)) ∧
  (∀ s : State, (s.cls.fence = false ∨ olderPending s = true → exec .fenceRelease s = .next s) ∧
    (s.cls.fence = true → olderPending s = false → ∃ s', exec .fenceRelease s = .next s' ∧ s'.cls.fence = false)) ∧
  (∀ (inst : Fin 4) (index : Fin 8192) (word : Fin 32) (v : W64) (s : State) (e : ClsEntry), e = clsEntry s inst.val index.val →
    ∃ s' e', exec (.classifierEntryWrite inst index word v) s = .next s' ∧ e' = clsEntry s' inst.val index.val ∧
      (∀ i j, j < 8192 → (i, j) ≠ (inst.val, index.val) → clsEntry s' i j = clsEntry s i j) ∧
      (word.val < 10 → e' = { e with key := setWord640 e.key word.val v }) ∧
      (10 ≤ word.val → word.val < 20 → e' = { e with mask := setWord640 e.mask (word.val - 10) v }) ∧
      (word.val = 20 → e' = { e with action := v &&& 0x3FFFFFFFFFFFF }) ∧ (word.val = 21 → e' = { e with control := v &&& 0xFFF }) ∧
      (22 ≤ word.val → e' = e)) ∧
  (∀ (m : Nat) (pair : Fin 262144) (v : W64) (s : State),
    (∃ s', exec (.counterPktsRead m pair) s = .next s' ∧ tget 0 s'.cls.latch (m * 262144 + pair.val) = tget 0 s.cls.byts pair.val ∧
      s'.cls.pkts = s.cls.pkts ∧ s'.cls.byts = s.cls.byts) ∧
    (∃ s', exec (.counterWrite pair false v) s = .next s' ∧ tget 0 s'.cls.pkts pair.val = v ∧ s'.cls.byts = s.cls.byts ∧
      ∀ k, k ≠ pair.val → tget 0 s'.cls.pkts k = tget 0 s.cls.pkts k) ∧
    (∃ s', exec (.counterWrite pair true v) s = .next s' ∧ tget 0 s'.cls.byts pair.val = v ∧ s'.cls.pkts = s.cls.pkts ∧
      ∀ k, k ≠ pair.val → tget 0 s'.cls.byts k = tget 0 s.cls.byts k)) ∧
  (∀ s : State, (s.cls.commit = none → exec .courseCommitFire s = .next s ∧ exec .waitedCommitFire s = .next s) ∧
    (∀ c, s.cls.commit = some c →
      (c.waiting = true ∨ s.led.restart ≠ none ∨ reached (commitBoundary c s) s = false → exec .courseCommitFire s = .next s) ∧
      (c.waiting = false ∨ s.led.restart ≠ none ∨ s.cls.older ≠ none ∨ commitReady s = false → exec .waitedCommitFire s = .next s) ∧
      (∀ e, nextDue s = some e → e.act ≠ .commit → exec .courseCommitFire s = .next s ∧ exec .waitedCommitFire s = .next s) ∧
      (∀ e, nextDue s = some e → e.act = .commit → c.waiting = false → s.cls.older.isSome = true → exec .courseCommitFire s =
        .next (modCls (fun k => { k with commit := some { c with waiting := true } }) s)) ∧
      (∀ e i st late, nextDue s = some e → e.act = .commit →
        (i = Instr.courseCommitFire ∧ c.waiting = false ∧ st = (if late then 1 else 0) ∧
            late = (match c.time with | some t => timedLate t c.acceptedAt s | none => false) ∨
          i = .waitedCommitFire ∧ c.waiting = true ∧ st = 2 ∧
            late = (match c.time with | some t => decide (t < c.acceptedAt) | none => false)) →
        s.cls.older = none → ∃ s', exec i s = .next s' ∧ s'.cls.active = s.cls.active + 1 ∧
          s'.cls.older = some s.cls.active ∧ s'.cls.commit = none ∧ s'.cls.staging = false ∧ s'.cls.fence = c.fenced ∧
          s'.cls.lastStatus = st ∧ s'.dict.staged = [] ∧
          s'.dict.vals = s.dict.staged.foldl (fun t e => tput t e.1 e.2) s.dict.vals ∧ s'.cls.ent = s.cls.ent ∧
          ctrVal s' 0xC048 0x01 = ctrVal s 0xC048 0x01 + 1 ∧
          ctrVal s' 0xC020 0x01 = ctrVal s 0xC020 0x01 + (if late = true then 1 else 0))) ∧
    (s.cls.older.isSome = true ∨ s.cls.slotCopied = true → exec .slotCopyEnd s = .next s) ∧
    (s.cls.older = none → s.cls.slotCopied = false → ∃ s', exec .slotCopyEnd s = .next s' ∧ s'.cls.slotCopied = true ∧
      s'.cls.vals = [] ∧ (s.cls.vals = [] → ∀ p, p < 8 → tget 0 s'.cls.entry (p * 2 + stagedSlot s) =
        tget 0 s.cls.entry (p * 2 + activeCourse s % 2) ∧ tget dropAction s'.cls.dflt (p * 2 + stagedSlot s) =
        tget dropAction s.cls.dflt (p * 2 + activeCourse s % 2))) ∧
    (s.cls.sweep = false → exec .courseSweepEnd s = .next s) ∧
    (s.cls.sweep = true → ∃ s', exec .courseSweepEnd s = .next s' ∧ s'.cls.older = none ∧
      s'.cls.sweep = false ∧ s'.cls.active = s.cls.active ∧
      ∀ i j, clsEntry s' i j = sweepEntry (activeCourse s) (clsEntry s i j)))

/-! ### Forwarding (chapter 05) -/

/-- Transit forwarding: the oldest packet to be forwarded goes by the learn table (bridged), by the endpoint table (ZMT) or by the longest
matching prefix; a packet with no entry, no route or no hops left fails with its reason and is gone. Learn requests, the aging sweeps,
the notification queue and the commands of a table's interface.
A group address is forwarded by a static entry only.
Where the spec is silent it rests on the model's choices of logs 43, 44, 45 and 150. -/
def Obligations.TransitForwarding : Prop :=
  (∀ (pl : Fin 8) (s : State),
    (s.fab.pkts.find? (fun e => decide (e.2.sp / 2 = pl.val) && decide (e.2.phase = 3)) = none → exec (.forwardDecision pl) s = .next s) ∧
    (∀ k p, s.fab.pkts.find? (fun e => decide (e.2.sp / 2 = pl.val) && decide (e.2.phase = 3)) = some (k, p) →
      (p.l3t = 0 ∨ 3 ≤ p.l3t →
        (ltFind s (outerVid p.bytes) (frameDa p.bytes) = none →
          exec (.forwardDecision pl) s = .next (failPkt k 0x0A 0x0E (bump (0xC050 + pl.val) 0x06 s))) ∧
        (∀ i, ltFind s (outerVid p.bytes) (frameDa p.bytes) = some i → bit (frameDa p.bytes) 40 = true → ltStatic (ltSlot s i) = false →
          exec (.forwardDecision pl) s = .next (failPkt k 0x0A 0x0E (bump (0xC050 + pl.val) 0x06 s))) ∧
        (∀ i sp, ltFind s (outerVid p.bytes) (frameDa p.bytes) = some i → sp = ltSp (ltSlot s i) → pktOf s k = some p →
          bit (frameDa p.bytes) 40 = false ∨ ltStatic (ltSlot s i) = true →
          (admitPlace s sp p.tc p = 0 → ∃ s', exec (.forwardDecision pl) s = .next s' ∧
            queueOf s' sp p.tc = queueOf s sp p.tc ++ [k] ∧
            pktOf s' k = some { p with phase := 5, out := sp, spilled := false } ∧ (ltSlot s' i).1.getLsbD 62 = true) ∧
          (2 ≤ admitPlace s sp p.tc p → exec (.forwardDecision pl) s =
            .next (failPkt k 0x0D 0x0E (bump (0xC050 + pl.val) 0x08 (ltTouch i s)))))) ∧
      (p.l3t = 1 ∨ p.l3t = 2 → (headerHere p = false → exec (.forwardDecision pl) s = .next s) ∧
        (headerHere p = true → (p.ttl ≤ 1 →
            exec (.forwardDecision pl) s = .next (failPkt k 0x0B 0x0E (bump (0xC050 + pl.val) 0x07 s))) ∧
          (2 ≤ p.ttl → p.zmt = false ∨ cfgB s (0x6500 + pl.val) 1 = false →
            (∀ s1, lpmRoute pl.val (p.l3t - 1) (lpmKey s p) s = (none, s1) →
              exec (.forwardDecision pl) s = .next (failPkt k 0x0C 0x0E (bump (0xC050 + pl.val) 0x05 s1))) ∧
            (∀ g s1, lpmRoute pl.val (p.l3t - 1) (lpmKey s p) s = (some g, s1) →
              exec (.forwardDecision pl) s = .next (forwardGroup k pl.val (some g) s1))) ∧
          (∀ b, 2 ≤ p.ttl → p.zmt = true → cfgB s (0x6500 + pl.val) 1 = true → b = etBucket s (fwdEp s p) →
            missFor s pl.val b = false →
            (∀ i, etFind s (fwdEp s p) = some i → cached s i = true →
              exec (.forwardDecision pl) s = .next (forwardEt k pl.val p (some i) s)) ∧
            ((∀ i, etFind s (fwdEp s p) = some i → cached s i = false) → (256 ≤ (missesOf s pl.val).length ∨ metaRoom s .endpoints b = false →
                exec (.forwardDecision pl) s = .next s) ∧
              ((missesOf s pl.val).length < 256 → metaRoom s .endpoints b = true → ∃ s', exec (.forwardDecision pl) s = .next s' ∧ s'.fwd.misses = s.fwd.misses ++ [(pl.val, b, [k])] ∧
                ctrVal s' (0xC050 + pl.val) 0x02 = ctrVal s (0xC050 + pl.val) 0x02 + 1)))))) ∧
    (∀ (b : Nat), s.fwd.misses.find? (fun m => decide (m.1 = pl.val ∧ m.2.1 = b)) = none ∨ metaPending s .endpoints b pl.val = true →
      exec (.etMissComplete pl b) s = .next s) ∧
    (∀ (b k : Nat) (p : Pkt), s.fwd.misses.find? (fun m => decide (m.1 = pl.val ∧ m.2.1 = b)) = some (pl.val, b, [k]) →
      metaPending s .endpoints b pl.val = false → pktOf s k = some p → ∃ s1, s1 = modPkt k (fun p => { p with phase := 3 }) (modFwd (fun x => { x with
          misses := x.misses.filter (fun m => !(decide (m.1 = pl.val ∧ m.2.1 = b))) }) s) ∧
        exec (.etMissComplete pl b) s = .next (forwardEt k pl.val p (if metaDead s .endpoints b then none else etFind s (fwdEp s p)) s1))) ∧
  (∀ (k reason unit : Nat) (s : State) (p : Pkt), pktOf s k = some p → p.complete = true → ∀ s1, s1 = failPkt k reason unit s →
    pktOf s1 k = none ∧ ledRow s1 1 = (ledRow s 1).failed) ∧
  (∀ (s : State) (af a g n : Nat), lpmLookup s af a = (some g, false, n) → ∃ len i, 1 ≤ len ∧ len ≤ famBits af ∧
    lpmProbe s af len a = some i ∧ g = lpmNhg (lpmSlot s i) ∧ lpmLen (lpmSlot s i) = len ∧
    ∀ l, len < l → l ≤ famBits af → bit (filtOf s af (lpmBlock af a)) l = true → lpmProbe s af l a = none) ∧
  (∀ s : State, (s.fwd.learnQ = [] → exec .learnInsert s = .next s) ∧
    (∀ sp mac vid birth rest, s.fwd.learnQ = (sp, mac, vid, birth) :: rest → ∃ s', exec .learnInsert s = .next s' ∧
      s'.fwd.learnQ = rest ∧
      (∀ i, ltFind s vid mac = some i → ltSp (ltSlot s i) = sp → (ltSlot s' i).1.getLsbD 62 = true ∧ s'.fwd.lnq = s.fwd.lnq) ∧
      (∀ i, ltFind s vid mac = some i → ltSp (ltSlot s i) ≠ sp → ltStatic (ltSlot s i) = true → s'.fwd.lt = s.fwd.lt ∧
        ctrVal s' 0xC058 0x0B = ctrVal s 0xC058 0x0B + 1) ∧
      (∀ i, ltFind s vid mac = none → (bucketSlots (ltBucket s vid mac)).find? (fun i => !ltV (ltSlot s i)) = some i →
        sp < 16 → mac < 2 ^ 48 → vid < 4096 → ltFind s' vid mac = some i ∧ ltSp (ltSlot s' i) = sp ∧
        ctrVal s' 0xC058 0x03 = ctrVal s 0xC058 0x03 + 1))) ∧
  (∀ s : State, (cfgB s 0x6020 1 = false ∨ s.clk.frozen.isSome = true ∨ now s / 1048576 < s.fwd.lastSweep + s.fwd.ageTicks →
      exec .agingSweepStart s = .next s) ∧
    (cfgB s 0x6020 1 = true → s.clk.frozen = none → s.fwd.lastSweep + s.fwd.ageTicks ≤ now s / 1048576 → ∃ s',
      exec .agingSweepStart s = .next s' ∧ s'.fwd.lastSweep = now s / 1048576 ∧ s'.fwd.etSweep = true ∧ s'.fwd.ltSweep = true ∧
      (s.fwd.etSweep = true → s'.fwd.etHeld = true ∧ s'.fwd.et = s.fwd.et) ∧
      (∀ i e, s.fwd.ltSweep = false → e = ltSlot s i → ltSlot s' i =
        if ltV e = false ∨ ltStatic e = true then e else (ageEntry 62 63 e).getD (0, 0))) ∧
    (∀ lt : Bool, (if lt then s.fwd.ltSweep else s.fwd.etSweep) = false → exec (.agingSweepEnd lt) s = .next s) ∧
    (s.fwd.ltSweep = true → s.fwd.ltHeld = false →
      exec (.agingSweepEnd true) s = .next (modFwd (fun x => { x with ltSweep := false }) s)) ∧
    (s.fwd.etSweep = true → s.fwd.etHeld = false →
      exec (.agingSweepEnd false) s = .next (modFwd (fun x => { x with etSweep := false }) s)) ∧
    (∀ m, (s.fwd.lnq = [] → exec (.lnqPop m) s = .next (emit (.reply "LNQ" m [0]) s)) ∧
      (∀ r rest, s.fwd.lnq = r :: rest → ∃ s', exec (.lnqPop m) s = .next s' ∧ s'.fwd.lnq = rest ∧
        tget [0, 0, 0] s'.fwd.lnqLatch m = r.drop 1 ∧ s'.out = s.out ++ [.reply "LNQ" m [(r.headD 0).toNat]]))) ∧
  (∀ (m lt : Bool) (s : State) (d0 : Nat), d0 = (fwdCmd s m).d0.toNat →
    (fwdKeySlot s lt d0 = none → exec (.fwdLookup m lt) s = .next (fwdDone m 3 s) ∧ exec (.fwdDelete m lt) s = .next (fwdDone m 3 s)) ∧
    (∀ i, fwdKeySlot s lt d0 = some i →
      (∃ s', exec (.fwdLookup m lt) s = .next s' ∧ (fwdCmd s' m).status = 0 ∧
        ((fwdCmd s' m).d1, (fwdCmd s' m).d2) = fwdSlot s' lt i ∧
        (fwdSlot s' lt i).1 = BitVec.ofNat 64 (bput (fwdSlot s lt i).1.toNat (if lt then 62 else 48) 1 1) ∧
        (fwdSlot s' lt i).2 = (fwdSlot s lt i).2) ∧
      (∃ s', exec (.fwdDelete m lt) s = .next s' ∧ (fwdCmd s' m).status = 0 ∧ fwdSlot s' lt i = (0, 0)) ∧
      (∃ s', exec (.fwdInsert m lt) s = .next s' ∧ (fwdCmd s' m).status = 1 ∧ s'.fwd.lt = s.fwd.lt ∧ s'.fwd.et = s.fwd.et)) ∧
    (∀ i, fwdKeySlot s lt d0 = none →
      (lt = true ∧ (bucketSlots (ltBucket s (bf d0 48 12) (bf d0 0 48))).find? (fun i => !ltV (ltSlot s i)) = some i ∨
       lt = false ∧ (bucketSlots (etBucket s (bf d0 0 32))).find? (fun i => !etV (etSlot s i)) = some i) →
      ∃ s', exec (.fwdInsert m lt) s = .next s' ∧ (fwdCmd s' m).status = 0 ∧ fwdKeySlot s' lt d0 = some i) ∧
    (∀ (way : Fin 4) (bucket : Nat), ∃ s', exec (.readWay m lt way bucket) s = .next s' ∧ (fwdCmd s' m).status = 0 ∧
      ((fwdCmd s' m).d1, (fwdCmd s' m).d2) = fwdSlot s lt ((if lt then bucket % 65536 else bucket % 524288) * 4 + way.val) ∧
      s'.fwd.lt = s.fwd.lt ∧ s'.fwd.et = s.fwd.et))

/-! ### ZMT transport (chapters 06, 12) -/

/-- The target: a packet is checked and waits for its operation; an operation acts on the oldest packet of its kind, and one whose peer
record is gone fails. A PUT places its bytes in the window and counts them, and where the window refuses it nothing is stored; a GET
is answered with what its window holds, an ATOMIC with the old word; responses are placed once; an ACK releases what it covers; CREDIT
takes newer grants; MGMT reaches the steward; ACK and CREDIT are sent when they are due.
A response waits while the bucket of its peer does not hold it, and credit is withheld while a deposit of the peer waits.
Where the spec is silent it rests on the model's choices of logs 73, 74, 77 and 156. -/
def Obligations.TransportTargets : Prop :=
  (∀ (ts : Fin 8) (sb s : State), s = feedSlice ts.val sb → (inqOf s ts.val = [] → exec (.zmtPacketReceive ts) sb = .next s) ∧
    (∀ z0 rest h, inqOf s ts.val = z0 :: rest → h = zhdrParse (slice z0.bytes z0.hofs 40) → 42 ≤ z0.hofs →
      z0.hofs + 40 ≤ z0.bytes.length → cfgB s 0x7000 0x0A = false ∨ udpOk z0.bytes z0.hofs = true →
      (h.op = 0 ∨ 14 ≤ h.op ∨ (h.op = opReduce ∧ h.ver ≤ 1) → ∃ s', exec (.zmtPacketReceive ts) sb = .next s' ∧
        inqOf s' ts.val = rest ∧ ledRow s' 6 = (ledRow s 6).failed ∧ s'.mem = s.mem ∧
        ctrVal s' (0xC060 + ts.val) 0x05 = ctrVal s (0xC060 + ts.val) 0x05 + 1) ∧
      (h.op = opTime → versionRefused s h = false → plenOk z0 h = true → ∃ s', exec (.zmtPacketReceive ts) sb = .next s' ∧
        inqOf s' ts.val = rest ∧ readyOf s' ts.val = readyOf s ts.val ∧ ledRow s' 6 = (ledRow s 6).complete ∧ s'.mem = s.mem) ∧
      (∀ pk p z, h.op ≠ 0 → h.op < 14 → h.op ≠ opTime → ¬(h.op = opReduce ∧ h.ver ≤ 1) → peerIdx s h.srcEp = some pk →
        peerOf s pk = some p → p.ep = h.srcEp → versionRefused s h = false →
        z = { z0 with hdr := h, body := slice z0.bytes (z0.hofs + 40 + trcLen h) h.plen } → plenOk z h = true →
        opSequenced h.op = false ∨ (p.rxBase = BitVec.ofNat 32 h.psn ∧ p.rxBase ∉ p.seen ∧ waitsAt s p.ep p.rxBase = false) →
        ∃ s', exec (.zmtPacketReceive ts) sb = .next s' ∧ inqOf s' ts.val = rest ∧ readyOf s' ts.val = readyOf s ts.val ++ [z] ∧
          s'.mem = s.mem))) ∧
  (∀ (ts : Fin 8) (host : Bytes) (s : State) (i : Instr) (op : Nat),
    (i = .put ts ∧ op = opPut ∨ i = .get ts host ∧ op = opGet ∨ i = .getr ts ∧ op = opGetr ∨ i = .atomic ts host ∧ op = opAtomic ∨
      i = .atomr ts ∧ op = opAtomr ∨ i = .send ts host ∧ op = opSend ∨ i = .reduce ts host ∧ op = opReduce ∨ i = .ack ts ∧ op = opAck ∨
      i = .nack ts ∧ op = opNack ∨ i = .credit ts ∧ op = opCredit ∨ i = .mgmt ts ∧ op = opMgmt ∨ i = .fin ts ∧ op = opFin) →
    (readyOp s ts.val op = none → exec i s = .next s) ∧
    (∀ z, readyOp s ts.val op = some z → peerIdx s z.hdr.srcEp = none → exec i s = .next (ledFail 6 (zmtReason zNoPeer) 0x0F 0 z.item
      (dropReady ts.val z s)))) ∧
  (∀ (ts : Fin 8) (host : Bytes) (s : State) (z : ZIn) (pk a w : Nat), peerIdx s z.hdr.srcEp = some pk →
    a = winAddr s z.hdr.tofs → w = tofsWin z.hdr.tofs →
    (readyOp s ts.val opPut = some z → bit z.hdr.flags 5 = false →
      (∀ c, winCheck s z.hdr.tofs z.body.length z.hdr.job rPut = c → c ≠ 0 → ∃ s', exec (.put ts) s = .next s' ∧ s'.mem = s.mem ∧
        ledRow s' 6 = (ledRow s 6).failed ∧ ctrOf s' z.hdr.ccid = ctrOf s z.hdr.ccid) ∧
      (∀ c, winCheck s z.hdr.tofs z.body.length z.hdr.job rPut = 0 → c = ctrOf s z.hdr.ccid → z.hdr.ccid < 1048576 →
        c.state = csArmed → c.auto = false → c.job = z.hdr.job → ctrPending s z.hdr.ccid = 0 → c.count + z.body.length < c.target →
        rangeAcc s (xinId z) true (winPasid s w) a z.body.length = .ok → isHost a = false →
        ∃ s', exec (.put ts) s = .next s' ∧ (∀ x, tget 0 s'.mem.byte x =
            if a ≤ x ∧ x < a + z.body.length ∧ hbmFailed s x = false then z.body.getD (x - a) 0 else tget 0 s.mem.byte x) ∧
          ctrOf s' z.hdr.ccid = { c with count := c.count + z.body.length } ∧ ledRow s' 6 = (ledRow s 6).complete)) ∧
    (readyOp s ts.val opGet = some z → z.dup = false → z.hdr.mlen ≤ 4096 →
      winAcc s (xinId z) false z.hdr.tofs z.hdr.mlen z.hdr.job rGet = .ok → isHost a = false → poisonedIn s a z.hdr.mlen = false →
      (respPaced s pk z.hdr.mlen = false → exec (.get ts host) s = .next s) ∧
      (respPaced s pk z.hdr.mlen = true → exec (.get ts host) s = .next (zPlaced ts.val pk z (sendResp pk ts.val z.hdr.srcEp
        { op := opGetr, plen := z.hdr.mlen, job := z.hdr.job, msgId := z.hdr.msgId, tofs := beAt z.body 0 8, ccid := z.hdr.ccid,
          mseq := z.hdr.psn, mlen := z.hdr.mlen } (memBytes s a z.hdr.mlen) s)))) ∧
    (readyOp s ts.val opAtomic = some z → z.dup = false →
      (5 < z.hdr.sub → exec (.atomic ts host) s = .next (zRefuse ts.val pk z zBadOp s)) ∧
      (∀ old, z.hdr.sub ≤ 5 → winCheck s z.hdr.tofs z.hdr.plen z.hdr.job rAtom = 0 → a % 8 = 0 → isHost a = false →
        rangeAcc s (xinId z) true (winPasid s w) a 8 = .ok → poisonedIn s a 8 = false → old = (memData s a).toNat → respPaced s pk 8 = true →
        ∃ s', exec (.atomic ts host) s = .next s' ∧ ledRow s' 6 = (ledRow s 6).complete ∧ ∀ x, tget 0 s'.mem.byte x =
          if a ≤ x ∧ x < a + 8 ∧ hbmFailed s x = false then
            (natLE 8 (atomicNew z.hdr.sub old (beAt z.body 0 8) (beAt z.body 8 8))).getD (x - a) 0
          else tget 0 s.mem.byte x)) ∧
    (∀ op i, (op = opGetr ∧ i = Instr.getr ts ∨ op = opAtomr ∧ i = .atomr ts) → readyOp s ts.val op = some z →
      ((peerOf s pk).bind (fun p => tfind p.resp z.hdr.mseq) = none → exec i s = .next (zInDone (dropReady ts.val z s))) ∧
      (∀ r m s1 d, (peerOf s pk).bind (fun p => tfind p.resp z.hdr.mseq) = some r → zmsgOf s r.msg = some m → m.asm = none →
        m.op = (if op = opGetr then opGet else opAtomic) → z.body.length = r.len →
        d = (if op = opGetr then z.body else natLE 8 (beAt z.body 0 8)) → placeResp ts.val z m r d s = .done s1 →
        exec i s = .next (checkDone pk r.msg (zInDone (modZmsg r.msg (fun x => { x with
          acked := m.acked + r.len, res := if op = opAtomr then BitVec.ofNat 64 (beAt z.body 0 8) else m.res })
          (respTaken pk z.hdr.mseq (dropReady ts.val z s1))))))) ∧
    (readyOp s ts.val opSend = some z →
      (∀ i x, asmFind s z.hdr.srcEp z.hdr.msgId = some (i, x) →
        exec (.send ts host) s = .next (settleSeq ts.val pk z s (sendInto ts.val z i x s))) ∧
      (asmFind s z.hdr.srcEp z.hdr.msgId = none → newAsm ts.val pk z s = .inl none →
        exec (.send ts host) s = .next (zBusyNack ts.val z s)) ∧
      (∀ i s1 x, asmFind s z.hdr.srcEp z.hdr.msgId = none → newAsm ts.val pk z s = .inl (some (i, s1)) → asmOf s1 i = some x →
        exec (.send ts host) s = .next (settleSeq ts.val pk z s1 (sendInto ts.val z i x s1)))) ∧
    (readyOp s ts.val opReduce = some z → ∀ mode typ, mode = z.hdr.sub % 8 → typ = bf z.hdr.sub 4 2 →
      (5 < mode ∨ typ = 3 ∨ (2 ≤ mode ∧ typ ≠ 0) → exec (.reduce ts host) s = .next (zRefuse ts.val pk z zBadOp s)) ∧
      (2 ≤ mode → mode ≤ 5 → typ = 0 → exec (.reduce ts host) s = .next (settleSeq ts.val pk z s (reduceWindow ts.val z mode host s))) ∧
      (mode < 2 → typ ≠ 3 → 12 ≤ bf z.hdr.tofs 4 4 → exec (.reduce ts host) s = .next (zRefuse ts.val pk z zNoSlot s)) ∧
      (∀ tile c, mode < 2 → typ ≠ 3 → tile = bf z.hdr.tofs 4 4 → tile < 12 →
        (slotOf s tile (bf z.hdr.tofs 0 4)).armed = some (z.hdr.job, c) → ctrCheck s z.hdr.ccid z.hdr.job z.hdr.mlen z.hdr.plen = 0 →
        ∃ s' d, exec (.reduce ts host) s = .next s' ∧ (copOf s' tile).dep = (copOf s tile).dep ++ [d] ∧ d.rest = z.body ∧
          d.slot = bf z.hdr.tofs 0 4 ∧ d.mode = mode ∧ d.typ = typ ∧ d.ccid = z.hdr.ccid ∧ s'.mem = s.mem)) ∧
    (∀ p base, readyOp s ts.val opAck = some z → peerOf s pk = some p → base = BitVec.ofNat 32 z.hdr.psn →
      (p.txNext - base).toNat < 2 ^ 31 → ∃ s', exec (.ack ts) s = .next s' ∧
        ∀ q, peerOf s' pk = some q → (∀ o ∈ q.outs, acksPsn base (beAt z.body 0 8) o.psn = true → o.acked = true) ∧
          q.txAcked = (if psnBefore p.txAcked base then base else p.txAcked)) ∧
    (∀ p, readyOp s ts.val opNack = some z → peerOf s pk = some p → (∀ o ∈ p.outs, o.psn ≠ BitVec.ofNat 32 z.hdr.psn) →
      exec (.nack ts) s = .next (zInDone (bump 0xC068 0x06 (dropReady ts.val z s)))) ∧
    (∀ p o, readyOp s ts.val opNack = some z → peerOf s pk = some p →
      p.outs.find? (fun o => decide (o.psn = BitVec.ofNat 32 z.hdr.psn)) = some o → 0x11 ≤ z.hdr.sub →
      exec (.nack ts) s = .next (zInDone (abortMsg o.msg z.hdr.sub true (decide (z.hdr.sub ≠ zNoPeer))
        (bump 0xC068 0x06 (dropReady ts.val z s))))) ∧
    (∀ p, readyOp s ts.val opCredit = some z → peerOf s pk = some p → ∃ s' q, exec (.credit ts) s = .next s' ∧ peerOf s' pk = some q ∧
      q = { p with
        grantR := if (BitVec.ofNat 32 (beAt z.body 0 4) - p.grantR).toNat < 2 ^ 31 then BitVec.ofNat 32 (beAt z.body 0 4) else p.grantR,
        grantE := if (BitVec.ofNat 32 (beAt z.body 4 4) - p.grantE).toNat < 2 ^ 31 then BitVec.ofNat 32 (beAt z.body 4 4) else p.grantE }) ∧
    (readyOp s ts.val opMgmt = some z → ∃ s', exec (.mgmt ts) s = .next s' ∧ ledRow s' 6 = (ledRow s 6).complete ∧
      s'.dict.inbox = s.dict.inbox ++ [(z.hdr.srcEp, z.body)]) ∧
    (readyOp s ts.val opFin = some z →
      (∀ e ∈ s.zmt.msgs, ¬(e.2.ep = z.hdr.srcEp ∧ e.2.id = z.hdr.msgId ∧ e.2.op = opSend ∧ e.2.inner = false)) →
      exec (.fin ts) s = .next (zPlaced ts.val pk z s)) ∧
    (∀ id m, readyOp s ts.val opFin = some z →
      s.zmt.msgs.find? (fun e => decide (e.2.ep = z.hdr.srcEp ∧ e.2.id = z.hdr.msgId ∧ e.2.op = opSend) && !e.2.inner) = some (id, m) →
      exec (.fin ts) s = .next (zPlaced ts.val pk z (zmsgDone id (modZmsg id (fun m => { m with acked := m.n }) s))))) ∧
  (∀ (ep : BitVec 32) (s : State), (peerIdx s ep.toNat = none → exec (.zmtAckSend ep) s = .next s ∧ exec (.zmtCreditSend ep) s = .next s) ∧
    (∀ pk p, peerIdx s ep.toNat = some pk → peerOf s pk = some p →
      (p.ackAt = none → exec (.zmtAckSend ep) s = .next s) ∧
      (∀ t, p.ackAt = some t → reached (expiryAt 0 (t + cfg s 0x7100 7) t) s = false → exec (.zmtAckSend ep) s = .next s) ∧
      (∀ t, p.ackAt = some t → reached (expiryAt 0 (t + cfg s 0x7100 7) t) s = true → ∃ s' q, exec (.zmtAckSend ep) s = .next s' ∧
        peerOf s' pk = some q ∧ q.ackAt = none ∧ q.npkt = 0 ∧ q.nce = 0 ∧ q.arrivals = 0) ∧
      (withheld s p = true ∨ ((p.givenR - p.toldR).toNat < 16 ∧ (p.givenE - p.toldE).toNat < 16) →
        exec (.zmtCreditSend ep) s = .next s) ∧
      (withheld s p = false → 16 ≤ (p.givenR - p.toldR).toNat ∨ 16 ≤ (p.givenE - p.toldE).toNat → ∃ s' q, exec (.zmtCreditSend ep) s = .next s' ∧
        peerOf s' pk = some q ∧ q.toldR = p.givenR ∧ q.toldE = p.givenE))) ∧
  (∀ (ts : Fin 8) (host : Bytes) (s : State),
    (s.mat.done.find? (fun d => decide (d.1 = ts.val)) = none → exec (.matchResolve ts host) s = .next s) ∧
    (∀ r, s.mat.done.find? (fun d => decide (d.1 = ts.val)) = some r →
      (r.2.2 = none → exec (.matchResolve ts host) s = .next (modMat (fun m => { m with done := m.done.erase r }) s)) ∧
      (∀ w, r.2.2 = some w → asmOf s (bf r.2.1.toNat 0 16) = none →
        exec (.matchResolve ts host) s = .next (modMat (fun m => { m with done := m.done.erase r }) s)) ∧
      (∀ w i x desc s1, r.2.2 = some w → i = bf r.2.1.toNat 0 16 → asmOf s i = some x → desc = w.toNat % 2 ^ 48 → isHost desc = false →
        rangeAcc s (xasmId i) false 0 desc 32 = .ok → resolveTo ts.val i x desc (memBytes s desc 32) host s = .done s1 →
        exec (.matchResolve ts host) s =
          .next (modMat (fun m => { m with done := m.done.erase r }) (undeny (xasmId i) s1)))))

/-- The sender: the first message that may start sends its next packet under the next PSN, paced, or aborts when its source cannot be
read; a timer that ran out sends again or gives the peer up; the rate follows one srtt after the last update; a counter past
its deadline fails; a REDUCE that a version-1 peer cannot take becomes a brick; the table commands of the slices write, read,
arm, disarm and abort windows, counters and slots.
Each of them completes where its hypotheses on the state hold.
Where the spec is silent it rests on the model's choices of logs 60, 62, 75, 76, 79, 80, 154 and 155. -/
def Obligations.TransportSenders : Prop :=
  (∀ (ep : BitVec 32) (host : Bytes) (s : State), (toSend s ep.toNat = [] → exec (.outboundPacketSend ep host) s = .next s) ∧
    (∀ pk p, toSend s ep.toNat ≠ [] → peerIdx s ep.toNat = some pk → peerOf s pk = some p →
      (pickMsg s p (toSend s ep.toNat) = none → exec (.outboundPacketSend ep host) s = .next s) ∧
      (∀ id m k, pickMsg s p (toSend s ep.toNat) = some (id, m, k) →
        (∀ c, srcAcc s id k.src = .fail c → exec (.outboundPacketSend ep host) s = .next (abortMsg id c false true s)) ∧
        (srcAcc s id k.src = .ok → mayPace s p (pkLen s ep.toNat k.hdr k.src.len) = false → exec (.outboundPacketSend ep host) s = .next s) ∧
        (srcAcc s id k.src = .ok → mayPace s p (pkLen s ep.toNat k.hdr k.src.len) = true → ∃ s' q o,
          exec (.outboundPacketSend ep host) s = .next s' ∧ peerOf s' pk = some q ∧ q.txNext = p.txNext + 1 ∧ q.outs = p.outs ++ [o] ∧
          o.psn = p.txNext ∧ o.msg = id ∧ o.hdr = { k.hdr with psn := p.txNext.toNat } ∧ o.sends = 1 ∧ o.armed = now s ∧ o.dur = rtoOf s p ∧
          (zmsgOf s id).isSome = true ∧ zmsgOf s' id = some { m with next := m.next + k.adv, sent := k.last } ∧
          s'.fab.nextPkt = s.fab.nextPkt + 1)))) ∧
  (∀ (ep psn : BitVec 32) (host : Bytes) (s : State), (peerIdx s ep.toNat = none → exec (.retransmitTimerExpiry ep psn host) s = .next s) ∧
    (∀ pk o, peerIdx s ep.toNat = some pk →
      (peerOf s pk).bind (fun p => p.outs.find? (fun o => decide (o.psn = psn))) = some o →
      (o.due = false → reached (expiryAt (rtoList o.dur) (o.armed + o.dur) o.armed) s = false →
        exec (.retransmitTimerExpiry ep psn host) s = .next s) ∧
      (o.due = true → givenUp s o = false → exec (.retransmitTimerExpiry ep psn host) s = .next (tryResend pk o o.dur host s)) ∧
      (o.due = true → givenUp s o = true → exec (.retransmitTimerExpiry ep psn host) s = .next (abandonPeer pk s)) ∧
      (o.due = false → reached (expiryAt (rtoList o.dur) (o.armed + o.dur) o.armed) s = true → givenUp s o = true →
        exec (.retransmitTimerExpiry ep psn host) s = .next (abandonPeer pk (bump 0xC068 0x05 s)))) ∧
    (∀ pk p o dur, peerIdx s ep.toNat = some pk → peerOf s pk = some p → p.outs.find? (fun o => decide (o.psn = psn)) = some o →
      givenUp s o = false → (o.due = true ∧ dur = o.dur ∨ o.due = false ∧ dur = min (2 * o.dur) (cfg s 0x7100 3) ∧
        reached (expiryAt (rtoList o.dur) (o.armed + o.dur) o.armed) s = true) →
      (zmsgOf s o.msg).isSome = true → srcAcc s o.msg o.src = .ok → mayPace s p (pkLen s p.ep o.hdr o.src.len) = true →
      ∃ s' q, exec (.retransmitTimerExpiry ep psn host) s = .next s' ∧ peerOf s' pk = some q ∧ q.txNext = p.txNext ∧
        q.outs = p.outs.map (fun x => if x.psn = psn then
          { x with hdr := o.hdr, src := o.src, sends := x.sends + 1, armed := now s, dur := dur, due := false } else x) ∧
        s'.fab.nextPkt = s.fab.nextPkt + 1 ∧ ctrVal s' 0xC068 0x04 = ctrVal s 0xC068 0x04 + 1) ∧
    (∀ pk p s1, peerOf s pk = some p → s1 = abandonPeer pk s → ∀ q, peerOf s1 pk = some q → q.outs = [] ∧ q.resp = [] ∧ q.txAcked = p.txNext)) ∧
  (∀ (ep : BitVec 32) (s : State) (pk : Nat) (p : Peer), peerIdx s ep.toNat = some pk → peerOf s pk = some p →
    (p.ccAt = none ∨ p.rtt = none ∨ cfgB s 0x7200 1 = false → exec (.ccRateUpdate ep) s = .next s) ∧
    (∀ t r v, p.ccAt = some t → p.rtt = some (r, v) → cfgB s 0x7200 1 = true → s.clk.frozen = none →
      (now s < t + r → exec (.ccRateUpdate ep) s = .next s) ∧
      (t + r ≤ now s → ∃ s' q, exec (.ccRateUpdate ep) s = .next s' ∧ peerOf s' pk = some q ∧ q.ccAt = some (now s) ∧ q.ccNce = 0 ∧
        q.ccNpkt = 0 ∧ cfg s 0x7200 3 ≤ q.rate ∧ q.alpha ≤ 65536 ∧ q.txNext = p.txNext ∧ q.outs = p.outs))) ∧
  (∀ (ccid : Nat) (s : State) (c : Ctr), c = ctrOf s ccid →
    ((c.state ≠ csArmed ∧ c.state ≠ csAuto) ∨ c.deadline = 0 ∨ reached (expiryAt 0 c.deadline c.armedAt) s = false →
      exec (.counterDeadline ccid) s = .next s) ∧
    (c.state = csArmed ∨ c.state = csAuto → c.deadline ≠ 0 → reached (expiryAt 0 c.deadline c.armedAt) s = true →
      ctrBlocked s (freeNat s % 8) ccid 0 = false →
      ∃ s', exec (.counterDeadline ccid) s = .next s' ∧ ctrOf s' ccid = { c with state := csFailed, reason := zCtrTimeout } ∧
        ctrVal s' 0xC068 0x0A = ctrVal s 0xC068 0x0A + 1 ∧
        (c.act = 0 → (∀ e ∈ s.zmt.asm, e.2.dest.map (fun d => d.2.2) ≠ some ccid) → s'.mem = s.mem))) ∧
  (∀ (msg : Nat) (s : State), (zmsgOf s msg = none → exec (.reduceFallbackBrick msg) s = .next s) ∧
    (∀ m, zmsgOf s msg = some m → (needsFallback s m = false → exec (.reduceFallbackBrick msg) s = .next s) ∧
      (∀ ws r, needsFallback s m = true → ws = hwBrick s 2 (cfg s 0x7300 1) (payWord (copyAddr s) 56) (payWord m.laddr m.n)
          (BitVec.ofNat 64 (1 + sliceFor s m.ep % 8 * 2 ^ 8)) (BitVec.ofNat 64 m.ep) →
        r = acceptUnitBrick ws (placeCopy (reduceHead s m) s) →
        (r.1 ≠ 0 → exec (.reduceFallbackBrick msg) s = .next s) ∧
        (r.1 = 0 → ∃ s', exec (.reduceFallbackBrick msg) s = .next s' ∧
          zmsgOf s' msg = some { m with bid := some r.2.1.toNat, sent := true, begun := true, fin := true } ∧
          ctrVal s' 0xC068 0x08 = ctrVal s 0xC068 0x08 + 1)))) ∧
  (∀ (tbl : Fin 4) (idx : Fin 1048576) (s : State) (g : Nat → Nat), (∀ i, g i = (s.zmt.d.getD i 0).toNat) →
    (tsLegal tbl.val idx.val = false → ∀ i, (i = Instr.tsWrite tbl idx ∨ i = .tsRead tbl idx ∨ i = .arm tbl idx ∨ i = .disarm tbl idx ∨
      i = .tsAbort tbl idx) → exec i s = .next (tsDone tsRange s)) ∧
    (tbl.val = 0 → idx.val < 65536 →
      (∃ s', exec (.tsWrite tbl idx) s = .next s' ∧ s'.zmt.status = tsOk ∧ winWords s' idx.val = winRecord s.zmt.d ∧
        ∀ k, k ≠ idx.val → winWords s' k = winWords s k) ∧
      (∃ s', exec (.tsRead tbl idx) s = .next s' ∧ s'.zmt.status = tsOk ∧ s'.zmt.d = winWords s idx.val) ∧
      ∀ i, (i = Instr.arm tbl idx ∨ i = .disarm tbl idx ∨ i = .tsAbort tbl idx) → exec i s = .next (tsDone tsRange s)) ∧
    (∀ c, tbl.val = 1 → c = ctrOf s idx.val →
      (c.state = csArmed ∨ c.state = csAuto → exec (.tsWrite tbl idx) s = .next (tsDone tsInUse s)) ∧
      (c.state ≠ csArmed → c.state ≠ csAuto → ∃ s', exec (.tsWrite tbl idx) s = .next s' ∧ s'.zmt.status = tsOk ∧
        ctrOf s' idx.val = ctrFromWords s s.zmt.d) ∧
      (∃ s', exec (.tsRead tbl idx) s = .next s' ∧ s'.zmt.status = tsOk ∧ s'.zmt.d = ctrWords c) ∧
      (actLegal s (bf (g 2) 32 4) (bf (g 2) 36 28) none = false → exec (.arm tbl idx) s = .next (tsDone tsRange s)) ∧
      (actLegal s (bf (g 2) 32 4) (bf (g 2) 36 28) none = true → ∃ s' x, exec (.arm tbl idx) s = .next s' ∧ s'.zmt.status = tsOk ∧
        x = ctrOf s' idx.val ∧ x.count = 0 ∧ x.state = (if bf (g 0) 48 3 = csAuto then csAuto else csArmed) ∧ x.job = bf (g 2) 0 32 ∧
        x.deadline = g 3 ∧ x.target = (if bf (g 0) 48 3 = csAuto then 0 else bf (g 1) 0 48)) ∧
      (c.state = csIdle → exec (.disarm tbl idx) s = .next (tsDone tsNotArmed s)) ∧
      (c.state ≠ csIdle → ∃ s', exec (.disarm tbl idx) s = .next s' ∧ s'.zmt.status = tsOk ∧ ctrOf s' idx.val = { c with state := csIdle }) ∧
      (c.state ≠ csArmed → c.state ≠ csAuto → exec (.tsAbort tbl idx) s = .next (tsDone tsNotArmed s)) ∧
      (c.state = csArmed ∨ c.state = csAuto → ∃ s', exec (.tsAbort tbl idx) s = .next s' ∧ s'.zmt.status = tsOk ∧
        (ctrOf s' idx.val).state = csFailed ∧ (ctrOf s' idx.val).reason = zAborted)) ∧
    (∀ x, tbl.val = 2 → idx.val < 192 → x = slotOf s (idx.val / 16) (idx.val % 16) →
      (∃ s', exec (.tsWrite tbl idx) s = .next s' ∧ s'.zmt.status = (if x.arming.isSome then tsInUse else tsOk) ∧ s'.cops = s.cops) ∧
      (∃ s', exec (.tsRead tbl idx) s = .next s' ∧ s'.zmt.status = tsOk ∧ s'.zmt.d = slotWords x) ∧
      (∃ s', exec (.arm tbl idx) s = .next s' ∧ s'.zmt.status = tsOk ∧
        slotOf s' (idx.val / 16) (idx.val % 16) = (if slotWork s (idx.val / 16) (idx.val % 16) = true
          then { x with later := some (some (bf (g 2) 0 32, bf (g 0) 0 24)) }
          else { x with armed := some (bf (g 2) 0 32, bf (g 0) 0 24) })) ∧
      ∀ i, (i = Instr.disarm tbl idx ∨ i = .tsAbort tbl idx) → (x.arming = none → exec i s = .next (tsDone tsNotArmed s)) ∧
        (x.arming.isSome = true → ∃ s', exec i s = .next s' ∧ s'.zmt.status = tsOk ∧
          slotOf s' (idx.val / 16) (idx.val % 16) = (if slotWork s (idx.val / 16) (idx.val % 16) = true
            then { x with later := some none } else { x with armed := none }))))

/-! ### The match engine and the cascade (chapter 12) -/

/-- A request area and the match engine: a BUSY area ignores OP, a renumber holds requests, a cascaded one waits for the next
round; SEARCH, INSERT, DELETE, STEP, HFREE, POST and READ each give the result of the chapter and its effect on the entries.
Where the spec is silent it rests on the model's choices of logs 81, 82 and 83. -/
def Obligations.MatchRequests : Prop :=
  (∀ op n, AreaForm op n → ∀ (area : Fin 769) (v : W64) (s : State) (r : MReq), r = areaReq s area.val (opWord n v.toNat) →
    ((mArea s area.val).busy = true → exec (op area v) s = .next (bump 0xC0A0 0x18 s)) ∧
    ((mArea s area.val).busy = false → ∃ s', (s.mat.renum = true ∨ mCascaded s r = true → exec (op area v) s = .next s') ∧
      mArea s' area.val = { mArea s area.val with busy := true } ∧ s'.mat.ent = s.mat.ent ∧
      (s.mat.renum = true → s'.mat.wait = s.mat.wait ++ [r] ∧ s'.mat.out = s.mat.out) ∧
      (s.mat.renum = false → s'.mat.wait = s.mat.wait ∧ s'.mat.out = s.mat.out ++ [r]))) ∧
  AreaOp .matchSearch 1 (fun r s => ∀ j, ¬Matching s r.key (searchMask r) j) (fun _ _ => [0, 0, 0, 0, 0])
    (fun _ s s' => EntriesSame s s') ∧
  (∀ (i : Nat) (mult dup : Bool) (hv : Option Nat), AreaOp .matchSearch 1
    (fun r s => Wins s r.key (searchMask r) i ∧ MultOf s r.key (searchMask r) i mult ∧
      DupOf s r.key (searchMask r) i dup ∧ hv = if r.hreq then freeHandle s else none)
    (fun r s => entWords s i (entRes0 s i true mult dup r.consume false hv))
    (fun r s s' => s'.mat.oseq = s.mat.oseq ∧
      (r.consume = true → EntryCleared i s s') ∧ (r.consume = false → s'.mat.ent = s.mat.ent) ∧
      (r.consume = true ∧ blkClass s (i / 4096) = 4 → HandedOver (mEnt s i).pay r.pay s s') ∧
      (r.consume = false ∨ blkClass s (i / 4096) ≠ 4 → s'.mat.done = s.mat.done ∧ s'.out = s.out) ∧
      (∀ h, hv = some h → ∃ x, tfind s'.mat.handle h = some x ∧ x.owner = r.master ∧ x.casc = false ∧
        x.list.Pairwise (fun a b => mBefore s a b = true) ∧
        ∀ j, j ∈ x.list ↔ Matching s r.key (searchMask r) j ∧ (r.consume = true → j ≠ i)))) ∧
  (∀ (i : Nat) (p : BitVec 32), AreaOp .matchInsert 2
    (fun r s => p = (if r.auto then s.mat.oseq else r.prio) ∧ mPlace s r.wc p false = (0, i))
    (fun r s => [BitVec.ofNat 64 (entRes0 s i false false false false true none), r.pay, r.key.extractLsb' 0 64,
      r.key.extractLsb' 64 64, p.zeroExtend 64])
    (fun r s s' => EntryPut i { key := r.key, prio := p, wc := BitVec.ofNat 3 r.wc, v := true, pay := r.pay } s s' ∧
      (r.auto = true → Advanced s s') ∧ (r.auto = false → s'.mat.oseq = s.mat.oseq ∧ s'.mat.renum = s.mat.renum))) ∧
  (∀ (e x : Nat), e ≠ 0 → AreaOp .matchInsert 2
    (fun r s => mPlace s r.wc (if r.auto then s.mat.oseq else r.prio) false = (e, x))
    (fun _ _ => [BitVec.ofNat 64 (e * 2), 0, 0, 0, 0]) (fun _ s s' => EntriesSame s s')) ∧
  (∀ (s : State) (wc i : Nat) (p : BitVec 32) (b : Bool), mPlace s wc p b = (0, i) →
    i / 4096 < 16 ∧ wc ≠ 7 ∧ blkClass s (i / 4096) = wc ∧ (mEnt s i).v = false ∧ mD s p < 2 ^ 31) ∧
  AreaOp .matchDelete 3 (fun r s => r.tcpos = ownPos s ∧ (mEnt s r.index).v = true ∧ (mEnt s r.index).pay = r.pay)
    (fun r s => entWords s r.index (entRes0 s r.index false false false false false none))
    (fun r s s' => EntryCleared r.index s s' ∧ s'.mat.oseq = s.mat.oseq) ∧
  AreaOp .matchDelete 3 (fun r s => r.tcpos ≠ ownPos s ∨ (mEnt s r.index).v = false ∨ (mEnt s r.index).pay ≠ r.pay)
    (fun _ _ => [6, 0, 0, 0, 0]) (fun _ s s' => EntriesSame s s') ∧
  (∀ (s : State) (h m : Nat) (x : MHandle), ownHandle s h m = some x ↔
    tfind s.mat.handle h = some x ∧ x.owner = m ∧ (x.casc = false ∨ h / 16 = ownPos s)) ∧
  (∀ (s : State) (h : Nat), freeHandle s = some h → tfind s.mat.handle h = none ∧ h < 16 * ownPos s + 64 ∧
    (cascJoined s = true → h / 16 = ownPos s)) ∧
  AreaOp .matchStep 4 (fun r s => ownHandle s r.handle r.master = none)
    (fun _ _ => [8, 0, 0, 0, 0]) (fun _ s s' => EntriesSame s s') ∧
  AreaOp .matchStep 4 (fun r s => ∃ x, ownHandle s r.handle r.master = some x ∧ x.list = [])
    (fun _ _ => [10, 0, 0, 0, 0]) (fun r s s' => tfind s'.mat.handle r.handle = none ∧ s'.mat.ent = s.mat.ent ∧
      ∀ h, h ≠ r.handle → tfind s'.mat.handle h = tfind s.mat.handle h) ∧
  (∀ (i : Nat) (t : List Nat), AreaOp .matchStep 4
    (fun r s => ∃ x, ownHandle s r.handle r.master = some x ∧ x.list = i :: t)
    (fun r s => entWords s i (entRes0 s i true false false r.consume false (some r.handle)))
    (fun r s s' => (r.consume = true → EntryCleared i s s') ∧ (r.consume = false → s'.mat.ent = s.mat.ent ∧
      ∃ x, tfind s'.mat.handle r.handle = some x ∧ x.owner = r.master ∧ x.list = t))) ∧
  AreaOp .hfree 5 (fun r s => ownHandle s r.handle r.master = none)
    (fun _ _ => [8, 0, 0, 0, 0]) (fun _ s s' => EntriesSame s s') ∧
  AreaOp .hfree 5 (fun r s => (ownHandle s r.handle r.master).isSome = true)
    (fun _ _ => [0, 0, 0, 0, 0]) (fun r s s' => tfind s'.mat.handle r.handle = none ∧ s'.mat.ent = s.mat.ent ∧
      ∀ h, h ≠ r.handle → tfind s'.mat.handle h = tfind s.mat.handle h) ∧
  AreaOp .post 6 (fun r _ => 3 < r.wc) (fun _ _ => [14, 0, 0, 0, 0]) (fun _ s s' => EntriesSame s s') ∧
  (∀ (i : Nat) (mult dup : Bool), AreaOp .post 6
    (fun r s => r.wc ≤ 3 ∧ Wins s r.key (postMask r.wc) i ∧ MultOf s r.key (postMask r.wc) i mult ∧
      DupOf s r.key (postMask r.wc) i dup)
    (fun _ s => entWords s i (entRes0 s i true mult dup true false none))
    (fun r s s' => EntryCleared i s s' ∧ s'.mat.oseq = s.mat.oseq ∧ HandedOver (mEnt s i).pay r.pay s s')) ∧
  (∀ (i : Nat), AreaOp .post 6
    (fun r s => r.wc ≤ 3 ∧ (∀ j, ¬Matching s r.key (postMask r.wc) j) ∧ mPlace s r.wc s.mat.oseq false = (0, i))
    (fun r s => [BitVec.ofNat 64 (entRes0 s i false false false false true none), r.pay, r.key.extractLsb' 0 64,
      r.key.extractLsb' 64 64, s.mat.oseq.zeroExtend 64])
    (fun r s s' => EntryPut i { key := r.key, prio := s.mat.oseq, wc := BitVec.ofNat 3 r.wc, v := true, pay := r.pay } s s' ∧
      Advanced s s' ∧ s'.mat.done = s.mat.done)) ∧
  AreaOp .matchRead 8 (fun r s => r.tcpos = ownPos s)
    (fun r s => entWords s r.index (entRes0 s r.index (mEnt s r.index).v false false false false none))
    (fun _ s s' => EntriesSame s s') ∧
  AreaOp .matchRead 8 (fun r s => r.tcpos ≠ ownPos s) (fun _ _ => [6, 0, 0, 0, 0]) (fun _ s s' => EntriesSame s s')

/-- ARRIVEs and the sequencer: the oldest issued ARRIVE takes the first posted receive that matches or becomes an unexpected
message; a held ARRIVE is issued when it is due and a row is free; a peer whose next ARRIVE does not come is skipped; a
renumber keeps the order of the entries.
Where the spec is silent it rests on the model's choices of log 84. -/
def Obligations.MatchSequencer : Prop :=
  (∀ s : State, s.mat.arrq = [] ∨ s.mat.renum = true → exec .arrive s = .next s) ∧
  (∀ (s : State) (r : MReq) (rest : List MReq) (ts : Nat), s.mat.arrq = r :: rest → r.who = .slice ts → r.op = 7 →
    s.mat.renum = false → mCascaded s r = false → ∃ s', exec .arrive s = .next s' ∧
      s'.mat.arrq = rest ∧ MatchFrame s s' ∧
      (∀ i, Wins s r.key arriveMask i → EntryCleared i s s' ∧ s'.mat.done = s.mat.done ++ [(ts, r.pay, some (mEnt s i).pay)] ∧
        s'.mat.oseq = s.mat.oseq) ∧
      (∀ i, (∀ j, ¬Matching s r.key arriveMask j) → mPlace (modMat (fun m => { m with arrq := rest }) s) 4 s.mat.oseq true = (0, i) →
        EntryPut i { key := r.key, prio := s.mat.oseq, wc := 4, v := true, pay := r.pay } s s' ∧
        s'.mat.done = s.mat.done ++ [(ts, r.pay, none)] ∧ Advanced s s')) ∧
  (∀ (s : State) (ts : Fin 8) (peer : BitVec 32) (e : BitVec 32), e = expOf s ts.val peer.toNat →
    (c4Free s = 0 ∨ (∀ h ∈ s.mat.held, h.ts = ts.val → h.peer = peer.toNat → h.late = false ∧ h.mseq ≠ e) →
      exec (.heldArriveIssue ts peer) s = .next s) ∧
    (∀ h, s.mat.held = [h] → h.ts = ts.val → h.peer = peer.toNat → h.late = true ∨ h.mseq = e → c4Free s ≠ 0 → ∃ s',
      exec (.heldArriveIssue ts peer) s = .next s' ∧ s'.mat.held = [] ∧
      s'.mat.arrq = s.mat.arrq ++ [{ who := .slice ts.val, op := 7, key := h.key, pay := h.record }] ∧
      expOf s' ts.val peer.toNat = (if h.mseq = e then e + 1 else e) ∧ s'.mat.ent = s.mat.ent ∧ MatchFrame s s') ∧
    ((∀ h ∈ s.mat.held, h.ts = ts.val → h.peer = peer.toNat → h.late = true) → exec (.mseqHoldTimeout ts peer) s = .next s) ∧
    (∀ h, s.mat.held = [h] → h.ts = ts.val → h.peer = peer.toNat → h.late = false →
      (reached (expiryAt 2 (h.since + 1048576 * cfg s 0x8C01 2) h.since) s = false ∨ h.mseq = e →
        exec (.mseqHoldTimeout ts peer) s = .next s) ∧
      (reached (expiryAt 2 (h.since + 1048576 * cfg s 0x8C01 2) h.since) s = true → h.mseq ≠ e → ∃ s',
        exec (.mseqHoldTimeout ts peer) s = .next s' ∧ MatchFrame s s' ∧ s'.mat.ent = s.mat.ent ∧
        ctrVal s' 0xC0A0 0x10 = ctrVal s 0xC0A0 0x10 + 1 ∧
        (c4Free s = 0 → s'.mat.held = [h] ∧ s'.mat.arrq = s.mat.arrq ∧ expOf s' ts.val peer.toNat = h.mseq) ∧
        (c4Free s ≠ 0 → s'.mat.held = [] ∧ expOf s' ts.val peer.toNat = h.mseq + 1 ∧
          s'.mat.arrq = s.mat.arrq ++ [{ who := .slice ts.val, op := 7, key := h.key, pay := h.record }])))) ∧
  (∀ (others : List (BitVec 32)) (s : State), (s.mat.renum = false → exec (.renumberEnd others) s = .next s) ∧
    (s.mat.renum = true → s.mat.wait = [] → s.mat.ent.length + others.length < 2 ^ 32 → ∃ s',
      exec (.renumberEnd others) s = .next (cascGo s') ∧ (s.mat.ops = [] → cascGo s' = s') ∧ MatchFrame s s' ∧ s'.mat.ops = s.mat.ops ∧
      s'.mat.renum = false ∧ s'.mat.base = 0 ∧
      s'.mat.rgen = s.mat.rgen + 1 ∧ s'.mat.handle = s.mat.handle ∧
      (∀ i, (mEnt s i).v = true → mEnt s' i = { mEnt s i with prio := (mEnt s' i).prio } ∧ (mEnt s' i).prio.toNat < s'.mat.oseq.toNat) ∧
      (∀ i j, (mEnt s i).v = true → (mEnt s j).v = true →
        ((mEnt s' i).prio.toNat < (mEnt s' j).prio.toNat ↔ mD s (mEnt s i).prio < mD s (mEnt s j).prio))))

/-- The cascade: training joins the members that agree; a round sends at most four operations in order; a frame brings another
member's round; the joint outcome is the lowest order key over the members; a silent member is left out, and one that
returns adopts the round and the order.
Where the spec is silent it rests on the model's choices of log 85. -/
def Obligations.CascadeRounds : Prop :=
  (∀ (members : List CMember) (s : State) (mask all : Nat), mask = bf (cfg s 0x8C02 2) 0 4 →
    all = 2 ^ ownPos s ||| members.foldl (fun a x => a ||| 2 ^ (x.pos % 4)) 0 →
    (cfgB s 0x8C02 1 = false ∨ s.dbg.phase < 5 → exec (.cascadeTraining members) s = .next s) ∧
    (cfgB s 0x8C02 1 = true → 5 ≤ s.dbg.phase →
      (members = [] → exec (.cascadeTraining members) s = .next (modMat (fun m => { m with cstate := 1 }) s)) ∧
      ((∃ x ∈ members, x.pos = ownPos s ∨ x.mask ≠ mask ∨ x.value.toNat ≠ cfg s 0x8C02 3 ∨ x.sel.toNat ≠ cfg s 0x8C02 4) →
        exec (.cascadeTraining members) s =
          .next (bump 0xC0A0 0x19 (modMat (fun m => { m with cstate := 4, present := 2 ^ ownPos s }) s))) ∧
      (members ≠ [] → (∀ x ∈ members, x.pos ≠ ownPos s ∧ x.mask = mask ∧ x.value.toNat = cfg s 0x8C02 3 ∧ x.sel.toNat = cfg s 0x8C02 4) →
        ∃ s', exec (.cascadeTraining members) s = .next s' ∧ s'.mat.present = all ∧
          s'.mat.cstate = (if all = mask then 2 else 3) ∧ s'.mat.ent = s.mat.ent ∧ s'.ctr = s.ctr ∧ MatchFrame s s' ∧
          (∀ x ∈ members, tfind s'.mat.heard x.pos = some (now s) ∧ ((∀ y ∈ members, y.pos = x.pos → y = x) →
            ∀ b, memberClass s' x.pos b = bf x.classes.toNat (3 * b) 3)) ∧
          ((∀ x ∈ members, ownPos s < x.pos) → s'.mat.oseq = s.mat.oseq ∧ s'.mat.base = s.mat.base) ∧
          (∀ x ∈ members, x.pos < ownPos s → (∀ y ∈ members, y ≠ x → x.pos < y.pos) →
            s'.mat.oseq = x.oseq ∧ s'.mat.base = x.base)))) ∧
  (∀ s : State, (cascJoined s = false ∨ 1 < s.dbg.fstate → exec .cascadeRound s = .next s) ∧
    (cascJoined s = true → s.dbg.fstate ≤ 1 → s.mat.ops = [] →
      (s.mat.out = [] → exec .cascadeRound s = .next (emit (.casc 0 [(s.mat.round + 1).toNat])
        (bump 0xC0A0 0x13 (modMat (fun m => { m with round := m.round + 1 }) s)))) ∧
      (∀ r, s.mat.out = [r] → presentList s = [ownPos s] → r.hreq = false → s.mat.renum = false → ∃ o s1, exec .cascadeRound s = .next (applyOp o s1) ∧
        o.req = r ∧ o.pos = ownPos s ∧ o.res = [(ownPos s, localResult s r)] ∧ s1.mat.ent = s.mat.ent ∧ s1.mat.ops = [] ∧
        s1.mat.out = [] ∧ s1.mat.round = s.mat.round + 1 ∧ MatchFrame s s1 ∧
        s1.out = s.out ++ [.casc 0 ((s.mat.round + 1).toNat :: recWords (recOf r)), .casc 1 (resWords o (localResult s r))]))) ∧
  (∀ (s : State) (o : COp),
    (∀ p c, cascWinner s o = some (p, c) → p ∈ presentList s ∧ tfind o.res p = some c ∧ c.hit = true ∧
      ∀ q ∈ presentList s, ∀ d, tfind o.res q = some d → d.hit = true → c.d.toNat < d.d.toNat ∨ c.d = d.d ∧ p ≤ q) ∧
    (cascWinner s o = none ↔ ∀ q ∈ presentList s, ∀ d, tfind o.res q = some d → d.hit = false) ∧
    (∀ p c, cascWinner s o = some (p, c) →
      (p = ownPos s → consumes o.req = true → (mEnt (applyOp o s) c.index).v = false) ∧
      (p ≠ ownPos s ∨ consumes o.req = false → (applyOp o s).mat.ent = s.mat.ent) ∧
      (p ≠ ownPos s → o.pos ≠ ownPos s → applyOp o s = s)) ∧
    (∀ c, cascWinner s o = none → tfind o.res o.pos = some c → c.room = 0 → takesOseq o.req = true → 2 ^ 31 ≤ mD s s.mat.oseq →
      (applyOp o s).mat.ent = s.mat.ent ∧ (applyOp o s).mat.oseq = s.mat.oseq) ∧
    (∀ c, cascWinner s o = none → tfind o.res o.pos = some c → c.room = 0 → takesOseq o.req = true → mD s s.mat.oseq < 2 ^ 31 →
      (applyOp o s).mat.oseq = s.mat.oseq + 1 ∧ (o.pos ≠ ownPos s → (applyOp o s).mat.ent = s.mat.ent) ∧
      (o.pos = ownPos s → ∀ wc i, wc = (if o.req.op = 7 then 4 else o.req.wc) →
        i = (mPlace s wc s.mat.oseq true).2 →
        mEnt (applyOp o s) i = { key := o.req.key, prio := s.mat.oseq, wc := BitVec.ofNat 3 wc, v := true, pay := o.req.pay }))) ∧
  (∀ (pos : Fin 4) (round : BitVec 32) (recs : List CRec) (results : List (Nat × Nat × Nat × CRes)) (ok : Bool) (s : State),
    (clocked s = false ∨ cascJoined s = false ∨ pos.val = ownPos s ∨ bit s.mat.present pos.val = false →
      exec (.cascadeFrameReceive pos round recs results ok) s = .next s) ∧
    (clocked s = true → cascJoined s = true → pos.val ≠ ownPos s → bit s.mat.present pos.val = true →
      (ok = false → exec (.cascadeFrameReceive pos round recs results ok) s = .next (bump 0xC0A0 0x14 s)) ∧
      (ok = true → ∃ s', exec (.cascadeFrameReceive pos round recs results ok) s = .next s' ∧
        tfind s'.mat.heard pos.val = some (now s) ∧
        (round.toNat ≤ tget 0 s.mat.heardRound pos.val → s'.mat.heardRound = s.mat.heardRound ∧ s'.mat.ahead = s.mat.ahead) ∧
        (s.mat.ahead = [] → round.toNat = tget 0 s.mat.heardRound pos.val + 1 →
          tget 0 s'.mat.heardRound pos.val = round.toNat ∧ s'.mat.ahead = []) ∧
        (s.mat.ahead = [] → tget 0 s.mat.heardRound pos.val + 1 < round.toNat →
          s'.mat.heardRound = s.mat.heardRound ∧ s'.mat.ahead = [(pos.val, round.toNat)]) ∧
        (heardOf s pos.val round.toNat = true → results = [] → s.mat.ops = [] → s'.mat.ops = [] ∧ s'.mat.ent = s.mat.ent) ∧
        (∀ c, heardOf s pos.val round.toNat = false → recs = [c] → results = [] → s.mat.ops = [] →
          s.mat.round.toNat < round.toNat → s'.mat.ent = s.mat.ent ∧
          s'.mat.ops = [{ round := round.toNat, pos := pos.val, ord := 0, req := reqOf c, searched := false, res := [] }])))) ∧
  (∀ (pos : Fin 4) (s : State), (tfind s.mat.heard pos.val = none → exec (.cascadeMemberTimeout pos) s = .next s) ∧
    (∀ a, tfind s.mat.heard pos.val = some a →
      (cascJoined s = false ∨ bit s.mat.present pos.val = false ∨ pos.val = ownPos s ∨
        reached (expiryAt 1 (a + 1024 * cfg s 0x8C02 5) a) s = false → exec (.cascadeMemberTimeout pos) s = .next s) ∧
      (cascJoined s = true → bit s.mat.present pos.val = true → pos.val ≠ ownPos s →
        reached (expiryAt 1 (a + 1024 * cfg s 0x8C02 5) a) s = true → ∃ s', exec (.cascadeMemberTimeout pos) s = .next s' ∧
          s'.mat.present = bitPut s.mat.present pos.val false ∧ s'.mat.cstate = 3 ∧
          (s.mat.ops = [] → s'.mat.ent = s.mat.ent ∧ s'.mat.ops = [] ∧ MatchFrame s s' ∧
            ctrVal s' 0xC0A0 0x15 = ctrVal s 0xC0A0 0x15 + 1)))) ∧
  (∀ (pos : Fin 4) (round oseq base rgen : BitVec 32) (s : State),
    (cfgB s 0x8C02 1 = false → exec (.memberRejoin pos round oseq base rgen) s = .next s) ∧
    (cfgB s 0x8C02 1 = true → ∃ s', exec (.memberRejoin pos round oseq base rgen) s = .next s' ∧ s'.mat.ent = s.mat.ent ∧
      s'.ctr = s.ctr ∧ MatchFrame s s' ∧ s'.mat.renum = (s.mat.renum || decide (rgen ≠ s.mat.rgen)) ∧
      (pos.val = ownPos s → s'.mat.round = round ∧ s'.mat.oseq = oseq ∧ s'.mat.base = base ∧ s'.mat.cstate = 2 ∧
        s'.mat.present = bf (cfg s 0x8C02 2) 0 4 ∧ s'.mat.rgen = rgen ∧ (rgen ≠ s.mat.rgen → s'.mat.rerank = true)) ∧
      (pos.val ≠ ownPos s → s'.mat.present = bitPut s.mat.present pos.val true ∧ tfind s'.mat.heard pos.val = some (now s) ∧
        s'.mat.oseq = s.mat.oseq ∧ s'.mat.base = s.mat.base)))

/-! ### Buffers and the HBM (chapters 14, 15) -/

/-- The buffer manager: an ALLOC takes the head of the pool's FIFO, waits for a refill or fails; ADDREF and FREE count references and
fail on a buffer that is not there, quarantined (a record that reads poisoned is), free or saturated; the last FREE releases the buffer; FREEP and ADDREFP do the
same without an answer; a refill takes free buffers and serves the ALLOC that waits; a pool that drains too long goes OFF.
Where the spec is silent it rests on the model's choices of logs 86 and 87. -/
def Obligations.BufferPools : Prop :=
  (∀ (req : Fin 22) (master : BitVec 16) (pool : Fin 64) (ocls : Fin 6) (oitem : BitVec 32) (s : State) (x : Pool)
      (reply : Nat → BufAt → State → State),
    reply = (fun st b s1 => emit (.reply "BUFS" (req.val * 65536 + master.toNat) [(bufResult s1 b st).toNat]) s1) →
    x = poolOf s pool.val → req.val ≠ 21 →
    (pool.val = 0 → 16 ≤ req.val → req.val ≠ 17 → exec (.alloc req master pool ocls oitem) s = .next (reply 8 .none s)) ∧
    (pool.val = 0 → req.val < 16 ∨ req.val = 17 →
      (∀ c s1, chainAlloc [] ocls.val oitem.toNat s = some (c, s1) →
        exec (.alloc req master pool ocls oitem) s = .next (reply 0 (.cell c) s1) ∧
        bufRec s1 (.cell c) = recNew ocls.val oitem.toNat) ∧
      (chainAlloc [] ocls.val oitem.toNat s = none →
        exec (.alloc req master pool ocls oitem) s = .next (reply 1 .none (bump 0xC0C0 2 s)))) ∧
    (pool.val ≠ 0 → (x.state = 0 → exec (.alloc req master pool ocls oitem) s = .next (reply 3 .none (bump 0xC0C0 3 s))) ∧
      (x.state = 2 → exec (.alloc req master pool ocls oitem) s = .next (reply 2 .none (bump 0xC0C0 3 s))) ∧
      (x.state = 1 →
        (∀ n rest, x.fifo = n :: rest → ∃ s1, exec (.alloc req master pool ocls oitem) s = .next (reply 0 (.buf pool.val n) s1) ∧
          poolOf s1 pool.val = { x with fifo := rest } ∧ tget 0 s1.bufs.recs n = recNew ocls.val oitem.toNat ∧
          (∀ m, m ≠ n → tget 0 s1.bufs.recs m = tget 0 s.bufs.recs m) ∧
          { s1 with bufs := {}, ctr := [] } = { s with bufs := {}, ctr := [] }) ∧
        (x.fifo = [] → poolHas s pool.val = true → ∃ s1, exec (.alloc req master pool ocls oitem) s = .next s1 ∧
          poolOf s1 pool.val = { x with wait := x.wait ++ [(req.val, master.toNat, ocls.val, oitem.toNat)] } ∧
          { s1 with bufs := { s1.bufs with pool := [] } } = { s with bufs := { s.bufs with pool := [] } }) ∧
        (x.fifo = [] → poolHas s pool.val = false →
          exec (.alloc req master pool ocls oitem) s = .next (reply 1 .none (bump 0xC0C0 2 s)))))) ∧
  (∀ (t : Fin 768) (pool : Fin 64) (ocls : Fin 6) (oitem : BitVec 32) (s : State) (ws : List W64) (m : MemOp) (n : Nat)
      (rest : List Nat), pool.val ≠ 0 → (poolOf s pool.val).state = 1 → (poolOf s pool.val).fifo = n :: rest →
    (thr s t.val).brick = some ws → (thr s t.val).hold = .unit m → m.ea = 0xF013800000 + 8 * pool.val →
    ∃ s', exec (.alloc 21 (BitVec.ofNat 16 t.val) pool ocls oitem) s = .next s' ∧
      tget 0 s'.bufs.recs n = recNew 3 (bf (ws.getD 7 0).toNat 0 32) ∧ (poolOf s' pool.val).fifo = rest ∧
      thr s' t.val = { thr s t.val with hold := .unitVal m (bufResult s' (.buf pool.val n) 0) }) ∧
  (∀ (req : Fin 22) (master : BitVec 16) (r : W64) (bad : Bool) (s0 s : State) (b : BufAt) (x : W64), b = bufAt s0 r →
    s = readRec b bad s0 → x = bufRec s b →
    ∃ sa sf : State, ∃ ra rf : Nat,
      exec (.addref req master r bad) s0 =
        .next (emit (.reply "BUFS" (req.val * 65536 + master.toNat) [(bufResult sa b ra).toNat]) sa) ∧
      exec (.addrefp req master r bad) s0 = .next sa ∧
      exec (.free req master r bad) s0 =
        .next (emit (.reply "BUFS" (req.val * 65536 + master.toNat) [(bufResult sf b rf).toNat]) sf) ∧
      exec (.freep req master r bad) s0 = .next sf ∧
      exec (.bufferQuery req master r bad) s0 = .next (emit (.reply "BUFS" (req.val * 65536 + master.toNat)
        [(bufResult s b (if b = .none then 3 else 0)).toNat]) s) ∧
      (b = .none → s = s0 ∧ ra = 3 ∧ rf = 3 ∧ sa = s ∧ sf = s) ∧
      (bad = false → (∀ p n, b = .buf p n → stripeFailed s0 .references (8 * n) = false) → s = s0) ∧
      (∀ p n, b = .buf p n → bad = true ∨ stripeFailed s0 .references (8 * n) = true → recQuar x = true ∧
        (recQuar (bufRec s0 b) = false → recAlloc x = true)) ∧
      (b ≠ .none → recQuar x = true → ra = 7 ∧ rf = 7 ∧ sa = s ∧ sf = s) ∧
      (b ≠ .none → recQuar x = false → recAlloc x = false → ra = 5 ∧ rf = 4 ∧ bufRec sa b = x ∧ bufRec sf b = x ∧
        ctrVal sa 0xC0C0 8 = ctrVal s 0xC0C0 8 + 1 ∧ ctrVal sf 0xC0C0 7 = ctrVal s 0xC0C0 7 + 1 ∧
        (sa.bufs.lastError.length = 24 ∧ sf.bufs.lastError.length = 24)) ∧
      (b ≠ .none → recQuar x = false → recAlloc x = true → recSat x = true → ra = 6 ∧ rf = 6 ∧ sa = bump 0xC0C0 10 s ∧
        sf = bump 0xC0C0 10 s) ∧
      (b ≠ .none → recQuar x = false → recAlloc x = true → recSat x = false →
        (recRef x = 65535 → ra = 6 ∧ recSat (bufRec sa b) = true ∧ recRef (bufRec sa b) = 65535) ∧
        (recRef x < 65535 → ra = 0 ∧ bufRec sa b = recSetRef (recRef x + 1) x ∧
          (∀ m, (∀ q, b ≠ .buf q m) → tget 0 sa.bufs.recs m = tget 0 s.bufs.recs m) ∧
          (∀ c, b ≠ .cell c → tfind sa.bufs.chain c = tfind s.bufs.chain c) ∧
          { sa with bufs := {}, ctr := [] } = { s with bufs := {}, ctr := [] }) ∧
        rf = 0 ∧
        (2 ≤ recRef x → bufRec sf b = recSetRef (recRef x - 1) x ∧
          (∀ m, (∀ q, b ≠ .buf q m) → tget 0 sf.bufs.recs m = tget 0 s.bufs.recs m) ∧
          (∀ c, b ≠ .cell c → tfind sf.bufs.chain c = tfind s.bufs.chain c) ∧
          { sf with bufs := {}, ctr := [] } = { s with bufs := {}, ctr := [] }) ∧
        (recRef x ≤ 1 →
          (∀ c, b = .cell c → tfind sf.bufs.chain c = none ∧ (∀ d, d ≠ c → tfind sf.bufs.chain d = tfind s.bufs.chain d) ∧
            sf.bufs.recs = s.bufs.recs) ∧
          (∀ p n, b = .buf p n → (poolOf s p).state = 1 → recAlloc (bufRec sf b) = false ∧
            (∀ m, m ≠ n → tget 0 sf.bufs.recs m = tget 0 s.bufs.recs m) ∧ sf.bufs.chain = s.bufs.chain ∧
            ((poolOf s p).cls ≠ 2 ∨ (poolOf s p).clrf = false → sf.mem = s.mem))))) ∧
  (∀ (req : Fin 22) (master : BitVec 16) (r : W64) (s : State) (p n : Nat), bufAt s r = .buf p n → recQuar (bufRec s (.buf p n)) = false →
    ∃ s1 : State, exec (.freep req master r true) s = .next s1 ∧ exec (.addrefp req master r true) s = .next s1 ∧
      recQuar (bufRec s1 (.buf p n)) = true ∧ recAlloc (bufRec s1 (.buf p n)) = true ∧ ctrVal s1 0xC0C0 11 = ctrVal s 0xC0C0 11 + 1) ∧
  (∀ (pool : Fin 64) (bad : Bool) (s : State) (x : Pool), x = poolOf s pool.val →
    (pool.val = 0 ∨ x.state ≠ 1 ∨ 32 < x.fifo.length → exec (.fifoRefill pool bad) s = .next s) ∧
    (pool.val ≠ 0 → x.state = 1 → x.fifo.length ≤ 32 → bad = true → x.wait = [] → poolHas s pool.val = true → ∃ s' leaf,
      exec (.fifoRefill pool bad) s = .next s' ∧ poolOf s' pool.val = x ∧ (∀ i < 64, recQuar (tget 0 s'.bufs.recs (leaf * 64 + i)) = true) ∧
      { s' with bufs := {}, ctr := [] } = { s with bufs := {}, ctr := [] }) ∧
    (pool.val ≠ 0 → x.state = 1 → x.fifo.length ≤ 32 → bad = false → (∀ a, stripeFailed s .freeStore a = false) →
      poolHas s pool.val = true →
      (x.wait = [] → ∃ s' got leaf, exec (.fifoRefill pool bad) s = .next s' ∧ got ≠ [] ∧
        poolOf s' pool.val = { x with fifo := x.fifo ++ got } ∧ x.fifo.length + got.length ≤ 64 ∧ s'.bufs.recs = s.bufs.recs ∧
        (∀ n ∈ got, n / 64 = leaf ∧ n ∉ x.fifo ∧ recAlloc (tget 0 s.bufs.recs n) = false) ∧
        { s' with bufs := {}, ctr := [] } = { s with bufs := {}, ctr := [] }) ∧
      (∀ req m oc oi, x.wait = [(req, m, oc, oi)] → x.fifo = [] → req ≠ 21 → ∃ s' n a, exec (.fifoRefill pool bad) s = .next s' ∧
        recAlloc (tget 0 s.bufs.recs n) = false ∧ tget 0 s'.bufs.recs n = recNew oc oi ∧ n ∉ (poolOf s' pool.val).fifo ∧
        (poolOf s' pool.val).wait = [] ∧ s'.out = s.out ++ [.reply "BUFS" (req * 65536 + m) [a]]))) ∧
  (∀ (pool : Fin 64) (s : State) (x : Pool), x = poolOf s pool.val →
    (x.state ≠ 2 ∨ reached (expiryAt 2 (x.drainAt + 2 ^ 20 * cfg s 0x9020 1) x.drainAt) s = false →
      exec (.poolDrainTimeout pool) s = .next s) ∧
    (x.state = 2 → reached (expiryAt 2 (x.drainAt + 2 ^ 20 * cfg s 0x9020 1) x.drainAt) s = true → s.hbm.retire = [] →
      (poolRecs s pool.val recAlloc = [] → exec (.poolDrainTimeout pool) s =
        .next (modPool pool.val (fun y => { y with state := 0 }) s)) ∧
      (∀ n, poolRecs s pool.val recAlloc = [n] → recOcls (tget 0 s.bufs.recs n) = 0 →
        (pool.val ≠ spillPool s ∨ ∀ e ∈ s.fab.pkts, n ∉ e.2.gran) → ∃ s',
        exec (.poolDrainTimeout pool) s = .next s' ∧ poolOf s' pool.val = { x with state := 0 } ∧
        recAlloc (tget 0 s'.bufs.recs n) = false ∧ (∀ m, m ≠ n → tget 0 s'.bufs.recs m = tget 0 s.bufs.recs m) ∧
        ctrVal s' 0xC0C0 12 = ctrVal s 0xC0C0 12 + 1 ∧ ctrVal s' 0xC0C0 14 = ctrVal s 0xC0C0 14 + 1)))

/-- The HBM controllers: an accepted write is in memory, an accepted read has its bytes; the next command opens, closes or uses the
row of the chosen request, which is the oldest starved one or else the highest priority of the mode; refreshes, idle rows,
power-down, temperature, alerts, lane repairs and a retiring stack. A tag line is read and written at its place in the tag bank; the
metadata of Table 15-3 is written to both its copies and read from the one with the shorter read queue.
Where the spec is silent it rests on the model's choices of logs 89, 90, 91, 150 and 151. -/
def Obligations.HbmControllers : Prop :=
  (∀ (tag : Nat) (block : Fin 2818572288) (write : Bool) (mask : BitVec 64) (data : Bytes) (tsel : BitVec 8) (tags : Bytes)
      (prio : Fin 16) (s : State) (a p : Nat) (x : HbmPc), a = 64 * block.val →
    p = 32 * (hbmPlace s.hbm.order a).stack + (hbmPlace s.hbm.order a).pc → x = hbmPc s p →
    (hbmServes s p = false ∨ (x.failed = true ∧ write = true) ∨ (x.failed = false ∧ write = true ∧ 48 ≤ x.wq.length) ∨
      (x.failed = false ∧ write = false ∧ 64 ≤ x.rq.length) →
        exec (.hbmRequestAccept tag block write mask data tsel tags prio) s = .next s) ∧
    (hbmServes s p = true → x.failed = true → write = false →
      exec (.hbmRequestAccept tag block write mask data tsel tags prio) s =
        .next (emit (.reply "HBM" tag (readWords (zeros 64) (List.replicate 8 0x80))) s)) ∧
    (hbmServes s p = true → x.failed = false → write = true → x.wq.length < 48 → ∃ s',
      exec (.hbmRequestAccept tag block write mask data tsel tags prio) s = .next s' ∧
      (∀ i, i < 64 → memByte s' (a + i) = if mask.getLsbD i then lget 0 data i else memByte s (a + i)) ∧
      (∀ c, c < a ∨ a + 64 ≤ c → memByte s' c = memByte s c ∧ (c / 8 < a / 8 ∨ a / 8 + 8 ≤ c / 8 → memTag s' c = memTag s c)) ∧
      (∀ i, i < 8 → memTag s' (a + 8 * i) = if tsel.getLsbD i then lget 0 tags i
        else if bf mask.toNat (8 * i) 8 = 255 then tagSetP false (memTag s (a + 8 * i)) else memTag s (a + 8 * i)) ∧
      (hbmPc s' p).rq = x.rq ∧ (∃ q ∈ (hbmPc s' p).wq, q.block = a ∧ q.mask &&& mask = mask) ∧
      { s' with hbm := {}, mem := {}, ctr := [], out := [] } = { s with hbm := {}, mem := {}, ctr := [], out := [] }) ∧
    (hbmServes s p = true → x.failed = false → write = false → x.rq.length < 64 → ∃ s' l,
      exec (.hbmRequestAccept tag block write mask data tsel tags prio) s = .next s' ∧ s'.mem = s.mem ∧ (hbmPc s' p).wq = x.wq ∧
      (mask ≠ 0 ∧ queuedMask x a &&& mask = mask → (hbmPc s' p).rq = x.rq ∧
        s'.out = s.out ++ l ++ [.reply "HBM" tag (readWords (blockBytes s a) (blockTags s a))]) ∧
      (mask = 0 ∨ queuedMask x a &&& mask ≠ mask → s'.out = s.out ++ l ∧ ∃ q, (hbmPc s' p).rq = x.rq ++ [q] ∧ q.tag = tag ∧
        q.block = a ∧ q.data = blockBytes s a ∧ q.tags = blockTags s a ∧ q.prio = prio.val ∧ q.issued = false) ∧
      { s' with hbm := {}, ctr := [], out := [] } = { s with hbm := {}, ctr := [], out := [] })) ∧
  (∀ (k pc bank row col : Nat), pc < 32 → bank < 64 → row < 21504 → col < 16 →
    tagPlace k (tagLine ⟨k, pc, bank, row, col⟩) = ⟨k, pc, bank ^^^ 8, 21504 + row / 8, row % 8 * 2 + col / 8⟩) ∧
  (∀ (stack line : Nat) (write : Bool) (s : State) (pl : HbmPlace), pl = tagPlace stack line →
    (hbmPc (tagQueue stack line write s) (32 * stack + pl.pc)).side =
      (hbmPc s (32 * stack + pl.pc)).side ++ [tagReq stack line write s]) ∧
  (∀ (p : HbmPlace) (wr : Bool) (s : State), tagHit s p = false →
    tagReq p.stack (tagLine p) false s ∈ (hbmPc (tagTouch p wr s) (32 * p.stack + (tagPlace p.stack (tagLine p)).pc)).side) ∧
  (∀ (it : MetaItem) (b i j k l : Nat) (s : State), it.mirror = some (i, j) → metaCopies s it b = [i, j] →
    k = (hbmPc s (metaPc i it b)).rq.length → l = (hbmPc s (metaPc j it b)).rq.length →
    metaCopy s it b = some (if l < k then j else i)) ∧
  (∀ (pc : Fin 128) (s : State) (x : HbmPc), x = hbmPc s pc.val →
    (hbmServes s pc.val = false ∨ x.failed = true → exec (.hbmCommandIssue pc) s = .next s) ∧
    (hbmServes s pc.val = true → x.failed = false → ∃ s', exec (.hbmCommandIssue pc) s = .next s' ∧ s'.mem = s.mem ∧
      { s' with hbm := {}, ctr := [], out := [] } = { s with hbm := {}, ctr := [], out := [] } ∧
      (∀ b n, x.refresh.find? (fun e => decide (8 ≤ e.2)) = some (b, n) ∨ x.refresh.find? (fun e => decide (8 ≤ e.2)) = none ∧
          hbmChoose s (pc.val / 32) x = none ∧ x.refresh.head? = some (b, n) →
        (∀ r, (hbmBank x b).row = some r → s'.out = s.out ++ [.hbm (pc.val / 32) (pc.val % 32) cPre b r 0] ∧
          (hbmBank (hbmPc s' pc.val) b).row = none ∧ (hbmPc s' pc.val).refresh = x.refresh) ∧
        ((hbmBank x b).row = none → s'.out = s.out ++ [.hbm (pc.val / 32) (pc.val % 32) cRefPb b 0 0] ∧
          tget 0 (hbmPc s' pc.val).refresh b = tget 0 x.refresh b - 1)) ∧
      (∀ q st pl b, x.refresh.find? (fun e => decide (8 ≤ e.2)) = none → hbmChoose s (pc.val / 32) x = some (q, st) →
        pl = q.place → b = hbmBank x pl.bank →
        (b.row = none → s'.out = s.out ++ [.hbm (pc.val / 32) (pc.val % 32) cAct pl.bank pl.row 0] ∧
          (hbmBank (hbmPc s' pc.val) pl.bank).row = some pl.row ∧ (hbmPc s' pc.val).rq = x.rq ∧ (hbmPc s' pc.val).wq = x.wq) ∧
        (∀ r, b.row = some r → r ≠ pl.row → s'.out = s.out ++ [.hbm (pc.val / 32) (pc.val % 32) cPre pl.bank r 0] ∧
          (hbmBank (hbmPc s' pc.val) pl.bank).row = none ∧ (hbmPc s' pc.val).rq = x.rq ∧ (hbmPc s' pc.val).wq = x.wq) ∧
        (b.row = some pl.row → ∀ keep : Bool, (keep = true ↔ 2 ≤ b.predict pl.row) →
          s'.out = s.out ++ [.hbm (pc.val / 32) (pc.val % 32)
            (if q.write then (if keep then cWr else cWra) else (if keep then cRd else cRda)) pl.bank pl.row pl.col] ∧
          (hbmBank (hbmPc s' pc.val) pl.bank).row = (if keep then some pl.row else none) ∧
          (q ∈ x.side → (hbmPc s' pc.val).side = x.side.erase q ∧ (hbmPc s' pc.val).wq = x.wq ∧ (hbmPc s' pc.val).rq = x.rq) ∧
          (q ∉ x.side → q.write = true → (hbmPc s' pc.val).wq = x.wq.erase q ∧ (hbmPc s' pc.val).rq = x.rq) ∧
          (q ∉ x.side → q.write = false → (hbmPc s' pc.val).wq = x.wq ∧
            (hbmPc s' pc.val).rq = x.rq.map (fun r => if r = q then { r with issued := true } else r)))) ∧
      (x.refresh = [] → hbmChoose s (pc.val / 32) x = none → s'.out = s.out ∧ (hbmPc s' pc.val).rq = x.rq ∧
        (hbmPc s' pc.val).wq = x.wq ∧ (hbmPc s' pc.val).bank = x.bank)) ∧
    (∀ k q st, hbmChoose s k x = some (q, st) → q ∈ hbmReady x ∧
      (st = true → hclkPassed s q.since (hbmCfg s k 5) = true ∧
        ∀ r ∈ hbmReady x, hclkPassed s r.since (hbmCfg s k 5) = true → q.since ≤ r.since) ∧
      (st = false → q.write = hbmMode s k x ∧ ∀ r ∈ hbmReady x, hclkPassed s r.since (hbmCfg s k 5) = false ∧
        (r.write = q.write → r.prio ≤ q.prio ∧
          (r.prio = q.prio → hbmHit x r = true → hbmHit x q = true ∧ q.since ≤ r.since))))) ∧
  (∀ (pc : Fin 128) (sev0 sev1 sevTag : Fin 4) (s : State) (x : HbmPc), x = hbmPc s pc.val →
    (x.rq.find? (fun q => q.issued && tagHere x q) = none → exec (.hbmReadReturn pc sev0 sev1 sevTag) s = .next s) ∧
    (∀ q, x.rq.find? (fun q => q.issued && tagHere x q) = some q → q.kind = 2 → ∃ s', exec (.hbmReadReturn pc sev0 sev1 sevTag) s = .next s' ∧
      s'.mem = s.mem ∧ (sev0.val = 3 ∨ sev1.val = 3 → ctrVal s' (0xC0D0 + pc.val / 32) 17 = ctrVal s (0xC0D0 + pc.val / 32) 17 + 1) ∧
      (sev0.val ≠ 3 → sev1.val ≠ 3 → s'.out = s.out ∧ (hbmPc s' pc.val).rq = x.rq.erase q ∧ (hbmPc s' pc.val).wq = x.wq)) ∧
    (∀ q tg, x.rq.find? (fun q => q.issued && tagHere x q) = some q → q.kind ≠ 2 → tg = (if q.tagMiss then sevTag.val else 0) → ∃ s',
      exec (.hbmReadReturn pc sev0 sev1 sevTag) s = .next s' ∧
      (hbmPc s' pc.val).rq = x.rq.erase q ∧ (hbmPc s' pc.val).wq = x.wq ∧
      s'.out = s.out ++ [.reply "HBM" q.tag (readWords q.data (readTags q.tags sev0.val sev1.val tg))] ∧
      (sev0.val ≠ 3 → sev1.val ≠ 3 → tg ≠ 3 → s'.mem = s.mem) ∧ s'.mem.byte = s.mem.byte ∧
      (sev0.val = 1 → sev1.val = 0 → tg = 0 →
        ctrVal s' (0xC0D0 + pc.val / 32) 14 = ctrVal s (0xC0D0 + pc.val / 32) 14 + 1) ∧
      (sev0.val = 3 → q.block % 64 = 0 → q.block < 0x2A00000000 → hbmFailed s q.block = false → ∀ i, i < 4 →
        tagP (memTag s' (q.block + 8 * i)) = true))) ∧
  (∀ (pc : Fin 128) (bank : Fin 64) (s : State) (b : HbmBank), b = hbmBank (hbmPc s pc.val) bank.val →
    (b.row = none ∨ hbmServes s pc.val = false ∨ hclkPassed s b.used (hbmCfg s (pc.val / 32) 1) = false →
      exec (.idleClose pc bank) s = .next s) ∧
    (∀ r, b.row = some r → hbmServes s pc.val = true → hclkPassed s b.used (hbmCfg s (pc.val / 32) 1) = true → ∃ s',
      exec (.idleClose pc bank) s = .next s' ∧ (hbmBank (hbmPc s' pc.val) bank.val).row = none ∧
      s'.out = s.out ++ [.hbm (pc.val / 32) (pc.val % 32) cPre bank.val r 0] ∧
      { s' with hbm := {}, out := [] } = { s with hbm := {}, out := [] })) ∧
  (∀ (pc : Fin 128) (s : State) (x : HbmPc), x = hbmPc s pc.val →
    (hbmServes s pc.val = false ∨ x.failed = true → exec (.refreshDue pc) s = .next s ∧ exec (.powerDownEntry pc) s = .next s) ∧
    (hbmServes s pc.val = true → x.failed = false → ∃ s', exec (.refreshDue pc) s = .next s' ∧ (hbmPc s' pc.val).pd = false ∧
      tget 0 (hbmPc s' pc.val).refresh x.nextRef = min 8 (tget 0 x.refresh x.nextRef + 1) ∧
      (hbmPc s' pc.val).nextRef = (x.nextRef + 1) % 64 ∧
      s'.out = s.out ++ (if x.pd then [.hbm (pc.val / 32) (pc.val % 32) cPdExit 0 0 0] else []) ∧
      { s' with hbm := {}, out := [] } = { s with hbm := {}, out := [] }) ∧
    (x.pd = true ∨ x.rq ≠ [] ∨ x.wq ≠ [] ∨ x.side ≠ [] ∨ x.refresh ≠ [] ∨ hclkPassed s x.idleAt (hbmCfg s (pc.val / 32) 2) = false →
      exec (.powerDownEntry pc) s = .next s) ∧
    (hbmServes s pc.val = true → x.failed = false → x.pd = false → x.rq = [] → x.wq = [] → x.side = [] → x.refresh = [] →
      hclkPassed s x.idleAt (hbmCfg s (pc.val / 32) 2) = true → ∃ s', exec (.powerDownEntry pc) s = .next s' ∧
        (hbmPc s' pc.val).pd = true ∧ s'.out = s.out ++ [.hbm (pc.val / 32) (pc.val % 32) cPdEnter 0 0 0] ∧
        { s' with hbm := {}, ctr := [], out := [] } = { s with hbm := {}, ctr := [], out := [] })) ∧
  (∀ (stack : Fin 4) (temp : BitVec 8) (s : State),
    (s.clk.frozen.isSome = true ∨ fireAt s / 1048576 < tget 0 s.hbm.tempAt stack.val → exec (.hbmTemperatureRead stack temp) s = .next s) ∧
    (s.clk.frozen = none → tget 0 s.hbm.tempAt stack.val ≤ fireAt s / 1048576 →
      exec (.hbmTemperatureRead stack temp) s = .next (modHbm (fun h => { h with
        temp := tset 0 h.temp stack.val temp.toInt,
        rate := tset 0 h.rate stack.val (if temp.toInt ≤ 85 then 0 else if temp.toInt ≤ 95 then 1 else 2),
        tempAt := tset 0 h.tempAt stack.val (fireAt s / 1048576 + 1) }) s))) ∧
  (∀ (pc : Fin 128) (late : Fin 33) (s : State) (x : HbmPc), x = hbmPc s pc.val →
    (hbmServes s pc.val = false ∨ x.failed = true → exec (.parityAlert pc late) s = .next s) ∧
    (hbmServes s pc.val = true → x.failed = false → x.tries < 3 → ∃ s', exec (.parityAlert pc late) s = .next s' ∧
      (hbmPc s' pc.val).tries = x.tries + 1 ∧ (hbmPc s' pc.val).alertAt = now s ∧ (hbmPc s' pc.val).rq = x.rq ∧
      (hbmPc s' pc.val).wq = x.wq ∧ s'.mem = s.mem ∧
      ctrVal s' (0xC0D0 + pc.val / 32) 11 = ctrVal s (0xC0D0 + pc.val / 32) 11 + 1 ∧
      (late.val = 0 → ∀ b, (hbmBank (hbmPc s' pc.val) b).row = none)) ∧
    (hbmServes s pc.val = true → x.failed = false → 3 ≤ x.tries → ∃ s' l, exec (.parityAlert pc late) s = .next s' ∧
      (hbmPc s' pc.val).failed = true ∧ (hbmPc s' pc.val).rq = [] ∧ (hbmPc s' pc.val).wq = [] ∧ (hbmPc s' pc.val).side = [] ∧
      ((∀ q ∈ x.rq, q.kind ≠ 2) →
        s'.out = s.out ++ l ++ x.rq.map (fun q => .reply "HBM" q.tag (readWords (zeros 64) (List.replicate 8 0x80)))) ∧
      (∀ q ∈ x.rq, q.kind ≠ 2 → Output.reply "HBM" q.tag (readWords (zeros 64) (List.replicate 8 0x80)) ∈ s'.out) ∧
      (∀ q ∈ x.rq, ∀ m, q.kind = 2 → q.write = false → m = 32 * ((q.place.stack + 2) % 4) + q.place.pc → hbmServes s' m = true →
        (hbmPc s' m).failed = false → otherCopy q ∈ (hbmPc s' m).rq) ∧
      ctrVal s' (0xC0D0 + pc.val / 32) 13 = ctrVal s (0xC0D0 + pc.val / 32) 13 + 1)) ∧
  (∀ (v : Bytes) (s : State) (lane p : Nat), lane = leNat v % 65536 → p = lane / 16384 * 32 + lane / 1024 % 16 * 2 →
    (spareLeft s lane = true → ∃ s', exec (.laneRepair none v) s = .next s' ∧
      s'.hbm.repairs = s.hbm.repairs ++ [BitVec.ofNat 16 lane] ∧
      (∀ b, (hbmBank (hbmPc s' p) b).row = none ∧ (hbmBank (hbmPc s' (p + 1)) b).row = none) ∧ s'.mem = s.mem) ∧
    (spareLeft s lane = false → ∃ s', exec (.laneRepair none v) s = .next s' ∧ (hbmPc s' p).failed = true ∧
      (hbmPc s' (p + 1)).failed = true ∧ s'.hbm.repairs = s.hbm.repairs ∧ s'.mem = s.mem)) ∧
  (∀ s : State, ((∀ e ∈ s.hbm.retire, e.2 ≠ 1) → exec .metadataMoveComplete s = .next s) ∧
    (∀ k v, s.hbm.retire.find? (fun e => decide (e.2 = 1)) = some (k, v) →
      ((∃ e ∈ s.bufs.pool, e.2.state = 2) ∨ (∃ w ∈ s.hbm.watch, w.1 = k) →
        exec .metadataMoveComplete s = .next (modHbm (fun h => { h with moved := true }) s)) ∧
      ((∀ e ∈ s.bufs.pool, e.2.state ≠ 2) → (∀ w ∈ s.hbm.watch, w.1 ≠ k) →
        exec .metadataMoveComplete s = .next (requestLeave (68 + k) 3 (modHbm (fun h => { h with
          retire := tset 0 h.retire k 2, state := tset 0 h.state k 5, moved := false }) s)))))

/-! ### The host (chapter 16) -/

/-- The commands of a queue: a queue with none to start, or whose next command is another, is left alone; a refused command ends
with its status; each other has the effect of Table 16-6 and ends, or goes on in the unit it started.
Where the spec is silent it rests on the model's choices of logs 64 and 67. -/
def Obligations.HostCommands : Prop :=
  (∀ op want, HostForm op want → ∀ (q : Fin 4096) (s : State),
    (s.host.cmds = [] → exec (op q) s = .next s) ∧
    (∀ id c, CmdAlone s q id c → want c = false → exec (op q) s = .next s) ∧
    (∀ id c, s.host.cmds = [(id, c)] → c.q = q.val → c.started = false → (cmqOf s q.val).state = 1 → cmdStatus s c ≠ 0 →
      ∃ s', exec (op q) s = .next s' ∧ CmdEnded c (cmdStatus s c) 0 0 s s' ∧ HostOnly s s')) ∧
  (∀ (q : Fin 4096) (s : State), (8192 ≤ storeLoad s ∨ s.host.cmds = [] → exec (.dma q) s = .next s) ∧
    (∀ id c, CmdAlone s q id c → wantOpc 1 c = true → storeLoad s < 8192 → ∃ s', exec (.dma q) s = .next s' ∧
      ctrVal s' 0xC0E8 1 = ctrVal s 0xC0E8 1 + 1 ∧
      (itemLegal (cmdItem s id c).words = true → itemOf s' s.host.nextItem = some (cmdItem s id c) ∧
        s'.host.cmds = [(id, { c with started := true, link := some s.host.nextItem })] ∧ s'.host.posts = s.host.posts ∧
        ledRow s' 4 = (ledRow s 4).accept ∧ s'.mem = s.mem) ∧
      (itemLegal (cmdItem s id c).words = false → itemOf s' s.host.nextItem = none ∧ s'.host.cmds = [] ∧
        ledRow s' 4 = ((ledRow s 4).accept).failed ∧ ∃ w, s'.host.posts = s.host.posts ++ [w] ∧
          w.words.head? = some (cplWord0 (bf (c.word 0) 32 32) 0x0A false c.q)))) ∧
  EndsAtOnce .nop (wantOpc 0) (fun _ _ => True) (fun _ _ => 0) (fun _ s s' => HostOnly s s') ∧
  MsgForm .msgPut 1 ∧ MsgForm .msgGet 2 ∧ MsgEmpty .msgPut 1 ∧ MsgEmpty .msgGet 2 ∧ MsgForm .msgAtomic opAtomic ∧ MsgForm .msgSend opSend ∧ MsgForm .msgReduce opReduce ∧
  (∀ (q : Fin 4096) (s : State) (id : Nat) (c : HCmd), CmdAlone s q id c → wantOpc 3 c = true →
    (s.mat.renum = true → ∃ s', exec (.matchOp q) s = .next s' ∧ s'.mat.wait = s.mat.wait ++ [cmdReq s id c] ∧
      s'.host.cmds = [(id, { c with started := true })] ∧ s'.mat.ent = s.mat.ent) ∧
    (∀ m s1, s.mat.renum = false → mCascaded s (cmdReq s id c) = false → mPerform (cmdReq s id c) (modMat (fun x => { x with ptr := 9 }) s) = (m, s1) → ∃ s',
      exec (.matchOp q) s = .next s' ∧ s'.mat = s1.mat ∧ s'.out = s1.out ∧
      CmdEnded c (if bf m.res0 1 4 = 0 then 0 else 0x70 + bf m.res0 1 4) (BitVec.ofNat 64 m.res0) (m.w.headD 0) s s')) ∧
  (∀ (q : Fin 4096) (s : State) (id : Nat) (c : HCmd) (ws : List W64) (r : Nat), CmdAlone s q id c → wantOpc 4 c = true →
    ws = hwBrick s 3 (bf (c.word 1) 0 6) (payWord (copyAddr s) 64) 0 (BitVec.ofNat 64 c.q) 0 → r = classRq s (bkClass ws) →
    (brickCheck s ws false ≠ 0 → ∃ s', exec (.brick q) s = .next s' ∧ CmdEnded c (0x60 + brickCheck s ws false) 0 0 s s' ∧ HostOnly s s') ∧
    (brickCheck s ws false = 0 → onchipCount s < 16384 ∧ rqSpilled s r = false ∨ overflowCount s < 1048576 →
      ∃ s', exec (.brick q) s = .next s' ∧ s'.free = s.free + 1 ∧ s'.sched.nextBid = s.sched.nextBid + 1 ∧
        s'.host.cmds = [(id, { c with started := true, link := some s.sched.nextBid.toNat })] ∧ s'.host.posts = s.host.posts ∧
        ledRow s' 3 = (ledRow s 3).accept ∧ (∀ p, p ≠ r → rqOf s' p = rqOf s p) ∧ ∃ b, rqOf s' r = rqOf s r ++ [b] ∧
          b.words = ws.take 7 ++ [BitVec.ofNat 64 (s.sched.nextBid.toNat + hostMaster (cmqOf s c.q) % 2 ^ 16 * 2 ^ 32)])) ∧
  EndsAtOnce .counterArm (fun c => wantOpc 5 c && decide (c.cop = 3))
    (fun s c => 1048576 ≤ bf (c.word 1) 0 24 ∨ actLegal s (bf (c.word 3) 32 4) (bf (c.word 3) 36 28) (some (cmqOf s c.q).owner) = false)
    (fun _ _ => 0x0A) (fun _ s s' => HostOnly s s') ∧
  EndsAtOnce .counterArm (fun c => wantOpc 5 c && decide (c.cop = 3))
    (fun s c => bf (c.word 1) 0 24 < 1048576 ∧ actLegal s (bf (c.word 3) 32 4) (bf (c.word 3) 36 28) (some (cmqOf s c.q).owner) = true)
    (fun _ _ => 0) (fun c s s' => (∀ k, k ≠ bf (c.word 1) 0 24 → ctrOf s' k = ctrOf s k) ∧ ∀ k, k = ctrOf s' (bf (c.word 1) 0 24) →
      k.count = 0 ∧ k.state = (if bit (c.word 1) 27 then csAuto else csArmed) ∧ k.job = (cmqOf s c.q).qjob.toNat ∧
      k.act = bf (c.word 3) 32 4 ∧ k.actarg = bf (c.word 3) 36 28 ∧ k.deadline = c.word 4 ∧ k.armedAt = now s ∧
      (bit (c.word 1) 27 = false → k.target = bf (c.word 2) 0 48)) ∧
  EndsAtOnce .counterDisarm (fun c => wantOpc 5 c && decide (c.cop = 4)) (fun _ c => 1048576 ≤ bf (c.word 1) 0 24)
    (fun _ _ => 0x0A) (fun _ s s' => HostOnly s s') ∧
  EndsAtOnce .counterDisarm (fun c => wantOpc 5 c && decide (c.cop = 4))
    (fun s c => bf (c.word 1) 0 24 < 1048576 ∧ (ctrOf s (bf (c.word 1) 0 24)).state = csIdle) (fun s _ => freeNat s % 256)
    (fun _ s s' => s'.free = s.free + 1 ∧ s'.zmt = s.zmt) ∧
  EndsAtOnce .counterDisarm (fun c => wantOpc 5 c && decide (c.cop = 4))
    (fun s c => bf (c.word 1) 0 24 < 1048576 ∧ (ctrOf s (bf (c.word 1) 0 24)).state ≠ csIdle) (fun _ _ => 0)
    (fun c s s' => ctrOf s' (bf (c.word 1) 0 24) = { ctrOf s (bf (c.word 1) 0 24) with state := csIdle } ∧
      ∀ k, k ≠ bf (c.word 1) 0 24 → ctrOf s' k = ctrOf s k) ∧
  EndsAtOnce .window (wantOpc 6) (fun _ _ => True) (fun _ _ => 0) (fun c s s' =>
    tget [0, 0, 0, 0] s'.zmt.win (bf (c.word 1) 0 16) = winRecord [c.words.getD 2 0, c.words.getD 3 0,
      BitVec.ofNat 64 (bput (c.word 4) 0 32 (cmqOf s c.q).qjob.toNat)] ∧
    ∀ n, n ≠ bf (c.word 1) 0 16 → tget [0, 0, 0, 0] s'.zmt.win n = tget [0, 0, 0, 0] s.zmt.win n) ∧
  EndsAtOnce .createCmq (wantOpc 0x80) (fun s c => (cmqOf s (bf (c.word 1) 0 12)).state ≠ 0) (fun _ _ => 9) (fun _ s s' => HostOnly s s') ∧
  EndsAtOnce .createCmq (wantOpc 0x80) (fun s c => (cmqOf s (bf (c.word 1) 0 12)).state = 0 ∧
      cmqsOf s (cmqOf s c.q).owner < quota s (cmqOf s c.q).owner 1 ∧ 1 ≤ bf (c.word 3) 0 5 ∧ bf (c.word 3) 0 5 ≤ 16 ∧
      (cpqOf s (bf (c.word 3) 5 12)).en = true ∧ (cpqOf s (bf (c.word 3) 5 12)).owner = (cmqOf s c.q).owner)
    (fun _ _ => 0) (fun c s s' => HostOnly { s with out := [] } { s' with out := [] } ∧
      s'.out = s.out ++ (if (cpqOf s (bf (c.word 3) 5 12)).dbm = true ∧ (linkSt s (linkOf s (cmqOf s c.q).owner)).cxl = true then
        [.hostMsg ((cmqOf s c.q).owner / 128) "RDSHARED" ((cmqOf s c.q).owner % 128) [(pageBase (c.words.getD 2 0)).toNat]] else []) ∧
      (∀ n, n ∈ s'.host.denied ↔ n ∈ s.host.denied ∧ n ≠ xcmdId (bf (c.word 1) 0 12)) ∧
      cmqOf s' (bf (c.word 1) 0 12) = {
      base := pageBase (c.words.getD 2 0), log2 := bf (c.word 3) 0 5,
      cpq := bf (c.word 3) 5 12, qprio := bf (c.word 3) 17 4, pslot := bf (c.word 3) 21 6, pv := bit (c.word 3) 27,
      admin := bit (c.word 3) 28, owner := (cmqOf s c.q).owner, state := 1, qjob := BitVec.ofNat 32 (c.word 3 / 2 ^ 32) } ∧
      ∀ n, n ≠ bf (c.word 1) 0 12 → cmqOf s' n = cmqOf s n) ∧
  EndsAtOnce .createCmq (wantOpc 0x80) (fun s c => (cmqOf s (bf (c.word 1) 0 12)).state = 0 ∧
      (quota s (cmqOf s c.q).owner 1 ≤ cmqsOf s (cmqOf s c.q).owner ∨ bf (c.word 3) 0 5 = 0 ∨ 16 < bf (c.word 3) 0 5 ∨
        (cpqOf s (bf (c.word 3) 5 12)).en = false ∨ (cpqOf s (bf (c.word 3) 5 12)).owner ≠ (cmqOf s c.q).owner))
    (fun _ _ => 0x0A) (fun _ s s' => HostOnly s s') ∧
  EndsAtOnce .deleteCmq (wantOpc 0x81) (fun s c => (cmqOf s (bf (c.word 1) 0 12)).state = 0) (fun _ _ => 0) (fun _ s s' => HostOnly s s') ∧
  EndsAtOnce .deleteCmq (wantOpc 0x81) (fun s c => (cmqOf s (bf (c.word 1) 0 12)).state ≠ 0 ∧
      (cmqOf s (bf (c.word 1) 0 12)).owner ≠ (cmqOf s c.q).owner) (fun _ _ => 3) (fun _ s s' => HostOnly s s') ∧
  EndsAtOnce .deleteCmq (wantOpc 0x81) (fun s c => ((cmqOf s (bf (c.word 1) 0 12)).state = 1 ∨ (cmqOf s (bf (c.word 1) 0 12)).state = 2) ∧
      (cmqOf s (bf (c.word 1) 0 12)).owner = (cmqOf s c.q).owner) (fun _ _ => 0) (fun c s s' => HostOnly s s' ∧
      (cmqOf s' (bf (c.word 1) 0 12)).state = 0 ∧ ∀ n, n ≠ bf (c.word 1) 0 12 → cmqOf s' n = cmqOf s n) ∧
  EndsAtOnce .deleteCmq (wantOpc 0x81) (fun s c => (cmqOf s (bf (c.word 1) 0 12)).state = 3 ∧
      (cmqOf s (bf (c.word 1) 0 12)).owner = (cmqOf s c.q).owner) (fun _ _ => 9) (fun _ s s' => HostOnly s s') ∧
  (∀ (q : Fin 4096) (s : State) (id id0 n : Nat) (c c0 : HCmd), s.host.cmds = [(id0, c0), (id, c)] → id0 < id → c.q = q.val →
    c.started = false → cmdStatus s c = 0 → wantOpc 0x81 c = true → n = bf (c.word 1) 0 12 → c0.q = n → n ≠ q.val →
    (cmqOf s n).state = 1 → (cmqOf s n).owner = (cmqOf s q.val).owner → ∃ s', exec (.deleteCmq q) s = .next s' ∧
      (cmqOf s' n).state = 3 ∧ (cmqOf s' n).delBy = some id ∧ s'.host.cmds = [(id0, c0), (id, { c with started := true })] ∧
      s'.host.posts = s.host.posts) ∧
  EndsAtOnce .createCpq (wantOpc 0x82) (fun s c => (cpqOf s (bf (c.word 1) 0 12)).en = true) (fun _ _ => 9) (fun _ s s' => HostOnly s s') ∧
  EndsAtOnce .createCpq (wantOpc 0x82) (fun s c => (cpqOf s (bf (c.word 1) 0 12)).en = false ∧
      cpqsOf s (cmqOf s c.q).owner < quota s (cmqOf s c.q).owner 1 ∧ 1 ≤ bf (c.word 3) 0 5 ∧ bf (c.word 3) 0 5 ≤ 16 ∧
      bf (c.word 3) 5 11 < quota s (cmqOf s c.q).owner 2 ∧ bf (c.word 3) 32 16 ≤ 62500)
    (fun _ _ => 0) (fun c s s' => HostOnly s s' ∧ cpqOf s' (bf (c.word 1) 0 12) = {
      base := c.words.getD 2 0, log2 := bf (c.word 3) 0 5,
      vec := bf (c.word 3) 5 11, n := max 1 (bf (c.word 3) 16 16), t := bf (c.word 3) 32 16, dbm := bit (c.word 3) 48, en := true,
      owner := (cmqOf s c.q).owner } ∧ ∀ n, n ≠ bf (c.word 1) 0 12 → cpqOf s' n = cpqOf s n) ∧
  EndsAtOnce .deleteCpq (wantOpc 0x83) (fun s c => (cpqOf s (bf (c.word 1) 0 12)).en = false) (fun _ _ => 0) (fun _ s s' => HostOnly s s') ∧
  EndsAtOnce .deleteCpq (wantOpc 0x83) (fun s c => (cpqOf s (bf (c.word 1) 0 12)).en = true ∧
      (cpqOf s (bf (c.word 1) 0 12)).owner ≠ (cmqOf s c.q).owner) (fun _ _ => 3) (fun _ s s' => HostOnly s s') ∧
  EndsAtOnce .deleteCpq (wantOpc 0x83) (fun s c => (cpqOf s (bf (c.word 1) 0 12)).en = true ∧
      (cpqOf s (bf (c.word 1) 0 12)).owner = (cmqOf s c.q).owner ∧ ∃ e ∈ s.host.cmq, e.2.state ≠ 0 ∧ e.2.cpq = bf (c.word 1) 0 12)
    (fun _ _ => 9) (fun _ s s' => HostOnly s s') ∧
  EndsAtOnce .deleteCpq (wantOpc 0x83) (fun s c => (cpqOf s (bf (c.word 1) 0 12)).en = true ∧
      (cpqOf s (bf (c.word 1) 0 12)).owner = (cmqOf s c.q).owner ∧ ∀ e ∈ s.host.cmq, e.2.state ≠ 0 → e.2.cpq ≠ bf (c.word 1) 0 12)
    (fun _ _ => 0) (fun c s s' => HostOnly s s' ∧ (cpqOf s' (bf (c.word 1) 0 12)).en = false) ∧
  EndsAtOnce .pasidReg (wantOpc 0x84) (fun _ _ => True) (fun _ _ => 0) (fun c s s' => HostOnly s s' ∧
    tfind s'.host.pslot (64 * (cmqOf s c.q).owner + bf (c.word 1) 0 6) = some (bf (c.word 1) 8 20, cfg s 0x8401 2) ∧
    ∀ k, k ≠ 64 * (cmqOf s c.q).owner + bf (c.word 1) 0 6 → tfind s'.host.pslot k = tfind s.host.pslot k) ∧
  EndsAtOnce .pasidUnreg (wantOpc 0x85) (fun s c => ∃ e ∈ s.host.cmq, e.2.state ≠ 0 ∧ e.2.owner = (cmqOf s c.q).owner ∧ e.2.pv = true ∧
      e.2.pslot = bf (c.word 1) 0 6) (fun _ _ => 9) (fun _ s s' => HostOnly s s') ∧
  EndsAtOnce .pasidUnreg (wantOpc 0x85) (fun s c => ∀ e ∈ s.host.cmq, e.2.state ≠ 0 → e.2.owner = (cmqOf s c.q).owner → e.2.pv = true →
      e.2.pslot ≠ bf (c.word 1) 0 6) (fun _ _ => 0) (fun c s s' => HostOnly s s' ∧
      tfind s'.host.pslot (64 * (cmqOf s c.q).owner + bf (c.word 1) 0 6) = none ∧
      ∀ p est e, tfind s.host.pslot (64 * (cmqOf s c.q).owner + bf (c.word 1) 0 6) = some (p, est) →
        (e ∈ s'.host.atc ↔ e ∈ s.host.atc ∧ ¬(e.func = (cmqOf s c.q).owner ∧ e.pasid = some p))) ∧
  EndsAtOnce .aperture (wantOpc 0x86) (fun s c => bf (c.word 4) 0 25 ≤ 2 ^ 24 ∧
      ((aperOf s (bf (c.word 1) 0 10)).ctl.getLsbD 0 = true → aperFunc (aperOf s (bf (c.word 1) 0 10)) = (cmqOf s c.q).owner) ∧
      (bit (c.word 2) 0 = true → (aperOf s (bf (c.word 1) 0 10)).ctl.getLsbD 0 = true ∨
        apersOf s (cmqOf s c.q).owner < quota s (cmqOf s c.q).owner 3)) (fun _ _ => 0)
    (fun c s s' => HostOnly s s' ∧ aperOf s' (bf (c.word 1) 0 10) =
      { ctl := aperCtl (c.word 2) (cmqOf s c.q).owner, hbase := pageBase (c.words.getD 3 0), len := bf (c.word 4) 0 25 } ∧
      ∀ a, a ≠ bf (c.word 1) 0 10 → aperOf s' a = aperOf s a) ∧
  EndsAtOnce .aperture (wantOpc 0x86) (fun _ c => 2 ^ 24 < bf (c.word 4) 0 25) (fun _ _ => 0x0A) (fun _ s s' => HostOnly s s') ∧
  EndsAtOnce .aperture (wantOpc 0x86) (fun s c => bf (c.word 4) 0 25 ≤ 2 ^ 24 ∧ (aperOf s (bf (c.word 1) 0 10)).ctl.getLsbD 0 = true ∧
      aperFunc (aperOf s (bf (c.word 1) 0 10)) ≠ (cmqOf s c.q).owner) (fun _ _ => 3) (fun _ s s' => HostOnly s s') ∧
  EndsAtOnce .aperture (wantOpc 0x86) (fun s c => bf (c.word 4) 0 25 ≤ 2 ^ 24 ∧ (aperOf s (bf (c.word 1) 0 10)).ctl.getLsbD 0 = false ∧
      bit (c.word 2) 0 = true ∧ quota s (cmqOf s c.q).owner 3 ≤ apersOf s (cmqOf s c.q).owner) (fun _ _ => 3) (fun _ s s' => HostOnly s s')

/-- The host's queues: doorbells make entries ready or put a queue in ERROR; a port fetches from the queue it picks; a function's
registers make its admin pair; a frozen device takes no request of a function; completions are written in order while there is room, and signal their vector by count or
timer; a masked vector's message waits; a snooped line is a TAIL write.
Where the spec is silent it rests on the model's choices of logs 65 and 69. -/
def Obligations.HostQueues : Prop :=
  (∀ (func : Fin 256) (s : State), clocked s = false → ∀ i, (∃ q t, i = Instr.doorbellTail func q t) ∨
    (∃ q w e, i = .doorbellInline func q w e) ∨ (∃ r v, i = .adminQueueEnable func r v) ∨ (∃ j h, i = .cqHeadWrite func j h) ∨
    (∃ v m, i = .msixUnmask func v m) ∨ i = .flr func → exec i s = .next s) ∧
  (∀ (func : Fin 256) (q : Fin 4096) (s : State) (x : CmQ) (tail : BitVec 32) (whole : Bool) (entry : Bytes), x = cmqOf s q.val →
    clocked s = true →
    (funcExists s func.val = false →
      exec (.doorbellTail func q tail) s = .next (bump (0xC0E0 + func.val / 128) 0x0C s) ∧
      exec (.doorbellInline func q whole entry) s = .next (bump (0xC0E0 + func.val / 128) 0x0C s)) ∧
    (funcExists s func.val = true → x.owner ≠ func.val ∨ x.state ≠ 1 →
      exec (.doorbellTail func q tail) s = .next (bump (0xC0E0 + func.val / 128) 0x04 s) ∧
      exec (.doorbellInline func q whole entry) s = .next (bump (0xC0E0 + func.val / 128) 0x04 s)) ∧
    (funcExists s func.val = true → x.owner = func.val → x.state = 1 →
      (∀ adv, adv = (tail.toNat + x.size - x.tail % x.size) % x.size → tail.toNat < x.size → x.tail + adv ≤ x.head + x.size →
        exec (.doorbellTail func q tail) s = .next (modCmq q.val (fun y => { y with tail := y.tail + adv }) s) ∧
        (x.tail + adv) % x.size = tail.toNat) ∧
      (whole = true → entry.length = 64 → x.tail + 1 ≤ x.head + x.size → exec (.doorbellInline func q whole entry) s =
        .next (modCmq q.val (fun y => { y with inline := tput y.inline y.tail entry, tail := y.tail + 1 }) s)) ∧
      (∀ i, (x.size ≤ tail.toNat ∧ i = Instr.doorbellTail func q tail ∨
          (whole = false ∨ entry.length ≠ 64 ∨ x.head + x.size < x.tail + 1) ∧ i = Instr.doorbellInline func q whole entry) →
        ∃ s' w, exec i s = .next s' ∧ cmqOf s' q.val = { x with state := 2 } ∧ (funcOf s' x.owner).errq = BitVec.ofNat 16 q.val ∧
          s'.free = s.free + 1 ∧ s'.host.posts = s.host.posts ++ [{ cpq := x.cpq, words := [w, 0, 0, 0], led := none }] ∧
          HostOnly s { s' with free := s.free }))) ∧
  (∀ (port : Fin 2) (data : Bytes) (err : Bool) (s : State),
    (pickQueue s port.val = none → exec (.cmdFetch port data err) s = .next s) ∧
    (∀ q x, pickQueue s port.val = some q → x = cmqOf s q → s.host.cmds = [] →
      (∀ e c, tfind x.inline x.head = some e → c = { q := q, words := entryWords e, started := false, pos := x.head, link := none : HCmd } →
        c.opc ≠ 1 → cmdStatus s c = 0 → ∃ s', exec (.cmdFetch port data err) s = .next s' ∧ s'.host.cmds = [(s.host.nextCmd, c)] ∧
          (cmqOf s' q).head = x.head + 1 ∧ (cmqOf s' q).tail = x.tail ∧ tfind (cmqOf s' q).inline x.head = none ∧
          ledRow s' 5 = (ledRow s 5).accept ∧ s'.out = s.out) ∧
      (∀ p phys e c, tfind x.inline x.head = none → xcmdId q ∉ s.host.denied → cmqPasid s x ≠ badPasid →
        p = { func := x.owner, pasid := if cmqPasid s x = noPasid then none else some (cmqPasid s x), addr := x.base.toNat + 64 * (x.head % x.size) : HPlace } →
        translate s p false = some phys → (funcOf s x.owner).ats = false → fetchRun x = 1 → e = sliceZ data 0 64 →
        c = { q := q, words := entryWords e, started := false, pos := x.head, link := none : HCmd } →
        (err = true → ∃ s' w, exec (.cmdFetch port data err) s = .next s' ∧ cmqOf s' q = { x with state := 2 } ∧ s'.host.cmds = [] ∧
          s'.host.posts = s.host.posts ++ [{ cpq := x.cpq, words := [w, 0, 0, 0], led := none }]) ∧
        (err = false → c.opc ≠ 1 → cmdStatus s c = 0 → ∃ s', exec (.cmdFetch port data err) s = .next s' ∧
          s'.host.cmds = [(s.host.nextCmd, c)] ∧ (cmqOf s' q).head = x.head + 1 ∧ ledRow s' 5 = (ledRow s 5).accept ∧
          s'.out = s.out ++ [.hostRead (x.owner / 128) (x.owner % 128) p.pasid phys 64 q])))) ∧
  (∀ (func : Fin 256) (reg : Fin 8) (v : W64) (s : State), clocked s = true →
    (funcExists s func.val = false → exec (.adminQueueEnable func reg v) s = .next (bump (0xC0E0 + func.val / 128) 0x0C s)) ∧
    (funcExists s func.val = true →
      (reg.val = 0 ∨ reg.val = 4 ∨ 6 ≤ reg.val → exec (.adminQueueEnable func reg v) s = .next s) ∧
      (reg.val = 1 → exec (.adminQueueEnable func reg v) s =
        .next (modFunc func.val (fun x => { x with cmdBase := BitVec.ofNat 64 (v.toNat / 4096 * 4096) }) s)) ∧
      (reg.val = 2 → exec (.adminQueueEnable func reg v) s =
        .next (modFunc func.val (fun x => { x with cplBase := BitVec.ofNat 64 (v.toNat / 4096 * 4096) }) s)) ∧
      (reg.val = 5 → exec (.adminQueueEnable func reg v) s =
        .next (modFunc func.val (fun x => { x with lockCpq := BitVec.ofNat 12 v.toNat, lockEn := v.getLsbD 12 }) s)) ∧
      (reg.val = 3 → ∃ s', exec (.adminQueueEnable func reg v) s = .next s' ∧ (funcOf s' func.val).en = v.getLsbD 8 ∧
        (v.getLsbD 8 = (funcOf s func.val).en → s'.host.cmq = s.host.cmq ∧ s'.host.cpq = s.host.cpq) ∧
        (∀ n, n = (Config.adminQueue func.val).toNat → (funcOf s func.val).en = false → v.getLsbD 8 = true → 1 ≤ bf v.toNat 0 8 →
          bf v.toNat 0 8 ≤ 12 → (cmqOf s n).state = 0 → (cpqOf s n).en = false →
          (funcOf s' func.val).pair = some (n, n) ∧ (cmqOf s' n).state = 1 ∧ (cmqOf s' n).admin = true ∧
          (cmqOf s' n).owner = func.val ∧ (cmqOf s' n).base = (funcOf s func.val).cmdBase ∧ (cmqOf s' n).log2 = bf v.toNat 0 8 ∧
          (cpqOf s' n).en = true ∧ (cpqOf s' n).base = (funcOf s func.val).cplBase) ∧
        (∀ c j, (funcOf s func.val).en = true → v.getLsbD 8 = false → (funcOf s func.val).pair = some (c, j) →
          (funcOf s' func.val).pair = none ∧ ((∀ e ∈ s.host.cmds, e.2.q ≠ c) → (cmqOf s' c).state = 0 ∧ (cpqOf s' j).en = false) ∧
          ((∃ e ∈ s.host.cmds, e.2.q = c) → (cmqOf s' c).state = 3))))) ∧
  (∀ (j : Fin 4096) (s : State) (x : CpQ), x = cpqOf s j.val →
    (s.host.posts.find? (fun c => decide (c.cpq = j.val)) = none ∨ x.en = false ∨ x.full = true → exec (.completionWrite j) s = .next s) ∧
    (∀ c phys, s.host.posts.find? (fun c => decide (c.cpq = j.val)) = some c → x.en = true → x.full = false → x.dbm = false →
      translate s { func := x.owner, pasid := none, addr := x.base.toNat + 32 * (x.tail % x.size) } true = some phys → ∃ s' l,
      exec (.completionWrite j) s = .next s' ∧ s'.host.posts = s.host.posts.erase c ∧ (cpqOf s' j.val).tail = x.tail + 1 ∧
      s'.out = s.out ++ (.hostWrite (x.owner / 128) (x.owner % 128) none phys (cplBytes x c.words)) :: l ∧
      (∀ r item, c.led = some (r, item) → ledRow s' 5 = if r = 0 then (ledRow s 5).complete else (ledRow s 5).failed) ∧
      (x.count + 1 < x.n → l = [] ∧ (cpqOf s' j.val).count = x.count + 1) ∧
      (x.n ≤ x.count + 1 → (cpqOf s' j.val).count = 0 ∧ (cpqOf s' j.val).since = none ∧
        (tget true s.host.masked (x.owner * 2048 + x.vec) = false → l = [.msix (x.owner / 128) (x.owner % 128) x.vec]) ∧
        (tget true s.host.masked (x.owner * 2048 + x.vec) = true → l = [] ∧ tget false s'.host.pend (x.owner * 2048 + x.vec) = true)))) ∧
  (∀ (func : Fin 256) (j : Fin 4096) (head : BitVec 32) (s : State) (x : CpQ) (adv : Nat), x = cpqOf s j.val →
    adv = (head.toNat + x.size - x.head % x.size) % x.size → funcExists s func.val = true → clocked s = true →
    (x.en = false ∨ x.owner ≠ func.val → exec (.cqHeadWrite func j head) s = .next (bump (0xC0E0 + func.val / 128) 0x04 s)) ∧
    (x.en = true → x.owner = func.val →
      (head.toNat < x.size → x.head + adv ≤ x.tail →
        exec (.cqHeadWrite func j head) s = .next (modCpq j.val (fun y => { y with head := y.head + adv }) s)) ∧
      (x.size ≤ head.toNat ∨ x.tail < x.head + adv → exec (.cqHeadWrite func j head) s = .next s))) ∧
  (∀ s : State, ((∀ e ∈ s.host.cpq, ∀ b, coalesceDue e.2 = some b → reached b s = false) → exec .coalesceTimer s = .next s) ∧
    (∀ j x b, s.host.cpq = [(j, x)] → coalesceDue x = some b → reached b s = true → ∃ s', exec .coalesceTimer s = .next s' ∧
      cpqOf s' j = { x with count := 0, since := none } ∧
      (tget true s.host.masked (x.owner * 2048 + x.vec) = false → s'.out = s.out ++ [.msix (x.owner / 128) (x.owner % 128) x.vec]) ∧
      (tget true s.host.masked (x.owner * 2048 + x.vec) = true → s'.out = s.out ∧
        tget false s'.host.pend (x.owner * 2048 + x.vec) = true))) ∧
  (∀ (func : Fin 256) (vec : Fin 2048) (mask : Bool) (s : State) (k : Nat), k = func.val * 2048 + vec.val → funcExists s func.val = true → clocked s = true →
    (quota s func.val 2 ≤ vec.val → exec (.msixUnmask func vec mask) s = .next s) ∧
    (vec.val < quota s func.val 2 → ∃ s', exec (.msixUnmask func vec mask) s = .next s' ∧ tget true s'.host.masked k = mask ∧
      (mask = true ∨ tget false s.host.pend k = false → s'.out = s.out ∧ s'.host.pend = s.host.pend) ∧
      (mask = false → tget false s.host.pend k = true → tget false s'.host.pend k = false ∧
        s'.out = s.out ++ [.msix (func.val / 128) (func.val % 128) vec.val]))) ∧
  (∀ (q : Fin 4096) (tail : BitVec 32) (s : State) (x : CmQ), x = cmqOf s q.val →
    ((cpqOf s x.cpq).dbm = false ∨ (linkSt s (linkOf s x.owner)).cxl = false ∨ x.state = 0 → exec (.cxlSnoop q tail) s = .next s) ∧
    (∀ f : Fin 256, (cpqOf s x.cpq).dbm = true → (linkSt s (linkOf s x.owner)).cxl = true → x.state ≠ 0 → x.owner = f.val →
      exec (.cxlSnoop q tail) s = exec (.doorbellTail f q tail)
        (emit (.hostMsg (x.owner / 128) "RDSHARED" (x.owner % 128) [x.base.toNat]) s)))

/-- DMA and translation: a posted item enters the store; an engine takes the waiting item of the highest priority; an item whose
pages are there is copied and ends, one that misses waits for its translation, one that may not go on ends with its status; a
grant installs its entry and lets the requesters go on, a denial asks for the page or fails them; an invalidation removes the
entries it covers.
Where the spec is silent it rests on the model's choices of logs 40, 66 and 68. -/
def Obligations.DmaAndTranslation : Prop :=
  (∀ (area : Fin 769) (s : State) (x : DPost), x = dpostOf s area.val →
    (awake s = false ∨ 8192 ≤ storeLoad s → exec (.dmaPost area) s = .next (bump 0xC0E8 0x0D (modDpost area.val (fun x => { x with status := 1 }) s))) ∧
    (awake s = true → storeLoad s < 8192 → itemLegal x.w = false →
      exec (.dmaPost area) s = .next (modDpost area.val (fun x => { x with status := 2 }) s)) ∧
    (awake s = true → storeLoad s < 8192 → itemLegal x.w = true → ∃ s' it, exec (.dmaPost area) s = .next s' ∧
      itemOf s' s.host.nextItem = some it ∧ it.words = x.w ∧ it.state = 0 ∧ it.pasid = itemPasid x.w ∧ it.cmd = none ∧
      dpostOf s' area.val = { x with status := 0, item := BitVec.ofNat 32 s.host.nextItem } ∧ ledRow s' 4 = (ledRow s 4).accept)) ∧
  (∀ s : State, ((∀ e ∈ s.host.items, e.2.state ≠ 0) ∨ (∀ e, e < 32 → 16 ≤ engineLoad s e) → exec .dmaContextTake s = .next s) ∧
    (∀ i it e, pickItem s = some (i, it) → itemOf s i = some it → e < 32 → engineLoad s e < 16 → (∀ d, d < e → 16 ≤ engineLoad s d) →
      it.state = 0 ∧ (∀ x ∈ s.host.items, x.2.state = 0 → x.2.prio ≤ it.prio) ∧ ∃ s', exec .dmaContextTake s = .next s' ∧
      ((∀ p wr, itemAcc s it it.done ≠ .miss p wr) → itemOf s' i = some { it with state := 1, engine := some e } ∧ s'.out = s.out) ∧
      (∀ p wr, itemAcc s it it.done = .miss p wr → itemOf s' i = some { it with state := 2, engine := some e } ∧
        ∃ x ∈ s'.host.xl, x.func = p.func ∧ x.pasid = p.pasid ∧ x.addr = p.addr / 4096 * 4096 ∧ x.wr = wr ∧ XReq.item i ∈ x.reqs))) ∧
  (∀ (i : Nat) (host : Bytes) (err : Option Nat) (s : State),
    ((∀ it, itemOf s i = some it → it.state ≠ 1) → exec (.dmaItemEnd i host err) s = .next s) ∧
    (∀ it, itemOf s i = some it → it.state = 1 →
      (∀ st, itemAcc s it it.done = .fail st → it.done < it.len → st ≠ 4 → st ≠ 6 → st ≠ 7 →
        exec (.dmaItemEnd i host err) s = .next (endItem i st it.done s)) ∧
      (∀ p wr, itemAcc s it it.done = .miss p wr → it.done < it.len → ∃ s', exec (.dmaItemEnd i host err) s = .next s' ∧
        itemOf s' i = some { it with state := 2 } ∧ s'.mem = s.mem ∧ ∃ x ∈ s'.host.xl, x.func = p.func ∧ x.pasid = p.pasid ∧
          x.addr = p.addr / 4096 * 4096 ∧ x.wr = wr ∧ XReq.item i ∈ x.reqs) ∧
      (it.done = 0 → it.cmd = none → bit (it.w 4) 24 = false → bit (it.w 4) 44 = false → 1 ≤ it.len →
        (∀ x, x < it.len → itemAcc s it x = .ok ∧ (regionOf (it.src + x)).isStore = true ∧ (regionOf (it.dst + x)).isStore = true ∧
          hbmFailed s (it.dst + x) = false) → it.src + it.len ≤ it.dst ∨ it.dst + it.len ≤ it.src →
        ∃ s', exec (.dmaItemEnd i host err) s = .next s' ∧ itemOf s' i = none ∧ ledRow s' 4 = (ledRow s 4).complete ∧
          (∀ x, x < it.len → memByte s' (it.dst + x) = memByte s (it.src + x)) ∧
          (∀ a, a < it.dst ∨ it.dst + it.len ≤ a → memByte s' a = memByte s a) ∧
          (it.tagcopy = true → itemLegal it.words = true → ∀ k, 8 * k < it.len →
            memTag s' (it.dst + 8 * k) = memTag s (it.src + 8 * k)) ∧ s'.out = s.out))) ∧
  (∀ (i st done : Nat) (s : State) (it : DItem), st ≤ 11 → itemOf s i = some it → it.cmd = none → bit (it.w 4) 24 = false → bit (it.w 4) 44 = false →
    itemOf (endItem i st done s) i = none ∧ (endItem i st done s).mem = s.mem ∧
    ledRow (endItem i st done s) 4 = (if st = 0 then (ledRow s 4).complete else (ledRow s 4).failed)) ∧
  (∀ (func : Fin 256) (pasid : Option (BitVec 20)) (addr : W64) (wr : Bool) (phys : W64) (log2 : Fin 31) (rd wt ok : Bool) (s : State)
      (page : Nat) (found : Option Xlate), page = addr.toNat / 4096 * 4096 → found = xlFind s func.val (pasid.map (·.toNat)) page wr →
    (found = none → exec (.atsCompletion func pasid addr wr phys log2 rd wt) s = .next s ∧
      exec (.prgTimeout func pasid addr wr) s = .next s ∧ exec (.prgResponse func pasid addr wr ok) s = .next (bump 0xC0E8 0x0B s)) ∧
    (∀ y, found = some y →
      (y.prgAt.isSome = true ∨ y.waiting = true → exec (.atsCompletion func pasid addr wr phys log2 rd wt) s = .next s) ∧
      (y.prgAt = none → exec (.prgTimeout func pasid addr wr) s = .next s ∧
        exec (.prgResponse func pasid addr wr ok) s = .next (bump 0xC0E8 0x0B s)) ∧
      (∀ i it, y.prgAt = none → y.waiting = false → y.reqs = [.item i] → itemOf s i = some it → it.state = 2 →
        ((if wr then wt else rd) = true → ∃ s' e, exec (.atsCompletion func pasid addr wr phys log2 rd wt) s = .next s' ∧
          itemOf s' i = some { it with state := 1 } ∧ y ∉ s'.host.xl ∧ s'.host.atc.head? = some e ∧ e.func = func.val ∧
          e.pasid = y.pasid ∧ e.log2 = max 12 log2.val ∧ e.base = page / 2 ^ e.log2 * 2 ^ e.log2 ∧
          e.phys = phys.toNat / 2 ^ e.log2 * 2 ^ e.log2 ∧ e.rd = rd ∧ e.wr = wt) ∧
        ((if wr then wt else rd) = false → (funcOf s func.val).pri = false → it.cmd = none → bit (it.w 4) 24 = false →
          bit (it.w 4) 44 = false → ∃ s', exec (.atsCompletion func pasid addr wr phys log2 rd wt) s = .next s' ∧
          itemOf s' i = none ∧ y ∉ s'.host.xl ∧ ledRow s' 4 = (ledRow s 4).failed) ∧
        ((if wr then wt else rd) = false → (funcOf s func.val).pri = true → prgsOut s func.val < (funcOf s func.val).alloc → ∃ s',
          exec (.atsCompletion func pasid addr wr phys log2 rd wt) s = .next s' ∧
          itemOf s' i = some { it with state := 3, engine := none } ∧ { y with prgAt := some (now s), waiting := false } ∈ s'.host.xl ∧
          s'.out = s.out ++ [.hostMsg (func.val / 128) "PAGE_REQUEST" (func.val % 128) [(y.pasid.map (· + 1)).getD 0, page, b2n wr]])) ∧
      (∀ i it t0, y.prgAt = some t0 → y.waiting = false → y.reqs = [.item i] → s.host.xl = [y] → itemOf s i = some it →
        it.cmd = none → bit (it.w 4) 24 = false → bit (it.w 4) 44 = false →
        (ok = true → ∃ s', exec (.prgResponse func pasid addr wr ok) s = .next s' ∧ s'.host.xl = [{ y with prgAt := none }] ∧
          itemOf s' i = some it ∧
          s'.out = s.out ++ [.hostMsg (func.val / 128) "ATS_REQUEST" (func.val % 128) [(y.pasid.map (· + 1)).getD 0, page, b2n wr]]) ∧
        (ok = false → ∃ s', exec (.prgResponse func pasid addr wr ok) s = .next s' ∧ s'.host.xl = [] ∧ itemOf s' i = none ∧
          ledRow s' 4 = (ledRow s 4).failed ∧ ctrVal s' 0xC0E8 9 = ctrVal s 0xC0E8 9 + 1) ∧
        (reached (expiryAt 2 (t0 + 1000000 * cfg s 0x4200 1) t0) s = false → exec (.prgTimeout func pasid addr wr) s = .next s) ∧
        (reached (expiryAt 2 (t0 + 1000000 * cfg s 0x4200 1) t0) s = true → ∃ s', exec (.prgTimeout func pasid addr wr) s = .next s' ∧
          s'.host.xl = [] ∧ itemOf s' i = none ∧ ledRow s' 4 = (ledRow s 4).failed ∧
          ctrVal s' 0xC0E8 10 = ctrVal s 0xC0E8 10 + 1)))) ∧
  (∀ (func : Fin 256) (pasid : Option (BitVec 20)) (addr : W64) (log2 : Fin 65) (s : State) (lo : Nat),
    lo = addr.toNat / 2 ^ log2.val * 2 ^ log2.val → ∃ s', exec (.atsInvalidate func pasid addr log2) s = .next s' ∧
      (∀ e, e ∈ s'.host.atc ↔ e ∈ s.host.atc ∧
        ¬(e.func = func.val ∧ e.pasid = pasid.map (·.toNat) ∧ e.base < lo + 2 ^ log2.val ∧ lo < e.base + 2 ^ e.log2)) ∧
      HostOnly { s with out := [] } { s' with out := [] } ∧ s'.led = s.led ∧
      (loadsUse s func.val (pasid.map (·.toNat)) lo (lo + 2 ^ log2.val) = true → s'.out = s.out ∧ s'.ctr = s.ctr) ∧
      (loadsUse s func.val (pasid.map (·.toNat)) lo (lo + 2 ^ log2.val) = false → s'.out = s.out ++
        [.hostMsg (func.val / 128) "INVALIDATE_COMPLETION" (func.val % 128) [((pasid.map (·.toNat)).map (· + 1)).getD 0, lo, log2.val]]))

/-- Host functions and links: a function-level reset takes the function's queues, translations and registers away; a link that goes
down resets its functions; a link that fails lanes or trains again changes its width; configuration requests are retried, from
100 ms after PERST_N, until Dawn-3 has ended.
Where the spec is silent it rests on the model's choices of logs 19 and 71. -/
def Obligations.HostLinks : Prop :=
  (∀ (func : Fin 256) (s : State), clocked s = true → (funcExists s func.val = false → exec (.flr func) s = .next (bump (0xC0E0 + func.val / 128) 0x0C s)) ∧
    (funcExists s func.val = true → ∃ s', exec (.flr func) s = .next s' ∧
      (∀ q, (cmqOf s q).owner = func.val → (cmqOf s' q).state = 0) ∧
      (∀ j, (cpqOf s j).owner = func.val → (cpqOf s' j).en = false) ∧
      (∀ e ∈ s'.host.atc, e.func ≠ func.val) ∧ (∀ k, k < 64 → tfind s'.host.pslot (64 * func.val + k) = none) ∧
      funcOf s' func.val = {} ∧ ctrVal s' (0xC0E0 + func.val / 128) 9 = ctrVal s (0xC0E0 + func.val / 128) 9 + 1)) ∧
  (∀ (port half : Fin 2) (s : State) (k : Nat), k = 2 * port.val + half.val → ∃ s', exec (.hostLinkReset port half) s = .next s' ∧
    (linkSt s' k).up = false ∧ (linkSt s' k).width = 0 ∧ (linkSt s' k).cxl = false ∧ (∀ j, j ≠ k → linkSt s' j = linkSt s j) ∧
    (∀ f ∈ linkFuncs s k, ∀ e ∈ s'.host.atc, e.func ≠ f) ∧
    ctrVal s' (0xC0E0 + port.val) 10 = ctrVal s (0xC0E0 + port.val) 10 + (if (linkSt s k).up = true then 1 else 0)) ∧
  (∀ (port half : Fin 2) (width : Fin 17) (s : State) (k : Nat), k = 2 * port.val + half.val →
    ((linkSt s k).up = false ∨ widthLegal s k width.val = false ∨ (linkSt s k).width ≤ width.val →
      exec (.hostLaneFail port half width) s = .next s) ∧
    ((linkSt s k).up = true → widthLegal s k width.val = true → width.val < (linkSt s k).width →
      exec (.hostLaneFail port half width) s = .next (bump (0xC0E0 + port.val) 0x0B
        (modLink k (fun l => { l with width := width.val, retrains := l.retrains + 1 }) s)))) ∧
  (∀ (port half : Fin 2) (width : Fin 17) (rate : Fin 7) (cxl : Bool) (s : State) (k : Nat), k = 2 * port.val + half.val →
    (widthLegal s k width.val = false ∨ rate.val = 0 ∨ cfg s 0x4100 3 < rate.val ∨ (cxl = true ∧ bit (cfg s 0x4100 2) port.val = false) ∨
      (half.val = 1 ∧ bifurcated s port.val = false) → exec (.hostLinkTrainingEnd port half width rate cxl) s = .next s) ∧
    (widthLegal s k width.val = true → 1 ≤ rate.val → rate.val ≤ cfg s 0x4100 3 → (cxl = true → bit (cfg s 0x4100 2) port.val = true) →
      (half.val = 1 → bifurcated s port.val = true) → ∃ s', exec (.hostLinkTrainingEnd port half width rate cxl) s = .next s' ∧
        (∀ j, j ≠ k → linkSt s' j = linkSt s j) ∧ linkSt s' k = { linkSt s k with
          up := true, width := width.val, rate := rate.val, cxl := cxl, retrains := (linkSt s k).retrains + if (linkSt s k).up = true ∧ width.val ≠ (linkSt s k).width then 1 else 0 } ∧
        HostOnly s s')) ∧
  (∀ (port : Fin 2) (s : State), ∃ s', exec (.perstNDeassert port) s = .next s' ∧
    (∀ h, h < 2 → linkSt s' (2 * port.val + h) = { linkSt s (2 * port.val + h) with perstAt := some (now s) }) ∧
    (∀ j, j / 2 ≠ port.val → linkSt s' j = linkSt s j) ∧ { s' with host := {} } = { s with host := {} }) ∧
  (∀ (func : Fin 256) (req : CfgReq) (s : State) (answer : String → State → State),
    answer = (fun k t => emit (.hostMsg (func.val / 128) k (func.val % 128) []) t) →
    (s.dbg.fstate = 2 ∨ s.dbg.phase < 4 ∧ retryOpen s func.val = true →
      exec (.configurationRequest func req) s = .next (answer "CFG_RETRY_STATUS" s)) ∧
    (s.dbg.fstate ≠ 2 → s.dbg.phase < 4 → retryOpen s func.val = false → exec (.configurationRequest func req) s = .next s) ∧
    (4 ≤ s.dbg.phase → s.dbg.fstate ≠ 2 →
      (funcExists s func.val = false ∨ req = .unsupported → exec (.configurationRequest func req) s =
        .next (answer "CFG_UNSUPPORTED_REQUEST" (bump (0xC0E0 + func.val / 128) 0x0C s))) ∧
      (funcExists s func.val = true →
        (req = .access → exec (.configurationRequest func req) s = .next (answer "CFG_COMPLETION" s)) ∧
        (∀ on, req = .ats on → exec (.configurationRequest func req) s =
          .next (answer "CFG_COMPLETION" (modFunc func.val (fun x => { x with ats := on }) s))) ∧
        (∀ on alloc, req = .pri on alloc → (∀ x ∈ s.host.xl, x.func = func.val → x.waiting = false) →
          exec (.configurationRequest func req) s =
            .next (answer "CFG_COMPLETION" (modFunc func.val (fun x => { x with pri := on, alloc := alloc.toNat }) s))))))

/-! ### The object dictionary (chapter 17) -/

/-- A WRITE that its session admits: with the journal full it is refused; a value that fails the access, type or range checks is
recorded, counted as refused and answered with its status, and has no effect; otherwise the entry's effect happens, and the
journal has its record with the status the effect gives, the old and the new digest; the answer carries the record's SEQ.
A READ that its session admits: access refused is answered with its status; else the value the entry gives, unless the answer
would exceed 4,096 bytes (TOO_BIG, and nothing is popped or cleared). The information of entry 1000h needs no session.
Where the spec is silent it rests on the model's choices of logs 53 and 57. -/
def Obligations.RequestsAreAnswered : Prop :=
  (∀ (i : Instr) (h : DHdr) (idx sub : Nat) (v : Bytes) (eff : WriteEff) (post : State → State) (s a : State) (e : Sess) (sid : Nat),
    WriteRow i h idx sub v eff post → bit h.flags.toNat 1 = false → Admitted s h 4 (writeBody idx sub v) e → a = arrived h s →
    sid = h.sid.toNat →
    (jFull a = true → exec i s = .next (post (respond h 4 sid (some e.key) stJournalFull []
      (countStaging idx sub stJournalFull (bump 0xC0F0 0x06 (bump 0xC0F0 0x09 a)))))) ∧
    (∀ st d, jFull a = false → writeStatus a e.role idx sub v = st → entFind idx sub = some d → r42Access e.role idx = false →
      (st ≠ stOk → st ≠ stNoEntry → exec i s = .next (post (respond h 4 sid (some e.key) st (natLE 8 (jNextSeq a))
        (countStaging idx sub st (bump 0xC0F0 0x06
          (journal evWrite e.role sid idx sub st e.xport (oldDigest a sid idx sub d) (newDigest idx sub v) a)))))) ∧
      (∀ st2, st = stOk → st2 = (eff sid v a).1 → st2 ≠ stNoEntry →
        exec i s = .next (post (respond h 4 sid (some e.key) st2 (natLE 8 (jNextSeq a))
          (countStaging idx sub st2 (countWrite st2 (eff sid v (journal evWrite e.role sid idx sub st2 e.xport
            (oldDigest a sid idx sub d) (newDigest idx sub v) a)).2))))))) ∧
  ((∀ (i : Instr) (h : DHdr) (idx sub : Nat) (eff : ReadEff) (s a : State) (e : Sess), ReadRow i h idx sub eff →
    Admitted s h 3 (readBody idx sub) e → a = arrived h s →
    (∀ st, accessStatus e.role idx sub false = st → st ≠ stOk → st ≠ stNoEntry → r42Access e.role idx = false →
      exec i s = .next (respond h 3 h.sid.toNat (some e.key) st [] a)) ∧
    (∀ v t, accessStatus e.role idx sub false = stOk → eff h.sid.toNat a = (stOk, v, t) →
      (v.length ≤ 4048 → exec i s = .next (respond h 3 h.sid.toNat (some e.key) stOk v t)) ∧
      (4048 < v.length → exec i s = .next (respond h 3 h.sid.toNat (some e.key) stTooBig [] a)))) ∧
  (∀ (h : DHdr) (idx : BitVec 16) (sub : BitVec 8) (s : State), h.sid = 0 → idx.toNat = 0x1000 → 1 ≤ sub.toNat → sub.toNat ≤ 8 →
    s.led.restart = none → xportOn s h.xport = true → malformed s h (readBody idx.toNat sub.toNat) = false →
    exec (.dictRead h idx sub) s = .next (respond h 3 0 none stOk (forceVal s 0 idx.toNat sub.toNat) s)))

/-- What keeps a request of a session from being performed, in order: a steward warm restart (unseen on I3C and SMBus, counted
elsewhere), a transport that is off or a malformed message (counted), no open session, a wrong MAC (counted, no answer), a group
being collected, a SEQ not above the last. None of them changes memory, a core, a unit or the journal.
Where the spec is silent it rests on the model's choices of log 113. -/
def Obligations.RequestsAreChecked : Prop :=
  ∀ (i : Instr) (h : DHdr) (kind : Nat) (body : Bytes) (s : State), SessionRequest i h kind body → s.dbg.resetReq = false →
    (s.led.restart.isSome = true → exec i s = .next (if h.xport ≤ 1 then s else bump 0xC018 0x09 s)) ∧
    (s.led.restart = none → xportOn s h.xport = false ∨ malformed s h body = true → exec i s = .next (bump 0xC0F0 0x0E s)) ∧
    (s.led.restart = none → xportOn s h.xport = true → malformed s h body = false →
      ((∀ e, sessOf s h.sid.toNat = some e → e.isOpen = false) →
        exec i s = .next (respond h kind h.sid.toNat none stNoSession [] s)) ∧
      (∀ e, sessOf s h.sid.toNat = some e → e.isOpen = true →
        (dmsgMac e.key (reqHeader kind h) body ≠ h.mac → exec i s = .next (bump 0xC0F0 0x0C s)) ∧
        (dmsgMac e.key (reqHeader kind h) body = h.mac →
          (e.busy = true → exec i s = .next (respond h kind h.sid.toNat (some e.key) stBusy [] (bump 0xC0F0 0x0D (touched h s)))) ∧
          (∀ q, e.busy = false → e.lastSeq = some q → h.seq.toNat ≤ q →
            exec i s = .next (respond h kind h.sid.toNat (some e.key) stSeq [] (bump 0xC0F0 0x0D (touched h s)))))))

/-- Sessions: an OPEN that nothing refuses allocates a session that is not open, with a nonce; a PROVE with the right proof opens it under the
key derived from both nonces and clears the backoff, a wrong one removes it and counts; CLOSE answers and closes; a valid claim
sets the installer key of an unclaimed device; a session never proved and an idle one close at their boundaries; a page of the
journal moves to flash; the MCTP and SPDM responders answer.
Where the spec is silent it rests on the model's choices of logs 3, 58 and 115. -/
def Obligations.SessionsOpenAndClose : Prop :=
  ∀ s : State, s.led.restart = none → s.clk.frozen = none →
    (∀ (h : DHdr) (body : Bytes), xportOn s h.xport = true → malformed s h body = false → jFull s = false →
      (∀ st, openStatus s h body = st → st ≠ stOk → exec (.dictOpen h body) s = .next (respond h 1 h.sid.toNat none st []
        ((if st = stBackoff then bump 0xC0F0 0x03 else id)
          (journal evOpen (if leAt body 0 1 ≤ 3 then leAt body 0 1 else 0) 0 0 0 st h.xport [] [] s)))) ∧
      (openStatus s h body = stOk → ∃ s' sid e, exec (.dictOpen h body) s = .next s' ∧ sessOf s sid = none ∧ 1 ≤ sid ∧ sid < 2 ^ 32 ∧
        sessOf s' sid = some e ∧ (∀ k, k ≠ sid → sessOf s' k = sessOf s k) ∧ e.isOpen = false ∧ e.role = leAt body 0 1 ∧
        e.hostNonce = slice body 4 32 ∧ e.devNonce.length = 32 ∧ e.lastSeq = none ∧ e.xport = h.xport ∧ e.openedAt = now s ∧
        (h.xport ≠ 4 → s'.out = s.out ++ [.mgmt h.xport
          (mctpDict (dmsgHeader 0x81 h.tag.toNat sid h.seq.toNat 32 0 0 ++ e.devNonce))]))) ∧
    (∀ (h : DHdr) (proof : Bytes) (e : Sess) (k : Bytes), xportOn s h.xport = true → malformed s h proof = false →
      sessOf s h.sid.toNat = some e → e.isOpen = false → roleKey s e.role e.slot = some k →
      ∃ s', exec (.dictProve h proof) s = .next s' ∧ (∀ j, j ≠ h.sid.toNat → sessOf s' j = sessOf s j) ∧
        (proof = hmac384 k (proofText e.role e.slot h.sid.toNat e.devNonce e.hostNonce) →
          sessOf s' h.sid.toNat = some { e with
            isOpen := true, lastAct := now s, lastSeq := some h.seq.toNat, key := hmac384 k (sessionKeyText h.sid.toNat e.hostNonce e.devNonce) } ∧ backoffOn s' e.role e.xport = false ∧
          ctrVal s' 0xC0F0 0x01 = ctrVal s 0xC0F0 0x01 + 1) ∧
        (proof ≠ hmac384 k (proofText e.role e.slot h.sid.toNat e.devNonce e.hostNonce) →
          sessOf s' h.sid.toNat = none ∧ tfind s'.dict.fails (e.role * 8 + e.xport) =
            some (((tfind s.dict.fails (e.role * 8 + e.xport)).getD (0, 0)).1 + 1, now s) ∧
          ctrVal s' 0xC0F0 0x02 = ctrVal s 0xC0F0 0x02 + 1)) ∧
    (∀ (h : DHdr) (e : Sess), Admitted s h 6 [] e → exec (.dictClose h) s = .next (closeSess h.sid.toNat evClose
      (respond h 6 h.sid.toNat (some e.key) stOk [] (arrived h s))) ∧
      ∀ t, sessOf (closeSess h.sid.toNat evClose t) h.sid.toNat = none) ∧
    (∀ (h : DHdr) (serial : BitVec 64) (number : BitVec 16) (key pub sig : Bytes), xportOn s h.xport = true → h.sid = 0 →
      malformed s h (natLE 8 serial.toNat ++ natLE 2 number.toNat ++ key ++ pub ++ sig) = false → jFull s = false →
      (s.dict.installerKey.isSome = true → exec (.claim h serial number key pub sig) s = .next (respond h 7 0 none stClaimed []
        (bump 0xC0F0 0x0F (journal evClaim 0 0 0 0 stClaimed h.xport [] [] s)))) ∧
      (s.dict.installerKey = none → ∃ s', exec (.claim h serial number key pub sig) s = .next s' ∧
        (serial = Config.serial → number.toNat = s.dict.claimFuses.toNat → key.length = 48 → pub.length = 97 → sig.length = 96 →
          sha384 pub = natBE 48 Config.makerKeyDigest.toNat →
          ecdsaVerify pub (sha384 (claimText serial.toNat number.toNat key)) sig = true → s'.dict.installerKey = some key) ∧
        (¬(serial = Config.serial ∧ number.toNat = s.dict.claimFuses.toNat) → s'.dict.installerKey = none ∧
          ctrVal s' 0xC0F0 0x0F = ctrVal s 0xC0F0 0x0F + 1))) ∧
    (∀ (sid : BitVec 32) (e : Sess), sessOf s sid.toNat = some e →
      (e.isOpen = false → (expiryAt 3 (e.openedAt + 8 * 1073741824) e.openedAt ≤ fireAt s →
          exec (.challengeTimeout sid) s = .next (closeSess sid.toNat evTimeout s)) ∧
        (fireAt s < expiryAt 3 (e.openedAt + 8 * 1073741824) e.openedAt → exec (.challengeTimeout sid) s = .next s)) ∧
      (e.isOpen = true → (expiryAt 3 (e.lastAct + 300000000000) e.lastAct ≤ fireAt s →
          exec (.idleSessionTimeout sid) s = .next (bump 0xC0F0 0x04 (closeSess sid.toNat evTimeout s))) ∧
        (fireAt s < expiryAt 3 (e.lastAct + 300000000000) e.lastAct → exec (.idleSessionTimeout sid) s = .next s))) ∧
    (64 ≤ s.dict.jSram.length → ∃ s', exec .journalMirror s = .next s' ∧ s'.dict.jSram = s.dict.jSram.drop 64 ∧
      { s' with dict := { s'.dict with jSram := [], jFlash := [] } } = { s with dict := { s.dict with jSram := [], jFlash := [] } }) ∧
    (∀ (x : Nat) (msg : Bytes), x < 4 → xportOn s x = true → 2 ≤ msg.length → ∃ s' r, exec (.mctpControl x msg) s = .next s' ∧
      s'.out = s.out ++ [.mgmt x (mctpMsg 0x00 r)] ∧ r.take 2 = [BitVec.ofNat 8 (leAt msg 0 1 % 128), BitVec.ofNat 8 (leAt msg 1 1)] ∧
      (leAt msg 1 1 = 1 → tget 0 s'.dict.eid x = leAt msg 3 1 ∧ r.drop 2 = [0, 0] ++ slice msg 3 1 ++ [0]) ∧
      (leAt msg 1 1 = 2 → r.drop 2 = [0, BitVec.ofNat 8 (tget 0 s.dict.eid x), 0, 0]) ∧
      (leAt msg 1 1 = 0 ∨ leAt msg 1 1 = 3 ∨ 6 < leAt msg 1 1 → r.drop 2 = [5])) ∧
    (∀ (x : Nat) (msg : Bytes), spdmXport s x = true → 4 ≤ msg.length → ∃ s' r, exec (.spdmRequest x msg) s = .next s' ∧
      s'.out = s.out ++ [.mgmt x (if x < 4 then mctpMsg 0x05 r else r)] ∧ (leAt msg 0 1 ≠ (if leAt msg 1 1 = 0x84 then 0x10 else 0x12) → r = spdmError 0x41 0))

/-- A timed write that the checks let through waits with its value and its time; a group that names 1 to 64 entries makes its session
busy and waits. At its boundary, in the order of R69 with every other action due, a timed write fires: it leaves the list, its
entry's effect happens, it is journaled with LATE when it fires late, and counted; with the journal full it is not performed. A
group's values are captured at its boundary in one answer that begins with the boundary's time, and its session is free again.
Where the spec is silent it rests on the model's choices of logs 54, 55 and 126. -/
def Obligations.TimedRequests : Prop :=
  (∀ (h : DHdr) (idx : BitVec 16) (sub : BitVec 8) (atime : BitVec 80) (v : Bytes) (s a : State) (e : Sess) (st : Nat),
    bit h.flags.toNat 1 = true → Admitted s h 4 (timedBody idx.toNat sub.toNat atime v) e → a = arrived h s → jFull a = false →
    r42Access e.role idx.toNat = false → st = timedWriteStatus a e.role idx.toNat sub.toNat (nsOf atime) v → st ≠ stNoEntry →
    ∃ s' r, exec (.timedWrite h idx sub atime v) s = .next s' ∧ (h.xport ≠ 4 → s'.out.getLast? = some (.mgmt h.xport (mctpDict r)) ∧
        r.take 16 = dmsgHeader 0x84 h.tag.toNat h.sid.toNat h.seq.toNat 8 0 st) ∧ s'.dict.vals = s.dict.vals ∧
      (st ≠ stOk → s'.dict.timed = s.dict.timed) ∧
      (st = stOk → e.role = 2 ∧ s'.dict.timed = s.dict.timed ++ [{
        seq := jNextSeq a, sid := h.sid.toNat, role := 2, xport := e.xport, idx := idx.toNat, sub := sub.toNat, val := v,
        atime := nsOf atime, acceptedAt := now s }])) ∧
  (∀ (h : DHdr) (atime : BitVec 80) (entries : List (BitVec 16 × BitVec 8)) (s : State) (e : Sess) (timed : Bool),
    timed = bit h.flags.toNat 1 → Admitted s h 5 (groupBody timed atime entries) e →
    (entries.length < 1 ∨ 64 < entries.length → exec (.readGroup h atime entries) s =
      .next (respond h 5 h.sid.toNat (some e.key) stRange [] (arrived h s))) ∧
    (1 ≤ entries.length → entries.length ≤ 64 → (timed = true → timedStatus (nsOf atime) s = stOk) →
      ∃ s', exec (.readGroup h atime entries) s = .next s' ∧ s'.out = s.out ∧
        (∃ e', sessOf s' h.sid.toNat = some e' ∧ e'.busy = true) ∧ s'.dict.groups = s.dict.groups ++ [{
          hdr := h, role := e.role, entries := entries.map (fun x => (x.1.toNat, x.2.toNat)),
          atime := if timed then nsOf atime else now s, acceptedAt := now s, timed := timed }])) ∧
  (∀ (s : State) (e : DueEnt), nextDue s = some e → e ∈ dueActs s ∧ ∀ u ∈ dueActs s, lexLt u.place e.place = false) ∧
  (∀ s : State, nextDue s = none ↔ dueActs s = []) ∧
  (∀ (s : State) (w : TimedW), s.led.restart = none → s.clk.frozen = none → w ∈ s.dict.timed → stewardBoundary w.atime w.acceptedAt s ≤ fireAt s →
    ∃ e ∈ dueActs s, e.act = .write w ∧ e.time = w.atime ∧ e.acc = w.acceptedAt) ∧
  (∀ (s : State) (e : DueEnt) (w : TimedW), e ∈ dueActs s → e.act = .write w →
    w ∈ s.dict.timed ∧ stewardBoundary w.atime w.acceptedAt s ≤ fireAt s ∧ s.clk.frozen = none) ∧
  (∀ s : State, ((∀ e w, nextDue s = some e → e.act ≠ .write w) → exec .timedWriteFire s = .next s) ∧
    (∀ e t s1, nextDue s = some e → e.act = .write t →
        s1 = modDict (fun d => { d with timed := d.timed.filter (fun x => x.seq ≠ t.seq) }) s →
      (jFull s = true → exec .timedWriteFire s = .next (bump 0xC0F0 0x09 (bump 0xC0F0 0x0A s1))) ∧
      (∀ late st res d, jFull s = false → late = timedLate t.atime t.acceptedAt s →
        st = (entryWrite t.idx t.sub t.sid t.val s1).1 → res = (if st = stOk ∧ late = true then stLate else st) →
        entFind t.idx t.sub = some d → exec .timedWriteFire s = .next (takeReset ((if late then
          (fun x => bump 0xC0F0 0x08 (bump 0xC020 0x01 x)) else id) (bump 0xC0F0 0x07 (entryWrite t.idx t.sub t.sid t.val
            (journal evTimedFire t.role t.sid t.idx t.sub res 5 (oldDigest s t.sid t.idx t.sub d) (newDigest t.idx t.sub t.val) s1)).2)))))) ∧
  (∀ s : State, ((∀ e g, nextDue s = some e → e.act ≠ .group g) → exec .readGroupCapture s = .next s) ∧
    (∀ x g e, nextDue s = some x → x.act = .group g → sessOf s g.hdr.sid.toNat = some e → g.hdr.xport ≠ 4 →
      ∃ s' r st, exec .readGroupCapture s = .next s' ∧
        s'.out.getLast? = some (.mgmt g.hdr.xport (mctpDict r)) ∧ g ∉ s'.dict.groups ∧
        r.take 16 = dmsgHeader 0x85 g.hdr.tag.toNat g.hdr.sid.toNat g.hdr.seq.toNat (leAt r 12 2) 0 st ∧
        (st = stTooBig ∨ st = (if g.timed && timedLate g.atime g.acceptedAt s then stLate else stOk) ∧
          (r.drop 16).take 10 = timeLE (ofNs (fireAt s)))))

/-! ### Power and faults (chapters 18, 19) -/

/-- The power unit: the alarm, a wake byte and a thread's source wake what they name; idle domains go to DUSK and come back; a waiting
domain takes a token, is restored and begins its stages; a window spends its budget on the stages in order; a domain whose
supply switches off loses what its state does not keep; LSTEP_N ends. While the clocks are stopped no domain moves and the current stays
at what the stop found, falls at the slew limit, and rises back after the thaw.
Where the spec is silent it rests on the model's choices of logs 92, 93, 94, 95, 96, 97 and 98. -/
def Obligations.PowerTransitions : Prop :=
  (∀ (d : Nat) (s : State), d < 80 → 1 ≤ domState s d → domState s d ≤ 3 →
    (domOf (wakeDeps 4 d s) d).state = 4 ∧ (domOf (wakeDeps 4 d s) d).goal = domState s d) ∧
  (∀ s : State, (s.power.alarm = none → exec .wakeAlarmFire s = .next s) ∧
    (∀ t acc, s.power.alarm = some (t, acc) →
      (reached (timedBoundary t acc) s = false → exec .wakeAlarmFire s = .next s) ∧
      (reached (timedBoundary t acc) s = true → exec .wakeAlarmFire s =
        .next (bump 0xC100 8 (wakeGroupFor 3 (cfg s 0xA030 3) (modPower (fun p => { p with alarm := none }) s))) ∧
        (s.power.dmode ≠ 2 → ∃ s', exec .wakeAlarmFire s = .next s' ∧ s'.power.alarm = none ∧
          ctrVal s' 0xC100 8 = ctrVal s 0xC100 8 + 1)))) ∧
  (∀ (addr : BitVec 7) (first : BitVec 8) (s : State),
    (addr.toNat ≠ mgmtAddr s ∨ first.toNat / 64 ≠ 2 → exec (.mgmtWakeByte addr first) s = .next s) ∧
    (addr.toNat = mgmtAddr s → first.toNat / 64 = 2 →
      (groupDomains s (first.toNat % 64) = none → exec (.mgmtWakeByte addr first) s = .next (bump 0xC100 12 s)) ∧
      (∀ ds, groupDomains s (first.toNat % 64) = some ds → cfgB s 0xA030 1 = false → exec (.mgmtWakeByte addr first) s = .next s) ∧
      (∀ ds, groupDomains s (first.toNat % 64) = some ds → cfgB s 0xA030 1 = true →
        (s.clk.frozen.isSome = true → exec (.mgmtWakeByte addr first) s =
          .next (bump 0xC100 6 (modPower (fun p => { p with held := p.held ++ [(1, first.toNat % 64)] }) s))) ∧
        (s.clk.frozen = none → exec (.mgmtWakeByte addr first) s =
          .next (bump 0xC100 6 (wakeDomains 1 (first.toNat % 64) ds s)))))) ∧
  (∀ (t : Fin 768) (s : State), (∀ rd v, (thr s t.val).hold ≠ .wake rd v) ∨ wakeBits s t.val = 0 ∨
      domState s (pairDomain t.val) = 0 ∨ domState s (pairDomain t.val) = 4 → exec (.pairWake t) s = .next s) ∧
  (∀ (t : Fin 768) (s : State) (rd v : Nat), (thr s t.val).hold = .wake rd v → wakeBits s t.val ≠ 0 → domState s (pairDomain t.val) ≠ 0 →
    domState s (pairDomain t.val) ≠ 4 → exec (.pairWake t) s = .next (wakeFor 5 (pairDomain t.val) s)) ∧
  (∀ (dom : Fin 80) (s : State) (x : Dom), x = domOf s dom.val →
    (cfg s 0xA002 (dom.val + 1) ≠ 1 ∨ x.state ≠ 0 ∨ dom.val ∈ s.power.queue ∨ s.clk.frozen.isSome = true →
      exec (.duskIdleEntry dom) s = .next s) ∧
    (cfg s 0xA002 (dom.val + 1) = 1 → x.state = 0 → dom.val ∉ s.power.queue → s.clk.frozen = none →
      exec (.duskIdleEntry dom) s = .next (requestLeave dom.val 1 s)) ∧
    (x.state ≠ 1 → x.state ≠ 5 ∨ x.goal ≠ 1 → exec (.duskUngate dom) s = .next s) ∧
    (x.state = 1 ∨ x.state = 5 ∧ x.goal = 1 → exec (.duskUngate dom) s = .next (wakeDomain dom.val s)) ∧
    (x.state ≠ 4 ∨ x.phase ≠ 1 ∨ s.clk.frozen.isSome = true ∨ s.led.restart.isSome = true ∨ reached (x.since + 2048) s = false →
      exec (.softStartEnd dom) s = .next s) ∧
    (x.state = 4 → x.phase = 1 → s.led.restart = none → reached (x.since + 2048) s = true → exec (.softStartEnd dom) s =
      .next (modPower (fun p => { p with tokenAt := x.since + 2048 })
        (modDom dom.val (fun x => { x with phase := 2, since := x.since + 2048 }) s))) ∧
    (x.state ≠ 4 ∨ x.phase ≠ 2 ∨ s.clk.frozen.isSome = true ∨ s.led.restart.isSome = true ∨ reached (x.since + 4992) s = false →
      exec (.restoreEnd dom) s = .next s) ∧
    (x.state = 4 → x.phase = 2 → s.led.restart = none → reached (x.since + 4992) s = true → ∃ s', exec (.restoreEnd dom) s = .next s' ∧
      (domOf s' dom.val).phase = 3 ∧ (domOf s' dom.val).left = stepMa dom.val ∧ (domOf s' dom.val).state = 4 ∧
      s'.power.stages = s.power.stages ++ [dom.val] ∧
      (68 ≤ dom.val → dom.val < 72 → tget 0 s'.hbm.state (dom.val - 68) = 1) ∧
      (60 ≤ dom.val → dom.val < 68 ∨ 72 ≤ dom.val → s'.hbm = s.hbm ∧ s'.mem = s.mem))) ∧
  (∀ s : State, (cfg s 0xA040 2 ≤ softStarts s ∨ fireAt s < dlUp 0 s.power.tokenAt ∨ (∀ d ∈ s.power.queue, tokenReady s d = false) →
      exec .softStartBegin s = .next s) ∧
    (softStarts s < cfg s 0xA040 2 → dlUp 0 s.power.tokenAt ≤ fireAt s → (∃ d ∈ s.power.queue, tokenReady s d = true) → ∃ s' d,
      exec .softStartBegin s = .next s' ∧ d ∈ s.power.queue ∧ tokenReady s d = true ∧
      (∀ u ∈ s.power.queue, tokenReady s u = true → (domOf s d).reqAt < (domOf s u).reqAt ∨
        (domOf s d).reqAt = (domOf s u).reqAt ∧ d ≤ u) ∧
      domOf s' d = { domOf s d with phase := 1, since := fireAt s } ∧ (∀ u, u ≠ d → domOf s' u = domOf s u) ∧
      s'.power.queue = s.power.queue.filter (fun u => decide (u ≠ d)) ∧ s'.power.m = s.power.m + stepMa d)) ∧
  (∀ s : State, (s.clk.frozen = none → s.led.restart.isSome = true ∨ (s.power.queue = [] ∧ s.power.stages = []) →
      exec .governorWindow s = .next s) ∧
    (s.clk.frozen.isSome = true → ∃ s', exec .governorWindow s = .next s' ∧ s'.power.dom = s.power.dom ∧ s'.power.stages = s.power.stages ∧
      (2 ≤ s.dbg.fstate → governorE s = s.power.ballast ∧ governorE s' = s'.power.ballast) ∧
      (s.dbg.fstate = 2 → max (s.dbg.sAt + 64) (s.dbg.fAt + 2048) ≤ now s →
        s'.power.ballast = s.power.ballast - cfg s 0xA040 1 * 20) ∧
      (s.dbg.fstate = 3 → s.dbg.relAt + 2048 ≤ now s →
        s'.power.ballast = min s.power.holdE (s.power.ballast + cfg s 0xA040 1 * 20)) ∧
      ((s.dbg.fstate = 2 ∧ now s < max (s.dbg.sAt + 64) (s.dbg.fAt + 2048)) ∨ (s.dbg.fstate = 3 ∧ now s < s.dbg.relAt + 2048) ∨
        s.dbg.fstate < 2 → s' = s)) ∧
    (∀ d x budget, s.clk.frozen = none → s.led.restart = none → s.power.queue = [] → s.power.stages = [d] → x = domOf s d →
      budget = cfg s 0xA040 1 * 20 - 500 * softStarts s →
      (budget < x.left → exec .governorWindow s = .next (modDom d (fun x => { x with left := x.left - budget }) s)) ∧
      (x.left ≤ budget → ∃ s', exec .governorWindow s = .next s' ∧ (x.sleepReq = none → s'.power.stages = []) ∧
        (x.state = 4 → x.sleepReq = none → (domOf s' d).state = 0 ∧ (domOf s' d).left = 0 ∧
          (x.goal ≠ 0 → ctrVal s' 0xC100 (if x.goal = 1 then 1 else 2) = ctrVal s 0xC100 (if x.goal = 1 then 1 else 2) + 1) ∧
          (x.goal = 0 → ctrVal s' 0xC100 1 = ctrVal s 0xC100 1 ∧ ctrVal s' 0xC100 2 = ctrVal s 0xC100 2)) ∧
        (x.state = 5 → x.goal = 1 → (domOf s' d).state = 1 ∧ ctrVal s' 0xC100 3 = ctrVal s 0xC100 3 + 1) ∧
        (x.state = 5 → x.goal ≠ 1 → (domOf s' d).state = 5 ∧ (domOf s' d).phase = 4 ∧ (domOf s' d).since = now s)))) ∧
  (∀ (dom : Fin 80) (s : State) (x : Dom), x = domOf s dom.val →
    (x.state ≠ 5 ∨ x.phase ≠ 4 ∨ s.clk.frozen.isSome = true ∨ s.led.restart.isSome = true ∨ (dom.val < 60 ∧ dom.val % 5 ≠ 4 ∧ pairQuiet s dom.val = false) →
      exec (.domainLeaveEnd dom) s = .next s) ∧
    (x.state = 5 → x.phase = 4 → s.clk.frozen = none → s.led.restart = none → (dom.val < 60 → dom.val % 5 ≠ 4 → pairQuiet s dom.val = true) →
      ∃ s',
      exec (.domainLeaveEnd dom) s = .next s' ∧ (x.rewake = false → domState s' dom.val = x.goal) ∧
      (x.rewake = true → 2 ≤ x.goal → x.goal ≤ 3 → domState s' dom.val = 4) ∧
      ctrVal s' 0xC100 (if x.goal = 2 then 4 else 5) = ctrVal s 0xC100 (if x.goal = 2 then 4 else 5) + 1 ∧
      (∀ a, dom.val < 60 → dom.val % 5 ≠ 4 → 0xE100000000 + (dom.val / 5 * 8 + dom.val % 5 * 2) * 0x10000 ≤ a →
        a < 0xE100000000 + (dom.val / 5 * 8 + dom.val % 5 * 2 + 2) * 0x10000 → memByte s' a = 0) ∧
      (∀ a, dom.val < 60 → dom.val % 5 = 4 → 0xE200000000 + dom.val / 5 * 0x80000 ≤ a → a < 0xE200000000 + (dom.val / 5 + 1) * 0x80000 →
        memByte s' a = 0) ∧
      (dom.val = 76 → x.rewake = false → s'.mat = {}) ∧
      (68 ≤ dom.val → dom.val < 72 → stackGone s (dom.val - 68) = false →
        tget 0 s'.hbm.state (dom.val - 68) = if x.goal = 2 ∧ cfg s 0x9404 (dom.val - 67) = 1 then 3 else 0))) ∧
  (∀ (s : State) (busy : Bool), busy = s.power.dom.any (fun e => (decide (e.2.state = 4) && decide (e.2.phase ≠ 0)) || decide (e.2.state = 5)) →
    (busy = true ∨ reached (dlUp 0 (s.power.quietAt + 2048)) s = false ∨ (s.power.lstep = none ∧ s.power.m = 0) →
      exec .lstepDeassert s = .next s) ∧
    (busy = false → reached (dlUp 0 (s.power.quietAt + 2048)) s = true →
      (∀ a, s.power.lstep = some a → exec .lstepDeassert s =
        .next (emit (.pin "LSTEP_N" true) (modPower (fun p => { p with lstep := none, m := 0 }) s))) ∧
      (s.power.lstep = none → s.power.m ≠ 0 → exec .lstepDeassert s =
        .next (modPower (fun p => { p with lstep := none, m := 0 }) s))))

/-- Faults: a ledger row that does not balance is counted, recorded and alerted; a core fault empties the core and begins its
self-test, whose result admits or excludes it; a tile's event controller is cleared; a steward mismatch begins a warm restart;
a stall that stands resets its core.
Where the spec is silent it rests on the model's choices of logs 24, 112, 113 and 160. -/
def Obligations.FaultService : Prop :=
  (∀ (s : State) (i : Nat), i = checkNow s →
    ((nextDue s).map (·.act) ≠ some .check → exec .ledgerCheck s = .next s) ∧
    ((nextDue s).map (·.act) = some .check →
      ((∀ r, 1 ≤ r → r ≤ 6 → (ledRow s r).balanced = true) → exec .ledgerCheck s =
        .next (bump 0xC018 10 (modLed (fun l => { l with checkIdx := i, lastCheck := ofNs (i * dlPeriod 2) }) s))) ∧
      (∀ r bad, unbalanced s = bad → bad.getLast? = some r → ∃ s', exec .ledgerCheck s = .next s' ∧
        s'.led.mismatches = s.led.mismatches + BitVec.ofNat 32 bad.length ∧
        s'.led.lastMismatch = mismatchRecord s r (i * dlPeriod 2) ∧ s'.dict.alertLedger = true ∧
        (s.dict.alertLedger = false → Output.ibi 1 ∈ s'.out)))) ∧
  (∀ (core : Fin 96) (s : State), ∃ s', exec (.coreFault core) s = .next s' ∧
    (∀ t ∈ coreThreads core.val, (thr s' t).state = .idle ∧ (thr s' t).posted = []) ∧
    (coreSt s' core.val).sb = [] ∧ (coreSt s' core.val).sr = [] ∧ tfind s'.led.selfTest core.val = some (now s + 40000) ∧
    (∀ c, c ≠ core.val → tfind s'.led.selfTest c = tfind s.led.selfTest c) ∧
    ctrVal s' 0xC018 1 = ctrVal s 0xC018 1 + 1) ∧
  (∀ (tile : Fin 12) (s : State), ∃ s', exec (.tecChannelFault tile) s = .next s' ∧ (tileSt s' tile.val).pend = 0 ∧
    (tileSt s' tile.val).active = 0 ∧ (∀ t ∈ tileThreads tile.val, (thr s' t).state = .idle) ∧
    ctrVal s' 0xC018 3 = ctrVal s 0xC018 3 + 1 ∧ ctrVal s' 0xC018 1 = ctrVal s 0xC018 1 + 8) ∧
  (∀ (core : Fin 96) (pass : Bool) (s : State),
    (tfind s.led.selfTest core.val = none → exec (.selfTestEnd core pass) s = .next s) ∧
    (∀ e, tfind s.led.selfTest core.val = some e → (s.clk.frozen.isSome = true ∨ now s < e → exec (.selfTestEnd core pass) s = .next s) ∧
      (s.clk.frozen = none → e ≤ now s → ∃ s', exec (.selfTestEnd core pass) s = .next s' ∧ tfind s'.led.selfTest core.val = none ∧
        tget false s'.led.excluded core.val = !pass ∧
        (∀ c, c ≠ core.val → tget false s'.led.excluded c = tget false s.led.excluded c) ∧
        ctrVal s' 0xC018 2 = ctrVal s 0xC018 2 + if pass then 0 else 1))) ∧
  (∀ s : State, (s.led.restart.isSome = true → exec .stewardMismatch s = .next s) ∧
    (s.led.restart = none → ∃ s', exec .stewardMismatch s = .next s' ∧ s'.led.restart = some (now s) ∧
      (∀ i, i < 8 → thr s' (768 + i) = threadInit (768 + i)) ∧ coreSt s' 96 = {} ∧
      ctrVal s' 0xC018 5 = ctrVal s 0xC018 5 + 1) ∧
    (s.led.restart = none → exec .warmRestartEnd s = .next s) ∧
    (∀ a, s.led.restart = some a →
      exec .warmRestartEnd s = .next (modLed (fun l => { l with restart := none, restarted := some (a, now s) }) s))) ∧
  (∀ (core : Fin 96) (s : State), (tfind s.led.stallAt core.val = none ∨ s.led.restart.isSome = true →
      exec (.stallReset core) s = .next s) ∧
    (∀ t0 again, tfind s.led.stallAt core.val = some (t0, again) → s.led.restart = none →
      (again = true ∨ reached (stallExpiry s t0) s = true ∧ (thr s (8 * core.val)).stall = true → ∃ s',
        exec (.stallReset core) s = .next s' ∧ (∀ t ∈ coreThreads core.val, (thr s' t).state = .idle) ∧
        tfind s'.led.stallAt core.val = none ∧ ctrVal s' 0xC018 6 = ctrVal s 0xC018 6 + 1) ∧
      (again = false → reached (stallExpiry s t0) s = true → (thr s (8 * core.val)).stall = false → exec (.stallReset core) s =
        .next (modLed (fun l => { l with stallAt := tdel l.stallAt core.val }) s)) ∧
      (again = false → reached (stallExpiry s t0) s = false → exec (.stallReset core) s = .next s)))

/-! ### Dawn, images, debug, midnight (chapter 20) -/

/-- Debug commands over JTAG answer their status and result, and act only in the unlocked scope; a register is written only in a HALTED
thread. A nonce unlocks once, by the proof over the token key, and a wrong proof starts the backoff. A halt that was asked for, a
breakpoint's match and a watchpoint's mark make the thread HALTED, counted, with its registers and pc as they were.
Where the spec is silent it rests on the model's choices of logs 107, 108 and 109. -/
def Obligations.DebugUnit : Prop :=
  (∀ (f : DbgVia → Instr) (cmd : Nat) (x y z : BitVec 8) (arg : Bytes) (eff : DbgEff) (s : State), DebugForm f cmd x y z arg eff →
    (dbgThread x.toNat y.toNat z.toNat = none → exec (f .jtag) s = .next (emit (.jtag [5]) s)) ∧
    (∀ t, dbgThread x.toNat y.toNat z.toNat = some t →
      (dbgAllowed s true x.toNat = false → exec (f .jtag) s = .next (emit (.jtag [3]) s)) ∧
      (∀ st b s', dbgAllowed s true x.toNat = true → eff t s = (st, b, s') →
        exec (f .jtag) s = .next (emit (.jtag (natLE 1 st ++ b)) s')))) ∧
  (∀ (t reg : Nat) (v : W72) (s : State), (isHalted (thr s t) = false → writeReg t reg v s = (stBusy, [], s)) ∧
    (isHalted (thr s t) = true → reg < 32 → (writeReg t reg v s).1 = stOk ∧
      getReg (writeReg t reg v s).2.2 t reg = (if reg = 0 then 0 else v))) ∧
  (∀ s : State, ∃ s' n, exec .dbgNonce s = .next s' ∧ s'.out = s.out ++ [.jtag (natLE 32 n)] ∧ n < 2 ^ 256 ∧
    s'.dbg.nonce = some (BitVec.ofNat 256 n) ∧ s'.free = s.free + 1) ∧
  (∀ (proof key : Bytes) (s : State), key = entVal s 0xD020 0x01 → ∃ s', exec (.dbgUnlock proof) s = .next s' ∧
    s'.dbg.nonce = none ∧
    (∀ n, s.dbg.nonce = some n → unlockBackoff s = false → key ≠ [] → proof = hmac384 key (ascii "ZYDT" ++
        natLE 8 Config.serial.toNat ++ natLE 32 n.toNat) → now s ≤ cfg s 0xD020 0x03 / 65536 →
      s'.dbg.scope = BitVec.ofNat 12 (cfg s 0xD020 0x02) ∧ s'.dbg.fails = 0 ∧ ctrVal s' 0xC110 0x0B = ctrVal s 0xC110 0x0B + 1) ∧
    ((∀ n, s.dbg.nonce = some n → proof ≠ unlockProof key n) ∨ cfg s 0xD020 0x03 / 65536 < now s → s'.dbg.scope = s.dbg.scope ∧
      ctrVal s' 0xC110 0x0C = ctrVal s 0xC110 0x0C + 1 ∧
      (unlockBackoff s = false → s'.dbg.fails = s.dbg.fails + 1 ∧ s'.dbg.failAt = now s))) ∧
  (∀ (t : Fin 776) (s : State),
    ((thr s t.val).haltReq = false ∨ (thr s t.val).halted = true → exec (.haltEffect t) s = .next s) ∧
    ((thr s t.val).haltReq = true → (thr s t.val).halted = false → clocked s = true →
      (thr s t.val).state = .idle ∨ (thr s t.val).shadow = none ∧ eventDue s t.val = false ∧ faultDue (thr s t.val) = false ∧
        (thr s t.val).hold = .none ∧ uncommitted (thr s t.val) = false →
      exec (.haltEffect t) s = .next (bump 0xC110 0x0D (haltThread t.val s))) ∧
    ((thr s t.val).state ≠ .idle → (thr s t.val).hold = .none → uncommitted (thr s t.val) = false → isHalted (thr s t.val) = false →
      clocked s = true → bpMatch s t.val = true → eventDue s t.val = false → faultDue (thr s t.val) = false →
      exec (.breakpointHit t) s = .next (bump 0xC110 0x0E (haltThread t.val (traceMark t.val (bpSlots s t.val) s)))) ∧
    (bpMatch s t.val = false → exec (.breakpointHit t) s = .next s) ∧
    ((thr s t.val).wpHit = true → exec (.watchpointHit t) s =
      .next (bump 0xC110 0x0F (haltThread t.val (modThr t.val (fun x => { x with wpHit := false }) s)))) ∧
    ((thr s t.val).wpHit = false → exec (.watchpointHit t) s = .next s) ∧
    (∀ s1, s1 = haltThread t.val s → (thr s1 t.val).halted = true ∧ (∀ r, getReg s1 t.val r = getReg s t.val r) ∧
      (thr s1 t.val).pc = (thr s t.val).pc ∧ (thr s1 t.val).st = (thr s t.val).st ∧ ∀ u, u ≠ t.val → thr s1 u = thr s u))

/-- Midnight: a trigger of a running device sets the freeze at the next DL0 boundary, any other is counted; at the boundary the
frozen interval begins and LSTEP_N is asserted; stopped, the ballast draws the governor's estimate, every active stack is in
self-refresh and no thread and no byte has changed; a read-out goes out whole; a thaw that is due, with no read-out, releases the stacks; at the release, after the ramp
of the current, the interval is added to the FIA and to every running lease, and what is overdue fires in order of its boundaries, the
actions of a boundary before its timers.
Where the spec is silent it rests on the model's choices of logs 110 and 111. -/
def Obligations.FreezeAndThaw : Prop :=
  (∀ s : State, (s.dbg.fstate ≠ 0 → exec .freezeNEdge s = .next (bump 0xC110 0x08 s)) ∧
    (s.dbg.fstate = 0 → s.dbg.freezeDue = none → exec .freezeNEdge s = .next (modDbg (fun d => { d with
      freezeDue := some (dlUp 0 ((now80 s + 65535) / 65536)), cause := 0 }) s)) ∧
    (s.dbg.fstate = 0 → s.dbg.freezeDue.isSome = true → exec .freezeNEdge s = .next s)) ∧
  (∀ s : State, ((∀ e timed, nextDue s = some e → e.act ≠ .freeze timed) → exec .freezeFire s = .next s) ∧
    (∀ e timed, nextDue s = some e → e.act = .freeze timed → s.dbg.fstate = 0 → s.power.lstep = none →
      ∃ s', exec .freezeFire s = .next s' ∧ s'.clk.frozen = some (fireAt s) ∧ s'.dbg.fstate = 1 ∧ s'.dbg.fAt = fireAt s ∧
        s'.dbg.freezeDue = none ∧ s'.dbg.cause = (if timed then 2 else s.dbg.cause) ∧ s'.out = s.out ++ [.pin "LSTEP_N" false] ∧
        s'.power.lstep = some (now s) ∧ s'.cpu = s.cpu ∧ s'.mem = s.mem ∧ ctrVal s' 0xC110 0x07 = ctrVal s 0xC110 0x07 + 1 ∧
        (timed = false → ctrVal s' 0xC020 0x01 = ctrVal s 0xC020 0x01) ∧
        ∀ t acc, timed = true → s.dbg.freezeAt = some (t, acc) →
          ctrVal s' 0xC020 0x01 = ctrVal s 0xC020 0x01 + if timedLate t acc s then 1 else 0) ∧
    (∀ e timed, nextDue s = some e → e.act = .freeze timed → s.dbg.fstate ≠ 0 →
      ∃ s', exec .freezeFire s = .next s' ∧ s'.clk = s.clk ∧ s'.cpu = s.cpu ∧ s'.mem = s.mem ∧ s'.dbg.fstate = s.dbg.fstate ∧
        s'.dbg.freezeDue = none ∧ (timed = true → s'.dbg.freezeAt = none) ∧ ctrVal s' 0xC110 0x08 = ctrVal s 0xC110 0x08 + 1) ∧
    (∀ b, s.dbg.freezeDue = some b → s.dbg.freezeAt = none → b ≤ fireAt s → freezeDueAt s = some (b, false)) ∧
    (∀ t acc, s.dbg.freezeDue = none → s.dbg.freezeAt = some (t, acc) → s.led.restart = none → stewardBoundary t acc s ≤ fireAt s →
      freezeDueAt s = some (stewardBoundary t acc s, true)) ∧
    (∀ b timed, freezeDueAt s = some (b, timed) → (∀ e ∈ dueActs s, ∃ x, e.act = .freeze x) →
      ∃ e, nextDue s = some e ∧ e.act = .freeze timed ∧ e.boundary = b ∧ b ≤ fireAt s) ∧
    (s.dbg.fstate = 1 → ∃ s', exec .freezeStop s = .next s' ∧ s'.dbg.fstate = 2 ∧ s'.dbg.sAt = now s ∧ s'.cpu = s.cpu ∧ s'.mem = s.mem ∧
      s'.power.holdE = governorE s ∧ s'.power.ballast = governorE s ∧ governorE s = ((List.range 80).map (domMa s)).sum ∧
      (∀ k, tget 0 s.hbm.state k = 2 → tget 0 s'.hbm.state k = 3) ∧
      ∀ k e, tfind s'.fab.pkts k = some e → e.sp < 16 → e.complete = true) ∧
    (s.dbg.fstate ≠ 1 → exec .freezeStop s = .next s)) ∧
  (∀ s : State, (s.dbg.fstate = 2 → s.dbg.dumping = false →
      exec (.dumpStart .jtag) s = .next (modDbg (fun d => { d with dumping := true, dumpJtag := true, sent := 0 }) s)) ∧
    (s.dbg.fstate ≠ 2 ∨ s.dbg.dumping = true → exec (.dumpStart .jtag) s = .next s) ∧
    (s.dbg.dumping = true → exec .dumpEnd s = .next (bump 0xC110 0x0A (emit (.dump s.dbg.dumpJtag (dumpBytes s))
      (modDbg (fun d => { d with dumping := false, sent := dumpBytes s }) s)))) ∧
    (s.dbg.dumping = false → exec .dumpEnd s = .next s)) ∧
  (∀ s : State, (s.dbg.fstate ≠ 2 ∨ thawReady s = false → exec .thawFire s = .next s) ∧
    (s.dbg.fstate = 2 → thawReady s = true → ∃ s', exec .thawFire s = .next s' ∧ s'.dbg.thawDue = none ∧ s'.dbg.thawAt = none ∧
      s'.cpu = s.cpu ∧ s'.mem = s.mem ∧ (s.dbg.dumping = true → s'.dbg.fstate = 2) ∧
      (s.dbg.dumping = false → s'.dbg.fstate = 3 ∧ s'.dbg.relAt = fireAt s ∧ s'.dbg.rampNs = rampTime s ∧ s'.power.lstep.isSome = true ∧
        (∀ k i, k < 4 → i < 32 → domState s (68 + k) = 0 → (tget {} s'.hbm.pc (32 * k + i)).sref = false) ∧
        (s.dbg.thawAt = none → ctrVal s' 0xC020 0x01 = ctrVal s 0xC020 0x01) ∧
        (∀ t acc, s.dbg.thawAt = some (t, acc) → stewardBoundary t acc s ≤ fireAt s →
          ctrVal s' 0xC020 0x01 = ctrVal s 0xC020 0x01 + if timedLate t acc s then 1 else 0) ∧
        ∀ k, k < 4 → tget 0 s.hbm.state k = 3 → domState s (68 + k) = 0 → tget 0 s'.hbm.state k = 2)) ∧
    (∀ rel s1, rel = fireAt s → s1 = endFreeze rel s → s.dbg.fstate = 3 → s.dbg.relAt + 2048 + s.dbg.rampNs + 64 ≤ rel →
      (firstOverdue rel s1 = none → exec .thawRelease s = .next s1) ∧
      (∀ b a, firstOverdue rel s1 = some (b, some a) → firstOverdue rel (a.fire s1) = none → exec .thawRelease s = .next (a.fire s1))) ∧
    (∀ rel s', s' = endFreeze rel s → s.power.held = [] →
      s'.clk.frozen = none ∧ s'.dbg.fstate = 0 ∧ s'.dbg.relAt = rel ∧ s'.power.ballast = 0 ∧
        s'.clk.fia = s.clk.fia + BitVec.ofNat 64 (rel - s.dbg.fAt) ∧ s'.mem = s.mem ∧
        (∀ t, (∀ r, getReg s' t r = getReg s t r) ∧ (thr s' t).pc = (thr s t).pc ∧ (thr s' t).st = (thr s t).st) ∧
        ∀ l, (lockOf s' l).deadline = (lockOf s l).deadline + (if (lockOf s l).state = 1 ∧ (lockOf s l).deadline ≠ 0 then
          rel - s.dbg.fAt else 0)) ∧
    (s.dbg.fstate ≠ 3 ∨ fireAt s < s.dbg.relAt + 2048 + s.dbg.rampNs + 64 → exec .thawRelease s = .next s)) ∧
  (∀ (rel b : Nat) (a : Option DueAct) (s : State), firstOverdue rel s = some (b, a) →
    (∀ e ∈ dueActs s, b ≤ e.boundary ∧ (e.boundary = b → a ≠ none)) ∧ ∀ t ∈ timerDues s, t < rel → b ≤ t)

/-- Dawn: without power nothing but flash, fuses, keys and the journal's flash ring stays; RESET_N begins a Dawn that keeps AON's time, flash
and persistent configuration and clears every value in force, every counter but the count of Dawns, and all memory outside the
steward's SRAM. Its phases follow one another; Dawn-1 waits with ALERT_N while no image is accepted; Dawn-4 ends by its
conditions or after 2 s. A load ends with its result and fills the inactive image; a swap moves every class to it.
Where the spec is silent it rests on the model's choices of logs 100, 101, 102, 103, 104 and 105. -/
def Obligations.DawnAndImages : Prop :=
  (∀ (b c : BitVec 2) (s : State), (s.dbg.pwrGood = true → exec (.pwrGoodRise b c) s = .next s) ∧
    (s.dbg.pwrGood = false → ∃ s', exec (.pwrGoodRise b c) s = .next s' ∧ s'.dbg = { s.dbg with
      pwrGood := true, phase := 0, phaseAt := 0, bootSel := b, cpos := c, lastReset := 0 } ∧ s'.power.dom = [] ∧ s'.clk = {} ∧
      { s' with dbg := s.dbg, power := s.power, clk := s.clk } = s) ∧
    (s.dbg.pwrGood = false → exec (.resetNAssert b c) s = .next s) ∧
    (s.dbg.pwrGood = true → ∃ s', exec (.resetNAssert b c) s = .next s' ∧ s'.dbg.phase = 0 ∧ s'.dbg.phaseAt = now s ∧
      s'.dbg.dawnCount = s.dbg.dawnCount + 1 ∧ s'.dbg.lastReset = 1 ∧ s'.dbg.bootSel = b ∧ s'.dbg.cpos = c ∧
      s'.dbg.flash = s.dbg.flash ∧ s'.dbg.fstate = 0 ∧ s'.clk.ftc = s.clk.ftc ∧ s'.clk.frozen = none ∧
      s'.dict.persist = s.dict.persist ∧ s'.dict.installerKey = s.dict.installerKey ∧ s'.dict.jSram = s.dict.jSram ∧
      (∀ idx sub, entVal s' idx sub = entDefault idx sub) ∧ (∀ r, ledRow s' r = {}) ∧
      (∀ idx sub, sub < 256 → ctrVal s' idx sub = if idx = 0xC110 ∧ sub = 1 then 1 else 0) ∧
      s'.cpu = {} ∧ s'.fab = {} ∧ s'.zmt = {} ∧ s'.locks = {} ∧
      ∀ a, regionOf a ≠ .sram → tget 0 s'.mem.byte a = 0)) ∧
  (∀ s : State, ∃ s', exec .pwrGoodFall s = .next s' ∧ s'.dbg.pwrGood = false ∧ s'.dbg.flash = s.dbg.flash ∧
    s'.dict.persist = s.dict.persist ∧ s'.dict.installerKey = s.dict.installerKey ∧ s'.dict.operatorKeys = s.dict.operatorKeys ∧
    s'.dict.claimFuses = s.dict.claimFuses ∧ s'.dict.jFlash = s.dict.jFlash ∧ s'.dict.sess = [] ∧ s'.dict.vals = [] ∧ s'.clk = {} ∧
    s'.mem = {} ∧ s'.cpu = {} ∧ ∀ d, d < 80 → domState s' d = 3) ∧
  (∀ (tr : BitVec 4) (s : State), s.dbg.pwrGood = true →
    (s.dbg.phase = 0 → s.dbg.bootSel = 3 → exec (.dawnPhaseEnd tr) s = .next s) ∧
    (s.dbg.phase = 0 → s.dbg.bootSel ≠ 3 → ∃ s', exec (.dawnPhaseEnd tr) s = .next s' ∧ s'.dbg.phase = 1 ∧ s'.dbg.phaseAt = now s ∧
      ∀ a, 0xE300000000 ≤ a → a < 0xE300100000 → tget 0 s'.mem.byte a = 0) ∧
    (∀ s1, s.dbg.phase = 1 → s1 = modDict (fun d => { d with vals := d.persist.foldl (fun t e => tput t e.1 e.2) d.vals }) s →
      ∃ s', exec (.dawnPhaseEnd tr) s = .next s' ∧
        ((tryImages (bootOrder s1) s1).1 = none → s.dbg.stuck = false → s'.dbg.phase = 1 ∧ s'.dbg.stuck = true ∧
          s'.dict.alertDawn = true ∧ s'.out = s.out ++ [.ibi 2]) ∧
        (∀ k, (tryImages (bootOrder s1) s1).1 = some k → s'.dbg.phase = 2 ∧ s'.dbg.stuck = false ∧ s'.dict.alertDawn = false)) ∧
    (s.dbg.phase = 2 → ∃ s', exec (.dawnPhaseEnd tr) s = .next s' ∧ s'.dbg.phase = 3 ∧ s'.hbm.order = cfg s 0x9400 0x03 ∧
      ∀ k : Fin 4, tget 0 s'.hbm.state k.val = if tr.getLsbD k.val then 2 else 0) ∧
    (s.dbg.phase = 3 → ∃ s', exec (.dawnPhaseEnd tr) s = .next s' ∧ s'.dbg.phase = 4 ∧ s'.dbg.phaseAt = now s) ∧
    (s.dbg.phase = 4 → (dawn4Ready s = true → exec (.dawnPhaseEnd tr) s = .next (phaseNext s)) ∧
      (dawn4Ready s = false → exec (.dawnPhaseEnd tr) s = .next s))) ∧
  (∀ s : State, (s.dbg.phase = 4 → s.dbg.phaseAt + 2000000000 ≤ now s → exec .dawn4Timeout s = .next (phaseNext s)) ∧
    (s.dbg.phase ≠ 4 ∨ now s < s.dbg.phaseAt + 2000000000 → exec .dawn4Timeout s = .next s) ∧
    (phaseNext s).dbg.phase = s.dbg.phase + 1 ∧ (phaseNext s).dbg.phaseAt = now s) ∧
  (∀ (err : Bool) (s : State), (s.dbg.load = none → exec (.imageLoadEnd err) s = .next s) ∧
    (∀ slot r, s.dbg.load = some slot → s.dbg.swapWait = none → r = (if err then 4 else imageVerify s slot) →
      ∃ s', exec (.imageLoadEnd err) s = .next s' ∧ s'.dbg.load = none ∧ s'.dbg.loadResult = r ∧ s'.dbg.active = s.dbg.active ∧
        (r ≠ 0 → s'.dbg.copy = s.dbg.copy ∧ s'.mem = s.mem) ∧
        (r = 0 → s'.dbg.rollback = false ∧ tget [] s'.dbg.copy (1 - s.dbg.active) = slotSection s slot 2 ∧
          tfind s'.dbg.imgSlot (1 - s.dbg.active) = some slot ∧
          ctrVal s' 0xC110 0x04 = ctrVal s 0xC110 0x04 + 1))) ∧
  (∀ s : State, ((nextDue s).map (·.act) ≠ some .swap → exec .swapFire s = .next s) ∧
    (∀ t acc, s.dbg.swapAt = some (t, acc) → (stewardReached t acc s = false → exec .swapFire s = .next s) ∧
      ((nextDue s).map (·.act) = some .swap → s.dbg.load = none → ∃ s', exec .swapFire s = .next s' ∧ s'.dbg.swapAt = none ∧
        s'.dbg.active = 1 - s.dbg.active ∧ s'.dbg.rollback = true ∧
        (∀ c, c < 64 → bit (classA s' c) 16 = decide (s.dbg.active = 0) ∧ bit (classA s' c) 44 = decide (s.dbg.active = 0)) ∧
        ctrVal s' 0xC020 0x01 = ctrVal s 0xC020 0x01 + (if timedLate t acc s then 1 else 0)) ∧
      ((nextDue s).map (·.act) = some .swap → s.dbg.load.isSome = true → ∃ s', exec .swapFire s = .next s' ∧ s'.dbg.swapAt = none ∧
        s'.dbg.swapWait = some false ∧ s'.dbg.active = s.dbg.active)))
end

