-- ==== Sys2Proof/Laws/State.lean ====
section
/-! SUPPORT. What each unit update leaves: one lemma per field per update, true by unfolding. -/

namespace Sys2Proof.Machine

@[simp] theorem modClk_clk (f : Clk → Clk) (s : State) : (modClk f s).clk = f s.clk := rfl
@[simp] theorem modClk_dict (f : Clk → Clk) (s : State) : (modClk f s).dict = s.dict := rfl
@[simp] theorem modClk_fab (f : Clk → Clk) (s : State) : (modClk f s).fab = s.fab := rfl
@[simp] theorem modClk_cls (f : Clk → Clk) (s : State) : (modClk f s).cls = s.cls := rfl
@[simp] theorem modClk_fwd (f : Clk → Clk) (s : State) : (modClk f s).fwd = s.fwd := rfl
@[simp] theorem modClk_zmt (f : Clk → Clk) (s : State) : (modClk f s).zmt = s.zmt := rfl
@[simp] theorem modClk_mem (f : Clk → Clk) (s : State) : (modClk f s).mem = s.mem := rfl
@[simp] theorem modClk_cpu (f : Clk → Clk) (s : State) : (modClk f s).cpu = s.cpu := rfl
@[simp] theorem modClk_sched (f : Clk → Clk) (s : State) : (modClk f s).sched = s.sched := rfl
@[simp] theorem modClk_locks (f : Clk → Clk) (s : State) : (modClk f s).locks = s.locks := rfl
@[simp] theorem modClk_power (f : Clk → Clk) (s : State) : (modClk f s).power = s.power := rfl
@[simp] theorem modClk_cops (f : Clk → Clk) (s : State) : (modClk f s).cops = s.cops := rfl
@[simp] theorem modClk_mat (f : Clk → Clk) (s : State) : (modClk f s).mat = s.mat := rfl
@[simp] theorem modClk_bufs (f : Clk → Clk) (s : State) : (modClk f s).bufs = s.bufs := rfl
@[simp] theorem modClk_hbm (f : Clk → Clk) (s : State) : (modClk f s).hbm = s.hbm := rfl
@[simp] theorem modClk_host (f : Clk → Clk) (s : State) : (modClk f s).host = s.host := rfl
@[simp] theorem modClk_dbg (f : Clk → Clk) (s : State) : (modClk f s).dbg = s.dbg := rfl
@[simp] theorem modClk_led (f : Clk → Clk) (s : State) : (modClk f s).led = s.led := rfl
@[simp] theorem modClk_ctr (f : Clk → Clk) (s : State) : (modClk f s).ctr = s.ctr := rfl
@[simp] theorem modClk_out (f : Clk → Clk) (s : State) : (modClk f s).out = s.out := rfl
@[simp] theorem modClk_free (f : Clk → Clk) (s : State) : (modClk f s).free = s.free := rfl
@[simp] theorem modClk_pending (f : Clk → Clk) (s : State) : (modClk f s).pending = s.pending := rfl
@[simp] theorem modDict_clk (f : Dict → Dict) (s : State) : (modDict f s).clk = s.clk := rfl
@[simp] theorem modDict_dict (f : Dict → Dict) (s : State) : (modDict f s).dict = f s.dict := rfl
@[simp] theorem modDict_fab (f : Dict → Dict) (s : State) : (modDict f s).fab = s.fab := rfl
@[simp] theorem modDict_cls (f : Dict → Dict) (s : State) : (modDict f s).cls = s.cls := rfl
@[simp] theorem modDict_fwd (f : Dict → Dict) (s : State) : (modDict f s).fwd = s.fwd := rfl
@[simp] theorem modDict_zmt (f : Dict → Dict) (s : State) : (modDict f s).zmt = s.zmt := rfl
@[simp] theorem modDict_mem (f : Dict → Dict) (s : State) : (modDict f s).mem = s.mem := rfl
@[simp] theorem modDict_cpu (f : Dict → Dict) (s : State) : (modDict f s).cpu = s.cpu := rfl
@[simp] theorem modDict_sched (f : Dict → Dict) (s : State) : (modDict f s).sched = s.sched := rfl
@[simp] theorem modDict_locks (f : Dict → Dict) (s : State) : (modDict f s).locks = s.locks := rfl
@[simp] theorem modDict_power (f : Dict → Dict) (s : State) : (modDict f s).power = s.power := rfl
@[simp] theorem modDict_cops (f : Dict → Dict) (s : State) : (modDict f s).cops = s.cops := rfl
@[simp] theorem modDict_mat (f : Dict → Dict) (s : State) : (modDict f s).mat = s.mat := rfl
@[simp] theorem modDict_bufs (f : Dict → Dict) (s : State) : (modDict f s).bufs = s.bufs := rfl
@[simp] theorem modDict_hbm (f : Dict → Dict) (s : State) : (modDict f s).hbm = s.hbm := rfl
@[simp] theorem modDict_host (f : Dict → Dict) (s : State) : (modDict f s).host = s.host := rfl
@[simp] theorem modDict_dbg (f : Dict → Dict) (s : State) : (modDict f s).dbg = s.dbg := rfl
@[simp] theorem modDict_led (f : Dict → Dict) (s : State) : (modDict f s).led = s.led := rfl
@[simp] theorem modDict_ctr (f : Dict → Dict) (s : State) : (modDict f s).ctr = s.ctr := rfl
@[simp] theorem modDict_out (f : Dict → Dict) (s : State) : (modDict f s).out = s.out := rfl
@[simp] theorem modDict_free (f : Dict → Dict) (s : State) : (modDict f s).free = s.free := rfl
@[simp] theorem modDict_pending (f : Dict → Dict) (s : State) : (modDict f s).pending = s.pending := rfl
@[simp] theorem modFab_clk (f : Fab → Fab) (s : State) : (modFab f s).clk = s.clk := rfl
@[simp] theorem modFab_dict (f : Fab → Fab) (s : State) : (modFab f s).dict = s.dict := rfl
@[simp] theorem modFab_fab (f : Fab → Fab) (s : State) : (modFab f s).fab = f s.fab := rfl
@[simp] theorem modFab_cls (f : Fab → Fab) (s : State) : (modFab f s).cls = s.cls := rfl
@[simp] theorem modFab_fwd (f : Fab → Fab) (s : State) : (modFab f s).fwd = s.fwd := rfl
@[simp] theorem modFab_zmt (f : Fab → Fab) (s : State) : (modFab f s).zmt = s.zmt := rfl
@[simp] theorem modFab_mem (f : Fab → Fab) (s : State) : (modFab f s).mem = s.mem := rfl
@[simp] theorem modFab_cpu (f : Fab → Fab) (s : State) : (modFab f s).cpu = s.cpu := rfl
@[simp] theorem modFab_sched (f : Fab → Fab) (s : State) : (modFab f s).sched = s.sched := rfl
@[simp] theorem modFab_locks (f : Fab → Fab) (s : State) : (modFab f s).locks = s.locks := rfl
@[simp] theorem modFab_power (f : Fab → Fab) (s : State) : (modFab f s).power = s.power := rfl
@[simp] theorem modFab_cops (f : Fab → Fab) (s : State) : (modFab f s).cops = s.cops := rfl
@[simp] theorem modFab_mat (f : Fab → Fab) (s : State) : (modFab f s).mat = s.mat := rfl
@[simp] theorem modFab_bufs (f : Fab → Fab) (s : State) : (modFab f s).bufs = s.bufs := rfl
@[simp] theorem modFab_hbm (f : Fab → Fab) (s : State) : (modFab f s).hbm = s.hbm := rfl
@[simp] theorem modFab_host (f : Fab → Fab) (s : State) : (modFab f s).host = s.host := rfl
@[simp] theorem modFab_dbg (f : Fab → Fab) (s : State) : (modFab f s).dbg = s.dbg := rfl
@[simp] theorem modFab_led (f : Fab → Fab) (s : State) : (modFab f s).led = s.led := rfl
@[simp] theorem modFab_ctr (f : Fab → Fab) (s : State) : (modFab f s).ctr = s.ctr := rfl
@[simp] theorem modFab_out (f : Fab → Fab) (s : State) : (modFab f s).out = s.out := rfl
@[simp] theorem modFab_free (f : Fab → Fab) (s : State) : (modFab f s).free = s.free := rfl
@[simp] theorem modFab_pending (f : Fab → Fab) (s : State) : (modFab f s).pending = s.pending := rfl
@[simp] theorem modCls_clk (f : Cls → Cls) (s : State) : (modCls f s).clk = s.clk := rfl
@[simp] theorem modCls_dict (f : Cls → Cls) (s : State) : (modCls f s).dict = s.dict := rfl
@[simp] theorem modCls_fab (f : Cls → Cls) (s : State) : (modCls f s).fab = s.fab := rfl
@[simp] theorem modCls_cls (f : Cls → Cls) (s : State) : (modCls f s).cls = f s.cls := rfl
@[simp] theorem modCls_fwd (f : Cls → Cls) (s : State) : (modCls f s).fwd = s.fwd := rfl
@[simp] theorem modCls_zmt (f : Cls → Cls) (s : State) : (modCls f s).zmt = s.zmt := rfl
@[simp] theorem modCls_mem (f : Cls → Cls) (s : State) : (modCls f s).mem = s.mem := rfl
@[simp] theorem modCls_cpu (f : Cls → Cls) (s : State) : (modCls f s).cpu = s.cpu := rfl
@[simp] theorem modCls_sched (f : Cls → Cls) (s : State) : (modCls f s).sched = s.sched := rfl
@[simp] theorem modCls_locks (f : Cls → Cls) (s : State) : (modCls f s).locks = s.locks := rfl
@[simp] theorem modCls_power (f : Cls → Cls) (s : State) : (modCls f s).power = s.power := rfl
@[simp] theorem modCls_cops (f : Cls → Cls) (s : State) : (modCls f s).cops = s.cops := rfl
@[simp] theorem modCls_mat (f : Cls → Cls) (s : State) : (modCls f s).mat = s.mat := rfl
@[simp] theorem modCls_bufs (f : Cls → Cls) (s : State) : (modCls f s).bufs = s.bufs := rfl
@[simp] theorem modCls_hbm (f : Cls → Cls) (s : State) : (modCls f s).hbm = s.hbm := rfl
@[simp] theorem modCls_host (f : Cls → Cls) (s : State) : (modCls f s).host = s.host := rfl
@[simp] theorem modCls_dbg (f : Cls → Cls) (s : State) : (modCls f s).dbg = s.dbg := rfl
@[simp] theorem modCls_led (f : Cls → Cls) (s : State) : (modCls f s).led = s.led := rfl
@[simp] theorem modCls_ctr (f : Cls → Cls) (s : State) : (modCls f s).ctr = s.ctr := rfl
@[simp] theorem modCls_out (f : Cls → Cls) (s : State) : (modCls f s).out = s.out := rfl
@[simp] theorem modCls_free (f : Cls → Cls) (s : State) : (modCls f s).free = s.free := rfl
@[simp] theorem modCls_pending (f : Cls → Cls) (s : State) : (modCls f s).pending = s.pending := rfl
@[simp] theorem modFwd_clk (f : Fwd → Fwd) (s : State) : (modFwd f s).clk = s.clk := rfl
@[simp] theorem modFwd_dict (f : Fwd → Fwd) (s : State) : (modFwd f s).dict = s.dict := rfl
@[simp] theorem modFwd_fab (f : Fwd → Fwd) (s : State) : (modFwd f s).fab = s.fab := rfl
@[simp] theorem modFwd_cls (f : Fwd → Fwd) (s : State) : (modFwd f s).cls = s.cls := rfl
@[simp] theorem modFwd_fwd (f : Fwd → Fwd) (s : State) : (modFwd f s).fwd = f s.fwd := rfl
@[simp] theorem modFwd_zmt (f : Fwd → Fwd) (s : State) : (modFwd f s).zmt = s.zmt := rfl
@[simp] theorem modFwd_mem (f : Fwd → Fwd) (s : State) : (modFwd f s).mem = s.mem := rfl
@[simp] theorem modFwd_cpu (f : Fwd → Fwd) (s : State) : (modFwd f s).cpu = s.cpu := rfl
@[simp] theorem modFwd_sched (f : Fwd → Fwd) (s : State) : (modFwd f s).sched = s.sched := rfl
@[simp] theorem modFwd_locks (f : Fwd → Fwd) (s : State) : (modFwd f s).locks = s.locks := rfl
@[simp] theorem modFwd_power (f : Fwd → Fwd) (s : State) : (modFwd f s).power = s.power := rfl
@[simp] theorem modFwd_cops (f : Fwd → Fwd) (s : State) : (modFwd f s).cops = s.cops := rfl
@[simp] theorem modFwd_mat (f : Fwd → Fwd) (s : State) : (modFwd f s).mat = s.mat := rfl
@[simp] theorem modFwd_bufs (f : Fwd → Fwd) (s : State) : (modFwd f s).bufs = s.bufs := rfl
@[simp] theorem modFwd_hbm (f : Fwd → Fwd) (s : State) : (modFwd f s).hbm = s.hbm := rfl
@[simp] theorem modFwd_host (f : Fwd → Fwd) (s : State) : (modFwd f s).host = s.host := rfl
@[simp] theorem modFwd_dbg (f : Fwd → Fwd) (s : State) : (modFwd f s).dbg = s.dbg := rfl
@[simp] theorem modFwd_led (f : Fwd → Fwd) (s : State) : (modFwd f s).led = s.led := rfl
@[simp] theorem modFwd_ctr (f : Fwd → Fwd) (s : State) : (modFwd f s).ctr = s.ctr := rfl
@[simp] theorem modFwd_out (f : Fwd → Fwd) (s : State) : (modFwd f s).out = s.out := rfl
@[simp] theorem modFwd_free (f : Fwd → Fwd) (s : State) : (modFwd f s).free = s.free := rfl
@[simp] theorem modFwd_pending (f : Fwd → Fwd) (s : State) : (modFwd f s).pending = s.pending := rfl
@[simp] theorem modZmt_clk (f : Zmt → Zmt) (s : State) : (modZmt f s).clk = s.clk := rfl
@[simp] theorem modZmt_dict (f : Zmt → Zmt) (s : State) : (modZmt f s).dict = s.dict := rfl
@[simp] theorem modZmt_fab (f : Zmt → Zmt) (s : State) : (modZmt f s).fab = s.fab := rfl
@[simp] theorem modZmt_cls (f : Zmt → Zmt) (s : State) : (modZmt f s).cls = s.cls := rfl
@[simp] theorem modZmt_fwd (f : Zmt → Zmt) (s : State) : (modZmt f s).fwd = s.fwd := rfl
@[simp] theorem modZmt_zmt (f : Zmt → Zmt) (s : State) : (modZmt f s).zmt = f s.zmt := rfl
@[simp] theorem modZmt_mem (f : Zmt → Zmt) (s : State) : (modZmt f s).mem = s.mem := rfl
@[simp] theorem modZmt_cpu (f : Zmt → Zmt) (s : State) : (modZmt f s).cpu = s.cpu := rfl
@[simp] theorem modZmt_sched (f : Zmt → Zmt) (s : State) : (modZmt f s).sched = s.sched := rfl
@[simp] theorem modZmt_locks (f : Zmt → Zmt) (s : State) : (modZmt f s).locks = s.locks := rfl
@[simp] theorem modZmt_power (f : Zmt → Zmt) (s : State) : (modZmt f s).power = s.power := rfl
@[simp] theorem modZmt_cops (f : Zmt → Zmt) (s : State) : (modZmt f s).cops = s.cops := rfl
@[simp] theorem modZmt_mat (f : Zmt → Zmt) (s : State) : (modZmt f s).mat = s.mat := rfl
@[simp] theorem modZmt_bufs (f : Zmt → Zmt) (s : State) : (modZmt f s).bufs = s.bufs := rfl
@[simp] theorem modZmt_hbm (f : Zmt → Zmt) (s : State) : (modZmt f s).hbm = s.hbm := rfl
@[simp] theorem modZmt_host (f : Zmt → Zmt) (s : State) : (modZmt f s).host = s.host := rfl
@[simp] theorem modZmt_dbg (f : Zmt → Zmt) (s : State) : (modZmt f s).dbg = s.dbg := rfl
@[simp] theorem modZmt_led (f : Zmt → Zmt) (s : State) : (modZmt f s).led = s.led := rfl
@[simp] theorem modZmt_ctr (f : Zmt → Zmt) (s : State) : (modZmt f s).ctr = s.ctr := rfl
@[simp] theorem modZmt_out (f : Zmt → Zmt) (s : State) : (modZmt f s).out = s.out := rfl
@[simp] theorem modZmt_free (f : Zmt → Zmt) (s : State) : (modZmt f s).free = s.free := rfl
@[simp] theorem modZmt_pending (f : Zmt → Zmt) (s : State) : (modZmt f s).pending = s.pending := rfl
@[simp] theorem modMem_clk (f : Mem → Mem) (s : State) : (modMem f s).clk = s.clk := rfl
@[simp] theorem modMem_dict (f : Mem → Mem) (s : State) : (modMem f s).dict = s.dict := rfl
@[simp] theorem modMem_fab (f : Mem → Mem) (s : State) : (modMem f s).fab = s.fab := rfl
@[simp] theorem modMem_cls (f : Mem → Mem) (s : State) : (modMem f s).cls = s.cls := rfl
@[simp] theorem modMem_fwd (f : Mem → Mem) (s : State) : (modMem f s).fwd = s.fwd := rfl
@[simp] theorem modMem_zmt (f : Mem → Mem) (s : State) : (modMem f s).zmt = s.zmt := rfl
@[simp] theorem modMem_mem (f : Mem → Mem) (s : State) : (modMem f s).mem = f s.mem := rfl
@[simp] theorem modMem_cpu (f : Mem → Mem) (s : State) : (modMem f s).cpu = s.cpu := rfl
@[simp] theorem modMem_sched (f : Mem → Mem) (s : State) : (modMem f s).sched = s.sched := rfl
@[simp] theorem modMem_locks (f : Mem → Mem) (s : State) : (modMem f s).locks = s.locks := rfl
@[simp] theorem modMem_power (f : Mem → Mem) (s : State) : (modMem f s).power = s.power := rfl
@[simp] theorem modMem_cops (f : Mem → Mem) (s : State) : (modMem f s).cops = s.cops := rfl
@[simp] theorem modMem_mat (f : Mem → Mem) (s : State) : (modMem f s).mat = s.mat := rfl
@[simp] theorem modMem_bufs (f : Mem → Mem) (s : State) : (modMem f s).bufs = s.bufs := rfl
@[simp] theorem modMem_hbm (f : Mem → Mem) (s : State) : (modMem f s).hbm = s.hbm := rfl
@[simp] theorem modMem_host (f : Mem → Mem) (s : State) : (modMem f s).host = s.host := rfl
@[simp] theorem modMem_dbg (f : Mem → Mem) (s : State) : (modMem f s).dbg = s.dbg := rfl
@[simp] theorem modMem_led (f : Mem → Mem) (s : State) : (modMem f s).led = s.led := rfl
@[simp] theorem modMem_ctr (f : Mem → Mem) (s : State) : (modMem f s).ctr = s.ctr := rfl
@[simp] theorem modMem_out (f : Mem → Mem) (s : State) : (modMem f s).out = s.out := rfl
@[simp] theorem modMem_free (f : Mem → Mem) (s : State) : (modMem f s).free = s.free := rfl
@[simp] theorem modMem_pending (f : Mem → Mem) (s : State) : (modMem f s).pending = s.pending := rfl
@[simp] theorem modCpu_clk (f : Cpu → Cpu) (s : State) : (modCpu f s).clk = s.clk := rfl
@[simp] theorem modCpu_dict (f : Cpu → Cpu) (s : State) : (modCpu f s).dict = s.dict := rfl
@[simp] theorem modCpu_fab (f : Cpu → Cpu) (s : State) : (modCpu f s).fab = s.fab := rfl
@[simp] theorem modCpu_cls (f : Cpu → Cpu) (s : State) : (modCpu f s).cls = s.cls := rfl
@[simp] theorem modCpu_fwd (f : Cpu → Cpu) (s : State) : (modCpu f s).fwd = s.fwd := rfl
@[simp] theorem modCpu_zmt (f : Cpu → Cpu) (s : State) : (modCpu f s).zmt = s.zmt := rfl
@[simp] theorem modCpu_mem (f : Cpu → Cpu) (s : State) : (modCpu f s).mem = s.mem := rfl
@[simp] theorem modCpu_cpu (f : Cpu → Cpu) (s : State) : (modCpu f s).cpu = f s.cpu := rfl
@[simp] theorem modCpu_sched (f : Cpu → Cpu) (s : State) : (modCpu f s).sched = s.sched := rfl
@[simp] theorem modCpu_locks (f : Cpu → Cpu) (s : State) : (modCpu f s).locks = s.locks := rfl
@[simp] theorem modCpu_power (f : Cpu → Cpu) (s : State) : (modCpu f s).power = s.power := rfl
@[simp] theorem modCpu_cops (f : Cpu → Cpu) (s : State) : (modCpu f s).cops = s.cops := rfl
@[simp] theorem modCpu_mat (f : Cpu → Cpu) (s : State) : (modCpu f s).mat = s.mat := rfl
@[simp] theorem modCpu_bufs (f : Cpu → Cpu) (s : State) : (modCpu f s).bufs = s.bufs := rfl
@[simp] theorem modCpu_hbm (f : Cpu → Cpu) (s : State) : (modCpu f s).hbm = s.hbm := rfl
@[simp] theorem modCpu_host (f : Cpu → Cpu) (s : State) : (modCpu f s).host = s.host := rfl
@[simp] theorem modCpu_dbg (f : Cpu → Cpu) (s : State) : (modCpu f s).dbg = s.dbg := rfl
@[simp] theorem modCpu_led (f : Cpu → Cpu) (s : State) : (modCpu f s).led = s.led := rfl
@[simp] theorem modCpu_ctr (f : Cpu → Cpu) (s : State) : (modCpu f s).ctr = s.ctr := rfl
@[simp] theorem modCpu_out (f : Cpu → Cpu) (s : State) : (modCpu f s).out = s.out := rfl
@[simp] theorem modCpu_free (f : Cpu → Cpu) (s : State) : (modCpu f s).free = s.free := rfl
@[simp] theorem modCpu_pending (f : Cpu → Cpu) (s : State) : (modCpu f s).pending = s.pending := rfl
@[simp] theorem modSched_clk (f : Sched → Sched) (s : State) : (modSched f s).clk = s.clk := rfl
@[simp] theorem modSched_dict (f : Sched → Sched) (s : State) : (modSched f s).dict = s.dict := rfl
@[simp] theorem modSched_fab (f : Sched → Sched) (s : State) : (modSched f s).fab = s.fab := rfl
@[simp] theorem modSched_cls (f : Sched → Sched) (s : State) : (modSched f s).cls = s.cls := rfl
@[simp] theorem modSched_fwd (f : Sched → Sched) (s : State) : (modSched f s).fwd = s.fwd := rfl
@[simp] theorem modSched_zmt (f : Sched → Sched) (s : State) : (modSched f s).zmt = s.zmt := rfl
@[simp] theorem modSched_mem (f : Sched → Sched) (s : State) : (modSched f s).mem = s.mem := rfl
@[simp] theorem modSched_cpu (f : Sched → Sched) (s : State) : (modSched f s).cpu = s.cpu := rfl
@[simp] theorem modSched_sched (f : Sched → Sched) (s : State) : (modSched f s).sched = f s.sched := rfl
@[simp] theorem modSched_locks (f : Sched → Sched) (s : State) : (modSched f s).locks = s.locks := rfl
@[simp] theorem modSched_power (f : Sched → Sched) (s : State) : (modSched f s).power = s.power := rfl
@[simp] theorem modSched_cops (f : Sched → Sched) (s : State) : (modSched f s).cops = s.cops := rfl
@[simp] theorem modSched_mat (f : Sched → Sched) (s : State) : (modSched f s).mat = s.mat := rfl
@[simp] theorem modSched_bufs (f : Sched → Sched) (s : State) : (modSched f s).bufs = s.bufs := rfl
@[simp] theorem modSched_hbm (f : Sched → Sched) (s : State) : (modSched f s).hbm = s.hbm := rfl
@[simp] theorem modSched_host (f : Sched → Sched) (s : State) : (modSched f s).host = s.host := rfl
@[simp] theorem modSched_dbg (f : Sched → Sched) (s : State) : (modSched f s).dbg = s.dbg := rfl
@[simp] theorem modSched_led (f : Sched → Sched) (s : State) : (modSched f s).led = s.led := rfl
@[simp] theorem modSched_ctr (f : Sched → Sched) (s : State) : (modSched f s).ctr = s.ctr := rfl
@[simp] theorem modSched_out (f : Sched → Sched) (s : State) : (modSched f s).out = s.out := rfl
@[simp] theorem modSched_free (f : Sched → Sched) (s : State) : (modSched f s).free = s.free := rfl
@[simp] theorem modSched_pending (f : Sched → Sched) (s : State) : (modSched f s).pending = s.pending := rfl
@[simp] theorem modLocks_clk (f : Locks → Locks) (s : State) : (modLocks f s).clk = s.clk := rfl
@[simp] theorem modLocks_dict (f : Locks → Locks) (s : State) : (modLocks f s).dict = s.dict := rfl
@[simp] theorem modLocks_fab (f : Locks → Locks) (s : State) : (modLocks f s).fab = s.fab := rfl
@[simp] theorem modLocks_cls (f : Locks → Locks) (s : State) : (modLocks f s).cls = s.cls := rfl
@[simp] theorem modLocks_fwd (f : Locks → Locks) (s : State) : (modLocks f s).fwd = s.fwd := rfl
@[simp] theorem modLocks_zmt (f : Locks → Locks) (s : State) : (modLocks f s).zmt = s.zmt := rfl
@[simp] theorem modLocks_mem (f : Locks → Locks) (s : State) : (modLocks f s).mem = s.mem := rfl
@[simp] theorem modLocks_cpu (f : Locks → Locks) (s : State) : (modLocks f s).cpu = s.cpu := rfl
@[simp] theorem modLocks_sched (f : Locks → Locks) (s : State) : (modLocks f s).sched = s.sched := rfl
@[simp] theorem modLocks_locks (f : Locks → Locks) (s : State) : (modLocks f s).locks = f s.locks := rfl
@[simp] theorem modLocks_power (f : Locks → Locks) (s : State) : (modLocks f s).power = s.power := rfl
@[simp] theorem modLocks_cops (f : Locks → Locks) (s : State) : (modLocks f s).cops = s.cops := rfl
@[simp] theorem modLocks_mat (f : Locks → Locks) (s : State) : (modLocks f s).mat = s.mat := rfl
@[simp] theorem modLocks_bufs (f : Locks → Locks) (s : State) : (modLocks f s).bufs = s.bufs := rfl
@[simp] theorem modLocks_hbm (f : Locks → Locks) (s : State) : (modLocks f s).hbm = s.hbm := rfl
@[simp] theorem modLocks_host (f : Locks → Locks) (s : State) : (modLocks f s).host = s.host := rfl
@[simp] theorem modLocks_dbg (f : Locks → Locks) (s : State) : (modLocks f s).dbg = s.dbg := rfl
@[simp] theorem modLocks_led (f : Locks → Locks) (s : State) : (modLocks f s).led = s.led := rfl
@[simp] theorem modLocks_ctr (f : Locks → Locks) (s : State) : (modLocks f s).ctr = s.ctr := rfl
@[simp] theorem modLocks_out (f : Locks → Locks) (s : State) : (modLocks f s).out = s.out := rfl
@[simp] theorem modLocks_free (f : Locks → Locks) (s : State) : (modLocks f s).free = s.free := rfl
@[simp] theorem modLocks_pending (f : Locks → Locks) (s : State) : (modLocks f s).pending = s.pending := rfl
@[simp] theorem modPower_clk (f : Power → Power) (s : State) : (modPower f s).clk = s.clk := rfl
@[simp] theorem modPower_dict (f : Power → Power) (s : State) : (modPower f s).dict = s.dict := rfl
@[simp] theorem modPower_fab (f : Power → Power) (s : State) : (modPower f s).fab = s.fab := rfl
@[simp] theorem modPower_cls (f : Power → Power) (s : State) : (modPower f s).cls = s.cls := rfl
@[simp] theorem modPower_fwd (f : Power → Power) (s : State) : (modPower f s).fwd = s.fwd := rfl
@[simp] theorem modPower_zmt (f : Power → Power) (s : State) : (modPower f s).zmt = s.zmt := rfl
@[simp] theorem modPower_mem (f : Power → Power) (s : State) : (modPower f s).mem = s.mem := rfl
@[simp] theorem modPower_cpu (f : Power → Power) (s : State) : (modPower f s).cpu = s.cpu := rfl
@[simp] theorem modPower_sched (f : Power → Power) (s : State) : (modPower f s).sched = s.sched := rfl
@[simp] theorem modPower_locks (f : Power → Power) (s : State) : (modPower f s).locks = s.locks := rfl
@[simp] theorem modPower_power (f : Power → Power) (s : State) : (modPower f s).power = f s.power := rfl
@[simp] theorem modPower_cops (f : Power → Power) (s : State) : (modPower f s).cops = s.cops := rfl
@[simp] theorem modPower_mat (f : Power → Power) (s : State) : (modPower f s).mat = s.mat := rfl
@[simp] theorem modPower_bufs (f : Power → Power) (s : State) : (modPower f s).bufs = s.bufs := rfl
@[simp] theorem modPower_hbm (f : Power → Power) (s : State) : (modPower f s).hbm = s.hbm := rfl
@[simp] theorem modPower_host (f : Power → Power) (s : State) : (modPower f s).host = s.host := rfl
@[simp] theorem modPower_dbg (f : Power → Power) (s : State) : (modPower f s).dbg = s.dbg := rfl
@[simp] theorem modPower_led (f : Power → Power) (s : State) : (modPower f s).led = s.led := rfl
@[simp] theorem modPower_ctr (f : Power → Power) (s : State) : (modPower f s).ctr = s.ctr := rfl
@[simp] theorem modPower_out (f : Power → Power) (s : State) : (modPower f s).out = s.out := rfl
@[simp] theorem modPower_free (f : Power → Power) (s : State) : (modPower f s).free = s.free := rfl
@[simp] theorem modPower_pending (f : Power → Power) (s : State) : (modPower f s).pending = s.pending := rfl
@[simp] theorem modCops_clk (f : Cops → Cops) (s : State) : (modCops f s).clk = s.clk := rfl
@[simp] theorem modCops_dict (f : Cops → Cops) (s : State) : (modCops f s).dict = s.dict := rfl
@[simp] theorem modCops_fab (f : Cops → Cops) (s : State) : (modCops f s).fab = s.fab := rfl
@[simp] theorem modCops_cls (f : Cops → Cops) (s : State) : (modCops f s).cls = s.cls := rfl
@[simp] theorem modCops_fwd (f : Cops → Cops) (s : State) : (modCops f s).fwd = s.fwd := rfl
@[simp] theorem modCops_zmt (f : Cops → Cops) (s : State) : (modCops f s).zmt = s.zmt := rfl
@[simp] theorem modCops_mem (f : Cops → Cops) (s : State) : (modCops f s).mem = s.mem := rfl
@[simp] theorem modCops_cpu (f : Cops → Cops) (s : State) : (modCops f s).cpu = s.cpu := rfl
@[simp] theorem modCops_sched (f : Cops → Cops) (s : State) : (modCops f s).sched = s.sched := rfl
@[simp] theorem modCops_locks (f : Cops → Cops) (s : State) : (modCops f s).locks = s.locks := rfl
@[simp] theorem modCops_power (f : Cops → Cops) (s : State) : (modCops f s).power = s.power := rfl
@[simp] theorem modCops_cops (f : Cops → Cops) (s : State) : (modCops f s).cops = f s.cops := rfl
@[simp] theorem modCops_mat (f : Cops → Cops) (s : State) : (modCops f s).mat = s.mat := rfl
@[simp] theorem modCops_bufs (f : Cops → Cops) (s : State) : (modCops f s).bufs = s.bufs := rfl
@[simp] theorem modCops_hbm (f : Cops → Cops) (s : State) : (modCops f s).hbm = s.hbm := rfl
@[simp] theorem modCops_host (f : Cops → Cops) (s : State) : (modCops f s).host = s.host := rfl
@[simp] theorem modCops_dbg (f : Cops → Cops) (s : State) : (modCops f s).dbg = s.dbg := rfl
@[simp] theorem modCops_led (f : Cops → Cops) (s : State) : (modCops f s).led = s.led := rfl
@[simp] theorem modCops_ctr (f : Cops → Cops) (s : State) : (modCops f s).ctr = s.ctr := rfl
@[simp] theorem modCops_out (f : Cops → Cops) (s : State) : (modCops f s).out = s.out := rfl
@[simp] theorem modCops_free (f : Cops → Cops) (s : State) : (modCops f s).free = s.free := rfl
@[simp] theorem modCops_pending (f : Cops → Cops) (s : State) : (modCops f s).pending = s.pending := rfl
@[simp] theorem modMat_clk (f : Match → Match) (s : State) : (modMat f s).clk = s.clk := rfl
@[simp] theorem modMat_dict (f : Match → Match) (s : State) : (modMat f s).dict = s.dict := rfl
@[simp] theorem modMat_fab (f : Match → Match) (s : State) : (modMat f s).fab = s.fab := rfl
@[simp] theorem modMat_cls (f : Match → Match) (s : State) : (modMat f s).cls = s.cls := rfl
@[simp] theorem modMat_fwd (f : Match → Match) (s : State) : (modMat f s).fwd = s.fwd := rfl
@[simp] theorem modMat_zmt (f : Match → Match) (s : State) : (modMat f s).zmt = s.zmt := rfl
@[simp] theorem modMat_mem (f : Match → Match) (s : State) : (modMat f s).mem = s.mem := rfl
@[simp] theorem modMat_cpu (f : Match → Match) (s : State) : (modMat f s).cpu = s.cpu := rfl
@[simp] theorem modMat_sched (f : Match → Match) (s : State) : (modMat f s).sched = s.sched := rfl
@[simp] theorem modMat_locks (f : Match → Match) (s : State) : (modMat f s).locks = s.locks := rfl
@[simp] theorem modMat_power (f : Match → Match) (s : State) : (modMat f s).power = s.power := rfl
@[simp] theorem modMat_cops (f : Match → Match) (s : State) : (modMat f s).cops = s.cops := rfl
@[simp] theorem modMat_mat (f : Match → Match) (s : State) : (modMat f s).mat = f s.mat := rfl
@[simp] theorem modMat_bufs (f : Match → Match) (s : State) : (modMat f s).bufs = s.bufs := rfl
@[simp] theorem modMat_hbm (f : Match → Match) (s : State) : (modMat f s).hbm = s.hbm := rfl
@[simp] theorem modMat_host (f : Match → Match) (s : State) : (modMat f s).host = s.host := rfl
@[simp] theorem modMat_dbg (f : Match → Match) (s : State) : (modMat f s).dbg = s.dbg := rfl
@[simp] theorem modMat_led (f : Match → Match) (s : State) : (modMat f s).led = s.led := rfl
@[simp] theorem modMat_ctr (f : Match → Match) (s : State) : (modMat f s).ctr = s.ctr := rfl
@[simp] theorem modMat_out (f : Match → Match) (s : State) : (modMat f s).out = s.out := rfl
@[simp] theorem modMat_free (f : Match → Match) (s : State) : (modMat f s).free = s.free := rfl
@[simp] theorem modMat_pending (f : Match → Match) (s : State) : (modMat f s).pending = s.pending := rfl
@[simp] theorem modBufs_clk (f : Bufs → Bufs) (s : State) : (modBufs f s).clk = s.clk := rfl
@[simp] theorem modBufs_dict (f : Bufs → Bufs) (s : State) : (modBufs f s).dict = s.dict := rfl
@[simp] theorem modBufs_fab (f : Bufs → Bufs) (s : State) : (modBufs f s).fab = s.fab := rfl
@[simp] theorem modBufs_cls (f : Bufs → Bufs) (s : State) : (modBufs f s).cls = s.cls := rfl
@[simp] theorem modBufs_fwd (f : Bufs → Bufs) (s : State) : (modBufs f s).fwd = s.fwd := rfl
@[simp] theorem modBufs_zmt (f : Bufs → Bufs) (s : State) : (modBufs f s).zmt = s.zmt := rfl
@[simp] theorem modBufs_mem (f : Bufs → Bufs) (s : State) : (modBufs f s).mem = s.mem := rfl
@[simp] theorem modBufs_cpu (f : Bufs → Bufs) (s : State) : (modBufs f s).cpu = s.cpu := rfl
@[simp] theorem modBufs_sched (f : Bufs → Bufs) (s : State) : (modBufs f s).sched = s.sched := rfl
@[simp] theorem modBufs_locks (f : Bufs → Bufs) (s : State) : (modBufs f s).locks = s.locks := rfl
@[simp] theorem modBufs_power (f : Bufs → Bufs) (s : State) : (modBufs f s).power = s.power := rfl
@[simp] theorem modBufs_cops (f : Bufs → Bufs) (s : State) : (modBufs f s).cops = s.cops := rfl
@[simp] theorem modBufs_mat (f : Bufs → Bufs) (s : State) : (modBufs f s).mat = s.mat := rfl
@[simp] theorem modBufs_bufs (f : Bufs → Bufs) (s : State) : (modBufs f s).bufs = f s.bufs := rfl
@[simp] theorem modBufs_hbm (f : Bufs → Bufs) (s : State) : (modBufs f s).hbm = s.hbm := rfl
@[simp] theorem modBufs_host (f : Bufs → Bufs) (s : State) : (modBufs f s).host = s.host := rfl
@[simp] theorem modBufs_dbg (f : Bufs → Bufs) (s : State) : (modBufs f s).dbg = s.dbg := rfl
@[simp] theorem modBufs_led (f : Bufs → Bufs) (s : State) : (modBufs f s).led = s.led := rfl
@[simp] theorem modBufs_ctr (f : Bufs → Bufs) (s : State) : (modBufs f s).ctr = s.ctr := rfl
@[simp] theorem modBufs_out (f : Bufs → Bufs) (s : State) : (modBufs f s).out = s.out := rfl
@[simp] theorem modBufs_free (f : Bufs → Bufs) (s : State) : (modBufs f s).free = s.free := rfl
@[simp] theorem modBufs_pending (f : Bufs → Bufs) (s : State) : (modBufs f s).pending = s.pending := rfl
@[simp] theorem modHbm_clk (f : Hbm → Hbm) (s : State) : (modHbm f s).clk = s.clk := rfl
@[simp] theorem modHbm_dict (f : Hbm → Hbm) (s : State) : (modHbm f s).dict = s.dict := rfl
@[simp] theorem modHbm_fab (f : Hbm → Hbm) (s : State) : (modHbm f s).fab = s.fab := rfl
@[simp] theorem modHbm_cls (f : Hbm → Hbm) (s : State) : (modHbm f s).cls = s.cls := rfl
@[simp] theorem modHbm_fwd (f : Hbm → Hbm) (s : State) : (modHbm f s).fwd = s.fwd := rfl
@[simp] theorem modHbm_zmt (f : Hbm → Hbm) (s : State) : (modHbm f s).zmt = s.zmt := rfl
@[simp] theorem modHbm_mem (f : Hbm → Hbm) (s : State) : (modHbm f s).mem = s.mem := rfl
@[simp] theorem modHbm_cpu (f : Hbm → Hbm) (s : State) : (modHbm f s).cpu = s.cpu := rfl
@[simp] theorem modHbm_sched (f : Hbm → Hbm) (s : State) : (modHbm f s).sched = s.sched := rfl
@[simp] theorem modHbm_locks (f : Hbm → Hbm) (s : State) : (modHbm f s).locks = s.locks := rfl
@[simp] theorem modHbm_power (f : Hbm → Hbm) (s : State) : (modHbm f s).power = s.power := rfl
@[simp] theorem modHbm_cops (f : Hbm → Hbm) (s : State) : (modHbm f s).cops = s.cops := rfl
@[simp] theorem modHbm_mat (f : Hbm → Hbm) (s : State) : (modHbm f s).mat = s.mat := rfl
@[simp] theorem modHbm_bufs (f : Hbm → Hbm) (s : State) : (modHbm f s).bufs = s.bufs := rfl
@[simp] theorem modHbm_hbm (f : Hbm → Hbm) (s : State) : (modHbm f s).hbm = f s.hbm := rfl
@[simp] theorem modHbm_host (f : Hbm → Hbm) (s : State) : (modHbm f s).host = s.host := rfl
@[simp] theorem modHbm_dbg (f : Hbm → Hbm) (s : State) : (modHbm f s).dbg = s.dbg := rfl
@[simp] theorem modHbm_led (f : Hbm → Hbm) (s : State) : (modHbm f s).led = s.led := rfl
@[simp] theorem modHbm_ctr (f : Hbm → Hbm) (s : State) : (modHbm f s).ctr = s.ctr := rfl
@[simp] theorem modHbm_out (f : Hbm → Hbm) (s : State) : (modHbm f s).out = s.out := rfl
@[simp] theorem modHbm_free (f : Hbm → Hbm) (s : State) : (modHbm f s).free = s.free := rfl
@[simp] theorem modHbm_pending (f : Hbm → Hbm) (s : State) : (modHbm f s).pending = s.pending := rfl
@[simp] theorem modHost_clk (f : HostIf → HostIf) (s : State) : (modHost f s).clk = s.clk := rfl
@[simp] theorem modHost_dict (f : HostIf → HostIf) (s : State) : (modHost f s).dict = s.dict := rfl
@[simp] theorem modHost_fab (f : HostIf → HostIf) (s : State) : (modHost f s).fab = s.fab := rfl
@[simp] theorem modHost_cls (f : HostIf → HostIf) (s : State) : (modHost f s).cls = s.cls := rfl
@[simp] theorem modHost_fwd (f : HostIf → HostIf) (s : State) : (modHost f s).fwd = s.fwd := rfl
@[simp] theorem modHost_zmt (f : HostIf → HostIf) (s : State) : (modHost f s).zmt = s.zmt := rfl
@[simp] theorem modHost_mem (f : HostIf → HostIf) (s : State) : (modHost f s).mem = s.mem := rfl
@[simp] theorem modHost_cpu (f : HostIf → HostIf) (s : State) : (modHost f s).cpu = s.cpu := rfl
@[simp] theorem modHost_sched (f : HostIf → HostIf) (s : State) : (modHost f s).sched = s.sched := rfl
@[simp] theorem modHost_locks (f : HostIf → HostIf) (s : State) : (modHost f s).locks = s.locks := rfl
@[simp] theorem modHost_power (f : HostIf → HostIf) (s : State) : (modHost f s).power = s.power := rfl
@[simp] theorem modHost_cops (f : HostIf → HostIf) (s : State) : (modHost f s).cops = s.cops := rfl
@[simp] theorem modHost_mat (f : HostIf → HostIf) (s : State) : (modHost f s).mat = s.mat := rfl
@[simp] theorem modHost_bufs (f : HostIf → HostIf) (s : State) : (modHost f s).bufs = s.bufs := rfl
@[simp] theorem modHost_hbm (f : HostIf → HostIf) (s : State) : (modHost f s).hbm = s.hbm := rfl
@[simp] theorem modHost_host (f : HostIf → HostIf) (s : State) : (modHost f s).host = f s.host := rfl
@[simp] theorem modHost_dbg (f : HostIf → HostIf) (s : State) : (modHost f s).dbg = s.dbg := rfl
@[simp] theorem modHost_led (f : HostIf → HostIf) (s : State) : (modHost f s).led = s.led := rfl
@[simp] theorem modHost_ctr (f : HostIf → HostIf) (s : State) : (modHost f s).ctr = s.ctr := rfl
@[simp] theorem modHost_out (f : HostIf → HostIf) (s : State) : (modHost f s).out = s.out := rfl
@[simp] theorem modHost_free (f : HostIf → HostIf) (s : State) : (modHost f s).free = s.free := rfl
@[simp] theorem modHost_pending (f : HostIf → HostIf) (s : State) : (modHost f s).pending = s.pending := rfl
@[simp] theorem modDbg_clk (f : Dbg → Dbg) (s : State) : (modDbg f s).clk = s.clk := rfl
@[simp] theorem modDbg_dict (f : Dbg → Dbg) (s : State) : (modDbg f s).dict = s.dict := rfl
@[simp] theorem modDbg_fab (f : Dbg → Dbg) (s : State) : (modDbg f s).fab = s.fab := rfl
@[simp] theorem modDbg_cls (f : Dbg → Dbg) (s : State) : (modDbg f s).cls = s.cls := rfl
@[simp] theorem modDbg_fwd (f : Dbg → Dbg) (s : State) : (modDbg f s).fwd = s.fwd := rfl
@[simp] theorem modDbg_zmt (f : Dbg → Dbg) (s : State) : (modDbg f s).zmt = s.zmt := rfl
@[simp] theorem modDbg_mem (f : Dbg → Dbg) (s : State) : (modDbg f s).mem = s.mem := rfl
@[simp] theorem modDbg_cpu (f : Dbg → Dbg) (s : State) : (modDbg f s).cpu = s.cpu := rfl
@[simp] theorem modDbg_sched (f : Dbg → Dbg) (s : State) : (modDbg f s).sched = s.sched := rfl
@[simp] theorem modDbg_locks (f : Dbg → Dbg) (s : State) : (modDbg f s).locks = s.locks := rfl
@[simp] theorem modDbg_power (f : Dbg → Dbg) (s : State) : (modDbg f s).power = s.power := rfl
@[simp] theorem modDbg_cops (f : Dbg → Dbg) (s : State) : (modDbg f s).cops = s.cops := rfl
@[simp] theorem modDbg_mat (f : Dbg → Dbg) (s : State) : (modDbg f s).mat = s.mat := rfl
@[simp] theorem modDbg_bufs (f : Dbg → Dbg) (s : State) : (modDbg f s).bufs = s.bufs := rfl
@[simp] theorem modDbg_hbm (f : Dbg → Dbg) (s : State) : (modDbg f s).hbm = s.hbm := rfl
@[simp] theorem modDbg_host (f : Dbg → Dbg) (s : State) : (modDbg f s).host = s.host := rfl
@[simp] theorem modDbg_dbg (f : Dbg → Dbg) (s : State) : (modDbg f s).dbg = f s.dbg := rfl
@[simp] theorem modDbg_led (f : Dbg → Dbg) (s : State) : (modDbg f s).led = s.led := rfl
@[simp] theorem modDbg_ctr (f : Dbg → Dbg) (s : State) : (modDbg f s).ctr = s.ctr := rfl
@[simp] theorem modDbg_out (f : Dbg → Dbg) (s : State) : (modDbg f s).out = s.out := rfl
@[simp] theorem modDbg_free (f : Dbg → Dbg) (s : State) : (modDbg f s).free = s.free := rfl
@[simp] theorem modDbg_pending (f : Dbg → Dbg) (s : State) : (modDbg f s).pending = s.pending := rfl
@[simp] theorem modLed_clk (f : Ledger → Ledger) (s : State) : (modLed f s).clk = s.clk := rfl
@[simp] theorem modLed_dict (f : Ledger → Ledger) (s : State) : (modLed f s).dict = s.dict := rfl
@[simp] theorem modLed_fab (f : Ledger → Ledger) (s : State) : (modLed f s).fab = s.fab := rfl
@[simp] theorem modLed_cls (f : Ledger → Ledger) (s : State) : (modLed f s).cls = s.cls := rfl
@[simp] theorem modLed_fwd (f : Ledger → Ledger) (s : State) : (modLed f s).fwd = s.fwd := rfl
@[simp] theorem modLed_zmt (f : Ledger → Ledger) (s : State) : (modLed f s).zmt = s.zmt := rfl
@[simp] theorem modLed_mem (f : Ledger → Ledger) (s : State) : (modLed f s).mem = s.mem := rfl
@[simp] theorem modLed_cpu (f : Ledger → Ledger) (s : State) : (modLed f s).cpu = s.cpu := rfl
@[simp] theorem modLed_sched (f : Ledger → Ledger) (s : State) : (modLed f s).sched = s.sched := rfl
@[simp] theorem modLed_locks (f : Ledger → Ledger) (s : State) : (modLed f s).locks = s.locks := rfl
@[simp] theorem modLed_power (f : Ledger → Ledger) (s : State) : (modLed f s).power = s.power := rfl
@[simp] theorem modLed_cops (f : Ledger → Ledger) (s : State) : (modLed f s).cops = s.cops := rfl
@[simp] theorem modLed_mat (f : Ledger → Ledger) (s : State) : (modLed f s).mat = s.mat := rfl
@[simp] theorem modLed_bufs (f : Ledger → Ledger) (s : State) : (modLed f s).bufs = s.bufs := rfl
@[simp] theorem modLed_hbm (f : Ledger → Ledger) (s : State) : (modLed f s).hbm = s.hbm := rfl
@[simp] theorem modLed_host (f : Ledger → Ledger) (s : State) : (modLed f s).host = s.host := rfl
@[simp] theorem modLed_dbg (f : Ledger → Ledger) (s : State) : (modLed f s).dbg = s.dbg := rfl
@[simp] theorem modLed_led (f : Ledger → Ledger) (s : State) : (modLed f s).led = f s.led := rfl
@[simp] theorem modLed_ctr (f : Ledger → Ledger) (s : State) : (modLed f s).ctr = s.ctr := rfl
@[simp] theorem modLed_out (f : Ledger → Ledger) (s : State) : (modLed f s).out = s.out := rfl
@[simp] theorem modLed_free (f : Ledger → Ledger) (s : State) : (modLed f s).free = s.free := rfl
@[simp] theorem modLed_pending (f : Ledger → Ledger) (s : State) : (modLed f s).pending = s.pending := rfl
@[simp] theorem modCtr_clk (f : Tab (BitVec 64) → Tab (BitVec 64)) (s : State) : (modCtr f s).clk = s.clk := rfl
@[simp] theorem modCtr_dict (f : Tab (BitVec 64) → Tab (BitVec 64)) (s : State) : (modCtr f s).dict = s.dict := rfl
@[simp] theorem modCtr_fab (f : Tab (BitVec 64) → Tab (BitVec 64)) (s : State) : (modCtr f s).fab = s.fab := rfl
@[simp] theorem modCtr_cls (f : Tab (BitVec 64) → Tab (BitVec 64)) (s : State) : (modCtr f s).cls = s.cls := rfl
@[simp] theorem modCtr_fwd (f : Tab (BitVec 64) → Tab (BitVec 64)) (s : State) : (modCtr f s).fwd = s.fwd := rfl
@[simp] theorem modCtr_zmt (f : Tab (BitVec 64) → Tab (BitVec 64)) (s : State) : (modCtr f s).zmt = s.zmt := rfl
@[simp] theorem modCtr_mem (f : Tab (BitVec 64) → Tab (BitVec 64)) (s : State) : (modCtr f s).mem = s.mem := rfl
@[simp] theorem modCtr_cpu (f : Tab (BitVec 64) → Tab (BitVec 64)) (s : State) : (modCtr f s).cpu = s.cpu := rfl
@[simp] theorem modCtr_sched (f : Tab (BitVec 64) → Tab (BitVec 64)) (s : State) : (modCtr f s).sched = s.sched := rfl
@[simp] theorem modCtr_locks (f : Tab (BitVec 64) → Tab (BitVec 64)) (s : State) : (modCtr f s).locks = s.locks := rfl
@[simp] theorem modCtr_power (f : Tab (BitVec 64) → Tab (BitVec 64)) (s : State) : (modCtr f s).power = s.power := rfl
@[simp] theorem modCtr_cops (f : Tab (BitVec 64) → Tab (BitVec 64)) (s : State) : (modCtr f s).cops = s.cops := rfl
@[simp] theorem modCtr_mat (f : Tab (BitVec 64) → Tab (BitVec 64)) (s : State) : (modCtr f s).mat = s.mat := rfl
@[simp] theorem modCtr_bufs (f : Tab (BitVec 64) → Tab (BitVec 64)) (s : State) : (modCtr f s).bufs = s.bufs := rfl
@[simp] theorem modCtr_hbm (f : Tab (BitVec 64) → Tab (BitVec 64)) (s : State) : (modCtr f s).hbm = s.hbm := rfl
@[simp] theorem modCtr_host (f : Tab (BitVec 64) → Tab (BitVec 64)) (s : State) : (modCtr f s).host = s.host := rfl
@[simp] theorem modCtr_dbg (f : Tab (BitVec 64) → Tab (BitVec 64)) (s : State) : (modCtr f s).dbg = s.dbg := rfl
@[simp] theorem modCtr_led (f : Tab (BitVec 64) → Tab (BitVec 64)) (s : State) : (modCtr f s).led = s.led := rfl
@[simp] theorem modCtr_ctr (f : Tab (BitVec 64) → Tab (BitVec 64)) (s : State) : (modCtr f s).ctr = f s.ctr := rfl
@[simp] theorem modCtr_out (f : Tab (BitVec 64) → Tab (BitVec 64)) (s : State) : (modCtr f s).out = s.out := rfl
@[simp] theorem modCtr_free (f : Tab (BitVec 64) → Tab (BitVec 64)) (s : State) : (modCtr f s).free = s.free := rfl
@[simp] theorem modCtr_pending (f : Tab (BitVec 64) → Tab (BitVec 64)) (s : State) : (modCtr f s).pending = s.pending := rfl
@[simp] theorem modOut_clk (f : List Output → List Output) (s : State) : (modOut f s).clk = s.clk := rfl
@[simp] theorem modOut_dict (f : List Output → List Output) (s : State) : (modOut f s).dict = s.dict := rfl
@[simp] theorem modOut_fab (f : List Output → List Output) (s : State) : (modOut f s).fab = s.fab := rfl
@[simp] theorem modOut_cls (f : List Output → List Output) (s : State) : (modOut f s).cls = s.cls := rfl
@[simp] theorem modOut_fwd (f : List Output → List Output) (s : State) : (modOut f s).fwd = s.fwd := rfl
@[simp] theorem modOut_zmt (f : List Output → List Output) (s : State) : (modOut f s).zmt = s.zmt := rfl
@[simp] theorem modOut_mem (f : List Output → List Output) (s : State) : (modOut f s).mem = s.mem := rfl
@[simp] theorem modOut_cpu (f : List Output → List Output) (s : State) : (modOut f s).cpu = s.cpu := rfl
@[simp] theorem modOut_sched (f : List Output → List Output) (s : State) : (modOut f s).sched = s.sched := rfl
@[simp] theorem modOut_locks (f : List Output → List Output) (s : State) : (modOut f s).locks = s.locks := rfl
@[simp] theorem modOut_power (f : List Output → List Output) (s : State) : (modOut f s).power = s.power := rfl
@[simp] theorem modOut_cops (f : List Output → List Output) (s : State) : (modOut f s).cops = s.cops := rfl
@[simp] theorem modOut_mat (f : List Output → List Output) (s : State) : (modOut f s).mat = s.mat := rfl
@[simp] theorem modOut_bufs (f : List Output → List Output) (s : State) : (modOut f s).bufs = s.bufs := rfl
@[simp] theorem modOut_hbm (f : List Output → List Output) (s : State) : (modOut f s).hbm = s.hbm := rfl
@[simp] theorem modOut_host (f : List Output → List Output) (s : State) : (modOut f s).host = s.host := rfl
@[simp] theorem modOut_dbg (f : List Output → List Output) (s : State) : (modOut f s).dbg = s.dbg := rfl
@[simp] theorem modOut_led (f : List Output → List Output) (s : State) : (modOut f s).led = s.led := rfl
@[simp] theorem modOut_ctr (f : List Output → List Output) (s : State) : (modOut f s).ctr = s.ctr := rfl
@[simp] theorem modOut_out (f : List Output → List Output) (s : State) : (modOut f s).out = f s.out := rfl
@[simp] theorem modOut_free (f : List Output → List Output) (s : State) : (modOut f s).free = s.free := rfl
@[simp] theorem modOut_pending (f : List Output → List Output) (s : State) : (modOut f s).pending = s.pending := rfl
@[simp] theorem modFree_clk (f : Nat → Nat) (s : State) : (modFree f s).clk = s.clk := rfl
@[simp] theorem modFree_dict (f : Nat → Nat) (s : State) : (modFree f s).dict = s.dict := rfl
@[simp] theorem modFree_fab (f : Nat → Nat) (s : State) : (modFree f s).fab = s.fab := rfl
@[simp] theorem modFree_cls (f : Nat → Nat) (s : State) : (modFree f s).cls = s.cls := rfl
@[simp] theorem modFree_fwd (f : Nat → Nat) (s : State) : (modFree f s).fwd = s.fwd := rfl
@[simp] theorem modFree_zmt (f : Nat → Nat) (s : State) : (modFree f s).zmt = s.zmt := rfl
@[simp] theorem modFree_mem (f : Nat → Nat) (s : State) : (modFree f s).mem = s.mem := rfl
@[simp] theorem modFree_cpu (f : Nat → Nat) (s : State) : (modFree f s).cpu = s.cpu := rfl
@[simp] theorem modFree_sched (f : Nat → Nat) (s : State) : (modFree f s).sched = s.sched := rfl
@[simp] theorem modFree_locks (f : Nat → Nat) (s : State) : (modFree f s).locks = s.locks := rfl
@[simp] theorem modFree_power (f : Nat → Nat) (s : State) : (modFree f s).power = s.power := rfl
@[simp] theorem modFree_cops (f : Nat → Nat) (s : State) : (modFree f s).cops = s.cops := rfl
@[simp] theorem modFree_mat (f : Nat → Nat) (s : State) : (modFree f s).mat = s.mat := rfl
@[simp] theorem modFree_bufs (f : Nat → Nat) (s : State) : (modFree f s).bufs = s.bufs := rfl
@[simp] theorem modFree_hbm (f : Nat → Nat) (s : State) : (modFree f s).hbm = s.hbm := rfl
@[simp] theorem modFree_host (f : Nat → Nat) (s : State) : (modFree f s).host = s.host := rfl
@[simp] theorem modFree_dbg (f : Nat → Nat) (s : State) : (modFree f s).dbg = s.dbg := rfl
@[simp] theorem modFree_led (f : Nat → Nat) (s : State) : (modFree f s).led = s.led := rfl
@[simp] theorem modFree_ctr (f : Nat → Nat) (s : State) : (modFree f s).ctr = s.ctr := rfl
@[simp] theorem modFree_out (f : Nat → Nat) (s : State) : (modFree f s).out = s.out := rfl
@[simp] theorem modFree_free (f : Nat → Nat) (s : State) : (modFree f s).free = f s.free := rfl
@[simp] theorem modFree_pending (f : Nat → Nat) (s : State) : (modFree f s).pending = s.pending := rfl
@[simp] theorem modPending_clk (f : List Instr → List Instr) (s : State) : (modPending f s).clk = s.clk := rfl
@[simp] theorem modPending_dict (f : List Instr → List Instr) (s : State) : (modPending f s).dict = s.dict := rfl
@[simp] theorem modPending_fab (f : List Instr → List Instr) (s : State) : (modPending f s).fab = s.fab := rfl
@[simp] theorem modPending_cls (f : List Instr → List Instr) (s : State) : (modPending f s).cls = s.cls := rfl
@[simp] theorem modPending_fwd (f : List Instr → List Instr) (s : State) : (modPending f s).fwd = s.fwd := rfl
@[simp] theorem modPending_zmt (f : List Instr → List Instr) (s : State) : (modPending f s).zmt = s.zmt := rfl
@[simp] theorem modPending_mem (f : List Instr → List Instr) (s : State) : (modPending f s).mem = s.mem := rfl
@[simp] theorem modPending_cpu (f : List Instr → List Instr) (s : State) : (modPending f s).cpu = s.cpu := rfl
@[simp] theorem modPending_sched (f : List Instr → List Instr) (s : State) : (modPending f s).sched = s.sched := rfl
@[simp] theorem modPending_locks (f : List Instr → List Instr) (s : State) : (modPending f s).locks = s.locks := rfl
@[simp] theorem modPending_power (f : List Instr → List Instr) (s : State) : (modPending f s).power = s.power := rfl
@[simp] theorem modPending_cops (f : List Instr → List Instr) (s : State) : (modPending f s).cops = s.cops := rfl
@[simp] theorem modPending_mat (f : List Instr → List Instr) (s : State) : (modPending f s).mat = s.mat := rfl
@[simp] theorem modPending_bufs (f : List Instr → List Instr) (s : State) : (modPending f s).bufs = s.bufs := rfl
@[simp] theorem modPending_hbm (f : List Instr → List Instr) (s : State) : (modPending f s).hbm = s.hbm := rfl
@[simp] theorem modPending_host (f : List Instr → List Instr) (s : State) : (modPending f s).host = s.host := rfl
@[simp] theorem modPending_dbg (f : List Instr → List Instr) (s : State) : (modPending f s).dbg = s.dbg := rfl
@[simp] theorem modPending_led (f : List Instr → List Instr) (s : State) : (modPending f s).led = s.led := rfl
@[simp] theorem modPending_ctr (f : List Instr → List Instr) (s : State) : (modPending f s).ctr = s.ctr := rfl
@[simp] theorem modPending_out (f : List Instr → List Instr) (s : State) : (modPending f s).out = s.out := rfl
@[simp] theorem modPending_free (f : List Instr → List Instr) (s : State) : (modPending f s).free = s.free := rfl
@[simp] theorem modPending_pending (f : List Instr → List Instr) (s : State) : (modPending f s).pending = f s.pending := rfl

end Sys2Proof.Machine
end

