-- ==== Sys2Proof/Laws/Tab.lean ====
section
/-! SUPPORT. Laws of sparse tables: reading after writing, and the canonical form. -/

namespace Sys2Proof.Machine

variable {α : Type}

/-! ### Reading after writing -/

@[simp] theorem tfind_tput_same (t : Tab α) (k : Nat) (v : α) : tfind (tput t k v) k = some v := by
  induction t with
  | nil => simp [tput, tfind]
  | cons e t ih =>
    obtain ⟨k', v'⟩ := e
    simp only [tput]
    split
    · simp [tfind]
    · split
      · simp [tfind]
      · rename_i h
        simp [tfind, Ne.symm h, ih]

theorem tfind_tput_ne (t : Tab α) {k j : Nat} (v : α) (h : j ≠ k) : tfind (tput t k v) j = tfind t j := by
  induction t with
  | nil => simp [tput, tfind, Ne.symm h]
  | cons e t ih =>
    obtain ⟨k', v'⟩ := e
    simp only [tput]
    split
    · simp [tfind, Ne.symm h]
    · split
      · rename_i h2
        subst h2
        simp [tfind, Ne.symm h]
      · simp [tfind, ih]

@[simp] theorem tfind_tdel_same (t : Tab α) (k : Nat) : tfind (tdel t k) k = none := by
  induction t with
  | nil => simp [tdel, tfind]
  | cons e t ih =>
    obtain ⟨k', v'⟩ := e
    simp only [tdel]
    split
    · exact ih
    · rename_i h
      simp [tfind, h, ih]

theorem tfind_tdel_ne (t : Tab α) {k j : Nat} (h : j ≠ k) : tfind (tdel t k) j = tfind t j := by
  induction t with
  | nil => simp [tdel]
  | cons e t ih =>
    obtain ⟨k', v'⟩ := e
    simp only [tdel]
    split
    · rename_i h2
      subst h2
      simp [tfind, Ne.symm h, ih]
    · simp [tfind, ih]

section WithDefault
variable [DecidableEq α] (d : α)

@[simp] theorem tget_tset_same (t : Tab α) (k : Nat) (v : α) : tget d (tset d t k v) k = v := by
  simp only [tget, tset]
  split
  · rename_i h
    simp [h]
  · simp

theorem tfind_tset_ne (t : Tab α) {k j : Nat} (v : α) (h : j ≠ k) : tfind (tset d t k v) j = tfind t j := by
  simp only [tset]
  split
  · rw [tfind_tdel_ne t h]
  · rw [tfind_tput_ne t v h]

theorem tget_tset_ne (t : Tab α) {k j : Nat} (v : α) (h : j ≠ k) : tget d (tset d t k v) j = tget d t j := by
  simp only [tget, tset]
  split
  · rw [tfind_tdel_ne t h]
  · rw [tfind_tput_ne t v h]

@[simp] theorem tget_tmod_same (t : Tab α) (k : Nat) (f : α → α) : tget d (tmod d t k f) k = f (tget d t k) := by
  simp [tmod]

theorem tget_tmod_ne (t : Tab α) {k j : Nat} (f : α → α) (h : j ≠ k) : tget d (tmod d t k f) j = tget d t j := by
  simp [tmod, tget_tset_ne d t _ h]

end WithDefault

@[simp] theorem tget_nil (d : α) (k : Nat) : tget d ([] : Tab α) k = d := rfl

/-! ### The canonical form -/

theorem tsortedFrom_weaken (t : Tab α) {lo : Option Nat} {k : Nat} (hk : ∀ l, lo = some l → l ≤ k)
    (h : tsortedFrom (some k) t = true) : tsortedFrom lo t = true := by
  cases t with
  | nil => rfl
  | cons e t =>
    obtain ⟨k', v'⟩ := e
    simp only [tsortedFrom, Bool.and_eq_true, decide_eq_true_eq] at h ⊢
    refine ⟨?_, h.2⟩
    cases lo with
    | none => rfl
    | some l => have := hk l rfl; simp only [decide_eq_true_eq]; omega

theorem tsortedFrom_tput (t : Tab α) (k : Nat) (v : α) : ∀ {lo : Option Nat}, (∀ l, lo = some l → l < k) →
    tsortedFrom lo t = true → tsortedFrom lo (tput t k v) = true := by
  induction t with
  | nil =>
    intro lo hlo _
    cases lo with
    | none => rfl
    | some l => simp [tput, tsortedFrom, hlo l rfl]
  | cons e t ih =>
    obtain ⟨k', v'⟩ := e
    intro lo hlo h
    simp only [tsortedFrom, Bool.and_eq_true] at h
    simp only [tput]
    split
    · rename_i h1
      simp only [tsortedFrom, Bool.and_eq_true, decide_eq_true_eq]
      refine ⟨?_, h1, h.2⟩
      cases lo with
      | none => rfl
      | some l => simp [hlo l rfl]
    · split
      · rename_i h2
        subst h2
        simp only [tsortedFrom, Bool.and_eq_true]
        exact h
      · rename_i h1 h2
        simp only [tsortedFrom, Bool.and_eq_true]
        refine ⟨h.1, ih ?_ h.2⟩
        intro l hl
        cases hl
        omega

theorem tsortedFrom_tdel (t : Tab α) (k : Nat) : ∀ {lo : Option Nat},
    tsortedFrom lo t = true → tsortedFrom lo (tdel t k) = true := by
  induction t with
  | nil => intro lo _; rfl
  | cons e t ih =>
    obtain ⟨k', v'⟩ := e
    intro lo h
    simp only [tsortedFrom, Bool.and_eq_true] at h
    simp only [tdel]
    split
    · refine ih (tsortedFrom_weaken t (k := k') ?_ h.2)
      intro l hl
      subst hl
      have := h.1
      simp only [decide_eq_true_eq] at this
      omega
    · simp only [tsortedFrom, Bool.and_eq_true]
      exact ⟨h.1, ih h.2⟩

theorem tsortedFrom_tfilter (p : Nat → α → Bool) (t : Tab α) : ∀ {lo : Option Nat},
    tsortedFrom lo t = true → tsortedFrom lo (tfilter p t) = true := by
  induction t with
  | nil => intro lo _; rfl
  | cons e t ih =>
    obtain ⟨k', v'⟩ := e
    intro lo h
    simp only [tsortedFrom, Bool.and_eq_true] at h
    simp only [tfilter, List.filter]
    split
    · simp only [tsortedFrom, Bool.and_eq_true]
      exact ⟨h.1, ih h.2⟩
    · refine ih (tsortedFrom_weaken t (k := k') ?_ h.2)
      intro l hl
      subst hl
      have := h.1
      simp only [decide_eq_true_eq] at this
      omega

theorem tsortedFrom_map (g : Nat × α → α) (t : Tab α) : ∀ {lo : Option Nat},
    tsortedFrom lo t = true → tsortedFrom lo (t.map (fun e => (e.1, g e))) = true := by
  induction t with
  | nil => intro lo _; rfl
  | cons e t ih =>
    obtain ⟨k', v'⟩ := e
    intro lo h
    simp only [tsortedFrom, Bool.and_eq_true] at h
    simp only [List.map, tsortedFrom, Bool.and_eq_true]
    exact ⟨h.1, ih h.2⟩

theorem mem_tput (t : Tab α) (k : Nat) (v : α) {e : Nat × α} (h : e ∈ tput t k v) : e = (k, v) ∨ e ∈ t := by
  induction t with
  | nil => simpa [tput] using h
  | cons x t ih =>
    obtain ⟨k', v'⟩ := x
    simp only [tput] at h
    split at h
    · simpa using h
    · split at h
      · rename_i h2
        rcases List.mem_cons.1 h with h | h
        · exact .inl h
        · exact .inr (List.mem_cons_of_mem _ h)
      · rcases List.mem_cons.1 h with h | h
        · subst h
          exact .inr (by simp)
        · rcases ih h with h | h
          · exact .inl h
          · exact .inr (List.mem_cons_of_mem _ h)

theorem mem_tdel (t : Tab α) (k : Nat) {e : Nat × α} (h : e ∈ tdel t k) : e ∈ t := by
  induction t with
  | nil => simp [tdel] at h
  | cons x t ih =>
    obtain ⟨k', v'⟩ := x
    simp only [tdel] at h
    split at h
    · exact List.mem_cons_of_mem _ (ih h)
    · rcases List.mem_cons.1 h with h | h
      · subst h
        simp
      · exact List.mem_cons_of_mem _ (ih h)

variable [DecidableEq α] {d : α}

theorem twf_iff (t : Tab α) : twf d t = true ↔ tsortedFrom none t = true ∧ ∀ e ∈ t, e.2 ≠ d := by
  simp [twf, tsorted]

/-- Every write keeps the canonical form of a table with a default. -/
theorem twf_tset {t : Tab α} (k : Nat) (v : α) (h : twf d t = true) : twf d (tset d t k v) = true := by
  rw [twf_iff] at h ⊢
  simp only [tset]
  split
  · exact ⟨tsortedFrom_tdel t k h.1, fun e he => h.2 e (mem_tdel t k he)⟩
  · rename_i hv
    refine ⟨tsortedFrom_tput t k v (by simp) h.1, fun e he => ?_⟩
    rcases mem_tput t k v he with rfl | he
    · exact hv
    · exact h.2 e he

theorem twf_tmod {t : Tab α} (k : Nat) (f : α → α) (h : twf d t = true) : twf d (tmod d t k f) = true :=
  twf_tset k _ h

theorem twf_tfilter {t : Tab α} (p : Nat → α → Bool) (h : twf d t = true) : twf d (tfilter p t) = true := by
  rw [twf_iff] at h ⊢
  exact ⟨tsortedFrom_tfilter p t h.1, fun e he => h.2 e (List.mem_filter.1 he).1⟩

/-- Changing every value and dropping those that became the default keeps the canonical form. -/
theorem twf_map_filter {t : Tab α} (g : Nat × α → α) (h : twf d t = true) :
    twf d ((t.map (fun e => (e.1, g e))).filter (fun e => decide (e.2 ≠ d))) = true := by
  rw [twf_iff] at h ⊢
  refine ⟨tsortedFrom_tfilter (fun _ v => decide (v ≠ d)) _ (tsortedFrom_map g t h.1), fun e he => ?_⟩
  simpa using (List.mem_filter.1 he).2

end Sys2Proof.Machine
end

