-- ==== Sys2Proof/Laws/Core.lean ====
section
/-! SUPPORT. What the thread operations do to the threads: reading a thread after an update of it or of another. -/

namespace Sys2Proof.Machine

/-! ### Threads -/

@[simp] theorem thr_modThr_same (t : Nat) (f : Thread → Thread) (s : State) : thr (modThr t f s) t = f (thr s t) := by
  simp [thr, modThr]

theorem thr_modThr_ne {t u : Nat} (f : Thread → Thread) (s : State) (h : u ≠ t) : thr (modThr t f s) u = thr s u := by
  simp only [thr, modThr, modCpu_cpu, tmod, tget]
  rw [tfind_tset_ne _ _ _ h]

theorem thr_congr {s s' : State} (h : s'.cpu = s.cpu) (t : Nat) : thr s' t = thr s t := by
  simp [thr, h]

@[simp] theorem cpu_bumpBy (i j n : Nat) (s : State) : (bumpBy i j n s).cpu = s.cpu := by
  unfold bumpBy
  exact modCtr_cpu _ _
@[simp] theorem cpu_bump (i j : Nat) (s : State) : (bump i j s).cpu = s.cpu := cpu_bumpBy i j 1 s
@[simp] theorem thr_bumpBy (i j n t : Nat) (s : State) : thr (bumpBy i j n s) t = thr s t :=
  thr_congr (cpu_bumpBy i j n s) t
@[simp] theorem thr_bump (i j t : Nat) (s : State) : thr (bump i j s) t = thr s t := thr_congr (cpu_bump i j s) t

@[simp] theorem cpu_bumpTile (t j : Nat) (s : State) : (bumpTile t j s).cpu = s.cpu := by
  unfold bumpTile
  split
  · exact cpu_bump _ _ s
  · rfl

@[simp] theorem thr_bumpTile (t j u : Nat) (s : State) : thr (bumpTile t j s) u = thr s u :=
  thr_congr (cpu_bumpTile t j s) u

@[simp] theorem cpu_tracePut (t : Nat) (r : Bytes) (s : State) : (tracePut t r s).cpu = s.cpu := by
  unfold tracePut
  dsimp only
  repeat' split
  all_goals first | exact modDbg_cpu _ _ | rfl

@[simp] theorem thr_tracePut (t u : Nat) (r : Bytes) (s : State) : thr (tracePut t r s) u = thr s u :=
  thr_congr (cpu_tracePut t r s) u

@[simp] theorem getReg_setReg_same (t r : Nat) (v : W72) (s : State) :
    getReg (setReg t r v s) t r = if r = 0 then 0 else v := by
  simp only [getReg, setReg, thr_modThr_same, Thread.reg, Thread.setReg]
  split <;> simp

theorem getReg_setReg_ne {t r q : Nat} (v : W72) (s : State) (h : q ≠ r) : getReg (setReg t r v s) t q = getReg s t q := by
  simp only [getReg, setReg, thr_modThr_same, Thread.reg, Thread.setReg]
  split
  · rfl
  · split
    · rfl
    · rw [tget_tset_ne _ _ _ h]

@[simp] theorem getReg_zero (s : State) (t : Nat) : getReg s t 0 = 0 := by
  simp [getReg, Thread.reg]

/-! ### Issue and retire -/

/-- Once an accepted coprocessor instruction has committed, the thread is as the commit leaves it. -/
@[simp] theorem thr_commitCpx_same (t : Nat) (s : State) : thr (commitCpx t s) t = commitThr (thr s t) := by
  unfold commitCpx commitThr
  split
  · rename_i h
    simp [h]
  · rfl

theorem thr_commitCpx_ne {t u : Nat} (s : State) (h : u ≠ t) : thr (commitCpx t s) u = thr s u := by
  unfold commitCpx
  split
  · rw [thr_bumpTile, thr_modThr_ne _ _ h]
  · rfl

/-- The counters, traces and turns of an issue leave the threads' data as the commit before it left it. -/
theorem thr_issue_same (t cls rd ea : Nat) (regs : List Nat) (s : State) :
    ∃ (ch : Nat) (sl : Option Nat) (ha : Nat) (pr : Option (Nat × Nat × List Nat)),
      thr (issue t cls rd regs ea s) t =
        { commitThr (thr s t) with state := .run, bpSkip := false, charge := ch, stepLeft := sl, haltAt := ha, pair := pr } := by
  unfold issue
  dsimp only
  rw [thr_modThr_same]
  refine ⟨_, _, _, _, congrArg (fun x : Thread => ({ x with
    state := .run, bpSkip := false, charge := _, stepLeft := _, haltAt := _, pair := _ } : Thread)) ?_⟩
  repeat' split
  all_goals simp

theorem thr_issue_ne {t u : Nat} (cls rd ea : Nat) (regs : List Nat) (s : State) (h : u ≠ t) :
    thr (issue t cls rd regs ea s) u = thr s u := by
  unfold issue
  dsimp only
  rw [thr_modThr_ne _ _ h]
  repeat' split
  all_goals simp [thr_commitCpx_ne s h]

end Sys2Proof.Machine
end

