-- ==== Sys2Proof/Laws/Exec.lean ====
section
/-! SUPPORT. What exec is on each command: one equation per row of the table, true by unfolding. -/

namespace Sys2Proof.Machine

variable (s : State)

theorem exec_pwrGoodRise (bootSel cpos : BitVec 2) :
    exec (.pwrGoodRise bootSel cpos) s = execPwrGoodRise bootSel cpos s := rfl
theorem exec_pwrGoodFall :
    exec (.pwrGoodFall) s = execPwrGoodFall s := rfl
theorem exec_resetNAssert (bootSel cpos : BitVec 2) :
    exec (.resetNAssert bootSel cpos) s = execResetNAssert bootSel cpos s := rfl
theorem exec_dawnPhaseEnd (trained : BitVec 4) :
    exec (.dawnPhaseEnd trained) s = execDawnPhaseEnd trained s := rfl
theorem exec_dawn4Timeout :
    exec (.dawn4Timeout) s = execDawn4Timeout s := rfl
theorem exec_timeReqSend (sp : Fin 16) :
    exec (.timeReqSend sp) s = execTimeReqSend sp s := rfl
theorem exec_timeReqReceive (sp : Fin 16) (srcEp : BitVec 32) (payload : Bytes) :
    exec (.timeReqReceive sp srcEp payload) s = execTimeReqReceive sp srcEp payload s := rfl
theorem exec_timeRespReceive (sp : Fin 16) (payload : Bytes) :
    exec (.timeRespReceive sp payload) s = execTimeRespReceive sp payload s := rfl
theorem exec_exchangeIntervalEnd :
    exec (.exchangeIntervalEnd) s = execExchangeIntervalEnd s := rfl
theorem exec_timeSet (h : DHdr) (v : Bytes) :
    exec (.timeSet h v) s = execTimeSet h v s := rfl
theorem exec_timeinEdge :
    exec (.timeinEdge) s = execTimeinEdge s := rfl
theorem exec_timeoutPulseStart :
    exec (.timeoutPulseStart) s = execTimeoutPulseStart s := rfl
theorem exec_timeoutPulseEnd :
    exec (.timeoutPulseEnd) s = execTimeoutPulseEnd s := rfl
theorem exec_ptpMessageReceive (sp : Fin 16) (transport : Nat) (msg : Bytes) :
    exec (.ptpMessageReceive sp transport msg) s = execPtpMessageReceive sp transport msg s := rfl
theorem exec_frameReceive (sp : Fin 16) (rx : RxLine) (frame : Bytes) :
    exec (.frameReceive sp rx frame) s = execFrameReceive sp rx frame s := rfl
theorem exec_pfcRefresh (sp : Fin 16) :
    exec (.pfcRefresh sp) s = execPfcRefresh sp s := rfl
theorem exec_pfcFrameReceive (sp : Fin 16) (vector : BitVec 8) (timers : List (BitVec 16)) :
    exec (.pfcFrameReceive sp vector timers) s = execPfcFrameReceive sp vector timers s := rfl
theorem exec_pauseExpiry (sp : Fin 16) (prio : Fin 8) :
    exec (.pauseExpiry sp prio) s = execPauseExpiry sp prio s := rfl
theorem exec_creditLcfSend (sp : Fin 16) :
    exec (.creditLcfSend sp) s = execCreditLcfSend sp s := rfl
theorem exec_creditLcfReceive (sp : Fin 16) (grants : List (BitVec 32)) :
    exec (.creditLcfReceive sp grants) s = execCreditLcfReceive sp grants s := rfl
theorem exec_egressDequeue (sp : Fin 16) :
    exec (.egressDequeue sp) s = execEgressDequeue sp s := rfl
theorem exec_llrFrameSend (sp : Fin 16) :
    exec (.llrFrameSend sp) s = execLlrFrameSend sp s := rfl
theorem exec_llrAckReceive (sp : Fin 16) (ack : BitVec 16) :
    exec (.llrAckReceive sp ack) s = execLlrAckReceive sp ack s := rfl
theorem exec_llrNackReceive (sp : Fin 16) (n : BitVec 16) :
    exec (.llrNackReceive sp n) s = execLlrNackReceive sp n s := rfl
theorem exec_llrAckTimeout (sp : Fin 16) :
    exec (.llrAckTimeout sp) s = execLlrAckTimeout sp s := rfl
theorem exec_ackLcfSend (sp : Fin 16) :
    exec (.ackLcfSend sp) s = execAckLcfSend sp s := rfl
theorem exec_linkTrainingEnd (sp : Fin 16) (lanes : BitVec 4) (oui : BitVec 24) (caps : BitVec 11) :
    exec (.linkTrainingEnd sp lanes oui caps) s = execLinkTrainingEnd sp lanes oui caps s := rfl
theorem exec_syncReceive (sp : Fin 16) (lseq : BitVec 16) (lost : Bool) :
    exec (.syncReceive sp lseq lost) s = execSyncReceive sp lseq lost s := rfl
theorem exec_llrHoldExpiry (sp : Fin 16) :
    exec (.llrHoldExpiry sp) s = execLlrHoldExpiry sp s := rfl
theorem exec_laneFailureDeclare (port : Fin 8) (lane : Fin 4) (lol : Bool) :
    exec (.laneFailureDeclare port lane lol) s = execLaneFailureDeclare port lane lol s := rfl
theorem exec_shed (sp : Fin 16) (lanes : BitVec 4) :
    exec (.shed sp lanes) s = execShed sp lanes s := rfl
theorem exec_receiverLock (sp : Fin 16) :
    exec (.receiverLock sp) s = execReceiverLock sp s := rfl
theorem exec_shedAck (sp : Fin 16) (lseq : BitVec 16) :
    exec (.shedAck sp lseq) s = execShedAck sp lseq s := rfl
theorem exec_restoreHoldExpiry (port : Fin 8) (lane : Fin 4) :
    exec (.restoreHoldExpiry port lane) s = execRestoreHoldExpiry port lane s := rfl
theorem exec_restore (sp : Fin 16) (lanes : BitVec 4) :
    exec (.restore sp lanes) s = execRestore sp lanes s := rfl
theorem exec_portAdminWrite (h : DHdr) (port : Fin 8) (v : Bytes) :
    exec (.portAdminWrite h port v) s = execPortAdminWrite h port v s := rfl
theorem exec_portModeWrite (h : DHdr) (port : Fin 8) (v : Bytes) :
    exec (.portModeWrite h port v) s = execPortModeWrite h port v s := rfl
theorem exec_linkLoss (sp : Fin 16) :
    exec (.linkLoss sp) s = execLinkLoss sp s := rfl
theorem exec_signalDetectWake (rx : RxLevel) :
    exec (.signalDetectWake rx) s = execSignalDetectWake rx s := rfl
theorem exec_frameEnterPipeline (sp : Fin 16) (head : Bytes) :
    exec (.frameEnterPipeline sp head) s = execFrameEnterPipeline sp head s := rfl
theorem exec_parseEnd (pl : Fin 8) (engine : Fin 24) :
    exec (.parseEnd pl engine) s = execParseEnd pl engine s := rfl
theorem exec_parseBudgetExpiry (pl : Fin 8) (engine : Fin 24) :
    exec (.parseBudgetExpiry pl engine) s = execParseBudgetExpiry pl engine s := rfl
theorem exec_classifierSearch (pl : Fin 8) :
    exec (.classifierSearch pl) s = execClassifierSearch pl s := rfl
theorem exec_meterLengthRelease (pl : Fin 8) :
    exec (.meterLengthRelease pl) s = execMeterLengthRelease pl s := rfl
theorem exec_fenceRelease :
    exec (.fenceRelease) s = execFenceRelease s := rfl
theorem exec_classifierEntryWrite (inst : Fin 4) (index : Fin 8192) (word : Fin 32) (v : W64) :
    exec (.classifierEntryWrite inst index word v) s = execClassifierEntryWrite inst index word v s := rfl
theorem exec_counterPktsRead (master : Nat) (pair : Fin 262144) :
    exec (.counterPktsRead master pair) s = execCounterPktsRead master pair s := rfl
theorem exec_counterWrite (pair : Fin 262144) (bytes : Bool) (v : W64) :
    exec (.counterWrite pair bytes v) s = execCounterWrite pair bytes v s := rfl
theorem exec_stageAdd (h : DHdr) :
    exec (.stageAdd h) s = execStageAdd h s := rfl
theorem exec_stageKill (h : DHdr) :
    exec (.stageKill h) s = execStageKill h s := rfl
theorem exec_programLoad (h : DHdr) (v : Bytes) :
    exec (.programLoad h v) s = execProgramLoad h v s := rfl
theorem exec_meterStage (h : DHdr) (v : Bytes) :
    exec (.meterStage h v) s = execMeterStage h v s := rfl
theorem exec_courseEntryStage (h : DHdr) (idx : BitVec 16) (sub : BitVec 8) (v : Bytes) :
    exec (.courseEntryStage h idx sub v) s = execCourseEntryStage h idx sub v s := rfl
theorem exec_commit (h : DHdr) (v : Bytes) :
    exec (.commit h v) s = execCommit h v s := rfl
theorem exec_commitTime (h : DHdr) (v : Bytes) :
    exec (.commitTime h v) s = execCommitTime h v s := rfl
theorem exec_abort (h : DHdr) (v : Bytes) :
    exec (.abort h v) s = execAbort h v s := rfl
theorem exec_courseCommitFire :
    exec (.courseCommitFire) s = execCourseCommitFire s := rfl
theorem exec_slotCopyEnd :
    exec (.slotCopyEnd) s = execSlotCopyEnd s := rfl
theorem exec_courseSweepEnd :
    exec (.courseSweepEnd) s = execCourseSweepEnd s := rfl
theorem exec_waitedCommitFire :
    exec (.waitedCommitFire) s = execWaitedCommitFire s := rfl
theorem exec_counterRead (h : DHdr) :
    exec (.counterRead h) s = execCounterRead h s := rfl
theorem exec_forwardDecision (pl : Fin 8) :
    exec (.forwardDecision pl) s = execForwardDecision pl s := rfl
theorem exec_etMissComplete (pl : Fin 8) (bucket : Nat) :
    exec (.etMissComplete pl bucket) s = execEtMissComplete pl bucket s := rfl
theorem exec_packetLastByteSent (sp : Fin 16) :
    exec (.packetLastByteSent sp) s = execPacketLastByteSent sp s := rfl
theorem exec_learnInsert :
    exec (.learnInsert) s = execLearnInsert s := rfl
theorem exec_etInsert (h : DHdr) :
    exec (.etInsert h) s = execEtInsert h s := rfl
theorem exec_etDelete (h : DHdr) :
    exec (.etDelete h) s = execEtDelete h s := rfl
theorem exec_fwdLookup (levelM lt : Bool) :
    exec (.fwdLookup levelM lt) s = execFwdLookup levelM lt s := rfl
theorem exec_fwdInsert (levelM lt : Bool) :
    exec (.fwdInsert levelM lt) s = execFwdInsert levelM lt s := rfl
theorem exec_fwdDelete (levelM lt : Bool) :
    exec (.fwdDelete levelM lt) s = execFwdDelete levelM lt s := rfl
theorem exec_readWay (levelM lt : Bool) (way : Fin 4) (bucket : Nat) :
    exec (.readWay levelM lt way bucket) s = execReadWay levelM lt way bucket s := rfl
theorem exec_agingSweepStart :
    exec (.agingSweepStart) s = execAgingSweepStart s := rfl
theorem exec_agingSweepEnd (lt : Bool) :
    exec (.agingSweepEnd lt) s = execAgingSweepEnd lt s := rfl
theorem exec_lnqPop (master : Nat) :
    exec (.lnqPop master) s = execLnqPop master s := rfl
theorem exec_lnqRead (h : DHdr) :
    exec (.lnqRead h) s = execLnqRead h s := rfl
theorem exec_lpmAdd (h : DHdr) :
    exec (.lpmAdd h) s = execLpmAdd h s := rfl
theorem exec_lpmDelete (h : DHdr) :
    exec (.lpmDelete h) s = execLpmDelete h s := rfl
theorem exec_lpmLenCfg (h : DHdr) (v : Bytes) :
    exec (.lpmLenCfg h v) s = execLpmLenCfg h v s := rfl
theorem exec_nhgWrite (h : DHdr) (v : Bytes) :
    exec (.nhgWrite h v) s = execNhgWrite h v s := rfl
theorem exec_zmtPacketReceive (ts : Fin 8) :
    exec (.zmtPacketReceive ts) s = execZmtPacketReceive ts s := rfl
theorem exec_put (ts : Fin 8) :
    exec (.put ts) s = execPut ts s := rfl
theorem exec_get (ts : Fin 8) (host : Bytes) :
    exec (.get ts host) s = execGet ts host s := rfl
theorem exec_getr (ts : Fin 8) :
    exec (.getr ts) s = execGetr ts s := rfl
theorem exec_atomic (ts : Fin 8) (host : Bytes) :
    exec (.atomic ts host) s = execAtomic ts host s := rfl
theorem exec_atomr (ts : Fin 8) :
    exec (.atomr ts) s = execAtomr ts s := rfl
theorem exec_send (ts : Fin 8) (host : Bytes) :
    exec (.send ts host) s = execSend ts host s := rfl
theorem exec_reduce (ts : Fin 8) (host : Bytes) :
    exec (.reduce ts host) s = execReduce ts host s := rfl
theorem exec_ack (ts : Fin 8) :
    exec (.ack ts) s = execAck ts s := rfl
theorem exec_nack (ts : Fin 8) :
    exec (.nack ts) s = execNack ts s := rfl
theorem exec_credit (ts : Fin 8) :
    exec (.credit ts) s = execCredit ts s := rfl
theorem exec_mgmt (ts : Fin 8) :
    exec (.mgmt ts) s = execMgmt ts s := rfl
theorem exec_fin (ts : Fin 8) :
    exec (.fin ts) s = execFin ts s := rfl
theorem exec_zmtAckSend (ep : BitVec 32) :
    exec (.zmtAckSend ep) s = execZmtAckSend ep s := rfl
theorem exec_zmtCreditSend (ep : BitVec 32) :
    exec (.zmtCreditSend ep) s = execZmtCreditSend ep s := rfl
theorem exec_outboundPacketSend (ep : BitVec 32) (host : Bytes) :
    exec (.outboundPacketSend ep host) s = execOutboundPacketSend ep host s := rfl
theorem exec_retransmitTimerExpiry (ep psn : BitVec 32) (host : Bytes) :
    exec (.retransmitTimerExpiry ep psn host) s = execRetransmitTimerExpiry ep psn host s := rfl
theorem exec_ccRateUpdate (ep : BitVec 32) :
    exec (.ccRateUpdate ep) s = execCcRateUpdate ep s := rfl
theorem exec_counterDeadline (ccid : Nat) :
    exec (.counterDeadline ccid) s = execCounterDeadline ccid s := rfl
theorem exec_reduceFallbackBrick (msg : Nat) :
    exec (.reduceFallbackBrick msg) s = execReduceFallbackBrick msg s := rfl
theorem exec_matchResolve (ts : Fin 8) (host : Bytes) :
    exec (.matchResolve ts host) s = execMatchResolve ts host s := rfl
theorem exec_tsWrite (tbl : Fin 4) (idx : Fin 1048576) :
    exec (.tsWrite tbl idx) s = execTsWrite tbl idx s := rfl
theorem exec_tsRead (tbl : Fin 4) (idx : Fin 1048576) :
    exec (.tsRead tbl idx) s = execTsRead tbl idx s := rfl
theorem exec_arm (tbl : Fin 4) (idx : Fin 1048576) :
    exec (.arm tbl idx) s = execArm tbl idx s := rfl
theorem exec_disarm (tbl : Fin 4) (idx : Fin 1048576) :
    exec (.disarm tbl idx) s = execDisarm tbl idx s := rfl
theorem exec_tsAbort (tbl : Fin 4) (idx : Fin 1048576) :
    exec (.tsAbort tbl idx) s = execTsAbort tbl idx s := rfl
theorem exec_peerStateRead (h : DHdr) :
    exec (.peerStateRead h) s = execPeerStateRead h s := rfl
theorem exec_traceRingRead (h : DHdr) :
    exec (.traceRingRead h) s = execTraceRingRead h s := rfl
theorem exec_add (t : Fin 776) (rd ra rb : Fin 32) :
    exec (.add t rd ra rb) s = execAdd t rd ra rb s := rfl
theorem exec_sub (t : Fin 776) (rd ra rb : Fin 32) :
    exec (.sub t rd ra rb) s = execSub t rd ra rb s := rfl
theorem exec_andR (t : Fin 776) (rd ra rb : Fin 32) :
    exec (.andR t rd ra rb) s = execAndR t rd ra rb s := rfl
theorem exec_orR (t : Fin 776) (rd ra rb : Fin 32) :
    exec (.orR t rd ra rb) s = execOrR t rd ra rb s := rfl
theorem exec_xorR (t : Fin 776) (rd ra rb : Fin 32) :
    exec (.xorR t rd ra rb) s = execXorR t rd ra rb s := rfl
theorem exec_andn (t : Fin 776) (rd ra rb : Fin 32) :
    exec (.andn t rd ra rb) s = execAndn t rd ra rb s := rfl
theorem exec_shl (t : Fin 776) (rd ra rb : Fin 32) :
    exec (.shl t rd ra rb) s = execShl t rd ra rb s := rfl
theorem exec_shr (t : Fin 776) (rd ra rb : Fin 32) :
    exec (.shr t rd ra rb) s = execShr t rd ra rb s := rfl
theorem exec_sar (t : Fin 776) (rd ra rb : Fin 32) :
    exec (.sar t rd ra rb) s = execSar t rd ra rb s := rfl
theorem exec_slt (t : Fin 776) (rd ra rb : Fin 32) :
    exec (.slt t rd ra rb) s = execSlt t rd ra rb s := rfl
theorem exec_sltu (t : Fin 776) (rd ra rb : Fin 32) :
    exec (.sltu t rd ra rb) s = execSltu t rd ra rb s := rfl
theorem exec_min (t : Fin 776) (rd ra rb : Fin 32) :
    exec (.min t rd ra rb) s = execMin t rd ra rb s := rfl
theorem exec_max (t : Fin 776) (rd ra rb : Fin 32) :
    exec (.max t rd ra rb) s = execMax t rd ra rb s := rfl
theorem exec_minu (t : Fin 776) (rd ra rb : Fin 32) :
    exec (.minu t rd ra rb) s = execMinu t rd ra rb s := rfl
theorem exec_maxu (t : Fin 776) (rd ra rb : Fin 32) :
    exec (.maxu t rd ra rb) s = execMaxu t rd ra rb s := rfl
theorem exec_mul (t : Fin 776) (rd ra rb : Fin 32) :
    exec (.mul t rd ra rb) s = execMul t rd ra rb s := rfl
theorem exec_mulh (t : Fin 776) (rd ra rb : Fin 32) :
    exec (.mulh t rd ra rb) s = execMulh t rd ra rb s := rfl
theorem exec_mulhu (t : Fin 776) (rd ra rb : Fin 32) :
    exec (.mulhu t rd ra rb) s = execMulhu t rd ra rb s := rfl
theorem exec_div (t : Fin 776) (rd ra rb : Fin 32) :
    exec (.div t rd ra rb) s = execDiv t rd ra rb s := rfl
theorem exec_divu (t : Fin 776) (rd ra rb : Fin 32) :
    exec (.divu t rd ra rb) s = execDivu t rd ra rb s := rfl
theorem exec_rem (t : Fin 776) (rd ra rb : Fin 32) :
    exec (.rem t rd ra rb) s = execRem t rd ra rb s := rfl
theorem exec_remu (t : Fin 776) (rd ra rb : Fin 32) :
    exec (.remu t rd ra rb) s = execRemu t rd ra rb s := rfl
theorem exec_clz (t : Fin 776) (rd ra : Fin 32) :
    exec (.clz t rd ra) s = execClz t rd ra s := rfl
theorem exec_ctz (t : Fin 776) (rd ra : Fin 32) :
    exec (.ctz t rd ra) s = execCtz t rd ra s := rfl
theorem exec_popc (t : Fin 776) (rd ra : Fin 32) :
    exec (.popc t rd ra) s = execPopc t rd ra s := rfl
theorem exec_bswap (t : Fin 776) (rd ra : Fin 32) :
    exec (.bswap t rd ra) s = execBswap t rd ra s := rfl
theorem exec_ext (t : Fin 776) (rd ra : Fin 32) (pos len : Fin 128) :
    exec (.ext t rd ra pos len) s = execExt t rd ra pos len s := rfl
theorem exec_ins (t : Fin 776) (rd ra : Fin 32) (pos len : Fin 128) :
    exec (.ins t rd ra pos len) s = execIns t rd ra pos len s := rfl
theorem exec_sext (t : Fin 776) (rd ra : Fin 32) (pos : Fin 128) :
    exec (.sext t rd ra pos) s = execSext t rd ra pos s := rfl
theorem exec_addi (t : Fin 776) (rd ra : Fin 32) (imm : BitVec 18) :
    exec (.addi t rd ra imm) s = execAddi t rd ra imm s := rfl
theorem exec_andi (t : Fin 776) (rd ra : Fin 32) (imm : BitVec 18) :
    exec (.andi t rd ra imm) s = execAndi t rd ra imm s := rfl
theorem exec_ori (t : Fin 776) (rd ra : Fin 32) (imm : BitVec 18) :
    exec (.ori t rd ra imm) s = execOri t rd ra imm s := rfl
theorem exec_xori (t : Fin 776) (rd ra : Fin 32) (imm : BitVec 18) :
    exec (.xori t rd ra imm) s = execXori t rd ra imm s := rfl
theorem exec_shli (t : Fin 776) (rd ra : Fin 32) (sh : Fin 128) :
    exec (.shli t rd ra sh) s = execShli t rd ra sh s := rfl
theorem exec_shri (t : Fin 776) (rd ra : Fin 32) (sh : Fin 128) :
    exec (.shri t rd ra sh) s = execShri t rd ra sh s := rfl
theorem exec_sari (t : Fin 776) (rd ra : Fin 32) (sh : Fin 128) :
    exec (.sari t rd ra sh) s = execSari t rd ra sh s := rfl
theorem exec_slti (t : Fin 776) (rd ra : Fin 32) (imm : BitVec 18) :
    exec (.slti t rd ra imm) s = execSlti t rd ra imm s := rfl
theorem exec_sltiu (t : Fin 776) (rd ra : Fin 32) (imm : BitVec 18) :
    exec (.sltiu t rd ra imm) s = execSltiu t rd ra imm s := rfl
theorem exec_lui (t : Fin 776) (rd : Fin 32) (imm : BitVec 23) :
    exec (.lui t rd imm) s = execLui t rd imm s := rfl
theorem exec_beq (t : Fin 776) (ra rb : Fin 32) (ofs : BitVec 18) :
    exec (.beq t ra rb ofs) s = execBeq t ra rb ofs s := rfl
theorem exec_bne (t : Fin 776) (ra rb : Fin 32) (ofs : BitVec 18) :
    exec (.bne t ra rb ofs) s = execBne t ra rb ofs s := rfl
theorem exec_blt (t : Fin 776) (ra rb : Fin 32) (ofs : BitVec 18) :
    exec (.blt t ra rb ofs) s = execBlt t ra rb ofs s := rfl
theorem exec_bge (t : Fin 776) (ra rb : Fin 32) (ofs : BitVec 18) :
    exec (.bge t ra rb ofs) s = execBge t ra rb ofs s := rfl
theorem exec_bltu (t : Fin 776) (ra rb : Fin 32) (ofs : BitVec 18) :
    exec (.bltu t ra rb ofs) s = execBltu t ra rb ofs s := rfl
theorem exec_bgeu (t : Fin 776) (ra rb : Fin 32) (ofs : BitVec 18) :
    exec (.bgeu t ra rb ofs) s = execBgeu t ra rb ofs s := rfl
theorem exec_beqi (t : Fin 776) (ra : Fin 32) (imm : BitVec 5) (ofs : BitVec 18) :
    exec (.beqi t ra imm ofs) s = execBeqi t ra imm ofs s := rfl
theorem exec_bnei (t : Fin 776) (ra : Fin 32) (imm : BitVec 5) (ofs : BitVec 18) :
    exec (.bnei t ra imm ofs) s = execBnei t ra imm ofs s := rfl
theorem exec_blti (t : Fin 776) (ra : Fin 32) (imm : BitVec 5) (ofs : BitVec 18) :
    exec (.blti t ra imm ofs) s = execBlti t ra imm ofs s := rfl
theorem exec_bgei (t : Fin 776) (ra : Fin 32) (imm : BitVec 5) (ofs : BitVec 18) :
    exec (.bgei t ra imm ofs) s = execBgei t ra imm ofs s := rfl
theorem exec_jal (t : Fin 776) (rd : Fin 32) (ofs : BitVec 23) :
    exec (.jal t rd ofs) s = execJal t rd ofs s := rfl
theorem exec_jalr (t : Fin 776) (rd ra : Fin 32) (imm : BitVec 18) :
    exec (.jalr t rd ra imm) s = execJalr t rd ra imm s := rfl
theorem exec_ld8 (t : Fin 776) (rd ra : Fin 32) (disp : BitVec 18) :
    exec (.ld8 t rd ra disp) s = execLd8 t rd ra disp s := rfl
theorem exec_ld8u (t : Fin 776) (rd ra : Fin 32) (disp : BitVec 18) :
    exec (.ld8u t rd ra disp) s = execLd8u t rd ra disp s := rfl
theorem exec_ld16 (t : Fin 776) (rd ra : Fin 32) (disp : BitVec 18) :
    exec (.ld16 t rd ra disp) s = execLd16 t rd ra disp s := rfl
theorem exec_ld16u (t : Fin 776) (rd ra : Fin 32) (disp : BitVec 18) :
    exec (.ld16u t rd ra disp) s = execLd16u t rd ra disp s := rfl
theorem exec_ld32 (t : Fin 776) (rd ra : Fin 32) (disp : BitVec 18) :
    exec (.ld32 t rd ra disp) s = execLd32 t rd ra disp s := rfl
theorem exec_ld32u (t : Fin 776) (rd ra : Fin 32) (disp : BitVec 18) :
    exec (.ld32u t rd ra disp) s = execLd32u t rd ra disp s := rfl
theorem exec_ld64 (t : Fin 776) (rd ra : Fin 32) (src : Ld64At) :
    exec (.ld64 t rd ra src) s = execLd64 t rd ra src s := rfl
theorem exec_ld64u (t : Fin 776) (rd ra : Fin 32) (disp : BitVec 18) :
    exec (.ld64u t rd ra disp) s = execLd64u t rd ra disp s := rfl
theorem exec_ldw (t : Fin 776) (rd ra : Fin 32) (disp : BitVec 18) :
    exec (.ldw t rd ra disp) s = execLdw t rd ra disp s := rfl
theorem exec_st8 (t : Fin 776) (rs ra : Fin 32) (disp : BitVec 18) :
    exec (.st8 t rs ra disp) s = execSt8 t rs ra disp s := rfl
theorem exec_st16 (t : Fin 776) (rs ra : Fin 32) (disp : BitVec 18) :
    exec (.st16 t rs ra disp) s = execSt16 t rs ra disp s := rfl
theorem exec_st32 (t : Fin 776) (rs ra : Fin 32) (disp : BitVec 18) :
    exec (.st32 t rs ra disp) s = execSt32 t rs ra disp s := rfl
theorem exec_st64 (t : Fin 776) (rs ra : Fin 32) (disp : BitVec 18) :
    exec (.st64 t rs ra disp) s = execSt64 t rs ra disp s := rfl
theorem exec_stw (t : Fin 776) (rs ra : Fin 32) (disp : BitVec 18) :
    exec (.stw t rs ra disp) s = execStw t rs ra disp s := rfl
theorem exec_ldtag (t : Fin 776) (rd ra : Fin 32) (disp : BitVec 18) :
    exec (.ldtag t rd ra disp) s = execLdtag t rd ra disp s := rfl
theorem exec_sttag (t : Fin 776) (rs ra : Fin 32) (disp : BitVec 18) :
    exec (.sttag t rs ra disp) s = execSttag t rs ra disp s := rfl
theorem exec_ldf (t : Fin 776) (rd ra : Fin 32) (disp : BitVec 18) :
    exec (.ldf t rd ra disp) s = execLdf t rd ra disp s := rfl
theorem exec_ldfe (t : Fin 776) (rd ra : Fin 32) (disp : BitVec 18) :
    exec (.ldfe t rd ra disp) s = execLdfe t rd ra disp s := rfl
theorem exec_stf (t : Fin 776) (rs ra : Fin 32) (disp : BitVec 18) :
    exec (.stf t rs ra disp) s = execStf t rs ra disp s := rfl
theorem exec_fence (t : Fin 776) :
    exec (.fence t) s = execFence t s := rfl
theorem exec_srget (t : Fin 776) (rd : Fin 32) (sn : Fin 16) :
    exec (.srget t rd sn) s = execSrget t rd sn s := rfl
theorem exec_srset (t : Fin 776) (ra : Fin 32) (sn : Fin 16) :
    exec (.srset t ra sn) s = execSrset t ra sn s := rfl
theorem exec_srswap (t : Fin 776) (rd ra : Fin 32) (sn : Fin 16) :
    exec (.srswap t rd ra sn) s = execSrswap t rd ra sn s := rfl
theorem exec_sradd (t : Fin 776) (rd ra : Fin 32) (sn : Fin 16) :
    exec (.sradd t rd ra sn) s = execSradd t rd ra sn s := rfl
theorem exec_srfor (t : Fin 776) (rd ra : Fin 32) (sn : Fin 16) :
    exec (.srfor t rd ra sn) s = execSrfor t rd ra sn s := rfl
theorem exec_sig (t : Fin 776) (ra : Fin 32) :
    exec (.sig t ra) s = execSig t ra s := rfl
theorem exec_rget (t : Fin 776) (rd ra : Fin 32) :
    exec (.rget t rd ra) s = execRget t rd ra s := rfl
theorem exec_rset (t : Fin 776) (ra rb : Fin 32) :
    exec (.rset t ra rb) s = execRset t ra rb s := rfl
theorem exec_getsr (t : Fin 776) (rd : Fin 32) (idx : Fin 256) :
    exec (.getsr t rd idx) s = execGetsr t rd idx s := rfl
theorem exec_setsr (t : Fin 776) (ra : Fin 32) (idx : Fin 256) :
    exec (.setsr t ra idx) s = execSetsr t ra idx s := rfl
theorem exec_chput (t : Fin 776) (ra : Fin 32) :
    exec (.chput t ra) s = execChput t ra s := rfl
theorem exec_chseal (t : Fin 776) (ra : Fin 32) :
    exec (.chseal t ra) s = execChseal t ra s := rfl
theorem exec_chget (t : Fin 776) (rd : Fin 32) :
    exec (.chget t rd) s = execChget t rd s := rfl
theorem exec_wfe (t : Fin 776) (rd : Fin 32) :
    exec (.wfe t rd) s = execWfe t rd s := rfl
theorem exec_wait (t : Fin 776) (rd : Fin 32) :
    exec (.wait t rd) s = execWait t rd s := rfl
theorem exec_park (t : Fin 776) :
    exec (.park t) s = execPark t s := rfl
theorem exec_endb (t : Fin 776) (ra : Fin 32) :
    exec (.endb t ra) s = execEndb t ra s := rfl
theorem exec_eret (t : Fin 776) :
    exec (.eret t) s = execEret t s := rfl
theorem exec_sysc (t : Fin 776) (imm : BitVec 18) :
    exec (.sysc t imm) s = execSysc t imm s := rfl
theorem exec_cptest (t : Fin 776) (rd : Fin 32) (u : Fin 3) :
    exec (.cptest t rd u) s = execCptest t rd u s := rfl
theorem exec_ill (t : Fin 776) (ones : Bool) (low : BitVec 28) :
    exec (.ill t ones low) s = execIll t ones low s := rfl
theorem exec_reservedOp (t : Fin 776) (word : BitVec 36) :
    exec (.reservedOp t word) s = execReservedOp t word s := rfl
theorem exec_crc32c (t : Fin 776) (rd ra rb : Fin 32) (nb : Fin 8) (busy : Bool) :
    exec (.crc32c t rd ra rb nb busy) s = execCrc32c t rd ra rb nb busy s := rfl
theorem exec_crc64 (t : Fin 776) (rd ra rb : Fin 32) (nb : Fin 8) (busy : Bool) :
    exec (.crc64 t rd ra rb nb busy) s = execCrc64 t rd ra rb nb busy s := rfl
theorem exec_tpz (t : Fin 776) (rd ra rb : Fin 32) (k : Fin 4) (nb : Fin 8) (busy : Bool) :
    exec (.tpz t rd ra rb k nb busy) s = execTpz t rd ra rb k nb busy s := rfl
theorem exec_enc (t : Fin 776) (rd ra rb : Fin 32) (len : Fin 64) (busy : Bool) :
    exec (.enc t rd ra rb len busy) s = execEnc t rd ra rb len busy s := rfl
theorem exec_dec (t : Fin 776) (rd ra rb : Fin 32) (len : Fin 64) (busy : Bool) :
    exec (.dec t rd ra rb len busy) s = execDec t rd ra rb len busy s := rfl
theorem exec_aad (t : Fin 776) (rd ra rb : Fin 32) (len : Fin 64) (busy : Bool) :
    exec (.aad t rd ra rb len busy) s = execAad t rd ra rb len busy s := rfl
theorem exec_gcmTag (t : Fin 776) (rd ra rb : Fin 32) (busy : Bool) :
    exec (.gcmTag t rd ra rb busy) s = execGcmTag t rd ra rb busy s := rfl
theorem exec_xsumClr (t : Fin 776) (rd ra : Fin 32) (slot : Fin 16) (busy : Bool) :
    exec (.xsumClr t rd ra slot busy) s = execXsumClr t rd ra slot busy s := rfl
theorem exec_xsumAdd (t : Fin 776) (rd ra : Fin 32) (slot : Fin 16) (typ : Fin 3) (busy : Bool) :
    exec (.xsumAdd t rd ra slot typ busy) s = execXsumAdd t rd ra slot typ busy s := rfl
theorem exec_xsumAddv (t : Fin 776) (rd ra rb : Fin 32) (slot : Fin 16) (typ : Fin 3) (busy : Bool) :
    exec (.xsumAddv t rd ra rb slot typ busy) s = execXsumAddv t rd ra rb slot typ busy s := rfl
theorem exec_xsumMerge (t : Fin 776) (rd ra : Fin 32) (slot : Fin 16) (image busy : Bool) :
    exec (.xsumMerge t rd ra slot image busy) s = execXsumMerge t rd ra slot image busy s := rfl
theorem exec_xsumRnd (t : Fin 776) (rd ra : Fin 32) (slot : Fin 16) (busy : Bool) :
    exec (.xsumRnd t rd ra slot busy) s = execXsumRnd t rd ra slot busy s := rfl
theorem exec_xsumRnd2 (t : Fin 776) (rd ra rb : Fin 32) (slot : Fin 16) (busy : Bool) :
    exec (.xsumRnd2 t rd ra rb slot busy) s = execXsumRnd2 t rd ra rb slot busy s := rfl
theorem exec_xsumSave (t : Fin 776) (rd ra : Fin 32) (slot : Fin 16) (busy : Bool) :
    exec (.xsumSave t rd ra slot busy) s = execXsumSave t rd ra slot busy s := rfl
theorem exec_xsumRest (t : Fin 776) (rd ra : Fin 32) (slot : Fin 16) (busy : Bool) :
    exec (.xsumRest t rd ra slot busy) s = execXsumRest t rd ra slot busy s := rfl
theorem exec_xsumCxa (t : Fin 776) (rd ra : Fin 32) (slot : Fin 16) (busy : Bool) :
    exec (.xsumCxa t rd ra slot busy) s = execXsumCxa t rd ra slot busy s := rfl
theorem exec_xsumFlags (t : Fin 776) (rd ra : Fin 32) (slot : Fin 16) (busy : Bool) :
    exec (.xsumFlags t rd ra slot busy) s = execXsumFlags t rd ra slot busy s := rfl
theorem exec_cpCommit (t : Fin 776) (ok : Bool) :
    exec (.cpCommit t ok) s = execCpCommit t ok s := rfl
theorem exec_depositChunk (tile : Fin 12) :
    exec (.depositChunk tile) s = execDepositChunk tile s := rfl
theorem exec_eventEntry (t : Fin 776) :
    exec (.eventEntry t) s = execEventEntry t s := rfl
theorem exec_postedLoadReturn (t : Fin 776) (rd : Fin 32) (data : BitVec 64) (err : Bool) :
    exec (.postedLoadReturn t rd data err) s = execPostedLoadReturn t rd data err s := rfl
theorem exec_unitLoadReturn (t : Fin 776) (bad : Bool) :
    exec (.unitLoadReturn t bad) s = execUnitLoadReturn t bad s := rfl
theorem exec_fullEmptyAnswer (t : Fin 776) :
    exec (.fullEmptyAnswer t) s = execFullEmptyAnswer t s := rfl
theorem exec_storeBufferDrain (core : Fin 97) (bad : Bool) :
    exec (.storeBufferDrain core bad) s = execStoreBufferDrain core bad s := rfl
theorem exec_loadReplay (t : Fin 776) :
    exec (.loadReplay t) s = execLoadReplay t s := rfl
theorem exec_icacheFill (core : Fin 97) (line : BitVec 13) :
    exec (.icacheFill core line) s = execIcacheFill core line s := rfl
theorem exec_waitWake (t : Fin 776) :
    exec (.waitWake t) s = execWaitWake t s := rfl
theorem exec_threadDeadline (t : Fin 776) :
    exec (.threadDeadline t) s = execThreadDeadline t s := rfl
theorem exec_tecCompletion (tile : Fin 12) (src : Fin 256) :
    exec (.tecCompletion tile src) s = execTecCompletion tile src s := rfl
theorem exec_tecComplete (tile : Fin 12) (v : BitVec 64) :
    exec (.tecComplete tile v) s = execTecComplete tile v s := rfl
theorem exec_tecActset (tile : Fin 12) (v : BitVec 64) :
    exec (.tecActset tile v) s = execTecActset tile v s := rfl
theorem exec_tecActclr (tile : Fin 12) (v : BitVec 64) :
    exec (.tecActclr tile v) s = execTecActclr tile v s := rfl
theorem exec_tecAck (tile : Fin 12) (v : BitVec 64) :
    exec (.tecAck tile v) s = execTecAck tile v s := rfl
theorem exec_tecPendClear (tile : Fin 12) (g : Fin 32) (v : BitVec 64) :
    exec (.tecPendClear tile g v) s = execTecPendClear tile g v s := rfl
theorem exec_tecCtrlWrite (tile : Fin 12) (v : BitVec 64) :
    exec (.tecCtrlWrite tile v) s = execTecCtrlWrite tile v s := rfl
theorem exec_tecSwinWrite (tile : Fin 12) (v : BitVec 64) :
    exec (.tecSwinWrite tile v) s = execTecSwinWrite tile v s := rfl
theorem exec_tecStrayRead (tile : Fin 12) :
    exec (.tecStrayRead tile) s = execTecStrayRead tile s := rfl
theorem exec_tecGroupTimer (tile : Fin 12) (g : Fin 32) :
    exec (.tecGroupTimer tile g) s = execTecGroupTimer tile g s := rfl
theorem exec_stallDetect (core : Fin 96) :
    exec (.stallDetect core) s = execStallDetect core s := rfl
theorem exec_postImmediate (area : Fin 769) :
    exec (.postImmediate area) s = execPostImmediate area s := rfl
theorem exec_postDelayed (area : Fin 769) (list : Fin 4) :
    exec (.postDelayed area list) s = execPostDelayed area list s := rfl
theorem exec_spillRefill :
    exec (.spillRefill) s = execSpillRefill s := rfl
theorem exec_dispatch :
    exec (.dispatch) s = execDispatch s := rfl
theorem exec_delayListRelease :
    exec (.delayListRelease) s = execDelayListRelease s := rfl
theorem exec_budgetFault (t : Fin 776) :
    exec (.budgetFault t) s = execBudgetFault t s := rfl
theorem exec_budgetReset (t : Fin 776) :
    exec (.budgetReset t) s = execBudgetReset t s := rfl
theorem exec_tileDrain (h : DHdr) (v : Bytes) :
    exec (.tileDrain h v) s = execTileDrain h v s := rfl
theorem exec_drainTimeout (tile : Fin 12) :
    exec (.drainTimeout tile) s = execDrainTimeout tile s := rfl
theorem exec_acquireTry (lock : Fin 4096) (master : BitVec 16) (prio : Fin 16) :
    exec (.acquireTry lock master prio) s = execAcquireTry lock master prio s := rfl
theorem exec_acquireQueue (lock : Fin 4096) (master : BitVec 16) (req : LockCome) :
    exec (.acquireQueue lock master req) s = execAcquireQueue lock master req s := rfl
theorem exec_release (lock : Fin 4096) (master : BitVec 16) :
    exec (.release lock master) s = execRelease lock master s := rfl
theorem exec_lockQuery (lock : Fin 4096) (master : BitVec 16) :
    exec (.lockQuery lock master) s = execLockQuery lock master s := rfl
theorem exec_leaseExpiry (lock : Fin 4096) :
    exec (.leaseExpiry lock) s = execLeaseExpiry lock s := rfl
theorem exec_breakLock (h : DHdr) (v : Bytes) :
    exec (.breakLock h v) s = execBreakLock h v s := rfl
theorem exec_lockGroupConfig (h : DHdr) (g : Fin 64) (v : Bytes) :
    exec (.lockGroupConfig h g v) s = execLockGroupConfig h g v s := rfl
theorem exec_lockStateRead (h : DHdr) :
    exec (.lockStateRead h) s = execLockStateRead h s := rfl
theorem exec_matchSearch (area : Fin 769) (v : BitVec 64) :
    exec (.matchSearch area v) s = execMatchSearch area v s := rfl
theorem exec_matchInsert (area : Fin 769) (v : BitVec 64) :
    exec (.matchInsert area v) s = execMatchInsert area v s := rfl
theorem exec_matchDelete (area : Fin 769) (v : BitVec 64) :
    exec (.matchDelete area v) s = execMatchDelete area v s := rfl
theorem exec_matchStep (area : Fin 769) (v : BitVec 64) :
    exec (.matchStep area v) s = execMatchStep area v s := rfl
theorem exec_hfree (area : Fin 769) (v : BitVec 64) :
    exec (.hfree area v) s = execHfree area v s := rfl
theorem exec_post (area : Fin 769) (v : BitVec 64) :
    exec (.post area v) s = execPost area v s := rfl
theorem exec_arrive :
    exec (.arrive) s = execArrive s := rfl
theorem exec_matchRead (area : Fin 769) (v : BitVec 64) :
    exec (.matchRead area v) s = execMatchRead area v s := rfl
theorem exec_heldArriveIssue (ts : Fin 8) (peer : BitVec 32) :
    exec (.heldArriveIssue ts peer) s = execHeldArriveIssue ts peer s := rfl
theorem exec_mseqHoldTimeout (ts : Fin 8) (peer : BitVec 32) :
    exec (.mseqHoldTimeout ts peer) s = execMseqHoldTimeout ts peer s := rfl
theorem exec_renumber (h : DHdr) (v : Bytes) :
    exec (.renumber h v) s = execRenumber h v s := rfl
theorem exec_renumberEnd (others : List (BitVec 32)) :
    exec (.renumberEnd others) s = execRenumberEnd others s := rfl
theorem exec_cascadeTraining (members : List CMember) :
    exec (.cascadeTraining members) s = execCascadeTraining members s := rfl
theorem exec_cascadeRound :
    exec (.cascadeRound) s = execCascadeRound s := rfl
theorem exec_cascadeFrameReceive (pos : Fin 4) (round : BitVec 32) (recs : List CRec) (results : List (Nat × Nat × Nat × CRes)) (crcOk : Bool) :
    exec (.cascadeFrameReceive pos round recs results crcOk) s = execCascadeFrameReceive pos round recs results crcOk s := rfl
theorem exec_cascadeMemberTimeout (pos : Fin 4) :
    exec (.cascadeMemberTimeout pos) s = execCascadeMemberTimeout pos s := rfl
theorem exec_blockClassWrite (h : DHdr) (v : Bytes) :
    exec (.blockClassWrite h v) s = execBlockClassWrite h v s := rfl
theorem exec_matchEntryRead (h : DHdr) :
    exec (.matchEntryRead h) s = execMatchEntryRead h s := rfl
theorem exec_alloc (req : Fin 22) (master : BitVec 16) (pool : Fin 64) (ocls : Fin 6) (oitem : BitVec 32) :
    exec (.alloc req master pool ocls oitem) s = execAlloc req master pool ocls oitem s := rfl
theorem exec_addref (req : Fin 22) (master : BitVec 16) (r : BitVec 64) (bad : Bool) :
    exec (.addref req master r bad) s = execAddref req master r bad s := rfl
theorem exec_free (req : Fin 22) (master : BitVec 16) (r : BitVec 64) (bad : Bool) :
    exec (.free req master r bad) s = execFree req master r bad s := rfl
theorem exec_bufferQuery (req : Fin 22) (master : BitVec 16) (r : BitVec 64) (bad : Bool) :
    exec (.bufferQuery req master r bad) s = execBufferQuery req master r bad s := rfl
theorem exec_freep (req : Fin 22) (master : BitVec 16) (r : BitVec 64) (bad : Bool) :
    exec (.freep req master r bad) s = execFreep req master r bad s := rfl
theorem exec_addrefp (req : Fin 22) (master : BitVec 16) (r : BitVec 64) (bad : Bool) :
    exec (.addrefp req master r bad) s = execAddrefp req master r bad s := rfl
theorem exec_fifoRefill (pool : Fin 64) (bad : Bool) :
    exec (.fifoRefill pool bad) s = execFifoRefill pool bad s := rfl
theorem exec_poolConfigWrite (h : DHdr) (pool : Fin 64) (v : Bytes) :
    exec (.poolConfigWrite h pool v) s = execPoolConfigWrite h pool v s := rfl
theorem exec_poolStateWrite (h : DHdr) (pool : Fin 64) (v : Bytes) :
    exec (.poolStateWrite h pool v) s = execPoolStateWrite h pool v s := rfl
theorem exec_poolDrainTimeout (pool : Fin 64) :
    exec (.poolDrainTimeout pool) s = execPoolDrainTimeout pool s := rfl
theorem exec_poisonLogRead (h : DHdr) :
    exec (.poisonLogRead h) s = execPoisonLogRead h s := rfl
theorem exec_hbmRequestAccept (tag : Nat) (block : Fin 2818572288) (write : Bool) (mask : BitVec 64) (data : Bytes) (tsel : BitVec 8) (tags : Bytes) (prio : Fin 16) :
    exec (.hbmRequestAccept tag block write mask data tsel tags prio) s = execHbmRequestAccept tag block write mask data tsel tags prio s := rfl
theorem exec_hbmCommandIssue (pc : Fin 128) :
    exec (.hbmCommandIssue pc) s = execHbmCommandIssue pc s := rfl
theorem exec_hbmReadReturn (pc : Fin 128) (sev0 sev1 sevTag : Fin 4) :
    exec (.hbmReadReturn pc sev0 sev1 sevTag) s = execHbmReadReturn pc sev0 sev1 sevTag s := rfl
theorem exec_watchRetry (t : Fin 776) :
    exec (.watchRetry t) s = execWatchRetry t s := rfl
theorem exec_idleClose (pc : Fin 128) (bank : Fin 64) :
    exec (.idleClose pc bank) s = execIdleClose pc bank s := rfl
theorem exec_refreshDue (pc : Fin 128) :
    exec (.refreshDue pc) s = execRefreshDue pc s := rfl
theorem exec_hbmTemperatureRead (stack : Fin 4) (temp : BitVec 8) :
    exec (.hbmTemperatureRead stack temp) s = execHbmTemperatureRead stack temp s := rfl
theorem exec_powerDownEntry (pc : Fin 128) :
    exec (.powerDownEntry pc) s = execPowerDownEntry pc s := rfl
theorem exec_parityAlert (pc : Fin 128) (late : Fin 33) :
    exec (.parityAlert pc late) s = execParityAlert pc late s := rfl
theorem exec_retirePc (h : DHdr) (v : Bytes) :
    exec (.retirePc h v) s = execRetirePc h v s := rfl
theorem exec_laneRepair (h : Option DHdr) (v : Bytes) :
    exec (.laneRepair h v) s = execLaneRepair h v s := rfl
theorem exec_retireStack (h : DHdr) (v : Bytes) :
    exec (.retireStack h v) s = execRetireStack h v s := rfl
theorem exec_doorbellTail (func : Fin 256) (q : Fin 4096) (tail : BitVec 32) :
    exec (.doorbellTail func q tail) s = execDoorbellTail func q tail s := rfl
theorem exec_doorbellInline (func : Fin 256) (q : Fin 4096) (whole : Bool) (entry : Bytes) :
    exec (.doorbellInline func q whole entry) s = execDoorbellInline func q whole entry s := rfl
theorem exec_cmdFetch (port : Fin 2) (data : Bytes) (err : Bool) :
    exec (.cmdFetch port data err) s = execCmdFetch port data err s := rfl
theorem exec_nop (q : Fin 4096) :
    exec (.nop q) s = execNop q s := rfl
theorem exec_dma (q : Fin 4096) :
    exec (.dma q) s = execDma q s := rfl
theorem exec_msgPut (q : Fin 4096) :
    exec (.msgPut q) s = execMsgPut q s := rfl
theorem exec_msgGet (q : Fin 4096) :
    exec (.msgGet q) s = execMsgGet q s := rfl
theorem exec_msgAtomic (q : Fin 4096) :
    exec (.msgAtomic q) s = execMsgAtomic q s := rfl
theorem exec_msgSend (q : Fin 4096) :
    exec (.msgSend q) s = execMsgSend q s := rfl
theorem exec_msgReduce (q : Fin 4096) :
    exec (.msgReduce q) s = execMsgReduce q s := rfl
theorem exec_matchOp (q : Fin 4096) :
    exec (.matchOp q) s = execMatchOp q s := rfl
theorem exec_brick (q : Fin 4096) :
    exec (.brick q) s = execBrick q s := rfl
theorem exec_counterArm (q : Fin 4096) :
    exec (.counterArm q) s = execCounterArm q s := rfl
theorem exec_counterDisarm (q : Fin 4096) :
    exec (.counterDisarm q) s = execCounterDisarm q s := rfl
theorem exec_window (q : Fin 4096) :
    exec (.window q) s = execWindow q s := rfl
theorem exec_createCmq (q : Fin 4096) :
    exec (.createCmq q) s = execCreateCmq q s := rfl
theorem exec_deleteCmq (q : Fin 4096) :
    exec (.deleteCmq q) s = execDeleteCmq q s := rfl
theorem exec_createCpq (q : Fin 4096) :
    exec (.createCpq q) s = execCreateCpq q s := rfl
theorem exec_deleteCpq (q : Fin 4096) :
    exec (.deleteCpq q) s = execDeleteCpq q s := rfl
theorem exec_pasidReg (q : Fin 4096) :
    exec (.pasidReg q) s = execPasidReg q s := rfl
theorem exec_pasidUnreg (q : Fin 4096) :
    exec (.pasidUnreg q) s = execPasidUnreg q s := rfl
theorem exec_aperture (q : Fin 4096) :
    exec (.aperture q) s = execAperture q s := rfl
theorem exec_adminQueueEnable (func : Fin 256) (reg : Fin 8) (v : BitVec 64) :
    exec (.adminQueueEnable func reg v) s = execAdminQueueEnable func reg v s := rfl
theorem exec_completionWrite (j : Fin 4096) :
    exec (.completionWrite j) s = execCompletionWrite j s := rfl
theorem exec_cqHeadWrite (func : Fin 256) (j : Fin 4096) (head : BitVec 32) :
    exec (.cqHeadWrite func j head) s = execCqHeadWrite func j head s := rfl
theorem exec_coalesceTimer :
    exec (.coalesceTimer) s = execCoalesceTimer s := rfl
theorem exec_cxlSnoop (q : Fin 4096) (tail : BitVec 32) :
    exec (.cxlSnoop q tail) s = execCxlSnoop q tail s := rfl
theorem exec_atsCompletion (func : Fin 256) (pasid : Option (BitVec 20)) (addr : BitVec 64) (wr : Bool) (phys : BitVec 64) (log2 : Fin 31) (rd wt : Bool) :
    exec (.atsCompletion func pasid addr wr phys log2 rd wt) s = execAtsCompletion func pasid addr wr phys log2 rd wt s := rfl
theorem exec_prgResponse (func : Fin 256) (pasid : Option (BitVec 20)) (addr : BitVec 64) (wr ok : Bool) :
    exec (.prgResponse func pasid addr wr ok) s = execPrgResponse func pasid addr wr ok s := rfl
theorem exec_prgTimeout (func : Fin 256) (pasid : Option (BitVec 20)) (addr : BitVec 64) (wr : Bool) :
    exec (.prgTimeout func pasid addr wr) s = execPrgTimeout func pasid addr wr s := rfl
theorem exec_atsInvalidate (func : Fin 256) (pasid : Option (BitVec 20)) (addr : BitVec 64) (log2 : Fin 65) :
    exec (.atsInvalidate func pasid addr log2) s = execAtsInvalidate func pasid addr log2 s := rfl
theorem exec_dmaPost (area : Fin 769) :
    exec (.dmaPost area) s = execDmaPost area s := rfl
theorem exec_dmaContextTake :
    exec (.dmaContextTake) s = execDmaContextTake s := rfl
theorem exec_dmaItemEnd (item : Nat) (host : Bytes) (err : Option Nat) :
    exec (.dmaItemEnd item host err) s = execDmaItemEnd item host err s := rfl
theorem exec_flr (func : Fin 256) :
    exec (.flr func) s = execFlr func s := rfl
theorem exec_hostLinkReset (port half : Fin 2) :
    exec (.hostLinkReset port half) s = execHostLinkReset port half s := rfl
theorem exec_hostLaneFail (port half : Fin 2) (width : Fin 17) :
    exec (.hostLaneFail port half width) s = execHostLaneFail port half width s := rfl
theorem exec_dictOpen (h : DHdr) (body : Bytes) :
    exec (.dictOpen h body) s = execDictOpen h body s := rfl
theorem exec_dictProve (h : DHdr) (proof : Bytes) :
    exec (.dictProve h proof) s = execDictProve h proof s := rfl
theorem exec_dictRead (h : DHdr) (idx : BitVec 16) (sub : BitVec 8) :
    exec (.dictRead h idx sub) s = execDictRead h idx sub s := rfl
theorem exec_dictWrite (h : DHdr) (idx : BitVec 16) (sub : BitVec 8) (v : Bytes) :
    exec (.dictWrite h idx sub v) s = execDictWrite h idx sub v s := rfl
theorem exec_timedWrite (h : DHdr) (idx : BitVec 16) (sub : BitVec 8) (atime : BitVec 80) (v : Bytes) :
    exec (.timedWrite h idx sub atime v) s = execTimedWrite h idx sub atime v s := rfl
theorem exec_readGroup (h : DHdr) (atime : BitVec 80) (entries : List (BitVec 16 × BitVec 8)) :
    exec (.readGroup h atime entries) s = execReadGroup h atime entries s := rfl
theorem exec_dictClose (h : DHdr) :
    exec (.dictClose h) s = execDictClose h s := rfl
theorem exec_claim (h : DHdr) (serial : BitVec 64) (number : BitVec 16) (key pub sig : Bytes) :
    exec (.claim h serial number key pub sig) s = execClaim h serial number key pub sig s := rfl
theorem exec_timedWriteFire :
    exec (.timedWriteFire) s = execTimedWriteFire s := rfl
theorem exec_readGroupCapture :
    exec (.readGroupCapture) s = execReadGroupCapture s := rfl
theorem exec_timedCancel (h : DHdr) (v : Bytes) :
    exec (.timedCancel h v) s = execTimedCancel h v s := rfl
theorem exec_challengeTimeout (sid : BitVec 32) :
    exec (.challengeTimeout sid) s = execChallengeTimeout sid s := rfl
theorem exec_idleSessionTimeout (sid : BitVec 32) :
    exec (.idleSessionTimeout sid) s = execIdleSessionTimeout sid s := rfl
theorem exec_closeSession (h : DHdr) (v : Bytes) :
    exec (.closeSession h v) s = execCloseSession h v s := rfl
theorem exec_operatorKey (h : DHdr) (slot : Fin 8) (v : Bytes) :
    exec (.operatorKey h slot v) s = execOperatorKey h slot v s := rfl
theorem exec_installerKey (h : DHdr) (v : Bytes) :
    exec (.installerKey h v) s = execInstallerKey h v s := rfl
theorem exec_unclaim (h : DHdr) (v : Bytes) :
    exec (.unclaim h v) s = execUnclaim h v s := rfl
theorem exec_configErase (h : DHdr) (v : Bytes) :
    exec (.configErase h v) s = execConfigErase h v s := rfl
theorem exec_journalRead (h : DHdr) :
    exec (.journalRead h) s = execJournalRead h s := rfl
theorem exec_journalMirror :
    exec (.journalMirror) s = execJournalMirror s := rfl
theorem exec_spdmRequest (xport : Nat) (msg : Bytes) :
    exec (.spdmRequest xport msg) s = execSpdmRequest xport msg s := rfl
theorem exec_mctpControl (xport : Nat) (msg : Bytes) :
    exec (.mctpControl xport msg) s = execMctpControl xport msg s := rfl
theorem exec_domainTargetWrite (h : DHdr) (dom : Fin 80) (v : Bytes) :
    exec (.domainTargetWrite h dom v) s = execDomainTargetWrite h dom v s := rfl
theorem exec_wakeGroup (h : DHdr) (v : Bytes) :
    exec (.wakeGroup h v) s = execWakeGroup h v s := rfl
theorem exec_deviceModeWrite (h : DHdr) (v : Bytes) :
    exec (.deviceModeWrite h v) s = execDeviceModeWrite h v s := rfl
theorem exec_wakeAlarm (h : DHdr) (v : Bytes) :
    exec (.wakeAlarm h v) s = execWakeAlarm h v s := rfl
theorem exec_wakeAlarmFire :
    exec (.wakeAlarmFire) s = execWakeAlarmFire s := rfl
theorem exec_mgmtWakeByte (addr : BitVec 7) (first : BitVec 8) :
    exec (.mgmtWakeByte addr first) s = execMgmtWakeByte addr first s := rfl
theorem exec_pairWake (t : Fin 768) :
    exec (.pairWake t) s = execPairWake t s := rfl
theorem exec_duskIdleEntry (dom : Fin 80) :
    exec (.duskIdleEntry dom) s = execDuskIdleEntry dom s := rfl
theorem exec_duskUngate (dom : Fin 80) :
    exec (.duskUngate dom) s = execDuskUngate dom s := rfl
theorem exec_softStartBegin :
    exec (.softStartBegin) s = execSoftStartBegin s := rfl
theorem exec_softStartEnd (dom : Fin 80) :
    exec (.softStartEnd dom) s = execSoftStartEnd dom s := rfl
theorem exec_restoreEnd (dom : Fin 80) :
    exec (.restoreEnd dom) s = execRestoreEnd dom s := rfl
theorem exec_governorWindow :
    exec (.governorWindow) s = execGovernorWindow s := rfl
theorem exec_domainLeaveEnd (dom : Fin 80) :
    exec (.domainLeaveEnd dom) s = execDomainLeaveEnd dom s := rfl
theorem exec_lstepDeassert :
    exec (.lstepDeassert) s = execLstepDeassert s := rfl
theorem exec_ledgerCheck :
    exec (.ledgerCheck) s = execLedgerCheck s := rfl
theorem exec_ledgerAlertClear (h : DHdr) :
    exec (.ledgerAlertClear h) s = execLedgerAlertClear h s := rfl
theorem exec_failureLogRead (h : DHdr) :
    exec (.failureLogRead h) s = execFailureLogRead h s := rfl
theorem exec_coreFault (core : Fin 96) :
    exec (.coreFault core) s = execCoreFault core s := rfl
theorem exec_tecChannelFault (tile : Fin 12) :
    exec (.tecChannelFault tile) s = execTecChannelFault tile s := rfl
theorem exec_selfTestEnd (core : Fin 96) (pass : Bool) :
    exec (.selfTestEnd core pass) s = execSelfTestEnd core pass s := rfl
theorem exec_coreReadmit (h : DHdr) (v : Bytes) :
    exec (.coreReadmit h v) s = execCoreReadmit h v s := rfl
theorem exec_stewardMismatch :
    exec (.stewardMismatch) s = execStewardMismatch s := rfl
theorem exec_warmRestartEnd :
    exec (.warmRestartEnd) s = execWarmRestartEnd s := rfl
theorem exec_stallReset (core : Fin 96) :
    exec (.stallReset core) s = execStallReset core s := rfl
theorem exec_imageLoad (h : DHdr) (v : Bytes) :
    exec (.imageLoad h v) s = execImageLoad h v s := rfl
theorem exec_imageChunk (h : DHdr) (v : Bytes) :
    exec (.imageChunk h v) s = execImageChunk h v s := rfl
theorem exec_swap (h : DHdr) (v : Bytes) :
    exec (.swap h v) s = execSwap h v s := rfl
theorem exec_swapTime (h : DHdr) (v : Bytes) :
    exec (.swapTime h v) s = execSwapTime h v s := rfl
theorem exec_swapFire :
    exec (.swapFire) s = execSwapFire s := rfl
theorem exec_rollback (h : DHdr) (v : Bytes) :
    exec (.rollback h v) s = execRollback h v s := rfl
theorem exec_deviceReset (h : DHdr) (v : Bytes) :
    exec (.deviceReset h v) s = execDeviceReset h v s := rfl
theorem exec_dbgNonce :
    exec (.dbgNonce) s = execDbgNonce s := rfl
theorem exec_dbgUnlock (proof : Bytes) :
    exec (.dbgUnlock proof) s = execDbgUnlock proof s := rfl
theorem exec_halt (via : DbgVia) (tile core th : BitVec 8) :
    exec (.halt via tile core th) s = execHalt via tile core th s := rfl
theorem exec_haltEffect (t : Fin 776) :
    exec (.haltEffect t) s = execHaltEffect t s := rfl
theorem exec_resume (via : DbgVia) (tile core th : BitVec 8) :
    exec (.resume via tile core th) s = execResume via tile core th s := rfl
theorem exec_step (via : DbgVia) (tile core th : BitVec 8) (n : BitVec 16) :
    exec (.step via tile core th n) s = execStep via tile core th n s := rfl
theorem exec_readRegs (via : DbgVia) (tile core th : BitVec 8) :
    exec (.readRegs via tile core th) s = execReadRegs via tile core th s := rfl
theorem exec_writeReg (via : DbgVia) (tile core th : BitVec 8) (reg : BitVec 8) (v : W72) :
    exec (.writeReg via tile core th reg v) s = execWriteReg via tile core th reg v s := rfl
theorem exec_readMem (via : DbgVia) (tile core th : BitVec 8) (addr : BitVec 48) (len : Fin 65) :
    exec (.readMem via tile core th addr len) s = execReadMem via tile core th addr len s := rfl
theorem exec_writeMem (via : DbgVia) (tile core th : BitVec 8) (addr : BitVec 48) (data tags : Bytes) :
    exec (.writeMem via tile core th addr data tags) s = execWriteMem via tile core th addr data tags s := rfl
theorem exec_setBp (via : DbgVia) (tile core th : BitVec 8) (slot : Fin 4) (index : BitVec 17) (mask : BitVec 8) (en : Bool) :
    exec (.setBp via tile core th slot index mask en) s = execSetBp via tile core th slot index mask en s := rfl
theorem exec_setWp (via : DbgVia) (tile core th : BitVec 8) (slot : Fin 4) (base mask : BitVec 48) (rd wr : Bool) (thr : BitVec 8) (en : Bool) :
    exec (.setWp via tile core th slot base mask rd wr thr en) s = execSetWp via tile core th slot base mask rd wr thr en s := rfl
theorem exec_chanAbort (via : DbgVia) (tile core th : BitVec 8) (chan : Fin 64) :
    exec (.chanAbort via tile core th chan) s = execChanAbort via tile core th chan s := rfl
theorem exec_trace (via : DbgVia) (tile core th : BitVec 8) (masks : BitVec 64) (stop : Bool) (first last : Option (Fin 4)) :
    exec (.trace via tile core th masks stop first last) s = execTrace via tile core th masks stop first last s := rfl
theorem exec_traceRead (via : DbgVia) (tile core th : BitVec 8) (first : BitVec 16) :
    exec (.traceRead via tile core th first) s = execTraceRead via tile core th first s := rfl
theorem exec_breakpointHit (t : Fin 776) :
    exec (.breakpointHit t) s = execBreakpointHit t s := rfl
theorem exec_watchpointHit (t : Fin 776) :
    exec (.watchpointHit t) s = execWatchpointHit t s := rfl
theorem exec_freezeNEdge :
    exec (.freezeNEdge) s = execFreezeNEdge s := rfl
theorem exec_freeze (h : DHdr) (v : Bytes) :
    exec (.freeze h v) s = execFreeze h v s := rfl
theorem exec_freezeTime (h : DHdr) (v : Bytes) :
    exec (.freezeTime h v) s = execFreezeTime h v s := rfl
theorem exec_freezeFire :
    exec (.freezeFire) s = execFreezeFire s := rfl
theorem exec_freezeStop :
    exec (.freezeStop) s = execFreezeStop s := rfl
theorem exec_dumpStart (via : DumpVia) :
    exec (.dumpStart via) s = execDumpStart via s := rfl
theorem exec_dumpEnd :
    exec (.dumpEnd) s = execDumpEnd s := rfl
theorem exec_thaw (h : DHdr) (v : Bytes) :
    exec (.thaw h v) s = execThaw h v s := rfl
theorem exec_thawTime (h : DHdr) (v : Bytes) :
    exec (.thawTime h v) s = execThawTime h v s := rfl
theorem exec_thawFire :
    exec (.thawFire) s = execThawFire s := rfl
theorem exec_thawRelease :
    exec (.thawRelease) s = execThawRelease s := rfl
theorem exec_unitRegisterWrite (t : Fin 776) (addr : BitVec 48) (size : Fin 4) (v : W64) (bad : Bool) :
    exec (.unitRegisterWrite t addr size v bad) s = execUnitRegisterWrite t addr size v bad s := rfl
theorem exec_ptpMessageInterval (sp : Fin 16) :
    exec (.ptpMessageInterval sp) s = execPtpMessageInterval sp s := rfl
theorem exec_memberRejoin (pos : Fin 4) (round oseq base rgen : BitVec 32) :
    exec (.memberRejoin pos round oseq base rgen) s = execMemberRejoin pos round oseq base rgen s := rfl
theorem exec_msixUnmask (func : Fin 256) (vec : Fin 2048) (mask : Bool) :
    exec (.msixUnmask func vec mask) s = execMsixUnmask func vec mask s := rfl
theorem exec_configurationRequest (func : Fin 256) (req : CfgReq) :
    exec (.configurationRequest func req) s = execConfigurationRequest func req s := rfl
theorem exec_perstNDeassert (port : Fin 2) :
    exec (.perstNDeassert port) s = execPerstNDeassert port s := rfl
theorem exec_hostLinkTrainingEnd (port half : Fin 2) (width : Fin 17) (rate : Fin 7) (cxl : Bool) :
    exec (.hostLinkTrainingEnd port half width rate cxl) s = execHostLinkTrainingEnd port half width rate cxl s := rfl
theorem exec_imageLoadEnd (err : Bool) :
    exec (.imageLoadEnd err) s = execImageLoadEnd err s := rfl
theorem exec_metadataMoveComplete :
    exec (.metadataMoveComplete) s = execMetadataMoveComplete s := rfl

end Sys2Proof.Machine
end

