-- ==== Sys2Proof/Laws/Frame.lean ====
section
/-! SUPPORT. What issuing and retiring a register instruction leaves unchanged, said once. -/

namespace Sys2Proof.Machine

/-! ### What every issue touches -/

theorem restOf_modCtr (f : Tab (BitVec 64) → Tab (BitVec 64)) (s : State) : restOf (modCtr f s) = restOf s := rfl

@[simp] theorem restOf_bumpBy (i j n : Nat) (s : State) : restOf (bumpBy i j n s) = restOf s := by
  unfold bumpBy
  exact restOf_modCtr _ s

@[simp] theorem restOf_bump (i j : Nat) (s : State) : restOf (bump i j s) = restOf s := restOf_bumpBy i j 1 s

@[simp] theorem restOf_bumpTile (t j : Nat) (s : State) : restOf (bumpTile t j s) = restOf s := by
  unfold bumpTile
  split
  · exact restOf_bump _ _ s
  · rfl

theorem restOf_modThr (t : Nat) (f : Thread → Thread) (s : State) : restOf (modThr t f s) = restOf s := rfl

@[simp] theorem restOf_setReg (t r : Nat) (v : W72) (s : State) : restOf (setReg t r v s) = restOf s := restOf_modThr _ _ s

@[simp] theorem restOf_tracePut (t : Nat) (r : Bytes) (s : State) : restOf (tracePut t r s) = restOf s := by
  unfold tracePut
  dsimp only
  repeat' split
  all_goals rfl

@[simp] theorem restOf_commitCpx (t : Nat) (s : State) : restOf (commitCpx t s) = restOf s := by
  unfold commitCpx
  split
  · rw [restOf_bumpTile, restOf_modThr]
  · rfl

@[simp] theorem restOf_issue (t cls rd ea : Nat) (regs : List Nat) (s : State) :
    restOf (issue t cls rd regs ea s) = restOf s := by
  unfold issue
  dsimp only
  rw [restOf_modThr]
  repeat' split
  all_goals simp

@[simp] theorem restOf_retire (t : Nat) (pc : BitVec 17) (s : State) : restOf (retire t pc s) = restOf s := by
  unfold retire
  rw [restOf_bumpTile, restOf_modThr]

/-! ### Counters -/

theorem ctr_bumpBy_ne {i j n k : Nat} (s : State) (hj : j < 256) (h : k / 256 ≠ i) :
    tget 0 (bumpBy i j n s).ctr k = tget 0 s.ctr k := by
  unfold bumpBy
  rw [modCtr_ctr]
  exact tget_tmod_ne _ _ _ (by omega)

theorem ctr_bumpTile_ne {t j k : Nat} (s : State) (hj : j < 256) (h : k / 256 ≠ 0xC070 + t / 64) :
    tget 0 (bumpTile t j s).ctr k = tget 0 s.ctr k := by
  unfold bumpTile
  split
  · exact ctr_bumpBy_ne s hj h
  · rfl

theorem ctr_modThr (t : Nat) (f : Thread → Thread) (s : State) : (modThr t f s).ctr = s.ctr := rfl

theorem ctr_tracePut (t : Nat) (r : Bytes) (s : State) : (tracePut t r s).ctr = s.ctr := by
  unfold tracePut
  dsimp only
  repeat' split
  all_goals rfl

theorem ctr_commitCpx_ne {t k : Nat} (s : State) (h : k / 256 ≠ 0xC070 + t / 64) :
    tget 0 (commitCpx t s).ctr k = tget 0 s.ctr k := by
  unfold commitCpx
  split
  · rw [ctr_bumpTile_ne _ (by decide) h, ctr_modThr]
  · rfl

theorem ctr_issue_ne {t k : Nat} (cls rd ea : Nat) (regs : List Nat) (s : State) (h : k / 256 ≠ 0xC070 + t / 64) :
    tget 0 (issue t cls rd regs ea s).ctr k = tget 0 s.ctr k := by
  unfold issue
  dsimp only
  rw [ctr_modThr]
  have hb : ∀ j u, j < 256 → tget 0 (bumpTile t j u).ctr k = tget 0 u.ctr k := fun j u hj => ctr_bumpTile_ne u hj h
  have hd : ∀ u, t < 768 → tget 0 (bumpBy (0xC070 + tileOf t) 0x0C (2 ^ 64 - 1) u).ctr k = tget 0 u.ctr k := fun u ht =>
    ctr_bumpBy_ne u (by decide) (by simpa [tileOf, ht] using h)
  repeat' split
  all_goals first
    | (rw [hb _ _ (by decide), hd _ (by assumption), ctr_commitCpx_ne s h])
    | (rw [hb _ _ (by decide), ctr_commitCpx_ne s h])
    | (rw [ctr_tracePut, hb _ _ (by decide), hb _ _ (by decide), ctr_commitCpx_ne s h])
    | (rw [ctr_tracePut, hb _ _ (by decide), ctr_commitCpx_ne s h])

theorem ctr_retire_ne {t k : Nat} (pc : BitVec 17) (s : State) (h : k / 256 ≠ 0xC070 + t / 64) :
    tget 0 (retire t pc s).ctr k = tget 0 s.ctr k := by
  unfold retire
  rw [ctr_bumpTile_ne _ (by decide) h, ctr_modThr]

/-! ### Retire -/

@[simp] theorem thr_retire_same (t : Nat) (pc : BitVec 17) (s : State) :
    thr (retire t pc s) t = { shadowStep (thr s t) with pc := pc } := by
  unfold retire
  rw [thr_bumpTile, thr_modThr_same]

theorem thr_retire_ne {t u : Nat} (pc : BitVec 17) (s : State) (h : u ≠ t) : thr (retire t pc s) u = thr s u := by
  unfold retire
  rw [thr_bumpTile, thr_modThr_ne _ _ h]

theorem shadowStep_w (x : Thread) : (shadowStep x).w = x.w := by
  unfold shadowStep
  repeat' split
  all_goals rfl

theorem quietOf_shadowStep (x : Thread) (pc : BitVec 17) : quietOf { shadowStep x with pc := pc } = quietOf x := by
  unfold shadowStep
  repeat' split
  all_goals rfl

theorem commitThr_w (x : Thread) : (commitThr x).w = x.w := by
  unfold commitThr
  split
  · exact shadowStep_w x
  · rfl

theorem shadowStep_none {x : Thread} (h : x.shadow = none) : shadowStep x = x := by
  unfold shadowStep
  rw [h]

theorem quietOf_commitThr (x : Thread) : quietOf (commitThr x) = quietOf x := by
  unfold commitThr
  split
  · unfold shadowStep
    repeat' split
    all_goals simp [quietOf, List.map_map, Function.comp_def]
  · rfl

/-- Without a mode shadow a commit leaves the mode as it was. -/
theorem commitThr_mode {x : Thread} (h : x.shadow = none) :
    (commitThr x).st = x.st ∧ (commitThr x).enu = x.enu ∧ (commitThr x).shadow = none := by
  unfold commitThr
  split
  · rw [shadowStep_none h]
    exact ⟨rfl, rfl, h⟩
  · exact ⟨rfl, rfl, h⟩

theorem reg_congr {x y : Thread} (h : x.w = y.w) (r : Nat) : x.reg r = y.reg r := by
  simp [Thread.reg, h]

theorem getReg_retire (t : Nat) (pc : BitVec 17) (s : State) (r : Nat) : getReg (retire t pc s) t r = getReg s t r := by
  simp only [getReg, thr_retire_same]
  exact reg_congr (shadowStep_w _) r

theorem getReg_issue (t cls rd ea : Nat) (regs : List Nat) (s : State) (r : Nat) :
    getReg (issue t cls rd regs ea s) t r = getReg s t r := by
  obtain ⟨_, _, _, _, h⟩ := thr_issue_same t cls rd ea regs s
  simp only [getReg, h]
  exact reg_congr (commitThr_w _) r

theorem quietOf_setReg (r : Nat) (v : W72) (x : Thread) : quietOf (Thread.setReg r v x) = quietOf x := by
  unfold Thread.setReg
  split <;> rfl

/-- What an issue and one register written leave of the thread. -/
theorem issued_quiet (t cls rd ea : Nat) (regs : List Nat) (s : State) :
    quietOf (thr (issue t cls rd regs ea s) t) = quietOf (thr s t) := by
  obtain ⟨ch, sl, ha, pr, hi⟩ := thr_issue_same t cls rd ea regs s
  rw [hi, ← quietOf_commitThr (thr s t)]
  rfl

theorem issued_mode (t cls rd ea : Nat) (regs : List Nat) {s : State} (hn : (thr s t).shadow = none) :
    (thr (issue t cls rd regs ea s) t).st = (thr s t).st ∧ (thr (issue t cls rd regs ea s) t).enu = (thr s t).enu ∧
      (thr (issue t cls rd regs ea s) t).shadow = none := by
  obtain ⟨ch, sl, ha, pr, hi⟩ := thr_issue_same t cls rd ea regs s
  rw [hi]
  exact commitThr_mode hn

theorem setReg_mode (r : Nat) (v : W72) (x : Thread) :
    (Thread.setReg r v x).st = x.st ∧ (Thread.setReg r v x).enu = x.enu ∧ (Thread.setReg r v x).shadow = x.shadow := by
  unfold Thread.setReg
  split <;> exact ⟨rfl, rfl, rfl⟩

/-- The whole of a register instruction: issue, one register written, retire at `pc`. -/
theorem regWrite_frame (t cls rd ea : Nat) (regs : List Nat) (v : W72) (pc : BitVec 17) (s : State) :
    RegFrame t rd s (retire t pc (setReg t rd v (issue t cls rd regs ea s))) := by
  have hs : thr (setReg t rd v (issue t cls rd regs ea s)) t = Thread.setReg rd v (thr (issue t cls rd regs ea s) t) := by
    simp [setReg]
  refine ⟨by simp, ?_, ?_, ?_, ?_, ?_⟩
  · intro u hu
    rw [thr_retire_ne _ _ hu, setReg, thr_modThr_ne _ _ hu, thr_issue_ne _ _ _ _ _ hu]
  · intro r hr
    rw [getReg_retire, getReg_setReg_ne _ _ hr, getReg_issue]
  · rw [thr_retire_same, quietOf_shadowStep, hs, quietOf_setReg, issued_quiet]
  · intro hn
    obtain ⟨h1, h2, h3⟩ := issued_mode t cls rd ea regs hn
    obtain ⟨g1, g2, g3⟩ := setReg_mode rd v (thr (issue t cls rd regs ea s) t)
    rw [thr_retire_same, hs, shadowStep_none (g3.trans h3)]
    exact ⟨g1.trans h1, g2.trans h2, g3.trans h3⟩
  · intro k hk
    rw [ctr_retire_ne _ _ hk, setReg, ctr_modThr, ctr_issue_ne _ _ _ _ _ hk]

/-- An instruction that writes no register: issue, and retire at `pc`. -/
theorem issueRetire_frame (t cls rd ea q : Nat) (regs : List Nat) (pc : BitVec 17) (s : State) :
    RegFrame t q s (retire t pc (issue t cls rd regs ea s)) := by
  refine ⟨by simp, ?_, ?_, ?_, ?_, ?_⟩
  · intro u hu
    rw [thr_retire_ne _ _ hu, thr_issue_ne _ _ _ _ _ hu]
  · intro r _
    rw [getReg_retire, getReg_issue]
  · rw [thr_retire_same, quietOf_shadowStep, issued_quiet]
  · intro hn
    rw [thr_retire_same, shadowStep_none (issued_mode t cls rd ea regs hn).2.2]
    exact issued_mode t cls rd ea regs hn
  · intro k hk
    rw [ctr_retire_ne _ _ hk, ctr_issue_ne _ _ _ _ _ hk]

/-- runWrite, once it may issue. -/
theorem runWrite_spec {t cls rd : Nat} {regs : List Nat} {v : W72} {s : State} (h : canIssue s t cls (rd :: regs) = true) :
    getReg (runWrite t cls rd regs v s) t rd = (if rd = 0 then 0 else v) ∧
    (thr (runWrite t cls rd regs v s) t).pc = (thr s t).pc + 1 ∧ RegFrame t rd s (runWrite t cls rd regs v s) := by
  unfold runWrite
  rw [if_pos h]
  refine ⟨?_, ?_, regWrite_frame _ _ _ _ _ _ _ _⟩
  · rw [getReg_retire, getReg_setReg_same]
  · rw [thr_retire_same]
    rfl

end Sys2Proof.Machine
end

