-- ==== Sys2Proof/Laws/KeptBase.lean ====
section
/-! SUPPORT. What every unit update keeps: the leaves from which the same is shown of every operation. -/

namespace Sys2Proof.Machine

variable {k0 : State}

theorem Kept.refl {s : State} (h : Inv s) : Kept s s := ⟨h, rfl, List.prefix_refl _, Nat.le_refl _, Nat.le_refl _⟩

theorem Kept.ite {c : Prop} [Decidable c] {a b : State} (ha : c → Kept k0 a) (hb : ¬c → Kept k0 b) :
    Kept k0 (if c then a else b) := by
  split
  · exact ha ‹_›
  · exact hb ‹_›

theorem Kept.iteB {c : Bool} {a b : State} (ha : c = true → Kept k0 a) (hb : c = false → Kept k0 b) :
    Kept k0 (bif c then a else b) := by
  cases c
  · exact hb rfl
  · exact ha rfl

theorem Kept.foldl {α : Type} {f : State → α → State} (l : List α) {s : State}
    (hf : ∀ st x, Kept k0 st → Kept k0 (f st x)) (h : Kept k0 s) : Kept k0 (l.foldl f s) := by
  induction l generalizing s with
  | nil => exact h
  | cons x t ih => exact ih (hf s x h)

theorem Kept.foldlPair {α β : Type} {f : β × State → α → β × State} (l : List α) {a : β × State}
    (hf : ∀ st x, Kept k0 st.2 → Kept k0 (f st x).2) (h : Kept k0 a.2) : Kept k0 (l.foldl f a).2 := by
  induction l generalizing a with
  | nil => exact h
  | cons x t ih => exact ih (hf a x h)

theorem Kept.foldlTriple {α β γ : Type} {f : γ × β × State → α → γ × β × State} (l : List α) {a : γ × β × State}
    (hf : ∀ st x, Kept k0 st.2.2 → Kept k0 (f st x).2.2) (h : Kept k0 a.2.2) : Kept k0 (l.foldl f a).2.2 := by
  induction l generalizing a with
  | nil => exact h
  | cons x t ih => exact ih (hf a x h)

theorem Kept.foldlFst {α β : Type} {f : State × β → α → State × β} (l : List α) {a : State × β}
    (hf : ∀ st x, Kept k0 st.1 → Kept k0 (f st x).1) (h : Kept k0 a.1) : Kept k0 (l.foldl f a).1 := by
  induction l generalizing a with
  | nil => exact h
  | cons x t ih => exact ih (hf a x h)

theorem Kept.of_pair {β : Type} {p : β × State} {a : β} {t : State} (e : p = (a, t)) (h : Kept k0 p.2) : Kept k0 t := by
  subst e
  exact h

theorem Kept.of_triple {β γ : Type} {p : β × γ × State} {a : β} {b : γ} {t : State} (e : p = (a, b, t))
    (h : Kept k0 p.2.2) : Kept k0 t := by
  subst e
  exact h

theorem Kept.elim {α : Type} {o : Option α} {a : State} {f : α → State} (ha : o = none → Kept k0 a)
    (hf : ∀ x, o = some x → Kept k0 (f x)) : Kept k0 (o.elim a f) := by
  cases o with
  | none => exact ha rfl
  | some x => exact hf x rfl

theorem KeptO.next {s : State} (h : Kept k0 s) : KeptO k0 (.next s) := h
theorem KeptO.fault (r : Fault) : KeptO k0 (.fault r) := trivial
theorem KeptO.refused (r : Refusal) : KeptO k0 (.refused r) := trivial

theorem KeptO.ite {c : Prop} [Decidable c] {a b : Host.Outcome State Fault Refusal} (ha : c → KeptO k0 a)
    (hb : ¬c → KeptO k0 b) : KeptO k0 (if c then a else b) := by
  split
  · exact ha ‹_›
  · exact hb ‹_›

theorem modClk_kept {f : Clk → Clk} {s : State} (h : Kept k0 s) : Kept k0 (modClk f s) :=
  ⟨⟨h.inv.mem, h.inv.ledger, h.inv.fuses⟩, h.pending, h.out, h.free, h.fuses⟩
theorem modFab_kept {f : Fab → Fab} {s : State} (h : Kept k0 s) : Kept k0 (modFab f s) :=
  ⟨⟨h.inv.mem, h.inv.ledger, h.inv.fuses⟩, h.pending, h.out, h.free, h.fuses⟩
theorem modCls_kept {f : Cls → Cls} {s : State} (h : Kept k0 s) : Kept k0 (modCls f s) :=
  ⟨⟨h.inv.mem, h.inv.ledger, h.inv.fuses⟩, h.pending, h.out, h.free, h.fuses⟩
theorem modFwd_kept {f : Fwd → Fwd} {s : State} (h : Kept k0 s) : Kept k0 (modFwd f s) :=
  ⟨⟨h.inv.mem, h.inv.ledger, h.inv.fuses⟩, h.pending, h.out, h.free, h.fuses⟩
theorem modZmt_kept {f : Zmt → Zmt} {s : State} (h : Kept k0 s) : Kept k0 (modZmt f s) :=
  ⟨⟨h.inv.mem, h.inv.ledger, h.inv.fuses⟩, h.pending, h.out, h.free, h.fuses⟩
theorem modCpu_kept {f : Cpu → Cpu} {s : State} (h : Kept k0 s) : Kept k0 (modCpu f s) :=
  ⟨⟨h.inv.mem, h.inv.ledger, h.inv.fuses⟩, h.pending, h.out, h.free, h.fuses⟩
theorem modSched_kept {f : Sched → Sched} {s : State} (h : Kept k0 s) : Kept k0 (modSched f s) :=
  ⟨⟨h.inv.mem, h.inv.ledger, h.inv.fuses⟩, h.pending, h.out, h.free, h.fuses⟩
theorem modLocks_kept {f : Locks → Locks} {s : State} (h : Kept k0 s) : Kept k0 (modLocks f s) :=
  ⟨⟨h.inv.mem, h.inv.ledger, h.inv.fuses⟩, h.pending, h.out, h.free, h.fuses⟩
theorem modPower_kept {f : Power → Power} {s : State} (h : Kept k0 s) : Kept k0 (modPower f s) :=
  ⟨⟨h.inv.mem, h.inv.ledger, h.inv.fuses⟩, h.pending, h.out, h.free, h.fuses⟩
theorem modCops_kept {f : Cops → Cops} {s : State} (h : Kept k0 s) : Kept k0 (modCops f s) :=
  ⟨⟨h.inv.mem, h.inv.ledger, h.inv.fuses⟩, h.pending, h.out, h.free, h.fuses⟩
theorem modMat_kept {f : Match → Match} {s : State} (h : Kept k0 s) : Kept k0 (modMat f s) :=
  ⟨⟨h.inv.mem, h.inv.ledger, h.inv.fuses⟩, h.pending, h.out, h.free, h.fuses⟩
theorem modBufs_kept {f : Bufs → Bufs} {s : State} (h : Kept k0 s) : Kept k0 (modBufs f s) :=
  ⟨⟨h.inv.mem, h.inv.ledger, h.inv.fuses⟩, h.pending, h.out, h.free, h.fuses⟩
theorem modHbm_kept {f : Hbm → Hbm} {s : State} (h : Kept k0 s) : Kept k0 (modHbm f s) :=
  ⟨⟨h.inv.mem, h.inv.ledger, h.inv.fuses⟩, h.pending, h.out, h.free, h.fuses⟩
theorem modHost_kept {f : HostIf → HostIf} {s : State} (h : Kept k0 s) : Kept k0 (modHost f s) :=
  ⟨⟨h.inv.mem, h.inv.ledger, h.inv.fuses⟩, h.pending, h.out, h.free, h.fuses⟩
theorem modDbg_kept {f : Dbg → Dbg} {s : State} (h : Kept k0 s) : Kept k0 (modDbg f s) :=
  ⟨⟨h.inv.mem, h.inv.ledger, h.inv.fuses⟩, h.pending, h.out, h.free, h.fuses⟩
theorem modCtr_kept {f : Tab (BitVec 64) → Tab (BitVec 64)} {s : State} (h : Kept k0 s) : Kept k0 (modCtr f s) :=
  ⟨⟨h.inv.mem, h.inv.ledger, h.inv.fuses⟩, h.pending, h.out, h.free, h.fuses⟩

/-- A memory update keeps it when it keeps the canonical form. -/
theorem modMem_kept {f : Mem → Mem} {s : State} (hf : ∀ m : Mem, m.wf = true → (f m).wf = true) (h : Kept k0 s) :
    Kept k0 (modMem f s) :=
  ⟨⟨hf _ h.inv.mem, h.inv.ledger, h.inv.fuses⟩, h.pending, h.out, h.free, h.fuses⟩

/-- A dictionary update keeps it when it burns at most one fuse of a device that has one left. -/
theorem modDict_kept {f : Dict → Dict} {s : State}
    (hf : ∀ d : Dict, d.claimFuses.toNat ≤ 15 → (f d).claimFuses.toNat ≤ 15 ∧ d.claimFuses.toNat ≤ (f d).claimFuses.toNat)
    (h : Kept k0 s) : Kept k0 (modDict f s) :=
  ⟨⟨h.inv.mem, h.inv.ledger, (hf _ h.inv.fuses).1⟩, h.pending, h.out, h.free, Nat.le_trans h.fuses (hf _ h.inv.fuses).2⟩

/-- A ledger update outside the rows. -/
theorem modLed_kept {f : Ledger → Ledger} {s : State} (hf : ∀ l : Ledger, (f l).rows = l.rows) (h : Kept k0 s) :
    Kept k0 (modLed f s) :=
  ⟨⟨h.inv.mem, fun r => by have := h.inv.ledger r; simp only [ledRow, modLed_led, hf] at this ⊢; exact this, h.inv.fuses⟩,
    h.pending, h.out, h.free, h.fuses⟩

/-- A row update keeps it when it keeps the balance. -/
theorem modRow_kept {r : Nat} {f : LRow → LRow} {s : State} (hf : ∀ x : LRow, x.balanced = true → (f x).balanced = true) (h : Kept k0 s) :
    Kept k0 (modRow r f s) := by
  refine ⟨⟨h.inv.mem, fun q => ?_, h.inv.fuses⟩, h.pending, h.out, h.free, h.fuses⟩
  simp only [modRow, ledRow, modLed_led]
  by_cases hq : q = r
  · subst hq
    rw [tget_tmod_same]
    exact hf _ (h.inv.ledger q)
  · rw [tget_tmod_ne _ _ _ hq]
    exact h.inv.ledger q

theorem LRow.balanced_iff (x : LRow) : x.balanced = true ↔ x.acc = x.comp + x.fail + x.infl := by
  simp [LRow.balanced]

theorem LRow.accept_balanced (x : LRow) (h : x.balanced = true) : x.accept.balanced = true := by
  rw [LRow.balanced_iff] at h ⊢
  show x.acc + 1 = x.comp + x.fail + (x.infl + 1)
  bv_omega

theorem LRow.complete_balanced (x : LRow) (h : x.balanced = true) : x.complete.balanced = true := by
  rw [LRow.balanced_iff] at h ⊢
  show x.acc = x.comp + 1 + x.fail + (x.infl - 1)
  bv_omega

theorem LRow.failed_balanced (x : LRow) (h : x.balanced = true) : x.failed.balanced = true := by
  rw [LRow.balanced_iff] at h ⊢
  show x.acc = x.comp + (x.fail + 1) + (x.infl - 1)
  bv_omega

theorem LRow.moved_balanced (x : LRow) (h : x.balanced = true) :
    LRow.balanced { x with comp := x.comp - 1, fail := x.fail + 1 } = true := by
  rw [LRow.balanced_iff] at h ⊢
  show x.acc = x.comp - 1 + (x.fail + 1) + x.infl
  bv_omega

theorem emit_kept {o : Output} {s : State} (h : Kept k0 s) : Kept k0 (emit o s) :=
  ⟨⟨h.inv.mem, h.inv.ledger, h.inv.fuses⟩, h.pending, h.out.trans (List.prefix_append _ _), h.free, h.fuses⟩

theorem modFree_kept {n : Nat} {s : State} (h : Kept k0 s) : Kept k0 (modFree (· + n) s) :=
  ⟨⟨h.inv.mem, h.inv.ledger, h.inv.fuses⟩, h.pending, h.out, Nat.le_trans h.free (Nat.le_add_right _ _), h.fuses⟩

/-! Leaves whose side conditions hold as they stand. -/

theorem memPut_kept {a : Nat} {b : Byte} {s : State} (h : Kept k0 s) : Kept k0 (memPut a b s) := by
  unfold memPut
  refine Kept.ite (fun _ => h) (fun _ => modMem_kept (fun m hm => ?_) h)
  simp only [Mem.wf, Bool.and_eq_true] at hm ⊢
  exact ⟨twf_tset _ _ hm.1, hm.2⟩

theorem tagPut_kept {w : Nat} {b : Byte} {s : State} (h : Kept k0 s) : Kept k0 (tagPut w b s) := by
  unfold tagPut
  refine Kept.ite (fun _ => h) (fun _ => modMem_kept (fun m hm => ?_) h)
  simp only [Mem.wf, Bool.and_eq_true] at hm ⊢
  exact ⟨hm.1, twf_tset _ _ hm.2⟩

theorem memZero_kept {lo hi : Nat} {keep : Nat → Bool} {s : State} (h : Kept k0 s) : Kept k0 (memZero lo hi keep s) := by
  unfold memZero
  refine modMem_kept (fun m hm => ?_) h
  simp only [Mem.wf, Bool.and_eq_true] at hm ⊢
  exact ⟨twf_tfilter _ hm.1, twf_tfilter _ hm.2⟩

theorem memWrite_kept {bs : Bytes} : ∀ {a : Nat} {s : State}, Kept k0 s → Kept k0 (memWrite a bs s) := by
  induction bs with
  | nil => intro a s h; exact h
  | cons b t ih => intro a s h; exact ih (memPut_kept h)

end Sys2Proof.Machine
end

