-- ==== Sys2Proof/Laws/KeptRes.lean ====
section
/-! SUPPORT. What the answers of a packet's effect and of a load keep. -/

namespace Sys2Proof.Machine

variable {k0 : State}

/-- Every state a packet's effect may answer keeps it. -/
def KeptZ (k : State) : ZRes → Prop
  | .done t => Kept k t
  | .refuse _ t _ => Kept k t
  | .wait t => Kept k t
  | .busy => True

/-- Every state a load's effect may answer keeps it. -/
def KeptL (k : State) : LoadRes → Prop
  | .wait t => Kept k t
  | .value _ t => Kept k t

theorem KeptZ.done {s : State} (h : Kept k0 s) : KeptZ k0 (.done s) := h
theorem KeptZ.refuse {c w : Nat} {s : State} (h : Kept k0 s) : KeptZ k0 (.refuse c s w) := h
theorem KeptZ.wait {s : State} (h : Kept k0 s) : KeptZ k0 (.wait s) := h
theorem KeptZ.busy : KeptZ k0 .busy := trivial
theorem KeptZ.of_done {z : ZRes} {s : State} (e : z = .done s) (h : KeptZ k0 z) : Kept k0 s := by
  subst e
  exact h
theorem KeptZ.of_refuse {z : ZRes} {c w : Nat} {s : State} (e : z = .refuse c s w) (h : KeptZ k0 z) : Kept k0 s := by
  subst e
  exact h
theorem KeptZ.of_wait {z : ZRes} {s : State} (e : z = .wait s) (h : KeptZ k0 z) : Kept k0 s := by
  subst e
  exact h
theorem KeptZ.of_fst {β : Type} {p : ZRes × β} {z : ZRes} {b : β} (e : p = (z, b)) (h : KeptZ k0 p.1) : KeptZ k0 z := by
  subst e
  exact h
theorem KeptZ.out_done {s : State} (h : KeptZ k0 (.done s)) : Kept k0 s := h
theorem KeptZ.out_refuse {c w : Nat} {s : State} (h : KeptZ k0 (.refuse c s w)) : Kept k0 s := h
theorem KeptZ.out_wait {s : State} (h : KeptZ k0 (.wait s)) : Kept k0 s := h
theorem KeptZ.ite {c : Prop} [Decidable c] {a b : ZRes} (ha : c → KeptZ k0 a) (hb : ¬c → KeptZ k0 b) :
    KeptZ k0 (if c then a else b) := by
  split
  · exact ha ‹_›
  · exact hb ‹_›
theorem KeptL.wait {s : State} (h : Kept k0 s) : KeptL k0 (.wait s) := h
theorem KeptL.value {v : W64} {s : State} (h : Kept k0 s) : KeptL k0 (.value v s) := h
theorem KeptL.of_value {z : LoadRes} {v : W64} {s : State} (e : z = .value v s) (h : KeptL k0 z) : Kept k0 s := by
  subst e
  exact h
theorem KeptL.of_wait {z : LoadRes} {s : State} (e : z = .wait s) (h : KeptL k0 z) : Kept k0 s := by
  subst e
  exact h
theorem KeptL.ite {c : Prop} [Decidable c] {a b : LoadRes} (ha : c → KeptL k0 a) (hb : ¬c → KeptL k0 b) :
    KeptL k0 (if c then a else b) := by
  split
  · exact ha ‹_›
  · exact hb ‹_›

end Sys2Proof.Machine
end

