-- ==== Sys2Proof/Laws/KeptOps.lean ====
section
/-! SUPPORT. What every operation of Machine/Ops.lean keeps. -/

namespace Sys2Proof.Machine

variable {k0 : State}

theorem drawn_kept (s : State) (hs : Kept k0 s) :
    Kept k0 (drawn s) := by
  unfold drawn
  with_reducible repeat' first
    | assumption | apply modFree_kept

theorem bumpBy_kept (idx sub n : Nat) (s : State) (hs : Kept k0 s) :
    Kept k0 (bumpBy idx sub n s) := by
  unfold bumpBy
  with_reducible repeat' first
    | assumption | apply modCtr_kept | dsimp only

theorem bump_kept (idx sub : Nat) (s : State) (hs : Kept k0 s) :
    Kept k0 (bump idx sub s) := by
  unfold bump
  with_reducible repeat' first
    | assumption | apply bumpBy_kept

theorem bumpIf_kept (b : Bool) (idx sub : Nat) (s : State) (hs : Kept k0 s) :
    Kept k0 (bumpIf b idx sub s) := by
  unfold bumpIf
  with_reducible repeat' first
    | assumption | apply bump_kept | apply Kept.ite | intro _

theorem ledAccept_kept (r : Nat) (s : State) (hs : Kept k0 s) :
    Kept k0 (ledAccept r s) := by
  unfold ledAccept
  with_reducible repeat' first
    | assumption | apply modRow_kept | exact LRow.accept_balanced _ (by assumption) | intro _

theorem ledComplete_kept (r : Nat) (s : State) (hs : Kept k0 s) :
    Kept k0 (ledComplete r s) := by
  unfold ledComplete
  with_reducible repeat' first
    | assumption | apply modRow_kept | exact LRow.complete_balanced _ (by assumption) | intro _

theorem failLog_kept (rec : Bytes) (s : State) (hs : Kept k0 s) :
    Kept k0 (failLog rec s) := by
  unfold failLog
  with_reducible repeat' first
    | assumption | refine modLed_kept (fun _ => rfl) ?_ | apply bump_kept | apply Kept.ite | intro _ | dsimp only

theorem ledFail_kept (r reason unit detail item : Nat) (s : State) (hs : Kept k0 s) :
    Kept k0 (ledFail r reason unit detail item s) := by
  unfold ledFail
  with_reducible repeat' first
    | assumption | apply failLog_kept | apply bump_kept | apply modRow_kept
    | exact LRow.failed_balanced _ (by assumption) | intro _

theorem setVal_kept (idx sub : Nat) (v : Bytes) (s : State) (hs : Kept k0 s) :
    Kept k0 (setVal idx sub v s) := by
  unfold setVal
  with_reducible repeat' first
    | assumption | refine modDict_kept (fun _ hd => ⟨hd, Nat.le_refl _⟩) ?_ | dsimp only

theorem modPool_kept (p : Nat) (f : Pool → Pool) (s : State) (hs : Kept k0 s) :
    Kept k0 (modPool p f s) := by
  unfold modPool
  with_reducible repeat' first
    | assumption | apply modBufs_kept | apply Kept.ite | intro _ | dsimp only

theorem timedCount_kept (st : Nat) (s : State) (hs : Kept k0 s) :
    Kept k0 (timedCount st s) := by
  unfold timedCount
  with_reducible repeat' first
    | assumption | apply bump_kept | apply Kept.ite | intro _

end Sys2Proof.Machine
end

