-- ==== Sys2Proof/Laws/KeptDictCore.lean ====
section
/-! SUPPORT. What every operation of Machine/DictCore.lean keeps. -/

namespace Sys2Proof.Machine

variable {k0 : State}

theorem jPut_kept (mk : Nat → Bytes) (s : State) (hs : Kept k0 s) :
    Kept k0 (jPut mk s) := by
  unfold jPut
  with_reducible repeat' first
    | assumption | apply bump_kept | refine modDict_kept (fun _ hd => ⟨hd, Nat.le_refl _⟩) ?_ | apply emit_kept
    | apply Kept.ite | intro _ | dsimp only

theorem journal_kept (ev role sid idx sub res xport : Nat) (old new : Bytes) (s : State) (hs : Kept k0 s) :
    Kept k0 (journal ev role sid idx sub res xport old new s) := by
  unfold journal
  with_reducible repeat' first
    | assumption | refine modDict_kept (fun _ hd => ⟨hd, Nat.le_refl _⟩) ?_ | apply jPut_kept | apply Kept.ite
    | intro _ | dsimp only

theorem modSess_kept (sid : Nat) (f : Sess → Sess) (s : State) (hs : Kept k0 s) :
    Kept k0 (modSess sid f s) := by
  unfold modSess
  with_reducible repeat' first
    | assumption | refine modDict_kept (fun _ hd => ⟨hd, Nat.le_refl _⟩) ?_ | dsimp only

theorem sendMgmt_kept (h : DHdr) (m : Bytes) (s : State) (hs : Kept k0 s) :
    Kept k0 (sendMgmt h m s) := by
  unfold sendMgmt
  with_reducible repeat' first
    | assumption | refine modDict_kept (fun _ hd => ⟨hd, Nat.le_refl _⟩) ?_ | apply emit_kept | apply Kept.ite
    | intro _ | dsimp only

theorem respond_kept (h : DHdr) (kind sid : Nat) (key : Option Bytes) (status : Nat) (body : Bytes) (s : State) (hs : Kept k0 s) :
    Kept k0 (respond h kind sid key status body s) := by
  unfold respond
  with_reducible repeat' first
    | assumption | apply sendMgmt_kept | dsimp only | split

theorem dictArrive_kept (h : DHdr) (body : Bytes) (k : State → State) (s : State) (hk : ∀  s, Kept k0 s → Kept k0 (k  s)) (hs : Kept k0 s) :
    Kept k0 (dictArrive h body k s) := by
  unfold dictArrive
  with_reducible repeat' first
    | assumption | apply bump_kept | apply Kept.ite | apply hk | intro _ | split

theorem inSession_kept (h : DHdr) (kind : Nat) (body : Bytes) (k : Sess → State → State) (s : State) (hk : ∀ a s, Kept k0 s → Kept k0 (k a s)) (hs : Kept k0 s) :
    Kept k0 (inSession h kind body k s) := by
  unfold inSession
  with_reducible repeat' first
    | assumption | apply dictArrive_kept | apply respond_kept | apply bump_kept | apply modSess_kept | apply Kept.ite
    | apply hk | intro _ | dsimp only | split

theorem countWrite_kept (st : Nat) (s : State) (hs : Kept k0 s) :
    Kept k0 (countWrite st s) := by
  unfold countWrite
  with_reducible repeat' first
    | assumption | apply bump_kept | apply Kept.ite | intro _ | split

theorem countStaging_kept (idx sub st : Nat) (s : State) (hs : Kept k0 s) :
    Kept k0 (countStaging idx sub st s) := by
  unfold countStaging
  with_reducible repeat' first
    | assumption | apply bump_kept | apply Kept.ite | intro _ | split

theorem refuseFull_kept (e : Sess) (h : DHdr) (idx sub : Nat) (s : State) (hs : Kept k0 s) :
    Kept k0 (refuseFull e h idx sub s) := by
  unfold refuseFull
  with_reducible repeat' first
    | assumption | apply respond_kept | apply countStaging_kept | apply countWrite_kept | apply bump_kept | intro _

theorem recordWrite_kept (e : Sess) (h : DHdr) (idx sub st : Nat) (old new : Bytes) (k : State → State) (s : State) (hk : ∀  s, Kept k0 s → Kept k0 (k  s)) (hs : Kept k0 s) :
    Kept k0 (recordWrite e h idx sub st old new k s) := by
  unfold recordWrite
  with_reducible repeat' first
    | assumption | apply journal_kept | apply bump_kept | apply respond_kept | apply countStaging_kept
    | apply countWrite_kept | apply Kept.ite | apply hk | intro _ | dsimp only

theorem performWrite_kept (e : Sess) (h : DHdr) (idx sub : Nat) (v : Bytes) (eff : WriteEff) (s : State) (heff : ∀ a v s, Kept k0 s → Kept k0 (eff a v s).2) (hs : Kept k0 s) :
    Kept k0 (performWrite e h idx sub v eff s) := by
  unfold performWrite
  with_reducible repeat' first
    | assumption | apply refuseFull_kept | apply recordWrite_kept | apply Kept.ite | apply heff | intro _ | dsimp only
    | simp only [id_eq]

theorem dictWriteRow_kept (h : DHdr) (idx sub : Nat) (v : Bytes) (eff : WriteEff) (s : State) (heff : ∀ a v s, Kept k0 s → Kept k0 (eff a v s).2) (hs : Kept k0 s) :
    Kept k0 (dictWriteRow h idx sub v eff s) := by
  unfold dictWriteRow
  with_reducible repeat' first
    | assumption | apply inSession_kept | apply performWrite_kept | apply Kept.ite | apply heff | intro _ | dsimp only

theorem answerRead_kept (e : Sess) (h : DHdr) (eff : ReadEff) (s : State) (heff : ∀ a s, Kept k0 s → Kept k0 (eff a s).2.2) (hs : Kept k0 s) :
    Kept k0 (answerRead e h eff s) := by
  unfold answerRead
  with_reducible repeat' first
    | assumption | apply respond_kept | apply Kept.ite | apply heff | intro _ | dsimp only

theorem performRead_kept (e : Sess) (h : DHdr) (idx sub : Nat) (eff : ReadEff) (s : State) (heff : ∀ a s, Kept k0 s → Kept k0 (eff a s).2.2) (hs : Kept k0 s) :
    Kept k0 (performRead e h idx sub eff s) := by
  unfold performRead
  with_reducible repeat' first
    | assumption | apply answerRead_kept | apply bump_kept | apply journal_kept | apply respond_kept | apply Kept.ite
    | apply heff | intro _ | dsimp only

theorem dictReadRow_kept (h : DHdr) (idx sub : Nat) (eff : ReadEff) (s : State) (heff : ∀ a s, Kept k0 s → Kept k0 (eff a s).2.2) (hs : Kept k0 s) :
    Kept k0 (dictReadRow h idx sub eff s) := by
  unfold dictReadRow
  with_reducible repeat' first
    | assumption | apply inSession_kept | apply performRead_kept | apply heff | intro _ | dsimp only

theorem storeOwn_kept (sid idx sub : Nat) (v : Bytes) (s : State) (hs : Kept k0 s) :
    Kept k0 (storeOwn sid idx sub v s) := by
  unfold storeOwn
  with_reducible repeat' first
    | assumption | apply modSess_kept | dsimp only

theorem storePersist_kept (idx sub : Nat) (v : Bytes) (s : State) (hs : Kept k0 s) :
    Kept k0 (storePersist idx sub v s) := by
  unfold storePersist
  with_reducible repeat' first
    | assumption | refine modDict_kept (fun _ hd => ⟨hd, Nat.le_refl _⟩) ?_ | dsimp only

theorem closeSess_kept (sid ev : Nat) (s : State) (hs : Kept k0 s) :
    Kept k0 (closeSess sid ev s) := by
  unfold closeSess
  with_reducible repeat' first
    | assumption | apply journal_kept | refine modDict_kept (fun _ hd => ⟨hd, Nat.le_refl _⟩) ?_ | dsimp only | split

theorem closeWhere_kept (p : Nat → Sess → Bool) (s : State) (hs : Kept k0 s) :
    Kept k0 (closeWhere p s) := by
  unfold closeWhere
  with_reducible repeat' first
    | assumption | apply closeSess_kept | apply Kept.foldl | intro _ | dsimp only

theorem execDictOpen_kept (h : DHdr) (body : Bytes) (s : State) (hs : Kept k0 s) :
    KeptO k0 (execDictOpen h body s) := by
  unfold execDictOpen
  with_reducible repeat' first
    | assumption | apply KeptO.next | apply dictArrive_kept | apply drawn_kept | apply respond_kept
    | refine modDict_kept (fun _ hd => ⟨hd, Nat.le_refl _⟩) ?_ | apply bump_kept | apply journal_kept | apply Kept.ite
    | intro _ | dsimp only | split

theorem execDictProve_kept (h : DHdr) (proof : Bytes) (s : State) (hs : Kept k0 s) :
    KeptO k0 (execDictProve h proof s) := by
  unfold execDictProve
  with_reducible repeat' first
    | assumption | apply KeptO.next | apply dictArrive_kept | apply respond_kept | apply modSess_kept
    | refine modDict_kept (fun _ hd => ⟨hd, Nat.le_refl _⟩) ?_ | apply bump_kept | apply journal_kept | apply Kept.ite
    | intro _ | dsimp only | split

theorem execDictClose_kept (h : DHdr) (s : State) (hs : Kept k0 s) :
    KeptO k0 (execDictClose h s) := by
  unfold execDictClose
  with_reducible repeat' first
    | assumption | apply KeptO.next | apply inSession_kept | apply closeSess_kept | apply respond_kept | intro _
    | dsimp only

theorem execClaim_kept (h : DHdr) (serial : BitVec 64) (number : BitVec 16) (key pub sig : Bytes) (s : State) (hs : Kept k0 s) :
    KeptO k0 (execClaim h serial number key pub sig s) := by
  unfold execClaim
  with_reducible repeat' first
    | assumption | apply KeptO.next | apply dictArrive_kept | apply bump_kept | apply journal_kept
    | refine modDict_kept (fun _ hd => ⟨hd, Nat.le_refl _⟩) ?_ | apply respond_kept | apply Kept.ite | intro _
    | dsimp only

theorem execChallengeTimeout_kept (sid : BitVec 32) (s : State) (hs : Kept k0 s) :
    KeptO k0 (execChallengeTimeout sid s) := by
  unfold execChallengeTimeout
  with_reducible repeat' first
    | assumption | apply KeptO.next | apply KeptO.ite | apply closeSess_kept | apply Kept.ite | intro _ | split

theorem execIdleSessionTimeout_kept (sid : BitVec 32) (s : State) (hs : Kept k0 s) :
    KeptO k0 (execIdleSessionTimeout sid s) := by
  unfold execIdleSessionTimeout
  with_reducible repeat' first
    | assumption | apply KeptO.next | apply KeptO.ite | apply bump_kept | apply closeSess_kept | apply Kept.ite
    | intro _ | split

theorem wrCloseSession_kept (a0 : Nat) (v0 : Bytes) (s : State) (hs : Kept k0 s) :
    Kept k0 (wrCloseSession a0 v0 s).2 := by
  unfold wrCloseSession
  with_reducible repeat' first
    | assumption | apply closeSess_kept | apply Kept.ite | intro _ | dsimp only | split

theorem execCloseSession_kept (h : DHdr) (v : Bytes) (s : State) (hs : Kept k0 s) :
    KeptO k0 (execCloseSession h v s) := by
  unfold execCloseSession
  with_reducible repeat' first
    | assumption | apply KeptO.next | apply dictWriteRow_kept | apply wrCloseSession_kept | intro _ | dsimp only

theorem wrOperatorKey_kept (slot : Nat) (a0 : Nat) (v0 : Bytes) (s : State) (hs : Kept k0 s) :
    Kept k0 (wrOperatorKey slot a0 v0 s).2 := by
  unfold wrOperatorKey
  with_reducible repeat' first
    | assumption | refine modDict_kept (fun _ hd => ⟨hd, Nat.le_refl _⟩) ?_ | apply closeWhere_kept | apply Kept.ite
    | intro _ | dsimp only | split

theorem execOperatorKey_kept (h : DHdr) (slot : Fin 8) (v : Bytes) (s : State) (hs : Kept k0 s) :
    KeptO k0 (execOperatorKey h slot v s) := by
  unfold execOperatorKey
  with_reducible repeat' first
    | assumption | apply KeptO.next | apply dictWriteRow_kept | apply wrOperatorKey_kept | intro _ | dsimp only

theorem wrInstallerKey_kept (a0 : Nat) (v0 : Bytes) (s : State) (hs : Kept k0 s) :
    Kept k0 (wrInstallerKey a0 v0 s).2 := by
  unfold wrInstallerKey
  with_reducible repeat' first
    | assumption | apply closeWhere_kept | refine modDict_kept (fun _ hd => ⟨hd, Nat.le_refl _⟩) ?_ | dsimp only

theorem execInstallerKey_kept (h : DHdr) (v : Bytes) (s : State) (hs : Kept k0 s) :
    KeptO k0 (execInstallerKey h v s) := by
  unfold execInstallerKey
  with_reducible repeat' first
    | assumption | apply KeptO.next | apply dictWriteRow_kept | apply wrInstallerKey_kept | intro _ | dsimp only

theorem wrUnclaim_kept (a0 : Nat) (v0 : Bytes) (s : State) (hs : Kept k0 s) :
    Kept k0 (wrUnclaim a0 v0 s).2 := by
  unfold wrUnclaim
  split
  · exact hs
  · rename_i hf
    have h1 : Kept k0 (modDict (fun d => { d with
        installerKey := none, operatorKeys := [], claimFuses := d.claimFuses + 1 }) s) := by
      refine ⟨⟨hs.inv.mem, hs.inv.ledger, ?_⟩, hs.pending, hs.out, hs.free, Nat.le_trans hs.fuses ?_⟩ <;>
        simp only [modDict_dict] <;> bv_omega
    dsimp only
    with_reducible apply closeWhere_kept
    with_reducible apply journal_kept
    exact h1

theorem execUnclaim_kept (h : DHdr) (v : Bytes) (s : State) (hs : Kept k0 s) :
    KeptO k0 (execUnclaim h v s) := by
  unfold execUnclaim
  with_reducible repeat' first
    | assumption | apply KeptO.next | apply dictWriteRow_kept | apply wrUnclaim_kept | intro _ | dsimp only

theorem wrConfigErase_kept (a0 : Nat) (v0 : Bytes) (s : State) (hs : Kept k0 s) :
    Kept k0 (wrConfigErase a0 v0 s).2 := by
  unfold wrConfigErase
  with_reducible repeat' first
    | assumption | refine modDict_kept (fun _ hd => ⟨hd, Nat.le_refl _⟩) ?_ | dsimp only

theorem execConfigErase_kept (h : DHdr) (v : Bytes) (s : State) (hs : Kept k0 s) :
    KeptO k0 (execConfigErase h v s) := by
  unfold execConfigErase
  with_reducible repeat' first
    | assumption | apply KeptO.next | apply dictWriteRow_kept | apply wrConfigErase_kept | intro _ | dsimp only

theorem wrTimedCancel_kept (a0 : Nat) (v0 : Bytes) (s : State) (hs : Kept k0 s) :
    Kept k0 (wrTimedCancel a0 v0 s).2 := by
  unfold wrTimedCancel
  with_reducible repeat' first
    | assumption | apply journal_kept | refine modDict_kept (fun _ hd => ⟨hd, Nat.le_refl _⟩) ?_ | dsimp only | split

theorem execTimedCancel_kept (h : DHdr) (v : Bytes) (s : State) (hs : Kept k0 s) :
    KeptO k0 (execTimedCancel h v s) := by
  unfold execTimedCancel
  with_reducible repeat' first
    | assumption | apply KeptO.next | apply dictWriteRow_kept | apply wrTimedCancel_kept | intro _ | dsimp only

theorem rdJournal_kept (a0 : Nat) (s : State) (hs : Kept k0 s) :
    Kept k0 (rdJournal a0 s).2.2 := by
  unfold rdJournal
  with_reducible repeat' first
    | assumption | dsimp only

theorem execJournalRead_kept (h : DHdr) (s : State) (hs : Kept k0 s) :
    KeptO k0 (execJournalRead h s) := by
  unfold execJournalRead
  with_reducible repeat' first
    | assumption | apply KeptO.next | apply dictReadRow_kept | apply rdJournal_kept | intro _ | dsimp only

theorem execJournalMirror_kept (s : State) (hs : Kept k0 s) :
    KeptO k0 (execJournalMirror s) := by
  unfold execJournalMirror
  with_reducible repeat' first
    | assumption | apply KeptO.next | apply KeptO.ite | refine modDict_kept (fun _ hd => ⟨hd, Nat.le_refl _⟩) ?_
    | apply Kept.ite | intro _ | dsimp only

theorem execMctpControl_kept (xport : Nat) (msg : Bytes) (s : State) (hs : Kept k0 s) :
    KeptO k0 (execMctpControl xport msg s) := by
  unfold execMctpControl
  with_reducible repeat' first
    | assumption | apply KeptO.next | apply KeptO.ite | apply bump_kept
    | refine modDict_kept (fun _ hd => ⟨hd, Nat.le_refl _⟩) ?_ | apply emit_kept | apply Kept.ite | intro _
    | dsimp only | split

end Sys2Proof.Machine
end

