-- ==== Sys2Proof/Laws/KeptMemOps.lean ====
section
/-! SUPPORT. What every operation of Machine/MemOps.lean keeps. -/

namespace Sys2Proof.Machine

variable {k0 : State}

theorem modHbmPc_kept (p : Nat) (f : HbmPc → HbmPc) (s : State) (hs : Kept k0 s) :
    Kept k0 (modHbmPc p f s) := by
  unfold modHbmPc
  with_reducible repeat' first
    | assumption | apply modHbm_kept | dsimp only

theorem memPutWord_kept (a : Nat) (v : W72) (s : State) (hs : Kept k0 s) :
    Kept k0 (memPutWord a v s) := by
  unfold memPutWord
  with_reducible repeat' first
    | assumption | apply tagPut_kept | apply memWrite_kept | intro _

theorem storeBytes_kept (a : Nat) (bs : Bytes) (s : State) (hs : Kept k0 s) :
    Kept k0 (storeBytes a bs s) := by
  unfold storeBytes
  with_reducible repeat' first
    | assumption | apply memWrite_kept | apply tagPut_kept | apply Kept.ite | apply Kept.foldl | intro _ | dsimp only

theorem storeMasked_kept (a : Nat) (mask : BitVec 8) (data : W64) (s : State) (hs : Kept k0 s) :
    Kept k0 (storeMasked a mask data s) := by
  unfold storeMasked
  with_reducible repeat' first
    | assumption | apply memPut_kept | apply tagPut_kept | apply Kept.ite | apply Kept.foldl | intro _ | dsimp only

theorem placeBytes_kept (a : Nat) (bs : Bytes) (mark : Nat) (s : State) (hs : Kept k0 s) :
    Kept k0 (placeBytes a bs mark s) := by
  unfold placeBytes
  with_reducible repeat' first
    | assumption | apply memWrite_kept | apply tagPut_kept | apply Kept.ite | apply Kept.foldl | intro _ | dsimp only

theorem poisonLog_kept (addr src place : Nat) (s : State) (hs : Kept k0 s) :
    Kept k0 (poisonLog addr src place s) := by
  unfold poisonLog
  with_reducible repeat' first
    | assumption | apply modBufs_kept | apply bump_kept | apply Kept.ite | intro _ | dsimp only

theorem poisonWord_kept (addr src place : Nat) (s : State) (hs : Kept k0 s) :
    Kept k0 (poisonWord addr src place s) := by
  unfold poisonWord
  with_reducible repeat' first
    | assumption | apply poisonLog_kept | apply tagPut_kept

end Sys2Proof.Machine
end

