-- ==== Sys2Proof/Laws/KeptMeta.lean ====
section
/-! SUPPORT. What every operation of Machine/Meta.lean keeps. -/

namespace Sys2Proof.Machine

variable {k0 : State}

theorem bumpHbm_kept (k sub : Nat) (s : State) (hs : Kept k0 s) :
    Kept k0 (bumpHbm k sub s) := by
  unfold bumpHbm
  with_reducible repeat' first
    | assumption | apply bump_kept

theorem modHbmBank_kept (p b : Nat) (f : HbmBank → HbmBank) (s : State) (hs : Kept k0 s) :
    Kept k0 (modHbmBank p b f s) := by
  unfold modHbmBank
  with_reducible repeat' first
    | assumption | apply modHbmPc_kept | dsimp only

theorem hbmCmd_kept (p cmd bank row col : Nat) (s : State) (hs : Kept k0 s) :
    Kept k0 (hbmCmd p cmd bank row col s) := by
  unfold hbmCmd
  with_reducible repeat' first
    | assumption | apply modHbmPc_kept | apply emit_kept | dsimp only

theorem pdExit_kept (p : Nat) (s : State) (hs : Kept k0 s) :
    Kept k0 (pdExit p s) := by
  unfold pdExit
  with_reducible repeat' first
    | assumption | apply hbmCmd_kept | apply modHbmPc_kept | apply Kept.ite | intro _ | dsimp only

theorem hbmAnswer_kept (tag : Nat) (data tags : Bytes) (s : State) (hs : Kept k0 s) :
    Kept k0 (hbmAnswer tag data tags s) := by
  unfold hbmAnswer
  with_reducible repeat' first
    | assumption | apply emit_kept

theorem queueMeta_kept (p : Nat) (q : HbmReq) (s : State) (hs : Kept k0 s) :
    Kept k0 (queueMeta p q s) := by
  unfold queueMeta
  with_reducible repeat' first
    | assumption | apply modHbmPc_kept | apply pdExit_kept | apply Kept.ite | intro _ | dsimp only

theorem metaRead_kept (it : MetaItem) (b tag : Nat) (s : State) (hs : Kept k0 s) :
    Kept k0 (metaRead it b tag s) := by
  unfold metaRead
  with_reducible repeat' first
    | assumption | apply queueMeta_kept | split

theorem metaWrite_kept (it : MetaItem) (b : Nat) (s : State) (hs : Kept k0 s) :
    Kept k0 (metaWrite it b s) := by
  unfold metaWrite
  with_reducible repeat' first
    | assumption | apply queueMeta_kept | apply Kept.foldl | intro _ | dsimp only

theorem pcSelfRefresh_kept (p : Nat) (s : State) (hs : Kept k0 s) :
    Kept k0 (pcSelfRefresh p s) := by
  unfold pcSelfRefresh
  with_reducible repeat' first
    | assumption | apply hbmCmd_kept | apply modHbmBank_kept | apply pdExit_kept | apply bumpHbm_kept
    | apply modHbmPc_kept | apply Kept.foldl | intro _ | dsimp only

theorem stackSelfRefresh_kept (k : Nat) (s : State) (hs : Kept k0 s) :
    Kept k0 (stackSelfRefresh k s) := by
  unfold stackSelfRefresh
  with_reducible repeat' first
    | assumption | apply bumpHbm_kept | apply pcSelfRefresh_kept | apply Kept.foldl | intro _ | dsimp only

theorem stackWake_kept (k : Nat) (s : State) (hs : Kept k0 s) :
    Kept k0 (stackWake k s) := by
  unfold stackWake
  with_reducible repeat' first
    | assumption | apply hbmCmd_kept | apply modHbmPc_kept | apply Kept.ite | apply Kept.foldl | intro _ | dsimp only

theorem stackDrain_kept (k : Nat) (s : State) (hs : Kept k0 s) :
    Kept k0 (stackDrain k s) := by
  unfold stackDrain
  with_reducible repeat' first
    | assumption | apply hbmAnswer_kept | apply modHbmPc_kept | apply hbmCmd_kept | apply modHbm_kept | apply Kept.ite
    | apply Kept.foldl | intro _ | dsimp only

end Sys2Proof.Machine
end

