-- ==== Sys2Proof/Laws/KeptCoreOps.lean ====
section
/-! SUPPORT. What every operation of Machine/CoreOps.lean keeps. -/

namespace Sys2Proof.Machine

variable {k0 : State}

theorem modThr_kept (t : Nat) (f : Thread → Thread) (s : State) (hs : Kept k0 s) :
    Kept k0 (modThr t f s) := by
  unfold modThr
  with_reducible repeat' first
    | assumption | apply modCpu_kept | dsimp only

theorem modCore_kept (c : Nat) (f : CoreSt → CoreSt) (s : State) (hs : Kept k0 s) :
    Kept k0 (modCore c f s) := by
  unfold modCore
  with_reducible repeat' first
    | assumption | apply modCpu_kept | dsimp only

theorem modTile_kept (t : Nat) (f : Tile → Tile) (s : State) (hs : Kept k0 s) :
    Kept k0 (modTile t f s) := by
  unfold modTile
  with_reducible repeat' first
    | assumption | apply modCpu_kept | dsimp only

theorem bumpTile_kept (t sub : Nat) (s : State) (hs : Kept k0 s) :
    Kept k0 (bumpTile t sub s) := by
  unfold bumpTile
  with_reducible repeat' first
    | assumption | apply bump_kept | apply Kept.ite | intro _

theorem setReg_kept (t r : Nat) (v : W72) (s : State) (hs : Kept k0 s) :
    Kept k0 (setReg t r v s) := by
  unfold setReg
  with_reducible repeat' first
    | assumption | apply modThr_kept

theorem modCop_kept (tile : Nat) (f : Cop → Cop) (s : State) (hs : Kept k0 s) :
    Kept k0 (modCop tile f s) := by
  unfold modCop
  with_reducible repeat' first
    | assumption | apply modCops_kept | dsimp only

theorem modSlot_kept (tile k : Nat) (f : XSlot → XSlot) (s : State) (hs : Kept k0 s) :
    Kept k0 (modSlot tile k f s) := by
  unfold modSlot
  with_reducible repeat' first
    | assumption | apply modCop_kept | dsimp only

theorem armSettle_kept (t : Nat) (c : Cpx) (s : State) (hs : Kept k0 s) :
    Kept k0 (armSettle t c s) := by
  unfold armSettle
  with_reducible repeat' first
    | assumption | apply modSlot_kept | apply Kept.ite | intro _ | dsimp only

theorem armSlot_kept (tile slot : Nat) (a : Option (Nat × Nat)) (s : State) (hs : Kept k0 s) :
    Kept k0 (armSlot tile slot a s) := by
  unfold armSlot
  with_reducible repeat' first
    | assumption | apply modSlot_kept | apply Kept.ite | intro _ | dsimp only

theorem modGroup_kept (tile g : Nat) (f : TecGroup → TecGroup) (s : State) (hs : Kept k0 s) :
    Kept k0 (modGroup tile g f s) := by
  unfold modGroup
  with_reducible repeat' first
    | assumption | apply modTile_kept | dsimp only

theorem tecDeliver_kept (tile g : Nat) (s : State) (hs : Kept k0 s) :
    Kept k0 (tecDeliver tile g s) := by
  unfold tecDeliver
  with_reducible repeat' first
    | assumption | apply bump_kept | apply modGroup_kept | apply Kept.ite | intro _ | dsimp only

theorem tecCount_kept (tile g : Nat) (s : State) (hs : Kept k0 s) :
    Kept k0 (tecCount tile g s) := by
  unfold tecCount
  with_reducible repeat' first
    | assumption | apply tecDeliver_kept | apply modGroup_kept | apply Kept.ite | intro _ | dsimp only

theorem tecComplete_kept (tile src : Nat) (s : State) (hs : Kept k0 s) :
    Kept k0 (tecComplete tile src s) := by
  unfold tecComplete
  with_reducible repeat' first
    | assumption | apply bump_kept | apply modTile_kept | apply tecCount_kept | apply Kept.ite | intro _ | dsimp only

theorem tecInput_kept (tile src : Nat) (lvl : Bool) (s : State) (hs : Kept k0 s) :
    Kept k0 (tecInput tile src lvl s) := by
  unfold tecInput
  with_reducible repeat' first
    | assumption | apply modTile_kept | apply tecCount_kept | apply Kept.ite | intro _ | dsimp only

theorem tecLearn_kept (s : State) (hs : Kept k0 s) :
    Kept k0 (tecLearn s) := by
  unfold tecLearn
  with_reducible repeat' first
    | assumption | apply tecInput_kept | apply Kept.foldl | intro _ | dsimp only

theorem modChan_kept (tile c : Nat) (f : Chan → Chan) (s : State) (hs : Kept k0 s) :
    Kept k0 (modChan tile c f s) := by
  unfold modChan
  with_reducible repeat' first
    | assumption | apply modTile_kept | dsimp only

theorem abortRsv_kept (t : Nat) (s : State) (hs : Kept k0 s) :
    Kept k0 (abortRsv t s) := by
  unfold abortRsv
  with_reducible repeat' first
    | assumption | apply bumpTile_kept | apply modChan_kept | dsimp only | split

theorem dropClaim_kept (t : Nat) (s : State) (hs : Kept k0 s) :
    Kept k0 (dropClaim t s) := by
  unfold dropClaim
  with_reducible repeat' first
    | assumption | apply modChan_kept | apply bumpBy_kept | apply Kept.ite | intro _ | dsimp only | split

theorem chanCleanup_kept (t : Nat) (s : State) (hs : Kept k0 s) :
    Kept k0 (chanCleanup t s) := by
  unfold chanCleanup
  with_reducible repeat' first
    | assumption | apply dropClaim_kept | apply abortRsv_kept | apply Kept.ite | intro _

theorem signalThread_kept (t : Nat) (s : State) (hs : Kept k0 s) :
    Kept k0 (signalThread t s) := by
  unfold signalThread
  with_reducible repeat' first
    | assumption | apply bumpTile_kept | apply modThr_kept | apply Kept.ite | intro _ | dsimp only

theorem watchDrop_kept (t : Nat) (s : State) (hs : Kept k0 s) :
    Kept k0 (watchDrop t s) := by
  unfold watchDrop
  with_reducible repeat' first
    | assumption | apply modHbm_kept | apply modCpu_kept | dsimp only

theorem dropHandles_kept (m : Nat) (s : State) (hs : Kept k0 s) :
    Kept k0 (dropHandles m s) := by
  unfold dropHandles
  with_reducible repeat' first
    | assumption | apply modMat_kept | dsimp only

end Sys2Proof.Machine
end

