-- ==== Sys2Proof/Laws/KeptPowerOps.lean ====
section
/-! SUPPORT. What every operation of Machine/PowerOps.lean keeps. -/

namespace Sys2Proof.Machine

variable {k0 : State}

theorem modDom_kept (d : Nat) (f : Dom → Dom) (s : State) (hs : Kept k0 s) :
    Kept k0 (modDom d f s) := by
  unfold modDom
  with_reducible repeat' first
    | assumption | apply modPower_kept | dsimp only

theorem assertLstep_kept (s : State) (hs : Kept k0 s) :
    Kept k0 (assertLstep s) := by
  unfold assertLstep
  with_reducible repeat' first
    | assumption | apply bump_kept | apply emit_kept | apply modPower_kept | apply Kept.ite | intro _ | dsimp only

theorem checkLstep_kept (s : State) (hs : Kept k0 s) :
    Kept k0 (checkLstep s) := by
  unfold checkLstep
  with_reducible repeat' first
    | assumption | apply assertLstep_kept | apply Kept.ite | intro _

theorem setElig_kept (d : Nat) (s : State) (hs : Kept k0 s) :
    Kept k0 (setElig d s) := by
  unfold setElig
  with_reducible repeat' first
    | assumption | apply modDom_kept | apply Kept.ite | intro _ | dsimp only | split

theorem countDelay_kept (d start : Nat) (s : State) (hs : Kept k0 s) :
    Kept k0 (countDelay d start s) := by
  unfold countDelay
  with_reducible repeat' first
    | assumption | apply bumpBy_kept | apply bump_kept | apply Kept.ite | intro _ | split

theorem beginStages_kept (d left : Nat) (s : State) (hs : Kept k0 s) :
    Kept k0 (beginStages d left s) := by
  unfold beginStages
  with_reducible repeat' first
    | assumption | apply modPower_kept | apply modDom_kept | dsimp only

theorem addM_kept (d : Nat) (s : State) (hs : Kept k0 s) :
    Kept k0 (addM d s) := by
  unfold addM
  with_reducible repeat' first
    | assumption | apply modPower_kept | dsimp only

theorem startStages_kept (d : Nat) (s : State) (hs : Kept k0 s) :
    Kept k0 (startStages d s) := by
  unfold startStages
  with_reducible repeat' first
    | assumption | apply beginStages_kept | apply addM_kept | apply countDelay_kept | apply modPower_kept
    | apply modDom_kept | apply Kept.ite | intro _ | dsimp only

theorem queueStages_kept (d : Nat) (s : State) (hs : Kept k0 s) :
    Kept k0 (queueStages d s) := by
  unfold queueStages
  with_reducible repeat' first
    | assumption | apply setElig_kept | apply checkLstep_kept | apply modPower_kept | apply startStages_kept
    | apply Kept.ite | intro _ | dsimp only

theorem requestLeave_kept (d goal : Nat) (s : State) (hs : Kept k0 s) :
    Kept k0 (requestLeave d goal s) := by
  unfold requestLeave
  with_reducible repeat' first
    | assumption | apply queueStages_kept | apply modDom_kept | apply Kept.ite | intro _ | dsimp only | split

theorem wakeOne_kept (d : Nat) (s : State) (hs : Kept k0 s) :
    Kept k0 (wakeOne d s) := by
  unfold wakeOne
  with_reducible repeat' first
    | assumption | apply modPower_kept | apply modDom_kept | apply queueStages_kept | apply bump_kept
    | apply setElig_kept | apply checkLstep_kept | apply Kept.ite | intro _ | dsimp only | split

theorem wakeDeps_kept {n : Nat} : ∀ {d : Nat} {s : State}, Kept k0 s → Kept k0 (wakeDeps n d s) := by
  induction n with
  | zero => intro d s h; exact wakeOne_kept _ _ h
  | succ n ih => intro d s h; exact wakeOne_kept _ _ (Kept.foldl _ (fun _ _ hs => ih hs) h)

theorem recordWake_kept (src group : Nat) (s : State) (hs : Kept k0 s) :
    Kept k0 (recordWake src group s) := by
  unfold recordWake
  with_reducible repeat' first
    | assumption | apply modPower_kept | dsimp only

theorem wakeFor_kept (src d : Nat) (s : State) (hs : Kept k0 s) :
    Kept k0 (wakeFor src d s) := by
  unfold wakeFor
  with_reducible repeat' first
    | assumption | apply modPower_kept | apply wakeDeps_kept | apply recordWake_kept | apply Kept.ite | intro _
    | dsimp only

theorem wakeDomain_kept (d : Nat) (s : State) (hs : Kept k0 s) :
    Kept k0 (wakeDomain d s) := by
  unfold wakeDomain
  with_reducible repeat' first
    | assumption | apply wakeFor_kept

theorem nightCheck_kept (s : State) (hs : Kept k0 s) :
    Kept k0 (nightCheck s) := by
  unfold nightCheck
  with_reducible repeat' first
    | assumption | apply memZero_kept | apply modPower_kept | apply Kept.ite | intro _ | dsimp only

theorem pairVote_kept (t : Nat) (s : State) (hs : Kept k0 s) :
    Kept k0 (pairVote t s) := by
  unfold pairVote
  with_reducible repeat' first
    | assumption | apply queueStages_kept | apply modDom_kept | apply nightCheck_kept | apply Kept.ite | intro _
    | dsimp only

end Sys2Proof.Machine
end

