-- ==== Sys2Proof/Laws/KeptBufs.lean ====
section
/-! SUPPORT. What every operation of Machine/Bufs.lean keeps. -/

namespace Sys2Proof.Machine

variable {k0 : State}

theorem setRec_kept (b : BufAt) (r : W64) (s : State) (hs : Kept k0 s) :
    Kept k0 (setRec b r s) := by
  unfold setRec
  with_reducible repeat' first
    | assumption | apply modBufs_kept | dsimp only | split

theorem bufEvent_kept (k req master : Nat) (r : W64) (s : State) (hs : Kept k0 s) :
    Kept k0 (bufEvent k req master r s) := by
  unfold bufEvent
  with_reducible repeat' first
    | assumption | apply bump_kept | apply modBufs_kept | apply Kept.ite | intro _ | dsimp only

theorem quarantine_kept (b : BufAt) (s : State) (hs : Kept k0 s) :
    Kept k0 (quarantine b s) := by
  unfold quarantine
  with_reducible repeat' first
    | assumption | apply bump_kept | apply setRec_kept | apply Kept.ite | intro _

theorem readRec_kept (b : BufAt) (bad : Bool) (s : State) (hs : Kept k0 s) :
    Kept k0 (readRec b bad s) := by
  unfold readRec
  with_reducible repeat' first
    | assumption | apply quarantine_kept | apply Kept.ite | intro _ | dsimp only | split

theorem retireCheck_kept (s : State) (hs : Kept k0 s) :
    Kept k0 (retireCheck s) := by
  unfold retireCheck
  with_reducible repeat' first
    | assumption | apply requestLeave_kept | apply modHbm_kept | apply Kept.ite | intro _ | dsimp only | split

theorem poolEnd_kept (p : Nat) (s : State) (hs : Kept k0 s) :
    Kept k0 (poolEnd p s) := by
  unfold poolEnd
  with_reducible repeat' first
    | assumption | apply retireCheck_kept | apply modPool_kept | apply Kept.ite | intro _ | dsimp only

theorem clearF_kept (p n : Nat) (s : State) (hs : Kept k0 s) : Kept k0 (clearF p n s) := by
  unfold clearF
  dsimp only
  refine Kept.ite (fun _ => bumpBy_kept _ _ _ _ ?_) (fun _ => hs)
  have hm := hs.inv.mem
  simp only [Mem.wf, Bool.and_eq_true] at hm
  refine ⟨⟨?_, hs.inv.ledger, hs.inv.fuses⟩, hs.pending, hs.out, hs.free, hs.fuses⟩
  simp only [modMem_mem, Mem.wf, Bool.and_eq_true]
  refine ⟨hm.1, ?_⟩
  have e := twf_map_filter (fun x : Nat × Byte => if bufAddr s p n / 8 ≤ x.1 ∧
    x.1 < bufAddr s p n / 8 + 2 ^ (poolOf s p).gshift.toNat / 8 then tagSetF false x.2 else x.2) hm.2
  refine Eq.trans (congrArg _ (congrArg _ (List.map_congr_left fun x _ => ?_))) e
  split <;> rfl

theorem bufRelease_kept (b : BufAt) (s : State) (hs : Kept k0 s) :
    Kept k0 (bufRelease b s) := by
  unfold bufRelease
  with_reducible repeat' first
    | assumption | apply bump_kept | apply modBufs_kept | apply poolEnd_kept | apply clearF_kept | apply setRec_kept
    | dsimp only | split

theorem bufFree_kept (req master : Nat) (r : W64) (bad : Bool) (s0 : State) (hs0 : Kept k0 s0) :
    Kept k0 (bufFree req master r bad s0).2 := by
  unfold bufFree
  with_reducible repeat' first
    | assumption | apply readRec_kept | apply bufEvent_kept | apply bump_kept | apply setRec_kept
    | apply bufRelease_kept | apply Kept.ite | intro _ | dsimp only | split

theorem bufAddref_kept (req master : Nat) (r : W64) (bad : Bool) (s0 : State) (hs0 : Kept k0 s0) :
    Kept k0 (bufAddref req master r bad s0).2 := by
  unfold bufAddref
  with_reducible repeat' first
    | assumption | apply readRec_kept | apply bufEvent_kept | apply bump_kept | apply setRec_kept | apply Kept.ite
    | intro _ | dsimp only | split

theorem bufQuery_kept (r : W64) (bad : Bool) (s0 : State) (hs0 : Kept k0 s0) :
    Kept k0 (bufQuery r bad s0).2 := by
  unfold bufQuery
  with_reducible repeat' first
    | assumption | apply readRec_kept | apply Kept.ite | intro _ | dsimp only | split

theorem chainAlloc_kept {bytes : Bytes} {ocls oitem : Nat} {s : State} (h : Kept k0 s) {x : Nat × State}
    (e : chainAlloc bytes ocls oitem s = some x) : Kept k0 x.2 := by
  unfold chainAlloc at e
  dsimp only at e
  split at e
  · cases e
    exact bumpBy_kept _ _ _ _ (modBufs_kept h)
  · cases e

theorem bufAlloc_kept (req p ocls oitem : Nat) (s : State) (hs : Kept k0 s) :
    Kept k0 (bufAlloc req p ocls oitem s).2 := by
  unfold bufAlloc
  with_reducible repeat' first
    | assumption | apply bump_kept | apply setRec_kept | apply modPool_kept | apply Kept.ite
    | exact chainAlloc_kept (by assumption) (by assumption) | intro _ | dsimp only | split

theorem bufReply_kept (req master : Nat) (b : BufAt) (r : Nat × State) (hr : Kept k0 r.2) :
    Kept k0 (bufReply req master b r) := by
  unfold bufReply
  with_reducible repeat' first
    | assumption | apply emit_kept

theorem allocReply_kept (req master p : Nat) (b : BufAt) (r : Nat × State) (hr : Kept k0 r.2) :
    Kept k0 (allocReply req master p b r) := by
  unfold allocReply
  with_reducible repeat' first
    | assumption | apply modThr_kept | apply bufReply_kept | apply Kept.ite | intro _ | dsimp only | split

theorem serveWaiters_kept {p : Nat} {l : List (Nat × Nat × Nat × Nat)} : ∀ {s : State}, Kept k0 s →
    Kept k0 (serveWaiters p l s) := by
  induction l with
  | nil => intro s h; exact modPool_kept _ _ _ h
  | cons e t ih =>
    obtain ⟨req, m, oc, oi⟩ := e
    intro s h
    unfold serveWaiters
    split
    · exact modPool_kept _ _ _ h
    · rename_i heq
      exact ih (allocReply_kept _ _ _ _ _ (Kept.of_pair heq (bufAlloc_kept _ _ _ _ _ h)))

theorem execAlloc_kept (req : Fin 22) (master : BitVec 16) (pool : Fin 64) (ocls : Fin 6) (oitem : BitVec 32) (s : State) (hs : Kept k0 s) :
    KeptO k0 (execAlloc req master pool ocls oitem s) := by
  unfold execAlloc
  with_reducible repeat' first
    | assumption | apply KeptO.next | apply bufAlloc_kept | apply modPool_kept | apply allocReply_kept
    | refine Kept.of_pair (by assumption) ?_ | dsimp only | split

theorem execAddref_kept (req : Fin 22) (master : BitVec 16) (r : W64) (bad : Bool) (s : State) (hs : Kept k0 s) :
    KeptO k0 (execAddref req master r bad s) := by
  unfold execAddref
  with_reducible repeat' first
    | assumption | apply KeptO.next | apply bufReply_kept | apply bufAddref_kept | dsimp only

theorem execFree_kept (req : Fin 22) (master : BitVec 16) (r : W64) (bad : Bool) (s : State) (hs : Kept k0 s) :
    KeptO k0 (execFree req master r bad s) := by
  unfold execFree
  with_reducible repeat' first
    | assumption | apply KeptO.next | apply bufReply_kept | apply bufFree_kept | dsimp only

theorem execBufferQuery_kept (req : Fin 22) (master : BitVec 16) (r : W64) (bad : Bool) (s : State) (hs : Kept k0 s) :
    KeptO k0 (execBufferQuery req master r bad s) := by
  unfold execBufferQuery
  with_reducible repeat' first
    | assumption | apply KeptO.next | apply bufReply_kept | apply bufQuery_kept | dsimp only

theorem execFreep_kept (req : Fin 22) (master : BitVec 16) (r : W64) (bad : Bool) (s : State) (hs : Kept k0 s) :
    KeptO k0 (execFreep req master r bad s) := by
  unfold execFreep
  with_reducible repeat' first
    | assumption | apply KeptO.next | apply bufFree_kept | dsimp only

theorem execAddrefp_kept (req : Fin 22) (master : BitVec 16) (r : W64) (bad : Bool) (s : State) (hs : Kept k0 s) :
    KeptO k0 (execAddrefp req master r bad s) := by
  unfold execAddrefp
  with_reducible repeat' first
    | assumption | apply KeptO.next | apply bufAddref_kept | dsimp only

theorem quarLeaf_kept (p n : Nat) (s : State) (hs : Kept k0 s) :
    Kept k0 (quarLeaf p n s) := by
  unfold quarLeaf
  with_reducible repeat' first
    | assumption | apply quarantine_kept | apply Kept.foldl | intro _ | dsimp only

theorem refillFifo_kept (p : Nat) (bad : Bool) (s : State) (hs : Kept k0 s) :
    Kept k0 (refillFifo p bad s) := by
  unfold refillFifo
  with_reducible repeat' first
    | assumption | apply quarLeaf_kept | apply modPool_kept | apply serveWaiters_kept | apply bump_kept
    | apply Kept.ite | intro _ | dsimp only

theorem execFifoRefill_kept (pool : Fin 64) (bad : Bool) (s : State) (hs : Kept k0 s) :
    KeptO k0 (execFifoRefill pool bad s) := by
  unfold execFifoRefill
  with_reducible repeat' first
    | assumption | apply KeptO.next | apply refillFifo_kept | apply Kept.ite | intro _ | dsimp only | split

theorem granuleTake_kept {p ocls oitem n : Nat} : ∀ {s : State}, Kept k0 s →
    Kept k0 (granuleTake p ocls oitem n s).2 := by
  induction n with
  | zero => intro s h; exact h
  | succ n ih =>
    intro s h
    have hb := bufAlloc_kept 16 p ocls oitem s h
    unfold granuleTake
    split
    · exact ih (refillFifo_kept _ _ _ h)
    all_goals (rename_i e; rw [e] at hb; exact hb)

theorem granulesTake_kept {p ocls oitem n : Nat} : ∀ {s : State}, Kept k0 s →
    Kept k0 (granulesTake p ocls oitem n s).2 := by
  induction n with
  | zero => intro s h; exact h
  | succ n ih => intro s h; exact ih (granuleTake_kept h)

theorem granulesFree_kept (ns : List Nat) (s : State) (hs : Kept k0 s) :
    Kept k0 (granulesFree ns s) := by
  unfold granulesFree
  with_reducible repeat' first
    | assumption | apply bufFree_kept | apply Kept.ite | apply Kept.foldl | intro _
    | refine Kept.of_pair (by assumption) ?_ | dsimp only | split

theorem chainGone_kept (s : State) (hs : Kept k0 s) :
    Kept k0 (chainGone s) := by
  unfold chainGone
  with_reducible repeat' first
    | assumption | apply bump_kept

theorem wrPoolConfig_kept (p : Nat) (a0 : Nat) (v0 : Bytes) (s : State) (hs : Kept k0 s) :
    Kept k0 (wrPoolConfig p a0 v0 s).2 := by
  unfold wrPoolConfig
  with_reducible repeat' first
    | assumption | apply modPool_kept | apply Kept.ite | intro _ | dsimp only | split

theorem execPoolConfigWrite_kept (h : DHdr) (pool : Fin 64) (v : Bytes) (s : State) (hs : Kept k0 s) :
    KeptO k0 (execPoolConfigWrite h pool v s) := by
  unfold execPoolConfigWrite
  with_reducible repeat' first
    | assumption | apply KeptO.next | apply dictWriteRow_kept | apply wrPoolConfig_kept | intro _ | dsimp only

theorem poolWipe_kept (p : Nat) (s : State) (hs : Kept k0 s) :
    Kept k0 (poolWipe p s) := by
  unfold poolWipe
  with_reducible repeat' first
    | assumption | apply modBufs_kept | dsimp only

theorem poolDrain_kept (p : Nat) (s : State) (hs : Kept k0 s) :
    Kept k0 (poolDrain p s) := by
  unfold poolDrain
  with_reducible repeat' first
    | assumption | apply poolEnd_kept | apply serveWaiters_kept | apply modPool_kept | intro _ | dsimp only

theorem wrPoolState_kept (p : Nat) (a0 : Nat) (v0 : Bytes) (s : State) (hs : Kept k0 s) :
    Kept k0 (wrPoolState p a0 v0 s).2 := by
  unfold wrPoolState
  with_reducible repeat' first
    | assumption | apply modPool_kept | apply poolWipe_kept | apply poolDrain_kept | apply retireCheck_kept
    | apply serveWaiters_kept | apply Kept.ite | intro _ | dsimp only | split

theorem execPoolStateWrite_kept (h : DHdr) (pool : Fin 64) (v : Bytes) (s : State) (hs : Kept k0 s) :
    KeptO k0 (execPoolStateWrite h pool v s) := by
  unfold execPoolStateWrite
  with_reducible repeat' first
    | assumption | apply KeptO.next | apply dictWriteRow_kept | apply wrPoolState_kept | intro _ | dsimp only

theorem rdPoisonLog_kept (a0 : Nat) (s : State) (hs : Kept k0 s) :
    Kept k0 (rdPoisonLog a0 s).2.2 := by
  unfold rdPoisonLog
  with_reducible repeat' first
    | assumption | apply modBufs_kept | dsimp only

theorem execPoisonLogRead_kept (h : DHdr) (s : State) (hs : Kept k0 s) :
    KeptO k0 (execPoisonLogRead h s) := by
  unfold execPoisonLogRead
  with_reducible repeat' first
    | assumption | apply KeptO.next | apply dictReadRow_kept | apply rdPoisonLog_kept | intro _ | dsimp only

end Sys2Proof.Machine
end

