-- ==== Sys2Proof/Laws/KeptHostPost.lean ====
section
/-! SUPPORT. What every operation of Machine/HostPost.lean keeps. -/

namespace Sys2Proof.Machine

variable {k0 : State}

theorem modCmq_kept (q : Nat) (f : CmQ → CmQ) (s : State) (hs : Kept k0 s) :
    Kept k0 (modCmq q f s) := by
  unfold modCmq
  with_reducible repeat' first
    | assumption | apply modHost_kept | dsimp only

theorem modCpq_kept (j : Nat) (f : CpQ → CpQ) (s : State) (hs : Kept k0 s) :
    Kept k0 (modCpq j f s) := by
  unfold modCpq
  with_reducible repeat' first
    | assumption | apply modHost_kept | dsimp only

theorem modFunc_kept (f : Nat) (g : HFunc → HFunc) (s : State) (hs : Kept k0 s) :
    Kept k0 (modFunc f g s) := by
  unfold modFunc
  with_reducible repeat' first
    | assumption | apply modHost_kept | dsimp only

theorem postHeld_kept (j : Nat) (words : List W64) (led : Option (Nat × Nat)) (s : State) (hs : Kept k0 s) :
    Kept k0 (postHeld j words led s) := by
  unfold postHeld
  with_reducible repeat' first
    | assumption | apply modHost_kept | apply bump_kept | apply Kept.ite | intro _ | dsimp only

theorem postCpl_kept (j : Nat) (words : List W64) (s : State) (hs : Kept k0 s) :
    Kept k0 (postCpl j words s) := by
  unfold postCpl
  with_reducible repeat' first
    | assumption | apply postHeld_kept

theorem endHostItem_kept (reason item : Nat) (s : State) (hs : Kept k0 s) :
    Kept k0 (endHostItem reason item s) := by
  unfold endHostItem
  with_reducible repeat' first
    | assumption | apply bump_kept | apply ledComplete_kept | apply ledFail_kept | apply Kept.ite | intro _
    | dsimp only

theorem cmdDone_kept (c : HCmd) (status done : Nat) (remote : Bool) (res res2 : W64) (brickReason : Nat) (s : State) (hs : Kept k0 s) :
    Kept k0 (cmdDone c status done remote res res2 brickReason s) := by
  unfold cmdDone
  with_reducible repeat' first
    | assumption | apply endHostItem_kept | apply postHeld_kept | apply Kept.ite | intro _ | dsimp only

theorem endCmd_kept (id status done : Nat) (remote : Bool) (res res2 : W64) (brickReason : Nat) (s : State) (hs : Kept k0 s) :
    Kept k0 (endCmd id status done remote res res2 brickReason s) := by
  unfold endCmd
  with_reducible repeat' first
    | assumption | apply cmdDone_kept | apply modHost_kept | apply modCmq_kept | apply Kept.ite | intro _ | dsimp only
    | split | simp only [id_eq]

end Sys2Proof.Machine
end

