-- ==== Sys2Proof/Laws/KeptLockOps.lean ====
section
/-! SUPPORT. What every operation of Machine/LockOps.lean keeps. -/

namespace Sys2Proof.Machine

variable {k0 : State}

theorem modLock_kept (l : Nat) (f : Lock → Lock) (s : State) (hs : Kept k0 s) :
    Kept k0 (modLock l f s) := by
  unfold modLock
  with_reducible repeat' first
    | assumption | apply modLocks_kept | dsimp only

theorem startLease_kept (l : Nat) (s : State) (hs : Kept k0 s) :
    Kept k0 (startLease l s) := by
  unfold startLease
  with_reducible repeat' first
    | assumption | apply modLock_kept | apply Kept.ite | intro _ | dsimp only

theorem endBoosts_kept (owner : Nat) (pk : Bool) (s : State) (hs : Kept k0 s) :
    Kept k0 (endBoosts owner pk s) := by
  unfold endBoosts
  with_reducible repeat' first
    | assumption | apply modSched_kept | apply modThr_kept | apply Kept.ite | intro _ | dsimp only | split

theorem signalBoost_kept (owner : Nat) (pk : Bool) (p : Nat) (s : State) (hs : Kept k0 s) :
    Kept k0 (signalBoost owner pk p s) := by
  unfold signalBoost
  with_reducible repeat' first
    | assumption | apply bump_kept | apply modSched_kept | apply modThr_kept | apply Kept.ite | intro _ | dsimp only
    | split

theorem lockNotify_kept (l master : Nat) (s : State) (hs : Kept k0 s) :
    Kept k0 (lockNotify l master s) := by
  unfold lockNotify
  with_reducible repeat' first
    | assumption | apply tecComplete_kept | apply postCpl_kept | apply bump_kept | apply Kept.ite | intro _
    | dsimp only | split

theorem passLock_kept (l : Nat) (ab : Bool) (empty : BitVec 2) (s : State) (hs : Kept k0 s) :
    Kept k0 (passLock l ab empty s) := by
  unfold passLock
  with_reducible repeat' first
    | assumption | apply modLock_kept | apply lockNotify_kept | apply startLease_kept | dsimp only | split

theorem grantNext_kept (l : Nat) (s : State) (hs : Kept k0 s) :
    Kept k0 (grantNext l s) := by
  unfold grantNext
  with_reducible repeat' first
    | assumption | apply endBoosts_kept | apply passLock_kept | dsimp only

theorem breakLock_kept (l : Nat) (told : Bool) (s : State) (hs : Kept k0 s) :
    Kept k0 (breakLock l told s) := by
  unfold breakLock
  with_reducible repeat' first
    | assumption | apply modLock_kept | apply passLock_kept | apply lockNotify_kept | apply endBoosts_kept
    | apply Kept.ite | intro _ | dsimp only | split

theorem dropWaiter_kept (l m : Nat) (s : State) (hs : Kept k0 s) :
    Kept k0 (dropWaiter l m s) := by
  unfold dropWaiter
  with_reducible repeat' first
    | assumption | apply endBoosts_kept | apply modLock_kept | dsimp only

theorem breakMaster_kept (m sub : Nat) (told : Bool) (s : State) (hs : Kept k0 s) :
    Kept k0 (breakMaster m sub told s) := by
  unfold breakMaster
  with_reducible repeat' first
    | assumption | apply dropWaiter_kept | apply bump_kept | apply breakLock_kept | apply Kept.foldl | intro _
    | dsimp only

theorem parkLocks_kept (t slot : Nat) (s : State) (hs : Kept k0 s) :
    Kept k0 (parkLocks t slot s) := by
  unfold parkLocks
  with_reducible repeat' first
    | assumption | apply bump_kept | apply dropWaiter_kept | apply modLock_kept | apply Kept.foldl | intro _
    | dsimp only

theorem resumeLocks_kept (slot t : Nat) (s : State) (hs : Kept k0 s) :
    Kept k0 (resumeLocks slot t s) := by
  unfold resumeLocks
  with_reducible repeat' first
    | assumption | apply modLocks_kept | apply Kept.ite | intro _ | dsimp only

theorem lockAcquire_kept (queue : Bool) (l m prio : Nat) (s : State) (hs : Kept k0 s) :
    Kept k0 (lockAcquire queue l m prio s).2 := by
  unfold lockAcquire
  with_reducible repeat' first
    | assumption | apply bump_kept | apply startLease_kept | apply modLock_kept | apply signalBoost_kept
    | apply Kept.ite | intro _ | dsimp only | split

theorem lockRelease_kept (l m : Nat) (s : State) (hs : Kept k0 s) :
    Kept k0 (lockRelease l m s).2 := by
  unfold lockRelease
  with_reducible repeat' first
    | assumption | apply bump_kept | apply grantNext_kept | apply dropWaiter_kept | apply modLock_kept
    | apply modLocks_kept | apply Kept.ite | intro _ | dsimp only | split

theorem lockQuery_kept (l m : Nat) (s : State) (hs : Kept k0 s) :
    Kept k0 (lockQuery l m s).2 := by
  unfold lockQuery
  with_reducible repeat' first
    | assumption | apply bump_kept | apply Kept.ite | intro _ | split

theorem lockDo_kept (r : LockReq) (s : State) (hs : Kept k0 s) :
    Kept k0 (lockDo r s).2 := by
  unfold lockDo
  with_reducible repeat' first
    | assumption | apply lockAcquire_kept | apply lockRelease_kept | apply lockQuery_kept
    | refine Kept.of_pair (by assumption) ?_ | dsimp only | split

theorem lockReply_kept (l master : Nat) (r : Nat × State) (hr : Kept k0 r.2) :
    Kept k0 (lockReply l master r) := by
  unfold lockReply
  with_reducible repeat' first
    | assumption | apply emit_kept

theorem lockMeet_kept (rs : List LockReq) (s : State) (hs : Kept k0 s) :
    Kept k0 (lockMeet rs s) := by
  unfold lockMeet
  with_reducible repeat' first
    | assumption | apply lockReply_kept | apply lockDo_kept | apply modLocks_kept | apply Kept.foldl | intro _
    | dsimp only

theorem lockOp_kept (off m : Nat) (s : State) (hs : Kept k0 s) :
    Kept k0 (lockOp off m s).2 := by
  unfold lockOp
  with_reducible repeat' first
    | assumption | apply lockAcquire_kept | apply lockRelease_kept | apply lockQuery_kept | apply Kept.ite | intro _
    | refine Kept.of_pair (by assumption) ?_ | dsimp only | split

end Sys2Proof.Machine
end

