-- ==== Sys2Proof/Laws/KeptZmtBase.lean ====
section
/-! SUPPORT. What every operation of Machine/ZmtBase.lean keeps. -/

namespace Sys2Proof.Machine

variable {k0 : State}

theorem modPeer_kept (k : Nat) (f : Peer → Peer) (s : State) (hs : Kept k0 s) :
    Kept k0 (modPeer k f s) := by
  unfold modPeer
  with_reducible repeat' first
    | assumption | apply modZmt_kept | dsimp only

theorem modZmsg_kept (id : Nat) (f : ZMsg → ZMsg) (s : State) (hs : Kept k0 s) :
    Kept k0 (modZmsg id f s) := by
  unfold modZmsg
  with_reducible repeat' first
    | assumption | apply modZmt_kept | dsimp only | simp only [id_eq]

theorem takeMseq_kept (m : ZMsg) (s : State) (hs : Kept k0 s) :
    Kept k0 (takeMseq m s).2 := by
  unfold takeMseq
  with_reducible repeat' first
    | assumption | apply modPeer_kept | apply Kept.ite | intro _ | dsimp only | split

theorem zmsgNew_kept (m : ZMsg) (s : State) (hs : Kept k0 s) :
    Kept k0 (zmsgNew m s).2 := by
  unfold zmsgNew
  with_reducible repeat' first
    | assumption | apply takeMseq_kept | apply modZmt_kept | apply Kept.ite | intro _ | dsimp only | split
    | simp only [id_eq]

theorem zmsgDrop_kept (id : Nat) (s : State) (hs : Kept k0 s) :
    Kept k0 (zmsgDrop id s) := by
  unfold zmsgDrop
  with_reducible repeat' first
    | assumption | apply modZmt_kept | dsimp only | simp only [id_eq]

theorem zmsgDone_kept (id : Nat) (s : State) (hs : Kept k0 s) :
    Kept k0 (zmsgDone id s) := by
  unfold zmsgDone
  with_reducible repeat' first
    | assumption | apply zmsgDrop_kept | apply bump_kept | apply ledComplete_kept | apply endCmd_kept | apply Kept.ite
    | intro _ | dsimp only | split | simp only [id_eq]

theorem zmsgEndFail_kept (id code : Nat) (remote : Bool) (s : State) (hs : Kept k0 s) :
    Kept k0 (zmsgEndFail id code remote s) := by
  unfold zmsgEndFail
  with_reducible repeat' first
    | assumption | apply zmsgDrop_kept | apply bump_kept | apply ledFail_kept | apply endCmd_kept | apply Kept.ite
    | intro _ | dsimp only | split | simp only [id_eq]

theorem zFallbackEnd_kept (bid reason : Nat) (s : State) (hs : Kept k0 s) :
    Kept k0 (zFallbackEnd bid reason s) := by
  unfold zFallbackEnd
  with_reducible repeat' first
    | assumption | apply zmsgDone_kept | apply drawn_kept | apply zmsgEndFail_kept | apply Kept.ite | intro _
    | dsimp only | split | simp only [id_eq]

theorem peerDiscard_kept (k : Nat) (s : State) (hs : Kept k0 s) :
    Kept k0 (peerDiscard k s) := by
  unfold peerDiscard
  with_reducible repeat' first
    | assumption | apply modZmt_kept | apply zmsgEndFail_kept | apply Kept.foldl | intro _ | dsimp only | split

end Sys2Proof.Machine
end

