-- ==== Sys2Proof/Laws/KeptSchedOps.lean ====
section
/-! SUPPORT. What every operation of Machine/SchedOps.lean keeps. -/

namespace Sys2Proof.Machine

variable {k0 : State}

theorem modRq_kept (q : Nat) (f : List QBrick → List QBrick) (s : State) (hs : Kept k0 s) :
    Kept k0 (modRq q f s) := by
  unfold modRq
  with_reducible repeat' first
    | assumption | apply modSched_kept | dsimp only

theorem modDl_kept (k : Nat) (f : List DlEnt → List DlEnt) (s : State) (hs : Kept k0 s) :
    Kept k0 (modDl k f s) := by
  unfold modDl
  with_reducible repeat' first
    | assumption | apply modSched_kept | dsimp only

theorem rqPush_kept (q : Nat) (words : List W64) (cont : Option Nat) (s : State) (hs : Kept k0 s) :
    Kept k0 (rqPush q words cont s) := by
  unfold rqPush
  with_reducible repeat' first
    | assumption | apply modRq_kept | apply bump_kept | apply Kept.ite | intro _ | dsimp only

theorem countWaiting_kept (q : Nat) (words : List W64) (s : State) (hs : Kept k0 s) :
    Kept k0 (countWaiting q words s) := by
  unfold countWaiting
  with_reducible repeat' first
    | assumption | apply bump_kept | apply Kept.ite | intro _

theorem countRefusal_kept (st : Nat) (s : State) (hs : Kept k0 s) :
    Kept k0 (countRefusal st s) := by
  unfold countRefusal
  with_reducible repeat' first
    | assumption | apply bump_kept | split

theorem stampBrick_kept (words : List W64) (master : Nat) (s : State) (hs : Kept k0 s) :
    Kept k0 (stampBrick words master s).2 := by
  unfold stampBrick
  with_reducible repeat' first
    | assumption | apply ledAccept_kept | apply modSched_kept | dsimp only

theorem acceptBrick_kept (words : List W64) (master : Nat) (posterU : Bool) (s : State) (hs : Kept k0 s) :
    Kept k0 (acceptBrick words master posterU s).2.2 := by
  unfold acceptBrick
  with_reducible repeat' first
    | assumption | apply countRefusal_kept | apply stampBrick_kept | apply countWaiting_kept | apply rqPush_kept
    | apply Kept.ite | intro _ | dsimp only | split

theorem delayPush_kept (k due q : Nat) (words : List W64) (cont : Option Nat) (s : State) (hs : Kept k0 s) :
    Kept k0 (delayPush k due q words cont s) := by
  unfold delayPush
  with_reducible repeat' first
    | assumption | apply bump_kept | apply rqPush_kept | apply modDl_kept | apply Kept.ite | intro _

theorem acceptDelayed_kept (words : List W64) (master k due : Nat) (posterU : Bool) (s : State) (hs : Kept k0 s) :
    Kept k0 (acceptDelayed words master k due posterU s).2.2 := by
  unfold acceptDelayed
  with_reducible repeat' first
    | assumption | apply countRefusal_kept | apply stampBrick_kept | apply delayPush_kept | apply Kept.ite | intro _
    | dsimp only | split

theorem endBrick_kept (words : List W64) (reason status : Nat) (s : State) (hs : Kept k0 s) :
    Kept k0 (endBrick words reason status s) := by
  unfold endBrick
  with_reducible repeat' first
    | assumption | apply ledComplete_kept | apply ledFail_kept | apply endCmd_kept | apply zFallbackEnd_kept
    | apply Kept.ite | intro _ | dsimp only | split | simp only [id_eq]

theorem checkDrained_kept (tile : Nat) (s : State) (hs : Kept k0 s) :
    Kept k0 (checkDrained tile s) := by
  unfold checkDrained
  with_reducible repeat' first
    | assumption | apply modSched_kept | apply Kept.ite | intro _ | dsimp only

theorem squashCpx_kept (t : Nat) (s : State) (hs : Kept k0 s) :
    Kept k0 (squashCpx t s) := by
  unfold squashCpx
  with_reducible repeat' first
    | assumption | apply armSettle_kept | apply bump_kept | apply modThr_kept | dsimp only | split

theorem idleThread_kept (t : Nat) (s : State) (hs : Kept k0 s) :
    Kept k0 (idleThread t s) := by
  unfold idleThread
  with_reducible repeat' first
    | assumption | apply pairVote_kept | apply checkDrained_kept | apply dropHandles_kept | apply watchDrop_kept
    | apply modThr_kept | dsimp only

theorem freeThread_kept (t : Nat) (s : State) (hs : Kept k0 s) :
    Kept k0 (freeThread t s) := by
  unfold freeThread
  with_reducible repeat' first
    | assumption | apply idleThread_kept | apply breakMaster_kept | apply chanCleanup_kept

theorem resetThread_kept (t : Nat) (s : State) (hs : Kept k0 s) :
    Kept k0 (resetThread t s) := by
  unfold resetThread
  with_reducible repeat' first
    | assumption | apply idleThread_kept | apply breakMaster_kept | apply chanCleanup_kept | apply squashCpx_kept

theorem lostBrick_kept (words : List W64) (reason : Nat) (s : State) (hs : Kept k0 s) :
    Kept k0 (lostBrick words reason s) := by
  unfold lostBrick
  with_reducible repeat' first
    | assumption | apply bump_kept | apply rqPush_kept | apply endBrick_kept | apply Kept.ite | intro _

theorem contReady_kept (slot : Nat) (s : State) (hs : Kept k0 s) :
    Kept k0 (contReady slot s) := by
  unfold contReady
  with_reducible repeat' first
    | assumption | apply rqPush_kept | split

theorem contResponse_kept (slot : Nat) (ok : Bool) (s : State) (hs : Kept k0 s) :
    Kept k0 (contResponse slot ok s) := by
  unfold contResponse
  with_reducible repeat' first
    | assumption | apply contReady_kept | apply modSched_kept | apply Kept.ite | intro _ | dsimp only | split

end Sys2Proof.Machine
end

