-- ==== Sys2Proof/Laws/KeptMatch.lean ====
section
/-! SUPPORT. What every operation of Machine/Match.lean keeps. -/

namespace Sys2Proof.Machine

variable {k0 : State}

theorem mForget_kept (i : Nat) (s : State) (hs : Kept k0 s) :
    Kept k0 (mForget i s) := by
  unfold mForget
  with_reducible repeat' first
    | assumption | apply modMat_kept | dsimp only

theorem mClear_kept (i : Nat) (s : State) (hs : Kept k0 s) :
    Kept k0 (mClear i s) := by
  unfold mClear
  with_reducible repeat' first
    | assumption | apply mForget_kept | apply modMat_kept | dsimp only

theorem mPut_kept (i : Nat) (e : MEnt) (s : State) (hs : Kept k0 s) :
    Kept k0 (mPut i e s) := by
  unfold mPut
  with_reducible repeat' first
    | assumption | apply modMat_kept | apply mForget_kept | dsimp only

theorem mAdvance_kept (s : State) (hs : Kept k0 s) :
    Kept k0 (mAdvance s) := by
  unfold mAdvance
  with_reducible repeat' first
    | assumption | apply modMat_kept | apply Kept.ite | intro _ | dsimp only

theorem mHand_kept (record desc : W64) (s : State) (hs : Kept k0 s) :
    Kept k0 (mHand record desc s) := by
  unfold mHand
  with_reducible repeat' first
    | assumption | apply modMat_kept | apply emit_kept | apply Kept.ite | intro _ | dsimp only

theorem mSearch_kept (r : MReq) (s : State) (hs : Kept k0 s) :
    Kept k0 (mSearch r s).2 := by
  unfold mSearch
  with_reducible repeat' first
    | assumption | apply modMat_kept | apply bump_kept | apply mHand_kept | apply mClear_kept | apply Kept.ite
    | intro _ | dsimp only | split

theorem mInsert_kept (r : MReq) (s : State) (hs : Kept k0 s) :
    Kept k0 (mInsert r s).2 := by
  unfold mInsert
  with_reducible repeat' first
    | assumption | apply mPut_kept | apply mAdvance_kept | apply Kept.ite | intro _ | dsimp only | split

theorem mDelete_kept (r : MReq) (s : State) (hs : Kept k0 s) :
    Kept k0 (mDelete r s).2 := by
  unfold mDelete
  with_reducible repeat' first
    | assumption | apply mClear_kept | apply Kept.ite | intro _ | dsimp only | split

theorem mStep_kept (r : MReq) (s : State) (hs : Kept k0 s) :
    Kept k0 (mStep r s).2 := by
  unfold mStep
  with_reducible repeat' first
    | assumption | apply modMat_kept | apply mClear_kept | apply Kept.ite | intro _ | dsimp only | split

theorem mHfree_kept (r : MReq) (s : State) (hs : Kept k0 s) :
    Kept k0 (mHfree r s).2 := by
  unfold mHfree
  with_reducible repeat' first
    | assumption | apply modMat_kept | dsimp only | split

theorem mPost_kept (r : MReq) (s : State) (hs : Kept k0 s) :
    Kept k0 (mPost r s).2 := by
  unfold mPost
  with_reducible repeat' first
    | assumption | apply mClear_kept | apply mHand_kept | apply mPut_kept | apply mAdvance_kept | apply Kept.ite
    | intro _ | dsimp only | split

theorem mArrive_kept (r : MReq) (s : State) (hs : Kept k0 s) :
    Kept k0 (mArrive r s).2 := by
  unfold mArrive
  with_reducible repeat' first
    | assumption | apply mClear_kept | apply mPut_kept | apply mAdvance_kept | apply Kept.ite | intro _ | dsimp only
    | split

theorem mRead_kept (r : MReq) (s : State) (hs : Kept k0 s) :
    Kept k0 (mRead r s).2 := by
  unfold mRead
  with_reducible repeat' first
    | assumption | apply Kept.ite | intro _ | split

theorem mPerform_kept (r : MReq) (s : State) (hs : Kept k0 s) :
    Kept k0 (mPerform r s).2 := by
  unfold mPerform
  with_reducible repeat' first
    | assumption | apply mSearch_kept | apply mInsert_kept | apply mDelete_kept | apply mStep_kept | apply mHfree_kept
    | apply mPost_kept | apply mArrive_kept | apply mRead_kept | apply Kept.ite | intro _
    | refine Kept.of_pair (by assumption) ?_ | dsimp only | split

theorem mTally_kept (op : Nat) (m : MRes) (s : State) (hs : Kept k0 s) :
    Kept k0 (mTally op m s) := by
  unfold mTally
  with_reducible repeat' first
    | assumption | apply bump_kept | apply bumpIf_kept | dsimp only | split

theorem mCount_kept (r : MReq) (m : MRes) (s : State) (hs : Kept k0 s) :
    Kept k0 (mCount r m s) := by
  unfold mCount
  with_reducible repeat' first
    | assumption | apply mTally_kept | apply bump_kept | apply Kept.ite | intro _ | dsimp only | split

theorem mDeliver_kept (r : MReq) (m : MRes) (s : State) (hs : Kept k0 s) :
    Kept k0 (mDeliver r m s) := by
  unfold mDeliver
  with_reducible repeat' first
    | assumption | apply mCount_kept | apply modMat_kept | apply endCmd_kept | apply Kept.ite | intro _ | dsimp only
    | split | simp only [id_eq]

theorem mRequest_kept (r : MReq) (s : State) (hs : Kept k0 s) :
    Kept k0 (mRequest r s) := by
  unfold mRequest
  with_reducible repeat' first
    | assumption | apply modMat_kept | apply mPerform_kept | apply mDeliver_kept | apply Kept.ite | intro _
    | dsimp only

theorem mServe_kept {n : Nat} : ∀ {l : List MReq} {s : State}, Kept k0 s → Kept k0 (mServe n l s) := by
  induction n with
  | zero => intro l s h; exact h
  | succ n ih =>
    intro l s h
    unfold mServe
    split
    · exact ih (mRequest_kept _ _ h)
    · exact h

theorem mStart_kept (m v : Nat) (s : State) (hs : Kept k0 s) :
    Kept k0 (mStart m v s) := by
  unfold mStart
  with_reducible repeat' first
    | assumption | apply bump_kept | apply mRequest_kept | apply modMat_kept | apply Kept.ite | intro _ | dsimp only

theorem execMatchSearch_kept (area : Fin 769) (v : W64) (s : State) (hs : Kept k0 s) :
    KeptO k0 (execMatchSearch area v s) := by
  unfold execMatchSearch
  with_reducible repeat' first
    | assumption | apply KeptO.next | apply mStart_kept

theorem execMatchInsert_kept (area : Fin 769) (v : W64) (s : State) (hs : Kept k0 s) :
    KeptO k0 (execMatchInsert area v s) := by
  unfold execMatchInsert
  with_reducible repeat' first
    | assumption | apply KeptO.next | apply mStart_kept

theorem execMatchDelete_kept (area : Fin 769) (v : W64) (s : State) (hs : Kept k0 s) :
    KeptO k0 (execMatchDelete area v s) := by
  unfold execMatchDelete
  with_reducible repeat' first
    | assumption | apply KeptO.next | apply mStart_kept

theorem execMatchStep_kept (area : Fin 769) (v : W64) (s : State) (hs : Kept k0 s) :
    KeptO k0 (execMatchStep area v s) := by
  unfold execMatchStep
  with_reducible repeat' first
    | assumption | apply KeptO.next | apply mStart_kept

theorem execHfree_kept (area : Fin 769) (v : W64) (s : State) (hs : Kept k0 s) :
    KeptO k0 (execHfree area v s) := by
  unfold execHfree
  with_reducible repeat' first
    | assumption | apply KeptO.next | apply mStart_kept

theorem execPost_kept (area : Fin 769) (v : W64) (s : State) (hs : Kept k0 s) :
    KeptO k0 (execPost area v s) := by
  unfold execPost
  with_reducible repeat' first
    | assumption | apply KeptO.next | apply mStart_kept

theorem execMatchRead_kept (area : Fin 769) (v : W64) (s : State) (hs : Kept k0 s) :
    KeptO k0 (execMatchRead area v s) := by
  unfold execMatchRead
  with_reducible repeat' first
    | assumption | apply KeptO.next | apply mStart_kept

theorem arrIssue_kept (ts : Nat) (key : BitVec 128) (record : W64) (s : State) (hs : Kept k0 s) :
    Kept k0 (arrIssue ts key record s) := by
  unfold arrIssue
  with_reducible repeat' first
    | assumption | apply modMat_kept | dsimp only

theorem setExp_kept (ts peer : Nat) (v : BitVec 32) (s : State) (hs : Kept k0 s) :
    Kept k0 (setExp ts peer v s) := by
  unfold setExp
  with_reducible repeat' first
    | assumption | apply modMat_kept | dsimp only

theorem heldIssue_kept {n ts peer : Nat} : ∀ {s : State}, Kept k0 s → Kept k0 (heldIssue n ts peer s) := by
  induction n with
  | zero => intro s h; exact h
  | succ n ih =>
    intro s h
    unfold heldIssue
    repeat' (first | with_reducible assumption | with_reducible apply ih | with_reducible apply modMat_kept | with_reducible apply setExp_kept | with_reducible apply arrIssue_kept | with_reducible apply Kept.ite | with_reducible intro _ | dsimp only | split)

theorem arrHold_kept (ts peer : Nat) (mseq : BitVec 32) (key : BitVec 128) (record : W64) (late : Bool) (s : State) (hs : Kept k0 s) :
    Kept k0 (arrHold ts peer mseq key record late s).2 := by
  unfold arrHold
  with_reducible repeat' first
    | assumption | apply bump_kept | apply modMat_kept | apply Kept.ite | intro _ | dsimp only | split

theorem arrSubmit_kept (ts peer : Nat) (mseq : BitVec 32) (key : BitVec 128) (record : W64) (s : State) (hs : Kept k0 s) :
    Kept k0 (arrSubmit ts peer mseq key record s).2 := by
  unfold arrSubmit
  with_reducible repeat' first
    | assumption | apply bump_kept | apply arrHold_kept | apply arrIssue_kept | apply heldIssue_kept
    | apply setExp_kept | apply Kept.ite | intro _ | dsimp only | split

theorem execArrive_kept (s : State) (hs : Kept k0 s) :
    KeptO k0 (execArrive s) := by
  unfold execArrive
  with_reducible repeat' first
    | assumption | apply KeptO.next | apply mRequest_kept | apply modMat_kept | apply Kept.ite | intro _ | dsimp only
    | split

theorem execHeldArriveIssue_kept (ts : Fin 8) (peer : BitVec 32) (s : State) (hs : Kept k0 s) :
    KeptO k0 (execHeldArriveIssue ts peer s) := by
  unfold execHeldArriveIssue
  with_reducible repeat' first
    | assumption | apply KeptO.next | apply heldIssue_kept

theorem execMseqHoldTimeout_kept (ts : Fin 8) (peer : BitVec 32) (s : State) (hs : Kept k0 s) :
    KeptO k0 (execMseqHoldTimeout ts peer s) := by
  unfold execMseqHoldTimeout
  with_reducible repeat' first
    | assumption | apply KeptO.next | apply bump_kept | apply setExp_kept | apply modMat_kept | apply heldIssue_kept
    | apply Kept.ite | intro _ | dsimp only | split

theorem wrRenumber_kept (a0 : Nat) (v0 : Bytes) (s : State) (hs : Kept k0 s) :
    Kept k0 (wrRenumber a0 v0 s).2 := by
  unfold wrRenumber
  with_reducible repeat' first
    | assumption | apply modMat_kept | apply Kept.ite | intro _ | dsimp only | split

theorem execRenumber_kept (h : DHdr) (v : Bytes) (s : State) (hs : Kept k0 s) :
    KeptO k0 (execRenumber h v s) := by
  unfold execRenumber
  with_reducible repeat' first
    | assumption | apply KeptO.next | apply dictWriteRow_kept | apply wrRenumber_kept | intro _ | dsimp only

theorem renumEnd_kept (others : List (BitVec 32)) (s : State) (hs : Kept k0 s) :
    Kept k0 (renumEnd others s) := by
  unfold renumEnd
  with_reducible repeat' first
    | assumption | apply bump_kept | apply modMat_kept | apply mServe_kept | apply Kept.ite | intro _ | dsimp only

theorem blkClsWrite_kept (v : Nat) (s : State) (hs : Kept k0 s) :
    Kept k0 (blkClsWrite v s).2 := by
  unfold blkClsWrite
  with_reducible repeat' first
    | assumption | apply setVal_kept | apply Kept.ite | intro _ | dsimp only | split

theorem wrBlkCls_kept (a0 : Nat) (v0 : Bytes) (s : State) (hs : Kept k0 s) :
    Kept k0 (wrBlkCls a0 v0 s).2 := by
  unfold wrBlkCls
  with_reducible repeat' first
    | assumption | apply blkClsWrite_kept | intro _ | dsimp only

theorem execBlockClassWrite_kept (h : DHdr) (v : Bytes) (s : State) (hs : Kept k0 s) :
    KeptO k0 (execBlockClassWrite h v s) := by
  unfold execBlockClassWrite
  with_reducible repeat' first
    | assumption | apply KeptO.next | apply dictWriteRow_kept | apply wrBlkCls_kept | intro _ | dsimp only

theorem rdMatchEntry_kept (a0 : Nat) (s : State) (hs : Kept k0 s) :
    Kept k0 (rdMatchEntry a0 s).2.2 := by
  unfold rdMatchEntry
  with_reducible repeat' first
    | assumption | dsimp only

theorem execMatchEntryRead_kept (h : DHdr) (s : State) (hs : Kept k0 s) :
    KeptO k0 (execMatchEntryRead h s) := by
  unfold execMatchEntryRead
  with_reducible repeat' first
    | assumption | apply KeptO.next | apply dictReadRow_kept | apply rdMatchEntry_kept | intro _ | dsimp only

end Sys2Proof.Machine
end

