-- ==== Sys2Proof/Laws/KeptCasc.lean ====
section
/-! SUPPORT. What every operation of Machine/Casc.lean keeps. -/

namespace Sys2Proof.Machine

variable {k0 : State}

theorem searchOp_kept (o : COp) (s : State) (hs : Kept k0 s) :
    Kept k0 (searchOp o s) := by
  unfold searchOp
  with_reducible repeat' first
    | assumption | apply modMat_kept | apply emit_kept | apply Kept.ite | intro _ | dsimp only

theorem searchAll_kept {n : Nat} : ∀ {s : State}, Kept k0 s → Kept k0 (searchAll n s) := by
  induction n with
  | zero => intro s h; exact h
  | succ n ih =>
    intro s h
    unfold searchAll
    split
    · exact ih (searchOp_kept _ _ h)
    · exact h

theorem settleHandle_kept (r : MReq) (home hit : Bool) (s : State) (hs : Kept k0 s) :
    Kept k0 (settleHandle r home hit s) := by
  unfold settleHandle
  with_reducible repeat' first
    | assumption | apply bumpIf_kept | apply modMat_kept | apply Kept.ite | intro _ | dsimp only

theorem applyOp_kept (o : COp) (s : State) (hs : Kept k0 s) :
    Kept k0 (applyOp o s) := by
  unfold applyOp
  with_reducible repeat' first
    | assumption | apply mHand_kept | apply modMat_kept | apply mClear_kept | apply settleHandle_kept
    | apply mDeliver_kept | apply mPut_kept | apply mAdvance_kept | apply Kept.ite | intro _ | dsimp only | split

theorem progress_kept {n : Nat} : ∀ {s : State}, Kept k0 s → Kept k0 (progress n s) := by
  induction n with
  | zero => intro s h; exact h
  | succ n ih =>
    intro s h
    unfold progress
    have h1 : Kept k0 (searchAll s.mat.ops.length s) := searchAll_kept h
    dsimp only
    refine Kept.ite (fun _ => h) (fun _ => ?_)
    split
    · exact Kept.ite (fun _ => ih (applyOp_kept _ _ (modMat_kept h1))) (fun _ => h1)
    · exact h1

theorem cascGo_kept (s : State) (hs : Kept k0 s) :
    Kept k0 (cascGo s) := by
  unfold cascGo
  with_reducible repeat' first
    | assumption | apply progress_kept

theorem execCascadeTraining_kept (members : List CMember) (s : State) (hs : Kept k0 s) :
    KeptO k0 (execCascadeTraining members s) := by
  unfold execCascadeTraining
  with_reducible repeat' first
    | assumption | apply KeptO.next | apply modMat_kept | apply bump_kept | apply Kept.ite | apply Kept.foldl
    | intro _ | dsimp only | split

theorem giveHandle_kept (r : MReq) (s : State) (hs : Kept k0 s) :
    Kept k0 (giveHandle r s).2 := by
  unfold giveHandle
  with_reducible repeat' first
    | assumption | apply modMat_kept | apply Kept.ite | intro _ | dsimp only | split

theorem sendOps_kept {l : List MReq} : ∀ {k : Nat} {s : State}, Kept k0 s → Kept k0 (sendOps k l s).2 := by
  induction l with
  | nil => intro k s h; exact h
  | cons r t ih =>
    intro k s h
    unfold sendOps
    have h1 : Kept k0 (giveHandle r s).2 := giveHandle_kept _ _ h
    exact ih (Kept.ite (fun _ => bump_kept _ _ _ (modMat_kept h1)) (fun _ => modMat_kept h1))

theorem execCascadeRound_kept (s : State) (hs : Kept k0 s) :
    KeptO k0 (execCascadeRound s) := by
  unfold execCascadeRound
  with_reducible repeat' first
    | assumption | apply KeptO.next | apply bump_kept | apply modMat_kept | apply sendOps_kept | apply cascGo_kept
    | apply emit_kept | apply Kept.ite | intro _ | dsimp only | split

theorem takeRecs_kept {pos round : Nat} {l : List CRec} : ∀ {k : Nat} {s : State}, Kept k0 s →
    Kept k0 (takeRecs pos round k l s) := by
  induction l with
  | nil => intro k s h; exact h
  | cons r t ih =>
    intro k s h
    unfold takeRecs
    exact ih (modMat_kept (Kept.ite (fun _ => bump_kept _ _ _ h) (fun _ => h)))

theorem execCascadeFrameReceive_kept (pos : Fin 4) (round : BitVec 32) (recs : List CRec) (results : List (Nat × Nat × Nat × CRes)) (crcOk : Bool) (s : State) (hs : Kept k0 s) :
    KeptO k0 (execCascadeFrameReceive pos round recs results crcOk s) := by
  unfold execCascadeFrameReceive
  with_reducible repeat' first
    | assumption | apply KeptO.next | apply bump_kept | apply modMat_kept | apply takeRecs_kept | apply cascGo_kept
    | apply Kept.ite | apply Kept.foldl | intro _ | dsimp only | split

theorem execCascadeMemberTimeout_kept (pos : Fin 4) (s : State) (hs : Kept k0 s) :
    KeptO k0 (execCascadeMemberTimeout pos s) := by
  unfold execCascadeMemberTimeout
  with_reducible repeat' first
    | assumption | apply KeptO.next | apply cascGo_kept | apply bump_kept | apply modMat_kept | apply Kept.ite
    | intro _ | dsimp only | split

theorem execMemberRejoin_kept (pos : Fin 4) (round oseq base rgen : BitVec 32) (s : State) (hs : Kept k0 s) :
    KeptO k0 (execMemberRejoin pos round oseq base rgen s) := by
  unfold execMemberRejoin
  with_reducible repeat' first
    | assumption | apply KeptO.next | apply modMat_kept | apply Kept.ite | apply Kept.foldl | intro _ | dsimp only
    | split

theorem execRenumberEnd_kept (others : List (BitVec 32)) (s : State) (hs : Kept k0 s) :
    KeptO k0 (execRenumberEnd others s) := by
  unfold execRenumberEnd
  with_reducible repeat' first
    | assumption | apply KeptO.next | apply cascGo_kept | apply renumEnd_kept | apply Kept.ite | intro _ | split

end Sys2Proof.Machine
end

