-- ==== Sys2Proof/Laws/KeptPortOps.lean ====
section
/-! SUPPORT. What every operation of Machine/PortOps.lean keeps. -/

namespace Sys2Proof.Machine

variable {k0 : State}

theorem modSub_kept (sp : Nat) (f : SubPort → SubPort) (s : State) (hs : Kept k0 s) :
    Kept k0 (modSub sp f s) := by
  unfold modSub
  with_reducible repeat' first
    | assumption | apply modFab_kept | dsimp only

theorem modPort_kept (p : Nat) (f : Port → Port) (s : State) (hs : Kept k0 s) :
    Kept k0 (modPort p f s) := by
  unfold modPort
  with_reducible repeat' first
    | assumption | apply modFab_kept | dsimp only

theorem portCount_kept (sp sub : Nat) (s : State) (hs : Kept k0 s) :
    Kept k0 (portCount sp sub s) := by
  unfold portCount
  with_reducible repeat' first
    | assumption | apply bump_kept

theorem modPkt_kept (k : Nat) (f : Pkt → Pkt) (s : State) (hs : Kept k0 s) :
    Kept k0 (modPkt k f s) := by
  unfold modPkt
  with_reducible repeat' first
    | assumption | apply modFab_kept | dsimp only

theorem modQueue_kept (sp tc : Nat) (f : List Nat → List Nat) (s : State) (hs : Kept k0 s) :
    Kept k0 (modQueue sp tc f s) := by
  unfold modQueue
  with_reducible repeat' first
    | assumption | apply modFab_kept | dsimp only

theorem ctlPush_kept (sp kind : Nat) (b : Bytes) (s : State) (hs : Kept k0 s) :
    Kept k0 (ctlPush sp kind b s) := by
  unfold ctlPush
  with_reducible repeat' first
    | assumption | apply modSub_kept | apply Kept.ite | intro _ | dsimp only

theorem sendPfc_kept (sp mask quanta : Nat) (s : State) (hs : Kept k0 s) :
    Kept k0 (sendPfc sp mask quanta s) := by
  unfold sendPfc
  with_reducible repeat' first
    | assumption | apply portCount_kept | apply ctlPush_kept | apply Kept.ite | intro _ | dsimp only

theorem sendXoff_kept (sp mask : Nat) (s : State) (hs : Kept k0 s) :
    Kept k0 (sendXoff sp mask s) := by
  unfold sendXoff
  with_reducible repeat' first
    | assumption | apply modSub_kept | apply sendPfc_kept | apply Kept.ite | apply Kept.foldl | intro _ | dsimp only

theorem pfcCheck_kept (sp : Nat) (s : State) (hs : Kept k0 s) :
    Kept k0 (pfcCheck sp s) := by
  unfold pfcCheck
  with_reducible repeat' first
    | assumption | apply modSub_kept | apply sendXoff_kept | apply sendPfc_kept | apply Kept.ite | intro _
    | dsimp only

theorem fifoPfc_kept (sp : Nat) (s : State) (hs : Kept k0 s) :
    Kept k0 (fifoPfc sp s) := by
  unfold fifoPfc
  with_reducible repeat' first
    | assumption | apply sendXoff_kept | apply modSub_kept | apply sendPfc_kept | apply Kept.ite | intro _
    | dsimp only

theorem fifoPfcs_kept (p : Nat) (s : State) (hs : Kept k0 s) :
    Kept k0 (fifoPfcs p s) := by
  unfold fifoPfcs
  with_reducible repeat' first
    | assumption | apply fifoPfc_kept

theorem sendLcf_kept (sp ltype lseq lanes lost : Nat) (credits : List Nat) (s : State) (hs : Kept k0 s) :
    Kept k0 (sendLcf sp ltype lseq lanes lost credits s) := by
  unfold sendLcf
  with_reducible repeat' first
    | assumption | apply modSub_kept | apply emit_kept | dsimp only

theorem grantCells_kept (sp tc n : Nat) (s : State) (hs : Kept k0 s) :
    Kept k0 (grantCells sp tc n s) := by
  unfold grantCells
  with_reducible repeat' first
    | assumption | apply modSub_kept | apply Kept.ite | intro _ | dsimp only

theorem chargeCounter_kept (p : Pkt) (s : State) (hs : Kept k0 s) :
    Kept k0 (chargeCounter p s) := by
  unfold chargeCounter
  with_reducible repeat' first
    | assumption | apply modCls_kept | apply Kept.ite | intro _ | dsimp only

theorem drainDec_kept (p : Pkt) (s : State) (hs : Kept k0 s) :
    Kept k0 (drainDec p s) := by
  unfold drainDec
  with_reducible repeat' first
    | assumption | apply modCls_kept | apply Kept.ite | intro _ | dsimp only | split

theorem purgePkt_kept (k : Nat) (s : State) (hs : Kept k0 s) :
    Kept k0 (purgePkt k s) := by
  unfold purgePkt
  with_reducible repeat' first
    | assumption | apply modFab_kept | apply granulesFree_kept | apply modFwd_kept | apply chainGone_kept
    | apply Kept.ite | intro _ | dsimp only | split

theorem releasePkt_kept (k : Nat) (p : Pkt) (s : State) (hs : Kept k0 s) :
    Kept k0 (releasePkt k p s) := by
  unfold releasePkt
  with_reducible repeat' first
    | assumption | apply purgePkt_kept | apply pfcCheck_kept | apply grantCells_kept | apply drainDec_kept
    | apply Kept.ite | intro _ | dsimp only

theorem releaseQuiet_kept (k : Nat) (p : Pkt) (s : State) (hs : Kept k0 s) :
    Kept k0 (releaseQuiet k p s) := by
  unfold releaseQuiet
  with_reducible repeat' first
    | assumption | apply purgePkt_kept | apply pfcCheck_kept | apply drainDec_kept | apply Kept.ite | intro _
    | dsimp only

theorem completePkt_kept (k : Nat) (p : Pkt) (s : State) (hs : Kept k0 s) :
    Kept k0 (completePkt k p s) := by
  unfold completePkt
  with_reducible repeat' first
    | assumption | apply ledComplete_kept | apply releasePkt_kept | apply chargeCounter_kept

theorem failPkt_kept (k : Nat) (reason unit : Nat) (s : State) (hs : Kept k0 s) :
    Kept k0 (failPkt k reason unit s) := by
  unfold failPkt
  with_reducible repeat' first
    | assumption | apply ledFail_kept | apply releasePkt_kept | apply chargeCounter_kept | apply releaseQuiet_kept
    | apply modPkt_kept | apply chainGone_kept | apply Kept.ite | intro _ | dsimp only | split

theorem finishPkt_kept (k : Nat) (p : Pkt) (s : State) (hs : Kept k0 s) :
    Kept k0 (finishPkt k p s) := by
  unfold finishPkt
  with_reducible repeat' first
    | assumption | apply completePkt_kept | apply releaseQuiet_kept | apply modPkt_kept | apply chainGone_kept
    | apply Kept.ite | intro _ | dsimp only | split

theorem lostLocal_kept (k : Nat) (s : State) (hs : Kept k0 s) :
    Kept k0 (lostLocal k s) := by
  unfold lostLocal
  with_reducible repeat' first
    | assumption | apply purgePkt_kept

theorem moveNhgPtr_kept (g m : Nat) (s : State) (hs : Kept k0 s) :
    Kept k0 (moveNhgPtr g m s) := by
  unfold moveNhgPtr
  with_reducible repeat' first
    | assumption | apply modFwd_kept | dsimp only

theorem routeTo_kept (k g : Nat) (s : State) (hs : Kept k0 s) :
    Kept k0 (routeTo k g s).2 := by
  unfold routeTo
  with_reducible repeat' first
    | assumption | apply moveNhgPtr_kept | apply modPkt_kept | apply bump_kept | apply Kept.ite | intro _ | dsimp only
    | split

theorem writeMacs_kept (k sp : Nat) (s : State) (hs : Kept k0 s) :
    Kept k0 (writeMacs k sp s) := by
  unfold writeMacs
  with_reducible repeat' first
    | assumption | apply modPkt_kept | dsimp only

theorem enqueuePkt_kept (k sp tc : Nat) (spill : Bool) (s : State) (hs : Kept k0 s) :
    Kept k0 (enqueuePkt k sp tc spill s) := by
  unfold enqueuePkt
  with_reducible repeat' first
    | assumption | apply modQueue_kept | apply modPkt_kept | dsimp only

theorem admitPkt_kept (k sp : Nat) (s : State) (hs : Kept k0 s) :
    Kept k0 (admitPkt k sp s).2 := by
  unfold admitPkt
  with_reducible repeat' first
    | assumption | apply bumpBy_kept | apply enqueuePkt_kept | apply granulesTake_kept | apply modPkt_kept
    | apply bump_kept | apply Kept.ite | intro _ | dsimp only | split

theorem sendCopy_kept (sp : Nat) (c : LlrCopy) (s : State) (hs : Kept k0 s) :
    Kept k0 (sendCopy sp c s) := by
  unfold sendCopy
  with_reducible repeat' first
    | assumption | apply emit_kept | apply Kept.ite | intro _ | dsimp only | split

theorem ackCopy_kept (sp : Nat) (c : LlrCopy) (s : State) (hs : Kept k0 s) :
    Kept k0 (ackCopy sp c s) := by
  unfold ackCopy
  with_reducible repeat' first
    | assumption | apply finishPkt_kept | apply lostLocal_kept | apply Kept.ite | intro _ | split

theorem llrAcked_kept (sp : Nat) (a : BitVec 16) (s : State) (hs : Kept k0 s) :
    Kept k0 (llrAcked sp a s) := by
  unfold llrAcked
  with_reducible repeat' first
    | assumption | apply ackCopy_kept | apply modSub_kept | apply Kept.ite | apply Kept.foldl | intro _ | dsimp only

theorem replayCredit_kept {n sp : Nat} : ∀ {s : State}, Kept k0 s → Kept k0 (replayCredit n sp s) := by
  induction n with
  | zero => intro s h; exact modSub_kept _ _ _ h
  | succ n ih =>
    intro s h
    unfold replayCredit
    repeat' (first | with_reducible assumption | with_reducible apply ih | with_reducible apply modSub_kept | with_reducible apply portCount_kept | with_reducible apply sendCopy_kept | with_reducible apply Kept.ite | with_reducible intro _ | dsimp only | split)

theorem runReplay_kept (sp : Nat) (s : State) (hs : Kept k0 s) :
    Kept k0 (runReplay sp s) := by
  unfold runReplay
  with_reducible repeat' first
    | assumption | apply replayCredit_kept

theorem replayAll_kept (sp : Nat) (n : BitVec 16) (s : State) (hs : Kept k0 s) :
    Kept k0 (replayAll sp n s) := by
  unfold replayAll
  with_reducible repeat' first
    | assumption | apply runReplay_kept | apply modSub_kept | apply Kept.ite | intro _ | dsimp only

theorem fillCopies_kept (sp k : Nat) (b : Bytes) (stomp : Bool) (s : State) (hs : Kept k0 s) :
    Kept k0 (fillCopies sp k b stomp s) := by
  unfold fillCopies
  with_reducible repeat' first
    | assumption | apply modSub_kept | apply Kept.ite | intro _ | dsimp only

theorem failCopy_kept (sp : Nat) (c : LlrCopy) (s : State) (hs : Kept k0 s) :
    Kept k0 (failCopy sp c s) := by
  unfold failCopy
  with_reducible repeat' first
    | assumption | apply portCount_kept | apply lostLocal_kept | apply failPkt_kept | apply failLog_kept
    | apply bump_kept | apply modRow_kept | apply Kept.ite | exact LRow.moved_balanced _ (by assumption) | intro _
    | dsimp only | split

theorem failCopies_kept (sp : Nat) (s : State) (hs : Kept k0 s) :
    Kept k0 (failCopies sp s) := by
  unfold failCopies
  with_reducible repeat' first
    | assumption | apply failCopy_kept | apply modSub_kept | apply Kept.foldl | intro _ | dsimp only

theorem keepCopy_kept (sp k : Nat) (p : Pkt) (s : State) (hs : Kept k0 s) :
    Kept k0 (keepCopy sp k p s) := by
  unfold keepCopy
  with_reducible repeat' first
    | assumption | apply modSub_kept | apply Kept.ite | intro _ | dsimp only

theorem reroutePkt_kept (k : Nat) (s : State) (hs : Kept k0 s) :
    Kept k0 (reroutePkt k s) := by
  unfold reroutePkt
  with_reducible repeat' first
    | assumption | apply routeTo_kept | apply modQueue_kept | apply writeMacs_kept | apply failPkt_kept
    | apply portCount_kept | apply lostLocal_kept | apply bump_kept | apply Kept.ite | intro _
    | refine Kept.of_pair (by assumption) ?_ | dsimp only | split

theorem rerouteQueues_kept (sp : Nat) (s : State) (hs : Kept k0 s) :
    Kept k0 (rerouteQueues sp s) := by
  unfold rerouteQueues
  with_reducible repeat' first
    | assumption | apply reroutePkt_kept | apply modQueue_kept | apply Kept.foldl | intro _ | dsimp only

theorem dropTx_kept (sp : Nat) (admin : Bool) (s : State) (hs : Kept k0 s) :
    Kept k0 (dropTx sp admin s) := by
  unfold dropTx
  with_reducible repeat' first
    | assumption | apply keepCopy_kept | apply failPkt_kept | apply portCount_kept | apply lostLocal_kept
    | apply modSub_kept | apply Kept.ite | apply Kept.foldl | intro _ | dsimp only | split

theorem subDown_kept (sp : Nat) (hold : Nat) (s : State) (hs : Kept k0 s) :
    Kept k0 (subDown sp hold s) := by
  unfold subDown
  with_reducible repeat' first
    | assumption | apply modSub_kept | apply Kept.ite | intro _ | dsimp only

theorem startTraining_kept (sp : Nat) (s : State) (hs : Kept k0 s) :
    Kept k0 (startTraining sp s) := by
  unfold startTraining
  with_reducible repeat' first
    | assumption | apply emit_kept | apply modSub_kept | apply Kept.ite | intro _ | dsimp only

theorem linkLost_kept (sp : Nat) (s : State) (hs : Kept k0 s) :
    Kept k0 (linkLost sp s) := by
  unfold linkLost
  with_reducible repeat' first
    | assumption | apply dropTx_kept | apply subDown_kept | apply portCount_kept | apply rerouteQueues_kept
    | apply startTraining_kept | apply Kept.ite | intro _ | dsimp only

theorem retrain_kept (sp : Nat) (s : State) (hs : Kept k0 s) :
    Kept k0 (retrain sp s) := by
  unfold retrain
  with_reducible repeat' first
    | assumption | apply dropTx_kept | apply portCount_kept | apply startTraining_kept | apply modSub_kept
    | dsimp only

end Sys2Proof.Machine
end

