-- ==== Sys2Proof/Laws/KeptCourses.lean ====
section
/-! SUPPORT. What every operation of Machine/Courses.lean keeps. -/

namespace Sys2Proof.Machine

variable {k0 : State}

theorem modEntry_kept (inst i : Nat) (f : ClsEntry → ClsEntry) (s : State) (hs : Kept k0 s) :
    Kept k0 (modEntry inst i f s) := by
  unfold modEntry
  with_reducible repeat' first
    | assumption | apply modCls_kept | dsimp only

theorem execClassifierEntryWrite_kept (inst : Fin 4) (index : Fin 8192) (word : Fin 32) (v : W64) (s : State) (hs : Kept k0 s) :
    KeptO k0 (execClassifierEntryWrite inst index word v s) := by
  unfold execClassifierEntryWrite
  with_reducible repeat' first
    | assumption | apply KeptO.next | apply modEntry_kept | dsimp only

theorem execCounterPktsRead_kept (master : Nat) (pair : Fin 262144) (s : State) (hs : Kept k0 s) :
    KeptO k0 (execCounterPktsRead master pair s) := by
  unfold execCounterPktsRead
  with_reducible repeat' first
    | assumption | apply KeptO.next | apply modCls_kept | dsimp only

theorem execCounterWrite_kept (pair : Fin 262144) (bytes : Bool) (v : W64) (s : State) (hs : Kept k0 s) :
    KeptO k0 (execCounterWrite pair bytes v s) := by
  unfold execCounterWrite
  with_reducible repeat' first
    | assumption | apply KeptO.next | apply modCls_kept | apply Kept.ite | intro _ | dsimp only

theorem rdCounters_kept (a0 : Nat) (s : State) (hs : Kept k0 s) :
    Kept k0 (rdCounters a0 s).2.2 := by
  unfold rdCounters
  with_reducible repeat' first
    | assumption | dsimp only

theorem execCounterRead_kept (h : DHdr) (s : State) (hs : Kept k0 s) :
    KeptO k0 (execCounterRead h s) := by
  unfold execCounterRead
  with_reducible repeat' first
    | assumption | apply KeptO.next | apply dictReadRow_kept | apply rdCounters_kept | intro _ | dsimp only

theorem stageVal_kept (v : StagedVal) (s : State) (hs : Kept k0 s) :
    Kept k0 (stageVal v s) := by
  unfold stageVal
  with_reducible repeat' first
    | assumption | apply modCls_kept | apply Kept.ite | intro _ | dsimp only

theorem beginStaging_kept (s : State) (hs : Kept k0 s) :
    Kept k0 (beginStaging s) := by
  unfold beginStaging
  with_reducible repeat' first
    | assumption | apply modCls_kept | apply Kept.ite | intro _ | dsimp only

theorem stagingWrite_kept (st : Nat) (k : State → State) (s : State) (hk : ∀  s, Kept k0 s → Kept k0 (k  s)) (hs : Kept k0 s) :
    Kept k0 (stagingWrite st k s).2 := by
  unfold stagingWrite
  with_reducible repeat' first
    | assumption | apply beginStaging_kept | apply Kept.ite | apply hk | intro _ | split

theorem wrStageOp_kept (a0 : Nat) (v0 : Bytes) (s : State) (hs : Kept k0 s) :
    Kept k0 (wrStageOp a0 v0 s).2 := by
  unfold wrStageOp
  with_reducible repeat' first
    | assumption | apply stagingWrite_kept | apply modEntry_kept | apply Kept.ite | apply Kept.foldl | intro _
    | dsimp only | split

theorem execStageAdd_kept (h : DHdr) (s : State) (hs : Kept k0 s) :
    KeptO k0 (execStageAdd h s) := by
  unfold execStageAdd
  with_reducible repeat' first
    | assumption | apply KeptO.next | apply dictWriteRow_kept | apply wrStageOp_kept | intro _ | dsimp only

theorem execStageKill_kept (h : DHdr) (s : State) (hs : Kept k0 s) :
    KeptO k0 (execStageKill h s) := by
  unfold execStageKill
  with_reducible repeat' first
    | assumption | apply KeptO.next | apply dictWriteRow_kept | apply wrStageOp_kept | intro _ | dsimp only

theorem wrProgImage_kept (a0 : Nat) (v0 : Bytes) (s : State) (hs : Kept k0 s) :
    Kept k0 (wrProgImage a0 v0 s).2 := by
  unfold wrProgImage
  with_reducible repeat' first
    | assumption | apply stagingWrite_kept | apply modCls_kept | apply Kept.ite | apply Kept.foldl | intro _
    | dsimp only | split

theorem execProgramLoad_kept (h : DHdr) (v : Bytes) (s : State) (hs : Kept k0 s) :
    KeptO k0 (execProgramLoad h v s) := by
  unfold execProgramLoad
  with_reducible repeat' first
    | assumption | apply KeptO.next | apply dictWriteRow_kept | apply wrProgImage_kept | intro _ | dsimp only

theorem wrMeterStage_kept (a0 : Nat) (v0 : Bytes) (s : State) (hs : Kept k0 s) :
    Kept k0 (wrMeterStage a0 v0 s).2 := by
  unfold wrMeterStage
  with_reducible repeat' first
    | assumption | apply stagingWrite_kept | apply stageVal_kept | apply Kept.ite | intro _ | dsimp only | split

theorem execMeterStage_kept (h : DHdr) (v : Bytes) (s : State) (hs : Kept k0 s) :
    KeptO k0 (execMeterStage h v s) := by
  unfold execMeterStage
  with_reducible repeat' first
    | assumption | apply KeptO.next | apply dictWriteRow_kept | apply wrMeterStage_kept | intro _ | dsimp only

theorem wrCourseEntry_kept (idx sub : Nat) (a0 : Nat) (v0 : Bytes) (s : State) (hs : Kept k0 s) :
    Kept k0 (wrCourseEntry idx sub a0 v0 s).2 := by
  unfold wrCourseEntry
  with_reducible repeat' first
    | assumption | apply storeOwn_kept | apply stagingWrite_kept
    | refine modDict_kept (fun _ hd => ⟨hd, Nat.le_refl _⟩) ?_ | apply stageVal_kept | apply Kept.ite | intro _
    | dsimp only | split

theorem execCourseEntryStage_kept (h : DHdr) (idx : BitVec 16) (sub : BitVec 8) (v : Bytes) (s : State) (hs : Kept k0 s) :
    KeptO k0 (execCourseEntryStage h idx sub v s) := by
  unfold execCourseEntryStage
  with_reducible repeat' first
    | assumption | apply KeptO.next | apply KeptO.ite | apply dictWriteRow_kept | apply wrCourseEntry_kept
    | apply Kept.ite | intro _ | refine Kept.of_pair (by assumption) ?_ | dsimp only | split

theorem requestCommit_kept (time : Option Nat) (s : State) (hs : Kept k0 s) :
    Kept k0 (requestCommit time s) := by
  unfold requestCommit
  with_reducible repeat' first
    | assumption | apply modCls_kept | apply beginStaging_kept | dsimp only

theorem wrCommit_kept (a0 : Nat) (v0 : Bytes) (s : State) (hs : Kept k0 s) :
    Kept k0 (wrCommit a0 v0 s).2 := by
  unfold wrCommit
  with_reducible repeat' first
    | assumption | apply requestCommit_kept | apply Kept.ite | intro _ | dsimp only | split

theorem execCommit_kept (h : DHdr) (v : Bytes) (s : State) (hs : Kept k0 s) :
    KeptO k0 (execCommit h v s) := by
  unfold execCommit
  with_reducible repeat' first
    | assumption | apply KeptO.next | apply dictWriteRow_kept | apply wrCommit_kept | intro _ | dsimp only

theorem wrCommitTime_kept (a0 : Nat) (v0 : Bytes) (s : State) (hs : Kept k0 s) :
    Kept k0 (wrCommitTime a0 v0 s).2 := by
  unfold wrCommitTime
  with_reducible repeat' first
    | assumption | apply timedCount_kept | apply requestCommit_kept | apply Kept.ite | intro _ | dsimp only | split

theorem execCommitTime_kept (h : DHdr) (v : Bytes) (s : State) (hs : Kept k0 s) :
    KeptO k0 (execCommitTime h v s) := by
  unfold execCommitTime
  with_reducible repeat' first
    | assumption | apply KeptO.next | apply dictWriteRow_kept | apply wrCommitTime_kept | intro _ | dsimp only

theorem wrAbort_kept (a0 : Nat) (v0 : Bytes) (s : State) (hs : Kept k0 s) :
    Kept k0 (wrAbort a0 v0 s).2 := by
  unfold wrAbort
  with_reducible repeat' first
    | assumption | apply modCls_kept | apply bump_kept | refine modDict_kept (fun _ hd => ⟨hd, Nat.le_refl _⟩) ?_
    | apply Kept.ite | intro _ | dsimp only | split

theorem execAbort_kept (h : DHdr) (v : Bytes) (s : State) (hs : Kept k0 s) :
    KeptO k0 (execAbort h v s) := by
  unfold execAbort
  with_reducible repeat' first
    | assumption | apply KeptO.next | apply dictWriteRow_kept | apply wrAbort_kept | intro _ | dsimp only

theorem fireCommit_kept (c : Commit) (st : Nat) (late : Bool) (boundary : Nat) (s : State) (hs : Kept k0 s) :
    Kept k0 (fireCommit c st late boundary s) := by
  unfold fireCommit
  with_reducible repeat' first
    | assumption | apply modCls_kept | refine modDict_kept (fun _ hd => ⟨hd, Nat.le_refl _⟩) ?_ | apply bump_kept
    | apply Kept.ite | apply Kept.foldl | intro _ | dsimp only | split

theorem commitNow_kept (s : State) (hs : Kept k0 s) :
    Kept k0 (commitNow s) := by
  unfold commitNow
  with_reducible repeat' first
    | assumption | apply fireCommit_kept | apply modCls_kept | apply Kept.ite | intro _ | dsimp only | split

theorem execCourseCommitFire_kept (s : State) (hs : Kept k0 s) :
    KeptO k0 (execCourseCommitFire s) := by
  unfold execCourseCommitFire
  with_reducible repeat' first
    | assumption | apply KeptO.next | apply commitNow_kept | apply Kept.ite | intro _ | split

theorem execSlotCopyEnd_kept (s : State) (hs : Kept k0 s) :
    KeptO k0 (execSlotCopyEnd s) := by
  unfold execSlotCopyEnd
  with_reducible repeat' first
    | assumption | apply KeptO.next | apply KeptO.ite | apply modCls_kept | apply Kept.ite | apply Kept.foldl
    | intro _ | dsimp only

theorem execCourseSweepEnd_kept (s : State) (hs : Kept k0 s) :
    KeptO k0 (execCourseSweepEnd s) := by
  unfold execCourseSweepEnd
  with_reducible repeat' first
    | assumption | apply KeptO.next | apply KeptO.ite | apply bump_kept | apply modCls_kept | apply Kept.ite | intro _
    | dsimp only

theorem execWaitedCommitFire_kept (s : State) (hs : Kept k0 s) :
    KeptO k0 (execWaitedCommitFire s) := by
  unfold execWaitedCommitFire
  with_reducible repeat' first
    | assumption | apply KeptO.next | apply commitNow_kept | apply Kept.ite | intro _ | split

end Sys2Proof.Machine
end

