-- ==== Sys2Proof/Laws/KeptDispose.lean ====
section
/-! SUPPORT. What every operation of Machine/Dispose.lean keeps. -/

namespace Sys2Proof.Machine

variable {k0 : State}

theorem acceptUnitBrick_kept (words : List W64) (s : State) (hs : Kept k0 s) :
    Kept k0 (acceptUnitBrick words s).2.2 := by
  unfold acceptUnitBrick
  with_reducible repeat' first
    | assumption | apply acceptBrick_kept | apply drawn_kept | dsimp only

theorem placeCopy_kept (b : Bytes) (s : State) (hs : Kept k0 s) :
    Kept k0 (placeCopy b s) := by
  unfold placeCopy
  with_reducible repeat' first
    | assumption | apply drawn_kept | apply storeBytes_kept

theorem intoSlice_kept (k : Nat) (p : Pkt) (s : State) (hs : Kept k0 s) :
    Kept k0 (intoSlice k p s) := by
  unfold intoSlice
  with_reducible repeat' first
    | assumption | apply completePkt_kept | apply modZmt_kept | apply bump_kept | apply ledAccept_kept | dsimp only
    | simp only [id_eq]

theorem toSlice_kept (k : Nat) (p : Pkt) (s : State) (hs : Kept k0 s) :
    Kept k0 (toSlice k p s) := by
  unfold toSlice
  with_reducible repeat' first
    | assumption | apply intoSlice_kept | apply modPkt_kept | apply Kept.ite | intro _ | dsimp only

theorem feedSlice_kept (ts : Nat) (s : State) (hs : Kept k0 s) :
    Kept k0 (feedSlice ts s) := by
  unfold feedSlice
  with_reducible repeat' first
    | assumption | apply toSlice_kept | apply Kept.foldl | intro _ | dsimp only

theorem toTrap_kept (k : Nat) (p : Pkt) (s : State) (hs : Kept k0 s) :
    Kept k0 (toTrap k p s) := by
  unfold toTrap
  with_reducible repeat' first
    | assumption | apply failPkt_kept | apply bump_kept | apply acceptUnitBrick_kept | apply completePkt_kept
    | apply chainGone_kept | apply modBufs_kept | apply Kept.ite
    | exact chainAlloc_kept (by assumption) (by assumption) | intro _ | refine Kept.of_triple (by assumption) ?_
    | dsimp only | split

end Sys2Proof.Machine
end

