-- ==== Sys2Proof/Laws/KeptFabricPorts.lean ====
section
/-! SUPPORT. What every operation of Machine/FabricPorts.lean keeps. -/

namespace Sys2Proof.Machine

variable {k0 : State}

theorem onLcf_kept (sp : Nat) (k : State → State) (s : State) (hk : ∀  s, Kept k0 s → Kept k0 (k  s)) (hs : Kept k0 s) :
    Kept k0 (onLcf sp k s) := by
  unfold onLcf
  with_reducible repeat' first
    | assumption | apply portCount_kept | apply Kept.ite | apply hk | intro _

theorem modeSettle_kept (p : Nat) (s : State) (hs : Kept k0 s) :
    Kept k0 (modeSettle p s) := by
  unfold modeSettle
  with_reducible repeat' first
    | assumption | apply modPort_kept | apply startTraining_kept | apply Kept.ite | intro _ | dsimp only

theorem drainCheck_kept (sp : Nat) (s : State) (hs : Kept k0 s) :
    Kept k0 (drainCheck sp s) := by
  unfold drainCheck
  with_reducible repeat' first
    | assumption | apply modeSettle_kept | apply subDown_kept | apply Kept.ite | intro _ | dsimp only

theorem laneLcf_kept (sp : Nat) (s : State) (hs : Kept k0 s) :
    Kept k0 (laneLcf sp s) := by
  unfold laneLcf
  with_reducible repeat' first
    | assumption | apply sendLcf_kept | apply modSub_kept | apply Kept.ite | intro _ | dsimp only | split

theorem replayOrRetrain_kept (sp : Nat) (n : BitVec 16) (s : State) (hs : Kept k0 s) :
    Kept k0 (replayOrRetrain sp n s) := by
  unfold replayOrRetrain
  with_reducible repeat' first
    | assumption | apply replayAll_kept | apply retrain_kept | apply Kept.ite | intro _ | dsimp only

theorem onNack_kept (sp : Nat) (n : BitVec 16) (s : State) (hs : Kept k0 s) :
    Kept k0 (onNack sp n s) := by
  unfold onNack
  with_reducible repeat' first
    | assumption | apply llrAcked_kept | apply drainCheck_kept | apply replayOrRetrain_kept | apply Kept.ite | intro _
    | dsimp only

theorem onLanes_kept (sp : Nat) (lanes : BitVec 4) (restore : Bool) (s : State) (hs : Kept k0 s) :
    Kept k0 (onLanes sp lanes restore s) := by
  unfold onLanes
  with_reducible repeat' first
    | assumption | apply portCount_kept | apply linkLost_kept | apply modSub_kept | apply Kept.ite | intro _
    | dsimp only | split

theorem onShedAck_kept (sp : Nat) (lseq : BitVec 16) (s : State) (hs : Kept k0 s) :
    Kept k0 (onShedAck sp lseq s) := by
  unfold onShedAck
  with_reducible repeat' first
    | assumption | apply modSub_kept | apply llrAcked_kept | apply replayOrRetrain_kept | apply Kept.ite | intro _
    | dsimp only

theorem onCredit_kept (sp : Nat) (grants : List (BitVec 32)) (s : State) (hs : Kept k0 s) :
    Kept k0 (onCredit sp grants s) := by
  unfold onCredit
  with_reducible repeat' first
    | assumption | apply runReplay_kept | apply modSub_kept | apply Kept.ite | apply Kept.foldl | intro _ | dsimp only

theorem onSync_kept (sp : Nat) (lseq : BitVec 16) (lost : Bool) (s : State) (hs : Kept k0 s) :
    Kept k0 (onSync sp lseq lost s) := by
  unfold onSync
  with_reducible repeat' first
    | assumption | apply modSub_kept | apply failCopies_kept | apply runReplay_kept | apply llrAcked_kept
    | apply Kept.ite | intro _ | dsimp only

theorem lcfAct_kept (sp : Nat) (f : Bytes) (s : State) (hs : Kept k0 s) :
    Kept k0 (lcfAct sp f s) := by
  unfold lcfAct
  with_reducible repeat' first
    | assumption | apply onNack_kept | apply onLanes_kept | apply onShedAck_kept | apply onCredit_kept
    | apply onSync_kept | apply portCount_kept | dsimp only | split

theorem pfcReceived_kept (sp vec : Nat) (timers : List (BitVec 16)) (s : State) (hs : Kept k0 s) :
    Kept k0 (pfcReceived sp vec timers s) := by
  unfold pfcReceived
  with_reducible repeat' first
    | assumption | apply portCount_kept | apply modSub_kept | apply Kept.ite | intro _ | dsimp only

theorem endCopies_kept (k : Nat) (p : Pkt) (s : State) (hs : Kept k0 s) :
    Kept k0 (endCopies k p s) := by
  unfold endCopies
  with_reducible repeat' first
    | assumption | apply runReplay_kept | apply fillCopies_kept | apply Kept.ite | intro _ | dsimp only

theorem endOpen_kept (k : Nat) (p : Pkt) (body : Bytes) (good : Bool) (s : State) (hs : Kept k0 s) :
    Kept k0 (endOpen k p body good s) := by
  unfold endOpen
  with_reducible repeat' first
    | assumption | apply granulesFree_kept | apply ledAccept_kept | apply endCopies_kept | apply modPkt_kept
    | apply bumpBy_kept | apply toSlice_kept | apply toTrap_kept | apply completePkt_kept | apply failPkt_kept
    | apply releaseQuiet_kept | apply Kept.ite | intro _ | dsimp only | split

theorem learnRequest_kept (sp : Nat) (f : Bytes) (s : State) (hs : Kept k0 s) :
    Kept k0 (learnRequest sp f s) := by
  unfold learnRequest
  with_reducible repeat' first
    | assumption | apply bump_kept | apply modFwd_kept | apply Kept.ite | intro _ | dsimp only

theorem acceptFrame_kept (sp : Nat) (body : Bytes) (s : State) (hs : Kept k0 s) :
    Kept k0 (acceptFrame sp body s) := by
  unfold acceptFrame
  with_reducible repeat' first
    | assumption | apply bumpBy_kept | apply portCount_kept | apply pfcReceived_kept | apply endOpen_kept
    | apply learnRequest_kept | apply grantCells_kept | apply fifoPfcs_kept | apply modPort_kept
    | apply ledAccept_kept | apply Kept.ite | intro _ | dsimp only | split

theorem badFrame_kept (sp : Nat) (body : Bytes) (s : State) (hs : Kept k0 s) :
    Kept k0 (badFrame sp body s) := by
  unfold badFrame
  with_reducible repeat' first
    | assumption | apply endOpen_kept | apply portCount_kept | apply sendLcf_kept | apply modSub_kept | apply Kept.ite
    | intro _ | dsimp only | split

theorem stompedFrame_kept (sp : Nat) (body : Bytes) (s : State) (hs : Kept k0 s) :
    Kept k0 (stompedFrame sp body s) := by
  unfold stompedFrame
  with_reducible repeat' first
    | assumption | apply grantCells_kept | apply endOpen_kept | apply portCount_kept | dsimp only | split

theorem countBad_kept (sp : Nat) (f : Bytes) (s : State) (hs : Kept k0 s) :
    Kept k0 (countBad sp f s) := by
  unfold countBad
  with_reducible repeat' first
    | assumption | apply portCount_kept | split

theorem llrReceive_kept (sp : Nat) (seq : BitVec 16) (f : Bytes) (s : State) (hs : Kept k0 s) :
    Kept k0 (llrReceive sp seq f s) := by
  unfold llrReceive
  with_reducible repeat' first
    | assumption | apply badFrame_kept | apply countBad_kept | apply portCount_kept | apply endOpen_kept
    | apply modSub_kept | apply stompedFrame_kept | apply acceptFrame_kept | apply Kept.ite | intro _ | dsimp only
    | split

theorem execFrameReceive_kept (sp : Fin 16) (rx : RxLine) (frame : Bytes) (s : State) (hs : Kept k0 s) :
    KeptO k0 (execFrameReceive sp rx frame s) := by
  unfold execFrameReceive
  with_reducible repeat' first
    | assumption | apply KeptO.next | apply bumpBy_kept | apply badFrame_kept | apply countBad_kept
    | apply drainCheck_kept | apply llrAcked_kept | apply llrReceive_kept | apply lcfAct_kept | apply portCount_kept
    | apply stompedFrame_kept | apply acceptFrame_kept | apply Kept.ite | intro _ | dsimp only

theorem execPfcRefresh_kept (sp : Fin 16) (s : State) (hs : Kept k0 s) :
    KeptO k0 (execPfcRefresh sp s) := by
  unfold execPfcRefresh
  with_reducible repeat' first
    | assumption | apply KeptO.next | apply KeptO.ite | apply fifoPfc_kept | apply pfcCheck_kept | apply sendXoff_kept
    | apply Kept.ite | intro _ | dsimp only

theorem execPfcFrameReceive_kept (sp : Fin 16) (vector : BitVec 8) (timers : List (BitVec 16)) (s : State) (hs : Kept k0 s) :
    KeptO k0 (execPfcFrameReceive sp vector timers s) := by
  unfold execPfcFrameReceive
  with_reducible repeat' first
    | assumption | apply KeptO.next | apply pfcReceived_kept | apply bumpBy_kept | apply portCount_kept
    | apply Kept.ite | intro _ | split

theorem execPauseExpiry_kept (sp : Fin 16) (prio : Fin 8) (s : State) (hs : Kept k0 s) :
    KeptO k0 (execPauseExpiry sp prio s) := by
  unfold execPauseExpiry
  with_reducible repeat' first
    | assumption | apply KeptO.next | apply KeptO.ite | apply modSub_kept | apply Kept.ite | intro _ | dsimp only
    | split

theorem execCreditLcfSend_kept (sp : Fin 16) (s : State) (hs : Kept k0 s) :
    KeptO k0 (execCreditLcfSend sp s) := by
  unfold execCreditLcfSend
  with_reducible repeat' first
    | assumption | apply KeptO.next | apply KeptO.ite | apply sendLcf_kept | apply modSub_kept | apply Kept.ite
    | intro _ | dsimp only

theorem execCreditLcfReceive_kept (sp : Fin 16) (grants : List (BitVec 32)) (s : State) (hs : Kept k0 s) :
    KeptO k0 (execCreditLcfReceive sp grants s) := by
  unfold execCreditLcfReceive
  with_reducible repeat' first
    | assumption | apply KeptO.next | apply onLcf_kept | apply onCredit_kept | intro _

theorem execLlrFrameSend_kept (sp : Fin 16) (s : State) (hs : Kept k0 s) :
    KeptO k0 (execLlrFrameSend sp s) := by
  unfold execLlrFrameSend
  with_reducible repeat' first
    | assumption | apply KeptO.next | apply KeptO.ite | apply keepCopy_kept | apply modSub_kept | apply emit_kept
    | apply Kept.ite | intro _ | dsimp only | split

theorem execLlrAckReceive_kept (sp : Fin 16) (ack : BitVec 16) (s : State) (hs : Kept k0 s) :
    KeptO k0 (execLlrAckReceive sp ack s) := by
  unfold execLlrAckReceive
  with_reducible repeat' first
    | assumption | apply KeptO.next | apply onLcf_kept | apply drainCheck_kept | apply llrAcked_kept | intro _
    | dsimp only

theorem execLlrNackReceive_kept (sp : Fin 16) (n : BitVec 16) (s : State) (hs : Kept k0 s) :
    KeptO k0 (execLlrNackReceive sp n s) := by
  unfold execLlrNackReceive
  with_reducible repeat' first
    | assumption | apply KeptO.next | apply onLcf_kept | apply onNack_kept | intro _

theorem execLlrAckTimeout_kept (sp : Fin 16) (s : State) (hs : Kept k0 s) :
    KeptO k0 (execLlrAckTimeout sp s) := by
  unfold execLlrAckTimeout
  with_reducible repeat' first
    | assumption | apply KeptO.next | apply KeptO.ite | apply replayOrRetrain_kept | apply Kept.ite | intro _
    | dsimp only | split

theorem execAckLcfSend_kept (sp : Fin 16) (s : State) (hs : Kept k0 s) :
    KeptO k0 (execAckLcfSend sp s) := by
  unfold execAckLcfSend
  with_reducible repeat' first
    | assumption | apply KeptO.next | apply KeptO.ite | apply sendLcf_kept | apply Kept.ite | intro _ | dsimp only

theorem execLinkTrainingEnd_kept (sp : Fin 16) (lanes : BitVec 4) (oui : BitVec 24) (caps : BitVec 11) (s : State) (hs : Kept k0 s) :
    KeptO k0 (execLinkTrainingEnd sp lanes oui caps s) := by
  unfold execLinkTrainingEnd
  with_reducible repeat' first
    | assumption | apply KeptO.next | apply KeptO.ite | apply modPort_kept | apply portCount_kept | apply modSub_kept
    | apply failCopies_kept | apply sendLcf_kept | apply Kept.ite | apply Kept.foldl | intro _ | dsimp only

theorem execSyncReceive_kept (sp : Fin 16) (lseq : BitVec 16) (lost : Bool) (s : State) (hs : Kept k0 s) :
    KeptO k0 (execSyncReceive sp lseq lost s) := by
  unfold execSyncReceive
  with_reducible repeat' first
    | assumption | apply KeptO.next | apply onLcf_kept | apply onSync_kept | intro _

theorem execLlrHoldExpiry_kept (sp : Fin 16) (s : State) (hs : Kept k0 s) :
    KeptO k0 (execLlrHoldExpiry sp s) := by
  unfold execLlrHoldExpiry
  with_reducible repeat' first
    | assumption | apply KeptO.next | apply KeptO.ite | apply modeSettle_kept | apply subDown_kept | apply dropTx_kept
    | apply failCopies_kept | apply Kept.ite | intro _ | dsimp only | split

theorem execLaneFailureDeclare_kept (port : Fin 8) (lane : Fin 4) (lol : Bool) (s : State) (hs : Kept k0 s) :
    KeptO k0 (execLaneFailureDeclare port lane lol s) := by
  unfold execLaneFailureDeclare
  with_reducible repeat' first
    | assumption | apply KeptO.next | apply KeptO.ite | apply modPort_kept | apply linkLost_kept
    | apply portCount_kept | apply laneLcf_kept | apply modSub_kept | apply Kept.ite | intro _ | dsimp only | split

theorem execShed_kept (sp : Fin 16) (lanes : BitVec 4) (s : State) (hs : Kept k0 s) :
    KeptO k0 (execShed sp lanes s) := by
  unfold execShed
  with_reducible repeat' first
    | assumption | apply KeptO.next | apply onLcf_kept | apply onLanes_kept | intro _

theorem execReceiverLock_kept (sp : Fin 16) (s : State) (hs : Kept k0 s) :
    KeptO k0 (execReceiverLock sp s) := by
  unfold execReceiverLock
  with_reducible repeat' first
    | assumption | apply KeptO.next | apply KeptO.ite | apply sendLcf_kept | apply modSub_kept | apply Kept.ite
    | intro _ | dsimp only

theorem execShedAck_kept (sp : Fin 16) (lseq : BitVec 16) (s : State) (hs : Kept k0 s) :
    KeptO k0 (execShedAck sp lseq s) := by
  unfold execShedAck
  with_reducible repeat' first
    | assumption | apply KeptO.next | apply onLcf_kept | apply onShedAck_kept | intro _

theorem execRestoreHoldExpiry_kept (port : Fin 8) (lane : Fin 4) (s : State) (hs : Kept k0 s) :
    KeptO k0 (execRestoreHoldExpiry port lane s) := by
  unfold execRestoreHoldExpiry
  with_reducible repeat' first
    | assumption | apply KeptO.next | apply KeptO.ite | apply portCount_kept | apply laneLcf_kept | apply modSub_kept
    | apply modPort_kept | apply Kept.ite | intro _ | dsimp only

theorem execRestore_kept (sp : Fin 16) (lanes : BitVec 4) (s : State) (hs : Kept k0 s) :
    KeptO k0 (execRestore sp lanes s) := by
  unfold execRestore
  with_reducible repeat' first
    | assumption | apply KeptO.next | apply onLcf_kept | apply onLanes_kept | intro _

theorem subAdminDown_kept (sp : Nat) (s : State) (hs : Kept k0 s) :
    Kept k0 (subAdminDown sp s) := by
  unfold subAdminDown
  with_reducible repeat' first
    | assumption | apply rerouteQueues_kept | apply modSub_kept | apply subDown_kept | apply dropTx_kept
    | apply Kept.ite | intro _ | dsimp only

theorem wrPortAdmin_kept (p : Nat) (a0 : Nat) (v0 : Bytes) (s : State) (hs : Kept k0 s) :
    Kept k0 (wrPortAdmin p a0 v0 s).2 := by
  unfold wrPortAdmin
  with_reducible repeat' first
    | assumption | apply setVal_kept | apply subAdminDown_kept | apply modSub_kept | apply startTraining_kept
    | apply Kept.ite | intro _ | dsimp only | split

theorem execPortAdminWrite_kept (h : DHdr) (port : Fin 8) (v : Bytes) (s : State) (hs : Kept k0 s) :
    KeptO k0 (execPortAdminWrite h port v s) := by
  unfold execPortAdminWrite
  with_reducible repeat' first
    | assumption | apply KeptO.next | apply dictWriteRow_kept | apply wrPortAdmin_kept | intro _ | dsimp only

theorem wrPortMode_kept (p : Nat) (a0 : Nat) (v0 : Bytes) (s : State) (hs : Kept k0 s) :
    Kept k0 (wrPortMode p a0 v0 s).2 := by
  unfold wrPortMode
  with_reducible repeat' first
    | assumption | apply modPort_kept | apply setVal_kept | apply modeSettle_kept | apply subAdminDown_kept
    | dsimp only

theorem execPortModeWrite_kept (h : DHdr) (port : Fin 8) (v : Bytes) (s : State) (hs : Kept k0 s) :
    KeptO k0 (execPortModeWrite h port v s) := by
  unfold execPortModeWrite
  with_reducible repeat' first
    | assumption | apply KeptO.next | apply dictWriteRow_kept | apply wrPortMode_kept | intro _ | dsimp only

theorem execLinkLoss_kept (sp : Fin 16) (s : State) (hs : Kept k0 s) :
    KeptO k0 (execLinkLoss sp s) := by
  unfold execLinkLoss
  with_reducible repeat' first
    | assumption | apply KeptO.next | apply linkLost_kept | apply Kept.ite | intro _ | split

end Sys2Proof.Machine
end

