-- ==== Sys2Proof/Laws/KeptEgress.lean ====
section
/-! SUPPORT. What every operation of Machine/Egress.lean keeps. -/

namespace Sys2Proof.Machine

variable {k0 : State}

theorem sendCtl_kept (sp kind : Nat) (b : Bytes) (s : State) (hs : Kept k0 s) :
    Kept k0 (sendCtl sp kind b s) := by
  unfold sendCtl
  with_reducible repeat' first
    | assumption | apply modFab_kept | apply modSub_kept | apply modClk_kept | apply Kept.ite | intro _ | dsimp only

theorem ceMark_kept (sp tc k : Nat) (s : State) (hs : Kept k0 s) :
    Kept k0 (ceMark sp tc k s) := by
  unfold ceMark
  with_reducible repeat' first
    | assumption | apply drawn_kept | apply portCount_kept | apply modPkt_kept | apply Kept.ite | intro _ | dsimp only
    | split

theorem startPkt_kept (sp tc k : Nat) (p : Pkt) (s : State) (hs : Kept k0 s) :
    Kept k0 (startPkt sp tc k p s) := by
  unfold startPkt
  with_reducible repeat' first
    | assumption | apply ceMark_kept | apply modQueue_kept | apply modPkt_kept | apply modSub_kept | apply bump_kept
    | apply Kept.ite | intro _ | dsimp only | split

theorem execEgressDequeue_kept (sp : Fin 16) (s : State) (hs : Kept k0 s) :
    KeptO k0 (execEgressDequeue sp s) := by
  unfold execEgressDequeue
  with_reducible repeat' first
    | assumption | apply KeptO.next | apply KeptO.ite | apply sendCtl_kept | apply startPkt_kept | apply modFab_kept
    | apply Kept.ite | intro _ | dsimp only | split

theorem execPacketLastByteSent_kept (sp : Fin 16) (s : State) (hs : Kept k0 s) :
    KeptO k0 (execPacketLastByteSent sp s) := by
  unfold execPacketLastByteSent
  with_reducible repeat' first
    | assumption | apply KeptO.next | apply KeptO.ite | apply modSub_kept | apply emit_kept | apply bumpBy_kept
    | apply portCount_kept | apply fillCopies_kept | apply drainCheck_kept | apply laneLcf_kept | apply purgePkt_kept
    | apply releaseQuiet_kept | apply completePkt_kept | apply Kept.ite | intro _ | dsimp only | split

end Sys2Proof.Machine
end

