-- ==== Sys2Proof/Laws/KeptClassify.lean ====
section
/-! SUPPORT. What every operation of Machine/Classify.lean keeps. -/

namespace Sys2Proof.Machine

variable {k0 : State}

theorem modOrder_kept (pl : Nat) (f : List Nat → List Nat) (s : State) (hs : Kept k0 s) :
    Kept k0 (modOrder pl f s) := by
  unfold modOrder
  with_reducible repeat' first
    | assumption | apply modFab_kept | dsimp only

theorem dropPkt_kept (k pl : Nat) (reason sub : Nat) (s : State) (hs : Kept k0 s) :
    Kept k0 (dropPkt k pl reason sub s) := by
  unfold dropPkt
  with_reducible repeat' first
    | assumption | apply failPkt_kept | apply bump_kept

theorem dispose_kept (k pl : Nat) (s : State) (hs : Kept k0 s) :
    Kept k0 (dispose k pl s) := by
  unfold dispose
  with_reducible repeat' first
    | assumption | apply modPkt_kept | apply toSlice_kept | apply toTrap_kept | apply dropPkt_kept | apply Kept.ite
    | intro _ | dsimp only | split

theorem colorAct_kept (k pl act : Nat) (s : State) (hs : Kept k0 s) :
    Kept k0 (colorAct k pl act s) := by
  unfold colorAct
  with_reducible repeat' first
    | assumption | apply dispose_kept | apply modPkt_kept | apply dropPkt_kept | dsimp only | split

theorem meterPkt_kept (k pl b : Nat) (p : Pkt) (s : State) (hs : Kept k0 s) :
    Kept k0 (meterPkt k pl b p s) := by
  unfold meterPkt
  with_reducible repeat' first
    | assumption | apply modCls_kept | apply modPkt_kept | apply bump_kept | apply colorAct_kept | apply Kept.ite
    | intro _ | dsimp only | split

theorem applyAction_kept (k pl : Nat) (s : State) (hs : Kept k0 s) :
    Kept k0 (applyAction k pl s) := by
  unfold applyAction
  with_reducible repeat' first
    | assumption | apply modPkt_kept | apply modOrder_kept | apply meterPkt_kept | apply bump_kept
    | apply dispose_kept | apply Kept.ite | intro _ | dsimp only | split

theorem applyDefault_kept (k pl reason : Nat) (p : Pkt) (s : State) (hs : Kept k0 s) :
    Kept k0 (applyDefault k pl reason p s) := by
  unfold applyDefault
  with_reducible repeat' first
    | assumption | apply applyAction_kept | apply modPkt_kept | dsimp only

theorem searchPkt_kept (k pl : Nat) (p : Pkt) (s : State) (hs : Kept k0 s) :
    Kept k0 (searchPkt k pl p s) := by
  unfold searchPkt
  with_reducible repeat' first
    | assumption | apply applyAction_kept | apply modPkt_kept | apply applyDefault_kept | apply bump_kept | dsimp only
    | split

theorem classifyHead_kept (k pl : Nat) (p : Pkt) (s : State) (hs : Kept k0 s) :
    Kept k0 (classifyHead k pl p s) := by
  unfold classifyHead
  with_reducible repeat' first
    | assumption | apply bump_kept | apply modPkt_kept | apply searchPkt_kept | apply applyDefault_kept
    | apply Kept.ite | intro _ | dsimp only

theorem flushFailed_kept {n : Nat} : ∀ {pl : Nat} {s : State}, Kept k0 s → Kept k0 (flushFailed n pl s) := by
  induction n with
  | zero => intro pl s h; exact h
  | succ n ih =>
    intro pl s h
    unfold flushFailed
    split
    · exact h
    · split
      · exact Kept.ite (fun _ => ih (classifyHead_kept _ _ _ _ h)) (fun _ => h)
      · exact h

theorem flushHeads_kept (pl : Nat) (s : State) (hs : Kept k0 s) :
    Kept k0 (flushHeads pl s) := by
  unfold flushHeads
  with_reducible repeat' first
    | assumption | apply flushFailed_kept

theorem endParse_kept (k pl : Nat) (o : ParseOut) (s : State) (hs : Kept k0 s) :
    Kept k0 (endParse k pl o s) := by
  unfold endParse
  with_reducible repeat' first
    | assumption | apply modPkt_kept | apply bump_kept | apply flushHeads_kept | apply Kept.ite | intro _ | dsimp only
    | split

theorem enterPkt_kept (sp e : Nat) (b : Bytes) (complete : Bool) (s : State) (hs : Kept k0 s) :
    Kept k0 (enterPkt sp e b complete s) := by
  unfold enterPkt
  with_reducible repeat' first
    | assumption | apply modFab_kept | apply modCls_kept | apply modOrder_kept | apply endParse_kept | apply Kept.ite
    | intro _ | dsimp only

theorem execFrameEnterPipeline_kept (sp : Fin 16) (head : Bytes) (s : State) (hs : Kept k0 s) :
    KeptO k0 (execFrameEnterPipeline sp head s) := by
  unfold execFrameEnterPipeline
  with_reducible repeat' first
    | assumption | apply KeptO.next | apply KeptO.ite | apply fifoPfcs_kept | apply enterPkt_kept | apply modPort_kept
    | apply Kept.ite | intro _ | dsimp only | split

theorem execParseEnd_kept (pl : Fin 8) (engine : Fin 24) (s : State) (hs : Kept k0 s) :
    KeptO k0 (execParseEnd pl engine s) := by
  unfold execParseEnd
  with_reducible repeat' first
    | assumption | apply KeptO.next | apply KeptO.ite | apply endParse_kept | apply Kept.ite | intro _ | dsimp only
    | split

theorem execParseBudgetExpiry_kept (pl : Fin 8) (engine : Fin 24) (s : State) (hs : Kept k0 s) :
    KeptO k0 (execParseBudgetExpiry pl engine s) := by
  unfold execParseBudgetExpiry
  with_reducible repeat' first
    | assumption | apply KeptO.next | apply KeptO.ite | apply endParse_kept | apply Kept.ite | intro _ | dsimp only
    | split

theorem execClassifierSearch_kept (pl : Fin 8) (s : State) (hs : Kept k0 s) :
    KeptO k0 (execClassifierSearch pl s) := by
  unfold execClassifierSearch
  with_reducible repeat' first
    | assumption | apply KeptO.next | apply KeptO.ite | apply flushHeads_kept | apply classifyHead_kept
    | apply Kept.ite | intro _ | split

theorem execMeterLengthRelease_kept (pl : Fin 8) (s : State) (hs : Kept k0 s) :
    KeptO k0 (execMeterLengthRelease pl s) := by
  unfold execMeterLengthRelease
  with_reducible repeat' first
    | assumption | apply KeptO.next | apply KeptO.ite | apply flushHeads_kept | apply meterPkt_kept
    | apply modOrder_kept | apply Kept.ite | intro _ | dsimp only | split

theorem execFenceRelease_kept (s : State) (hs : Kept k0 s) :
    KeptO k0 (execFenceRelease s) := by
  unfold execFenceRelease
  with_reducible repeat' first
    | assumption | apply KeptO.next | apply KeptO.ite | apply flushHeads_kept | apply classifyHead_kept
    | apply modCls_kept | apply Kept.ite | apply Kept.foldl | intro _ | dsimp only | split

end Sys2Proof.Machine
end

