-- ==== Sys2Proof/Laws/KeptImage.lean ====
section
/-! SUPPORT. What every operation of Machine/Image.lean keeps. -/

namespace Sys2Proof.Machine

variable {k0 : State}

theorem flashWrite_kept (a : Nat) (v : Bytes) (s : State) (hs : Kept k0 s) :
    Kept k0 (flashWrite a v s) := by
  unfold flashWrite
  with_reducible repeat' first
    | assumption | apply modDbg_kept | apply Kept.foldl | intro _ | dsimp only

theorem putCode_kept (a : Nat) (code : Bytes) (s : State) (hs : Kept k0 s) :
    Kept k0 (putCode a code s) := by
  unfold putCode
  with_reducible repeat' first
    | assumption | apply memPutWord_kept | apply Kept.foldl | intro _ | dsimp only

theorem loadTile_kept (img : Nat) (code : Bytes) (s : State) (tile : Nat) (hs : Kept k0 s) :
    Kept k0 (loadTile img code s tile) := by
  unfold loadTile
  with_reducible repeat' first
    | assumption | apply putCode_kept | apply memZero_kept | dsimp only

theorem loadImage_kept (img slot : Nat) (code : Bytes) (s : State) (hs : Kept k0 s) :
    Kept k0 (loadImage img slot code s) := by
  unfold loadImage
  with_reducible repeat' first
    | assumption | apply modDbg_kept | apply loadTile_kept | apply Kept.foldl | intro _ | dsimp only

theorem reloadTile_kept (tile : Nat) (s : State) (hs : Kept k0 s) :
    Kept k0 (reloadTile tile s) := by
  unfold reloadTile
  with_reducible repeat' first
    | assumption | apply loadTile_kept

theorem loadCourse_kept (c : Config.ImageCourse) (s : State) (hs : Kept k0 s) :
    Kept k0 (loadCourse c s) := by
  unfold loadCourse
  with_reducible repeat' first
    | assumption | apply modCls_kept | apply beginStaging_kept | apply stageVal_kept | apply fireCommit_kept
    | apply Kept.ite | apply Kept.foldl | intro _ | dsimp only | split

theorem loadValues_kept (slot : Nat) (s : State) (hs : Kept k0 s) :
    Kept k0 (loadValues slot s) := by
  unfold loadValues
  with_reducible repeat' first
    | assumption | apply setVal_kept | apply Kept.foldl | intro _ | dsimp only

end Sys2Proof.Machine
end

