-- ==== Sys2Proof/Laws/KeptDomReset.lean ====
section
/-! SUPPORT. What every operation of Machine/DomReset.lean keeps. -/

namespace Sys2Proof.Machine

variable {k0 : State}

theorem losePair_kept (d : Nat) (s : State) (hs : Kept k0 s) :
    Kept k0 (losePair d s) := by
  unfold losePair
  with_reducible repeat' first
    | assumption | apply modThr_kept | apply modCpu_kept | apply memZero_kept | apply Kept.ite | apply Kept.foldl
    | intro _ | dsimp only

theorem tileImage_kept (tile : Nat) (s : State) (hs : Kept k0 s) :
    Kept k0 (tileImage tile s) := by
  unfold tileImage
  with_reducible repeat' first
    | assumption | apply modTile_kept | dsimp only

theorem ageImage_kept (s : State) (hs : Kept k0 s) :
    Kept k0 (ageImage s) := by
  unfold ageImage
  with_reducible repeat' first
    | assumption | apply modFwd_kept | dsimp only

theorem loseTile_kept (tile : Nat) (night : Bool) (s : State) (hs : Kept k0 s) :
    Kept k0 (loseTile tile night s) := by
  unfold loseTile
  with_reducible repeat' first
    | assumption | apply memZero_kept | apply modDbg_kept | apply modCops_kept | apply modCpu_kept
    | apply tileImage_kept | apply modDom_kept | apply Kept.foldl | intro _ | dsimp only

theorem losePort_kept (p : Nat) (s : State) (hs : Kept k0 s) :
    Kept k0 (losePort p s) := by
  unfold losePort
  with_reducible repeat' first
    | assumption | apply modFab_kept | apply modCls_kept | dsimp only

theorem loseStack_kept (k : Nat) (s : State) (hs : Kept k0 s) : Kept k0 (loseStack k s) := by
  unfold loseStack
  refine modHbm_kept (modMem_kept (fun m hm => ?_) hs)
  simp only [Mem.wf, Bool.and_eq_true] at hm ⊢
  exact ⟨twf_tfilter _ hm.1, twf_tfilter _ hm.2⟩

theorem loseEndpoints_kept (s : State) (hs : Kept k0 s) :
    Kept k0 (loseEndpoints s) := by
  unfold loseEndpoints
  with_reducible repeat' first
    | assumption | apply modZmt_kept | apply modFwd_kept | dsimp only

theorem loseHeads_kept (s : State) (hs : Kept k0 s) :
    Kept k0 (loseHeads s) := by
  unfold loseHeads
  with_reducible repeat' first
    | assumption | apply modDbg_kept | apply modLocks_kept | apply modSched_kept | apply modZmt_kept | dsimp only

theorem loseMetadata_kept (k : Nat) (s : State) (hs : Kept k0 s) :
    Kept k0 (loseMetadata k s) := by
  unfold loseMetadata
  with_reducible repeat' first
    | assumption | apply modHbm_kept | apply modBufs_kept | apply loseEndpoints_kept | apply loseHeads_kept
    | apply Kept.ite | intro _ | dsimp only | split

theorem loseDomain_kept (d : Nat) (night : Bool) (s : State) (hs : Kept k0 s) :
    Kept k0 (loseDomain d night s) := by
  unfold loseDomain
  with_reducible repeat' first
    | assumption | apply loseTile_kept | apply losePair_kept | apply losePort_kept | apply stackSelfRefresh_kept
    | apply stackDrain_kept | apply loseMetadata_kept | apply loseStack_kept | apply modCls_kept | apply modMat_kept
    | apply ageImage_kept | apply modFwd_kept | apply modHost_kept | apply modBufs_kept | apply modLocks_kept
    | apply modSched_kept | apply Kept.ite | intro _ | dsimp only | split

theorem dawnReset_kept (s : State) (hs : Kept k0 s) : Kept k0 (dawnReset s) := by
  have hm := hs.inv.mem
  simp only [Mem.wf, Bool.and_eq_true] at hm
  refine ⟨⟨?_, fun r => by simp [dawnReset, ledRow, LRow.balanced], hs.inv.fuses⟩, hs.pending, hs.out, hs.free, hs.fuses⟩
  simp only [dawnReset, Mem.wf, Bool.and_eq_true]
  exact ⟨twf_tfilter _ hm.1, twf_tfilter _ hm.2⟩

theorem dawnStart_kept (s : State) (hs : Kept k0 s) :
    Kept k0 (dawnStart s) := by
  unfold dawnStart
  with_reducible repeat' first
    | assumption | apply bump_kept | apply modDbg_kept | apply dawnReset_kept | dsimp only

end Sys2Proof.Machine
end

