-- ==== Sys2Proof/Laws/KeptDawn.lean ====
section
/-! SUPPORT. What every operation of Machine/Dawn.lean keeps. -/

namespace Sys2Proof.Machine

variable {k0 : State}

theorem strapped_kept (bootSel cpos : BitVec 2) (why : Nat) (s : State) (hs : Kept k0 s) :
    Kept k0 (strapped bootSel cpos why s) := by
  unfold strapped
  with_reducible repeat' first
    | assumption | apply modDbg_kept | dsimp only

theorem execPwrGoodRise_kept (bootSel cpos : BitVec 2) (s : State) (hs : Kept k0 s) :
    KeptO k0 (execPwrGoodRise bootSel cpos s) := by
  unfold execPwrGoodRise
  with_reducible repeat' first
    | assumption | apply KeptO.next | apply modPower_kept | apply strapped_kept | apply modClk_kept
    | apply modDbg_kept | apply Kept.ite | intro _ | dsimp only | split

theorem execPwrGoodFall_kept (s : State) (hs : Kept k0 s) : KeptO k0 (execPwrGoodFall s) :=
  ⟨⟨rfl, fun r => by simp [ledRow, LRow.balanced], hs.inv.fuses⟩, hs.pending, hs.out, hs.free, hs.fuses⟩

theorem execResetNAssert_kept (bootSel cpos : BitVec 2) (s : State) (hs : Kept k0 s) :
    KeptO k0 (execResetNAssert bootSel cpos s) := by
  unfold execResetNAssert
  with_reducible repeat' first
    | assumption | apply KeptO.next | apply strapped_kept | apply dawnStart_kept | apply Kept.ite | intro _ | split

theorem phaseNext_kept (s : State) (hs : Kept k0 s) :
    Kept k0 (phaseNext s) := by
  unfold phaseNext
  with_reducible repeat' first
    | assumption | apply modDbg_kept | dsimp only

theorem tryImages_kept {l : List Nat} : ∀ {s : State}, Kept k0 s → Kept k0 (tryImages l s).2 := by
  induction l with
  | nil => intro s h; exact h
  | cons r t ih =>
    intro s h
    unfold tryImages
    split
    · exact h
    · exact ih (Kept.ite (fun _ => bump_kept _ _ _ h) (fun _ => bump_kept _ _ _ (bump_kept _ _ _ h)))

theorem dawn0End_kept (s : State) (hs : Kept k0 s) :
    Kept k0 (dawn0End s) := by
  unfold dawn0End
  with_reducible repeat' first
    | assumption | apply memZero_kept | apply bump_kept | apply modDbg_kept | apply phaseNext_kept | apply Kept.ite
    | intro _ | dsimp only

theorem dawn1End_kept (s : State) (hs : Kept k0 s) :
    Kept k0 (dawn1End s) := by
  unfold dawn1End
  with_reducible repeat' first
    | assumption | refine modDict_kept (fun _ hd => ⟨hd, Nat.le_refl _⟩) ?_ | apply tryImages_kept
    | apply putCode_kept | apply loadValues_kept | apply phaseNext_kept | apply modDbg_kept | apply emit_kept
    | apply Kept.ite | apply Kept.foldl | intro _ | refine Kept.of_pair (by assumption) ?_ | dsimp only | split

theorem dawn2End_kept (trained : BitVec 4) (s : State) (hs : Kept k0 s) :
    Kept k0 (dawn2End trained s) := by
  unfold dawn2End
  with_reducible repeat' first
    | assumption | apply modHbm_kept | apply loadImage_kept | apply loadCourse_kept | apply phaseNext_kept
    | apply modCls_kept | apply Kept.ite | apply Kept.foldl | intro _ | dsimp only | split

theorem dawn3End_kept (s : State) (hs : Kept k0 s) :
    Kept k0 (dawn3End s) := by
  unfold dawn3End
  with_reducible repeat' first
    | assumption | apply ageImage_kept | apply tileImage_kept | apply modDom_kept | apply phaseNext_kept
    | apply startTraining_kept | apply Kept.ite | apply Kept.foldl | intro _ | dsimp only

theorem execDawnPhaseEnd_kept (trained : BitVec 4) (s : State) (hs : Kept k0 s) :
    KeptO k0 (execDawnPhaseEnd trained s) := by
  unfold execDawnPhaseEnd
  with_reducible repeat' first
    | assumption | apply KeptO.next | apply dawn0End_kept | apply dawn1End_kept | apply dawn2End_kept
    | apply dawn3End_kept | apply phaseNext_kept | apply Kept.ite | intro _ | split

theorem execDawn4Timeout_kept (s : State) (hs : Kept k0 s) :
    KeptO k0 (execDawn4Timeout s) := by
  unfold execDawn4Timeout
  with_reducible repeat' first
    | assumption | apply KeptO.next | apply phaseNext_kept | apply Kept.ite | intro _ | split

theorem wrImageLoad_kept (a0 : Nat) (v0 : Bytes) (s : State) (hs : Kept k0 s) :
    Kept k0 (wrImageLoad a0 v0 s).2 := by
  unfold wrImageLoad
  with_reducible repeat' first
    | assumption | apply modDbg_kept | apply Kept.ite | intro _ | dsimp only | split

theorem execImageLoad_kept (h : DHdr) (v : Bytes) (s : State) (hs : Kept k0 s) :
    KeptO k0 (execImageLoad h v s) := by
  unfold execImageLoad
  with_reducible repeat' first
    | assumption | apply KeptO.next | apply dictWriteRow_kept | apply wrImageLoad_kept | intro _ | dsimp only

theorem doSwap_kept (back : Bool) (s : State) (hs : Kept k0 s) :
    Kept k0 (doSwap back s) := by
  unfold doSwap
  with_reducible repeat' first
    | assumption | apply setVal_kept | apply bump_kept | apply modDbg_kept | apply Kept.ite | apply Kept.foldl
    | intro _ | dsimp only | split

theorem fireSwap_kept (back : Bool) (s : State) (hs : Kept k0 s) :
    Kept k0 (fireSwap back s) := by
  unfold fireSwap
  with_reducible repeat' first
    | assumption | apply modDbg_kept | apply doSwap_kept | apply Kept.ite | intro _ | dsimp only

theorem execImageLoadEnd_kept (err : Bool) (s : State) (hs : Kept k0 s) :
    KeptO k0 (execImageLoadEnd err s) := by
  unfold execImageLoadEnd
  with_reducible repeat' first
    | assumption | apply KeptO.next | apply modDbg_kept | apply bump_kept | apply loadImage_kept | apply doSwap_kept
    | apply Kept.ite | intro _ | dsimp only | split

theorem wrImageChunk_kept (a0 : Nat) (v0 : Bytes) (s : State) (hs : Kept k0 s) :
    Kept k0 (wrImageChunk a0 v0 s).2 := by
  unfold wrImageChunk
  with_reducible repeat' first
    | assumption | apply modDbg_kept | apply flashWrite_kept | apply Kept.ite | intro _ | dsimp only | split

theorem execImageChunk_kept (h : DHdr) (v : Bytes) (s : State) (hs : Kept k0 s) :
    KeptO k0 (execImageChunk h v s) := by
  unfold execImageChunk
  with_reducible repeat' first
    | assumption | apply KeptO.next | apply dictWriteRow_kept | apply wrImageChunk_kept | intro _ | dsimp only

theorem wrSwap_kept (a0 : Nat) (v0 : Bytes) (s : State) (hs : Kept k0 s) :
    Kept k0 (wrSwap a0 v0 s).2 := by
  unfold wrSwap
  with_reducible repeat' first
    | assumption | apply fireSwap_kept | apply Kept.ite | intro _ | dsimp only | split

theorem execSwap_kept (h : DHdr) (v : Bytes) (s : State) (hs : Kept k0 s) :
    KeptO k0 (execSwap h v s) := by
  unfold execSwap
  with_reducible repeat' first
    | assumption | apply KeptO.next | apply dictWriteRow_kept | apply wrSwap_kept | intro _ | dsimp only

theorem wrSwapTime_kept (a0 : Nat) (v0 : Bytes) (s : State) (hs : Kept k0 s) :
    Kept k0 (wrSwapTime a0 v0 s).2 := by
  unfold wrSwapTime
  with_reducible repeat' first
    | assumption | apply timedCount_kept | apply modDbg_kept | apply Kept.ite | intro _ | dsimp only | split

theorem execSwapTime_kept (h : DHdr) (v : Bytes) (s : State) (hs : Kept k0 s) :
    KeptO k0 (execSwapTime h v s) := by
  unfold execSwapTime
  with_reducible repeat' first
    | assumption | apply KeptO.next | apply dictWriteRow_kept | apply wrSwapTime_kept | intro _ | dsimp only

theorem swapNow_kept (s : State) (hs : Kept k0 s) :
    Kept k0 (swapNow s) := by
  unfold swapNow
  with_reducible repeat' first
    | assumption | apply modDbg_kept | apply fireSwap_kept | apply bump_kept | apply Kept.ite | intro _ | dsimp only
    | split

theorem execSwapFire_kept (s : State) (hs : Kept k0 s) :
    KeptO k0 (execSwapFire s) := by
  unfold execSwapFire
  with_reducible repeat' first
    | assumption | apply KeptO.next | apply swapNow_kept | apply Kept.ite | intro _ | split

theorem wrRollback_kept (a0 : Nat) (v0 : Bytes) (s : State) (hs : Kept k0 s) :
    Kept k0 (wrRollback a0 v0 s).2 := by
  unfold wrRollback
  with_reducible repeat' first
    | assumption | apply fireSwap_kept | apply Kept.ite | intro _ | dsimp only | split

theorem execRollback_kept (h : DHdr) (v : Bytes) (s : State) (hs : Kept k0 s) :
    KeptO k0 (execRollback h v s) := by
  unfold execRollback
  with_reducible repeat' first
    | assumption | apply KeptO.next | apply dictWriteRow_kept | apply wrRollback_kept | intro _ | dsimp only

theorem wrDeviceReset_kept (a0 : Nat) (v0 : Bytes) (s : State) (hs : Kept k0 s) :
    Kept k0 (wrDeviceReset a0 v0 s).2 := by
  unfold wrDeviceReset
  with_reducible repeat' first
    | assumption | apply modDbg_kept | apply Kept.ite | intro _ | dsimp only | split

theorem takeReset_kept (s : State) (hs : Kept k0 s) :
    Kept k0 (takeReset s) := by
  unfold takeReset
  with_reducible repeat' first
    | assumption | apply strapped_kept | apply dawnStart_kept | apply Kept.ite | intro _

theorem execDeviceReset_kept (h : DHdr) (v : Bytes) (s : State) (hs : Kept k0 s) :
    KeptO k0 (execDeviceReset h v s) := by
  unfold execDeviceReset
  with_reducible repeat' first
    | assumption | apply KeptO.next | apply takeReset_kept | apply dictWriteRow_kept | apply wrDeviceReset_kept
    | intro _ | dsimp only

end Sys2Proof.Machine
end

