-- ==== Sys2Proof/Laws/KeptThreadOps.lean ====
section
/-! SUPPORT. What every operation of Machine/ThreadOps.lean keeps. -/

namespace Sys2Proof.Machine

variable {k0 : State}

theorem freezeTrigger_kept (cause : Nat) (s : State) (hs : Kept k0 s) :
    Kept k0 (freezeTrigger cause s) := by
  unfold freezeTrigger
  with_reducible repeat' first
    | assumption | apply bump_kept | apply modDbg_kept | apply Kept.ite | intro _ | dsimp only

theorem freezeEvent_kept (b : Nat) (s : State) (hs : Kept k0 s) :
    Kept k0 (freezeEvent b s) := by
  unfold freezeEvent
  with_reducible repeat' first
    | assumption | apply freezeTrigger_kept | apply Kept.ite | intro _

theorem tracePut_kept (t : Nat) (rec : Bytes) (s : State) (hs : Kept k0 s) :
    Kept k0 (tracePut t rec s) := by
  unfold tracePut
  with_reducible repeat' first
    | assumption | apply modDbg_kept | apply Kept.ite | intro _ | dsimp only

theorem enterEvent_kept (t cls cause slot spc : Nat) (s : State) (hs : Kept k0 s) :
    Kept k0 (enterEvent t cls cause slot spc s) := by
  unfold enterEvent
  with_reducible repeat' first
    | assumption | apply tracePut_kept | apply modThr_kept | apply Kept.ite | intro _ | dsimp only | split

theorem doubleFault_kept (t : Nat) (s : State) (hs : Kept k0 s) :
    Kept k0 (doubleFault t s) := by
  unfold doubleFault
  with_reducible repeat' first
    | assumption | apply freezeEvent_kept | apply bumpTile_kept | apply modThr_kept | apply resetThread_kept
    | apply endBrick_kept | apply Kept.ite | intro _ | dsimp only | split

theorem countFault_kept (t cause : Nat) (shadow : Bool) (s : State) (hs : Kept k0 s) :
    Kept k0 (countFault t cause shadow s) := by
  unfold countFault
  with_reducible repeat' first
    | assumption | apply bumpTile_kept | apply Kept.ite | intro _ | dsimp only | split

theorem takeFault_kept (t cause spc : Nat) (s : State) (hs : Kept k0 s) :
    Kept k0 (takeFault t cause spc s) := by
  unfold takeFault
  with_reducible repeat' first
    | assumption | apply countFault_kept | apply doubleFault_kept | apply bumpTile_kept | apply enterEvent_kept
    | apply Kept.ite | intro _ | dsimp only

theorem faultAt_kept (t cause : Nat) (s : State) (hs : Kept k0 s) :
    Kept k0 (faultAt t cause s) := by
  unfold faultAt
  with_reducible repeat' first
    | assumption | apply takeFault_kept

theorem faultAddr_kept (t cause ea : Nat) (s : State) (hs : Kept k0 s) :
    Kept k0 (faultAddr t cause ea s) := by
  unfold faultAddr
  with_reducible repeat' first
    | assumption | apply faultAt_kept | apply modThr_kept | dsimp only

theorem faultInst_kept (t cause : Nat) (w : BitVec 36) (s : State) (hs : Kept k0 s) :
    Kept k0 (faultInst t cause w s) := by
  unfold faultInst
  with_reducible repeat' first
    | assumption | apply faultAt_kept | apply modThr_kept | dsimp only

theorem commitCpx_kept (t : Nat) (s : State) (hs : Kept k0 s) :
    Kept k0 (commitCpx t s) := by
  unfold commitCpx
  with_reducible repeat' first
    | assumption | apply bumpTile_kept | apply modThr_kept | apply Kept.ite | intro _

theorem issue_kept (t cls rd : Nat) (regs : List Nat) (ea : Nat) (s : State) (hs : Kept k0 s) :
    Kept k0 (issue t cls rd regs ea s) := by
  unfold issue
  with_reducible repeat' first
    | assumption | apply commitCpx_kept | apply bumpTile_kept | apply bumpBy_kept | apply tracePut_kept
    | apply modThr_kept | apply Kept.ite | intro _ | dsimp only | split

theorem retire_kept (t : Nat) (pc : BitVec 17) (s : State) (hs : Kept k0 s) :
    Kept k0 (retire t pc s) := by
  unfold retire
  with_reducible repeat' first
    | assumption | apply bumpTile_kept | apply modThr_kept | dsimp only

theorem runWrite_kept (t cls rd : Nat) (regs : List Nat) (v : W72) (s : State) (hs : Kept k0 s) :
    Kept k0 (runWrite t cls rd regs v s) := by
  unfold runWrite
  with_reducible repeat' first
    | assumption | apply retire_kept | apply setReg_kept | apply issue_kept | apply Kept.ite | intro _

theorem runIns_kept (t cls rd : Nat) (regs : List Nat) (body : State → State) (s : State) (hbody : ∀  s, Kept k0 s → Kept k0 (body  s)) (hs : Kept k0 s) :
    Kept k0 (runIns t cls rd regs body s) := by
  unfold runIns
  with_reducible repeat' first
    | assumption | apply issue_kept | apply Kept.ite | apply hbody | intro _

theorem runPriv_kept (t cls rd : Nat) (regs : List Nat) (body : State → State) (s : State) (hbody : ∀  s, Kept k0 s → Kept k0 (body  s)) (hs : Kept k0 s) :
    Kept k0 (runPriv t cls rd regs body s) := by
  unfold runPriv
  with_reducible repeat' first
    | assumption | apply runIns_kept | apply faultAt_kept | apply Kept.ite | apply hbody | intro _ | dsimp only

end Sys2Proof.Machine
end

