-- ==== Sys2Proof/Laws/KeptIkSys.lean ====
section
/-! SUPPORT. What every operation of Machine/IkSys.lean keeps. -/

namespace Sys2Proof.Machine

variable {k0 : State}

theorem chget_kept (t : Nat) (s : State) (hs : Kept k0 s) : Kept k0 (chget t s).2 := by
  unfold chget
  dsimp only
  split
  · split
    · exact modThr_kept _ _ _ hs
    · rename_i k s1 heq
      have h1 : Kept k0 s1 := by
        repeat' (first | (cases heq; done) | (cases heq; first | exact hs | exact modThr_kept _ _ _ (modChan_kept _ _ _ _ hs)) | split at heq)
      split
      · exact modThr_kept _ _ _ (modChan_kept _ _ _ _ h1)
      · exact h1
  · exact modThr_kept _ _ _ hs

theorem chput_kept (t : Nat) (v : W72) (done : Bool) (s : State) (hs : Kept k0 s) :
    Kept k0 (chput t v done s) := by
  unfold chput
  with_reducible repeat' first
    | assumption | apply bumpTile_kept | apply modThr_kept | apply modChan_kept | apply Kept.ite | intro _
    | dsimp only | split

theorem srWrite_kept (t i : Nat) (w : W72) (s : State) (hs : Kept k0 s) :
    Kept k0 (srWrite t i w s) := by
  unfold srWrite
  with_reducible repeat' first
    | assumption | apply modThr_kept | apply chput_kept | apply Kept.ite | intro _ | dsimp only | split

theorem execGetsr_kept (t : Fin 776) (rd : Fin 32) (idx : Fin 256) (s : State) (hs : Kept k0 s) :
    KeptO k0 (execGetsr t rd idx s) := by
  unfold execGetsr
  with_reducible repeat' first
    | assumption | apply KeptO.next | apply runIns_kept | apply faultInst_kept | apply faultAt_kept | apply chget_kept
    | apply retire_kept | apply setReg_kept | apply commitCpx_kept | apply Kept.ite | intro _ | dsimp only

theorem execSetsr_kept (t : Fin 776) (ra : Fin 32) (idx : Fin 256) (s : State) (hs : Kept k0 s) :
    KeptO k0 (execSetsr t ra idx s) := by
  unfold execSetsr
  with_reducible repeat' first
    | assumption | apply KeptO.next | apply runIns_kept | apply faultInst_kept | apply faultAt_kept
    | apply srWrite_kept | apply retire_kept | intro _ | dsimp only | split

theorem execChput_kept (t : Fin 776) (ra : Fin 32) (s : State) (hs : Kept k0 s) :
    KeptO k0 (execChput t ra s) := by
  unfold execChput
  with_reducible repeat' first
    | assumption | apply KeptO.next | apply runIns_kept | apply chput_kept | apply retire_kept | intro _ | dsimp only

theorem execChseal_kept (t : Fin 776) (ra : Fin 32) (s : State) (hs : Kept k0 s) :
    KeptO k0 (execChseal t ra s) := by
  unfold execChseal
  with_reducible repeat' first
    | assumption | apply KeptO.next | apply runIns_kept | apply chput_kept | apply retire_kept | intro _ | dsimp only

theorem execChget_kept (t : Fin 776) (rd : Fin 32) (s : State) (hs : Kept k0 s) :
    KeptO k0 (execChget t rd s) := by
  unfold execChget
  with_reducible repeat' first
    | assumption | apply KeptO.next | apply runIns_kept | apply chget_kept | apply retire_kept | apply setReg_kept
    | intro _ | dsimp only

theorem execCptest_kept (t : Fin 776) (rd : Fin 32) (u : Fin 3) (s : State) (hs : Kept k0 s) :
    KeptO k0 (execCptest t rd u s) := by
  unfold execCptest
  with_reducible repeat' first
    | assumption | apply KeptO.next | apply commitCpx_kept | apply runWrite_kept | intro _ | dsimp only

theorem wakeDone_kept (t rd : Nat) (s : State) (hs : Kept k0 s) :
    Kept k0 (wakeDone t rd s) := by
  unfold wakeDone
  with_reducible repeat' first
    | assumption | apply retire_kept | apply setReg_kept | apply modCore_kept | apply modThr_kept | dsimp only

theorem waitFor_kept (t rd vote : Nat) (s : State) (hs : Kept k0 s) :
    Kept k0 (waitFor t rd vote s) := by
  unfold waitFor
  with_reducible repeat' first
    | assumption | apply bumpTile_kept | apply wakeDone_kept | apply pairVote_kept | apply modThr_kept
    | apply Kept.ite | intro _ | dsimp only

theorem execWfe_kept (t : Fin 776) (rd : Fin 32) (s : State) (hs : Kept k0 s) :
    KeptO k0 (execWfe t rd s) := by
  unfold execWfe
  with_reducible repeat' first
    | assumption | apply KeptO.next | apply runIns_kept | apply waitFor_kept | intro _

theorem execWait_kept (t : Fin 776) (rd : Fin 32) (s : State) (hs : Kept k0 s) :
    KeptO k0 (execWait t rd s) := by
  unfold execWait
  with_reducible repeat' first
    | assumption | apply KeptO.next | apply runIns_kept | apply waitFor_kept | intro _ | dsimp only

theorem execWaitWake_kept (t : Fin 776) (s : State) (hs : Kept k0 s) :
    KeptO k0 (execWaitWake t s) := by
  unfold execWaitWake
  with_reducible repeat' first
    | assumption | apply KeptO.next | apply wakeDone_kept | apply Kept.ite | intro _ | split

theorem execThreadDeadline_kept (t : Fin 776) (s : State) (hs : Kept k0 s) :
    KeptO k0 (execThreadDeadline t s) := by
  unfold execThreadDeadline
  with_reducible repeat' first
    | assumption | apply KeptO.next | apply modThr_kept | apply Kept.ite | intro _ | dsimp only | split

theorem contFail_kept (slot reason : Nat) (s : State) (hs : Kept k0 s) :
    Kept k0 (contFail slot reason s) := by
  unfold contFail
  with_reducible repeat' first
    | assumption | apply bump_kept | apply breakLock_kept | apply endBrick_kept | apply modSched_kept
    | apply Kept.foldl | intro _ | dsimp only | split

theorem parkThread_kept (t : Nat) (s0 : State) (hs0 : Kept k0 s0) :
    Kept k0 (parkThread t s0) := by
  unfold parkThread
  with_reducible repeat' first
    | assumption | apply retire_kept | apply modThr_kept | apply bumpTile_kept | apply bump_kept | apply endBrick_kept
    | apply freeThread_kept | apply modSched_kept | apply modHost_kept | apply idleThread_kept
    | apply chanCleanup_kept | apply parkLocks_kept | apply contReady_kept | apply contFail_kept
    | apply countRefusal_kept | apply delayPush_kept | apply Kept.ite | intro _ | dsimp only | split

theorem endThread_kept (t status : Nat) (s : State) (hs : Kept k0 s) :
    Kept k0 (endThread t status s) := by
  unfold endThread
  with_reducible repeat' first
    | assumption | apply retire_kept | apply modThr_kept | apply endBrick_kept | apply freeThread_kept
    | apply bumpTile_kept | dsimp only | split

theorem settle_kept (t : Nat) (s : State) (hs : Kept k0 s) :
    Kept k0 (settle t s) := by
  unfold settle
  with_reducible repeat' first
    | assumption | apply retire_kept | apply modThr_kept | apply modCore_kept | apply parkThread_kept
    | apply endThread_kept | apply Kept.ite | intro _ | dsimp only | split

theorem execFence_kept (t : Fin 776) (s : State) (hs : Kept k0 s) :
    KeptO k0 (execFence t s) := by
  unfold execFence
  with_reducible repeat' first
    | assumption | apply KeptO.next | apply runIns_kept | apply settle_kept | apply modThr_kept | intro _ | dsimp only

theorem execPark_kept (t : Fin 776) (s : State) (hs : Kept k0 s) :
    KeptO k0 (execPark t s) := by
  unfold execPark
  with_reducible repeat' first
    | assumption | apply KeptO.next | apply runPriv_kept | apply settle_kept | apply modThr_kept | intro _
    | dsimp only

theorem execEndb_kept (t : Fin 776) (ra : Fin 32) (s : State) (hs : Kept k0 s) :
    KeptO k0 (execEndb t ra s) := by
  unfold execEndb
  with_reducible repeat' first
    | assumption | apply KeptO.next | apply runIns_kept | apply settle_kept | apply modThr_kept | intro _ | dsimp only

theorem takeover_kept (t : Nat) (s : State) (hs : Kept k0 s) :
    Kept k0 (takeover t s) := by
  unfold takeover
  with_reducible repeat' first
    | assumption | apply bumpTile_kept | apply modThr_kept | apply Kept.ite | intro _ | dsimp only | split

theorem takeEvent_kept (t c spc : Nat) (s : State) (hs : Kept k0 s) :
    Kept k0 (takeEvent t c spc s) := by
  unfold takeEvent
  with_reducible repeat' first
    | assumption | apply enterEvent_kept | apply modThr_kept | apply Kept.ite | intro _ | dsimp only | split

theorem execEventEntry_kept (t : Fin 776) (s : State) (hs : Kept k0 s) :
    KeptO k0 (execEventEntry t s) := by
  unfold execEventEntry
  with_reducible repeat' first
    | assumption | apply KeptO.next | apply takeover_kept | apply squashCpx_kept | apply bumpTile_kept
    | apply takeFault_kept | apply modThr_kept | apply takeEvent_kept | apply wakeDone_kept | apply watchDrop_kept
    | apply Kept.ite | intro _ | dsimp only | split

theorem stallReport_kept (c : Nat) (s : State) (hs : Kept k0 s) :
    Kept k0 (stallReport c s) := by
  unfold stallReport
  with_reducible repeat' first
    | assumption | refine modLed_kept (fun _ => rfl) ?_ | apply Kept.ite | intro _ | dsimp only | split

theorem execStallDetect_kept (core : Fin 96) (s : State) (hs : Kept k0 s) :
    KeptO k0 (execStallDetect core s) := by
  unfold execStallDetect
  with_reducible repeat' first
    | assumption | apply KeptO.next | apply bump_kept | apply setVal_kept | apply stallReport_kept
    | apply modTile_kept | apply modCore_kept | apply modThr_kept | apply Kept.ite | intro _ | dsimp only | split

end Sys2Proof.Machine
end

