-- ==== Sys2Proof/Laws/KeptXlate.lean ====
section
/-! SUPPORT. What every operation of Machine/Xlate.lean keeps. -/

namespace Sys2Proof.Machine

variable {k0 : State}

theorem atcTouch_kept (p : HPlace) (wr : Bool) (s : State) (hs : Kept k0 s) :
    Kept k0 (atcTouch p wr s) := by
  unfold atcTouch
  with_reducible repeat' first
    | assumption | apply bump_kept | apply modHost_kept | dsimp only | split

theorem atcInstall_kept (e : AtcEnt) (s : State) (hs : Kept k0 s) :
    Kept k0 (atcInstall e s) := by
  unfold atcInstall
  with_reducible repeat' first
    | assumption | apply modHost_kept | apply Kept.ite | intro _ | dsimp only | split

theorem requestXlate_kept (p : HPlace) (wr : Bool) (r : XReq) (s : State) (hs : Kept k0 s) :
    Kept k0 (requestXlate p wr r s) := by
  unfold requestXlate
  with_reducible repeat' first
    | assumption | apply bump_kept | apply modHost_kept | apply emit_kept | apply Kept.ite | intro _ | dsimp only

theorem hostPut_kept (p : HPlace) (data : Bytes) (s : State) (hs : Kept k0 s) :
    Kept k0 (hostPut p data s) := by
  unfold hostPut
  with_reducible repeat' first
    | assumption | apply emit_kept | dsimp only | split

end Sys2Proof.Machine
end

