-- ==== Sys2Proof/Laws/KeptIkMem.lean ====
section
/-! SUPPORT. What every operation of Machine/IkMem.lean keeps. -/

namespace Sys2Proof.Machine

variable {k0 : State}

theorem memDone_kept (t op ea : Nat) (s : State) (hs : Kept k0 s) :
    Kept k0 (memDone t op ea s) := by
  unfold memDone
  with_reducible repeat' first
    | assumption | apply bumpTile_kept | apply retire_kept | apply modThr_kept | apply Kept.ite | intro _ | dsimp only

theorem sramError_kept (t : Nat) (m : MemOp) (s : State) (hs : Kept k0 s) :
    Kept k0 (sramError t m s) := by
  unfold sramError
  with_reducible repeat' first
    | assumption | apply bump_kept | apply poisonWord_kept | apply Kept.ite | apply Kept.foldl | intro _ | dsimp only
    | split

theorem loadDone_kept (t : Nat) (m : MemOp) (s0 : State) (hs0 : Kept k0 s0) :
    Kept k0 (loadDone t m s0) := by
  unfold loadDone
  with_reducible repeat' first
    | assumption | apply sramError_kept | apply faultAddr_kept | apply modThr_kept | apply memDone_kept
    | apply setReg_kept | apply Kept.ite | intro _ | dsimp only | split

theorem sendHostReads_kept (t : Nat) (m : MemOp) (s : State) (hs : Kept k0 s) :
    Kept k0 (sendHostReads t m s) := by
  unfold sendHostReads
  with_reducible repeat' first
    | assumption | apply atcTouch_kept | apply emit_kept | apply Kept.ite | apply Kept.foldl | intro _ | dsimp only

theorem postLoad_kept (t : Nat) (m : MemOp) (s : State) (hs : Kept k0 s) :
    Kept k0 (postLoad t m s) := by
  unfold postLoad
  with_reducible repeat' first
    | assumption | apply memDone_kept | apply bumpTile_kept | apply modThr_kept | apply sendHostReads_kept
    | apply Kept.ite | intro _ | dsimp only | split

theorem feAnswer_kept (t rd ea : Nat) (take : Bool) (s : State) (hs : Kept k0 s) :
    Kept k0 (feAnswer t rd ea take s) := by
  unfold feAnswer
  with_reducible repeat' first
    | assumption | apply faultAddr_kept | apply modThr_kept | apply watchDrop_kept | apply setReg_kept
    | apply memDone_kept | apply tagPut_kept | apply Kept.ite | intro _ | dsimp only | split

theorem feWait_kept (t rd ea : Nat) (take : Bool) (s : State) (hs : Kept k0 s) :
    Kept k0 (feWait t rd ea take s) := by
  unfold feWait
  with_reducible repeat' first
    | assumption | apply bumpTile_kept | apply modCpu_kept | apply modThr_kept | apply watchDrop_kept
    | apply modHbm_kept | apply Kept.ite | intro _ | dsimp only

theorem feGo_kept (t : Nat) (m : MemOp) (s : State) (hs : Kept k0 s) :
    Kept k0 (feGo t m s) := by
  unfold feGo
  with_reducible repeat' first
    | assumption | apply feAnswer_kept | apply feWait_kept | apply Kept.ite | intro _

theorem feServe_kept {p n : Nat} : ∀ {s : State}, Kept k0 s → Kept k0 (feServe p n s) := by
  induction n with
  | zero => intro s h; exact h
  | succ n ih =>
    intro s h
    unfold feServe
    repeat' (first | with_reducible assumption | with_reducible apply ih | with_reducible apply feAnswer_kept | split)

theorem memGo_kept (t : Nat) (m : MemOp) (s : State) (hs : Kept k0 s) :
    Kept k0 (memGo t m s) := by
  unfold memGo
  with_reducible repeat' first
    | assumption | apply faultAddr_kept | apply modThr_kept | apply requestXlate_kept | apply settle_kept
    | apply memDone_kept | apply modCore_kept | apply bumpTile_kept | apply feGo_kept | apply postLoad_kept
    | apply loadDone_kept | apply Kept.ite | intro _ | dsimp only | split

theorem runLoad_kept (op t rd ra : Nat) (disp : BitVec 18) (s : State) (ecc : Nat := 0) (hs : Kept k0 s) :
    Kept k0 (runLoad op t rd ra disp s ecc) := by
  unfold runLoad
  with_reducible repeat' first
    | assumption | apply memGo_kept | apply issue_kept | apply Kept.ite | intro _ | dsimp only

theorem runStore_kept (op t rs ra : Nat) (disp : BitVec 18) (s : State) (hs : Kept k0 s) :
    Kept k0 (runStore op t rs ra disp s) := by
  unfold runStore
  with_reducible repeat' first
    | assumption | apply memGo_kept | apply issue_kept | apply bumpTile_kept | apply Kept.ite | intro _ | dsimp only

theorem execLd8_kept (t : Fin 776) (rd ra : Fin 32) (disp : BitVec 18) (s : State) (hs : Kept k0 s) :
    KeptO k0 (execLd8 t rd ra disp s) := by
  unfold execLd8
  with_reducible repeat' first
    | assumption | apply KeptO.next | apply runLoad_kept

theorem execLd8u_kept (t : Fin 776) (rd ra : Fin 32) (disp : BitVec 18) (s : State) (hs : Kept k0 s) :
    KeptO k0 (execLd8u t rd ra disp s) := by
  unfold execLd8u
  with_reducible repeat' first
    | assumption | apply KeptO.next | apply runLoad_kept

theorem execLd16_kept (t : Fin 776) (rd ra : Fin 32) (disp : BitVec 18) (s : State) (hs : Kept k0 s) :
    KeptO k0 (execLd16 t rd ra disp s) := by
  unfold execLd16
  with_reducible repeat' first
    | assumption | apply KeptO.next | apply runLoad_kept

theorem execLd16u_kept (t : Fin 776) (rd ra : Fin 32) (disp : BitVec 18) (s : State) (hs : Kept k0 s) :
    KeptO k0 (execLd16u t rd ra disp s) := by
  unfold execLd16u
  with_reducible repeat' first
    | assumption | apply KeptO.next | apply runLoad_kept

theorem execLd32_kept (t : Fin 776) (rd ra : Fin 32) (disp : BitVec 18) (s : State) (hs : Kept k0 s) :
    KeptO k0 (execLd32 t rd ra disp s) := by
  unfold execLd32
  with_reducible repeat' first
    | assumption | apply KeptO.next | apply runLoad_kept

theorem execLd32u_kept (t : Fin 776) (rd ra : Fin 32) (disp : BitVec 18) (s : State) (hs : Kept k0 s) :
    KeptO k0 (execLd32u t rd ra disp s) := by
  unfold execLd32u
  with_reducible repeat' first
    | assumption | apply KeptO.next | apply runLoad_kept

theorem execLd64_kept (t : Fin 776) (rd ra : Fin 32) (src : Ld64At) (s : State) (hs : Kept k0 s) :
    KeptO k0 (execLd64 t rd ra src s) := by
  unfold execLd64
  with_reducible repeat' first
    | assumption | apply KeptO.next | apply runLoad_kept

theorem execLd64u_kept (t : Fin 776) (rd ra : Fin 32) (disp : BitVec 18) (s : State) (hs : Kept k0 s) :
    KeptO k0 (execLd64u t rd ra disp s) := by
  unfold execLd64u
  with_reducible repeat' first
    | assumption | apply KeptO.next | apply runLoad_kept

theorem execLdw_kept (t : Fin 776) (rd ra : Fin 32) (disp : BitVec 18) (s : State) (hs : Kept k0 s) :
    KeptO k0 (execLdw t rd ra disp s) := by
  unfold execLdw
  with_reducible repeat' first
    | assumption | apply KeptO.next | apply runLoad_kept

theorem execLdtag_kept (t : Fin 776) (rd ra : Fin 32) (disp : BitVec 18) (s : State) (hs : Kept k0 s) :
    KeptO k0 (execLdtag t rd ra disp s) := by
  unfold execLdtag
  with_reducible repeat' first
    | assumption | apply KeptO.next | apply runLoad_kept

theorem execLdf_kept (t : Fin 776) (rd ra : Fin 32) (disp : BitVec 18) (s : State) (hs : Kept k0 s) :
    KeptO k0 (execLdf t rd ra disp s) := by
  unfold execLdf
  with_reducible repeat' first
    | assumption | apply KeptO.next | apply runLoad_kept

theorem execLdfe_kept (t : Fin 776) (rd ra : Fin 32) (disp : BitVec 18) (s : State) (hs : Kept k0 s) :
    KeptO k0 (execLdfe t rd ra disp s) := by
  unfold execLdfe
  with_reducible repeat' first
    | assumption | apply KeptO.next | apply runLoad_kept

theorem execSt8_kept (t : Fin 776) (rs ra : Fin 32) (disp : BitVec 18) (s : State) (hs : Kept k0 s) :
    KeptO k0 (execSt8 t rs ra disp s) := by
  unfold execSt8
  with_reducible repeat' first
    | assumption | apply KeptO.next | apply runStore_kept

theorem execSt16_kept (t : Fin 776) (rs ra : Fin 32) (disp : BitVec 18) (s : State) (hs : Kept k0 s) :
    KeptO k0 (execSt16 t rs ra disp s) := by
  unfold execSt16
  with_reducible repeat' first
    | assumption | apply KeptO.next | apply runStore_kept

theorem execSt32_kept (t : Fin 776) (rs ra : Fin 32) (disp : BitVec 18) (s : State) (hs : Kept k0 s) :
    KeptO k0 (execSt32 t rs ra disp s) := by
  unfold execSt32
  with_reducible repeat' first
    | assumption | apply KeptO.next | apply runStore_kept

theorem execSt64_kept (t : Fin 776) (rs ra : Fin 32) (disp : BitVec 18) (s : State) (hs : Kept k0 s) :
    KeptO k0 (execSt64 t rs ra disp s) := by
  unfold execSt64
  with_reducible repeat' first
    | assumption | apply KeptO.next | apply runStore_kept

theorem execStw_kept (t : Fin 776) (rs ra : Fin 32) (disp : BitVec 18) (s : State) (hs : Kept k0 s) :
    KeptO k0 (execStw t rs ra disp s) := by
  unfold execStw
  with_reducible repeat' first
    | assumption | apply KeptO.next | apply runStore_kept

theorem execSttag_kept (t : Fin 776) (rs ra : Fin 32) (disp : BitVec 18) (s : State) (hs : Kept k0 s) :
    KeptO k0 (execSttag t rs ra disp s) := by
  unfold execSttag
  with_reducible repeat' first
    | assumption | apply KeptO.next | apply runStore_kept

theorem execStf_kept (t : Fin 776) (rs ra : Fin 32) (disp : BitVec 18) (s : State) (hs : Kept k0 s) :
    KeptO k0 (execStf t rs ra disp s) := by
  unfold execStf
  with_reducible repeat' first
    | assumption | apply KeptO.next | apply runStore_kept

theorem execPostedLoadReturn_kept (t : Fin 776) (rd : Fin 32) (data : W64) (err : Bool) (s : State) (hs : Kept k0 s) :
    KeptO k0 (execPostedLoadReturn t rd data err s) := by
  unfold execPostedLoadReturn
  with_reducible repeat' first
    | assumption | apply KeptO.next | apply modThr_kept | apply settle_kept | apply setReg_kept | apply Kept.ite
    | intro _ | dsimp only | split

theorem execFullEmptyAnswer_kept (t : Fin 776) (s : State) (hs : Kept k0 s) :
    KeptO k0 (execFullEmptyAnswer t s) := by
  unfold execFullEmptyAnswer
  with_reducible repeat' first
    | assumption | apply KeptO.next | apply feAnswer_kept | apply Kept.ite | intro _ | dsimp only | split

theorem execWatchRetry_kept (t : Fin 776) (s : State) (hs : Kept k0 s) :
    KeptO k0 (execWatchRetry t s) := by
  unfold execWatchRetry
  with_reducible repeat' first
    | assumption | apply KeptO.next | apply bump_kept | apply feAnswer_kept | apply modCpu_kept | apply modHbm_kept
    | apply Kept.ite | intro _ | dsimp only | split

theorem execLoadReplay_kept (t : Fin 776) (s : State) (hs : Kept k0 s) :
    KeptO k0 (execLoadReplay t s) := by
  unfold execLoadReplay
  with_reducible repeat' first
    | assumption | apply KeptO.next | apply memGo_kept | apply Kept.ite | intro _ | dsimp only | split

theorem execIcacheFill_kept (core : Fin 97) (line : BitVec 13) (s : State) (hs : Kept k0 s) :
    KeptO k0 (execIcacheFill core line s) := by
  unfold execIcacheFill
  with_reducible repeat' first
    | assumption | apply KeptO.next | apply bump_kept | apply modCore_kept | apply Kept.ite | intro _ | dsimp only
    | split

end Sys2Proof.Machine
end

