-- ==== Sys2Proof/Laws/KeptLockCmd.lean ====
section
/-! SUPPORT. What every operation of Machine/LockCmd.lean keeps. -/

namespace Sys2Proof.Machine

variable {k0 : State}

theorem execAcquireTry_kept (lock : Fin 4096) (master : BitVec 16) (prio : Fin 16) (s : State) (hs : Kept k0 s) :
    KeptO k0 (execAcquireTry lock master prio s) := by
  unfold execAcquireTry
  with_reducible repeat' first
    | assumption | apply KeptO.next | apply lockReply_kept | apply lockAcquire_kept | dsimp only

theorem execAcquireQueue_kept (lock : Fin 4096) (master : BitVec 16) (req : LockCome) (s : State) (hs : Kept k0 s) :
    KeptO k0 (execAcquireQueue lock master req s) := by
  unfold execAcquireQueue
  with_reducible repeat' first
    | assumption | apply KeptO.next | apply lockMeet_kept

theorem execRelease_kept (lock : Fin 4096) (master : BitVec 16) (s : State) (hs : Kept k0 s) :
    KeptO k0 (execRelease lock master s) := by
  unfold execRelease
  with_reducible repeat' first
    | assumption | apply KeptO.next | apply lockReply_kept | apply lockRelease_kept | dsimp only

theorem execLockQuery_kept (lock : Fin 4096) (master : BitVec 16) (s : State) (hs : Kept k0 s) :
    KeptO k0 (execLockQuery lock master s) := by
  unfold execLockQuery
  with_reducible repeat' first
    | assumption | apply KeptO.next | apply lockReply_kept | apply lockQuery_kept | dsimp only

theorem execLeaseExpiry_kept (lock : Fin 4096) (s : State) (hs : Kept k0 s) :
    KeptO k0 (execLeaseExpiry lock s) := by
  unfold execLeaseExpiry
  with_reducible repeat' first
    | assumption | apply KeptO.next | apply bump_kept | apply breakLock_kept | apply Kept.ite | intro _ | dsimp only
    | split

theorem wrBreakLock_kept (a0 : Nat) (v0 : Bytes) (s : State) (hs : Kept k0 s) :
    Kept k0 (wrBreakLock a0 v0 s).2 := by
  unfold wrBreakLock
  with_reducible repeat' first
    | assumption | apply bump_kept | apply breakLock_kept | apply Kept.ite | intro _ | dsimp only | split

theorem execBreakLock_kept (h : DHdr) (v : Bytes) (s : State) (hs : Kept k0 s) :
    KeptO k0 (execBreakLock h v s) := by
  unfold execBreakLock
  with_reducible repeat' first
    | assumption | apply KeptO.next | apply dictWriteRow_kept | apply wrBreakLock_kept | intro _ | dsimp only

theorem groupWrite_kept (g c : Nat) (s : State) (hs : Kept k0 s) :
    Kept k0 (groupWrite g c s) := by
  unfold groupWrite
  with_reducible repeat' first
    | assumption | apply setVal_kept | apply startLease_kept | apply modLock_kept | apply Kept.ite | apply Kept.foldl
    | intro _ | dsimp only

theorem wrGroup_kept (g : Nat) (a0 : Nat) (v0 : Bytes) (s : State) (hs : Kept k0 s) :
    Kept k0 (wrGroup g a0 v0 s).2 := by
  unfold wrGroup
  with_reducible repeat' first
    | assumption | apply groupWrite_kept | intro _ | dsimp only

theorem execLockGroupConfig_kept (h : DHdr) (g : Fin 64) (v : Bytes) (s : State) (hs : Kept k0 s) :
    KeptO k0 (execLockGroupConfig h g v s) := by
  unfold execLockGroupConfig
  with_reducible repeat' first
    | assumption | apply KeptO.next | apply dictWriteRow_kept | apply wrGroup_kept | intro _ | dsimp only

theorem rdLockState_kept (a0 : Nat) (s : State) (hs : Kept k0 s) :
    Kept k0 (rdLockState a0 s).2.2 := by
  unfold rdLockState
  with_reducible repeat' first
    | assumption | dsimp only | split

theorem execLockStateRead_kept (h : DHdr) (s : State) (hs : Kept k0 s) :
    KeptO k0 (execLockStateRead h s) := by
  unfold execLockStateRead
  with_reducible repeat' first
    | assumption | apply KeptO.next | apply dictReadRow_kept | apply rdLockState_kept | intro _ | dsimp only

end Sys2Proof.Machine
end

