-- ==== Sys2Proof/Laws/KeptDebug.lean ====
section
/-! SUPPORT. What every operation of Machine/Debug.lean keeps. -/

namespace Sys2Proof.Machine

variable {k0 : State}

theorem execDbgNonce_kept (s : State) (hs : Kept k0 s) :
    KeptO k0 (execDbgNonce s) := by
  unfold execDbgNonce
  with_reducible repeat' first
    | assumption | apply KeptO.next | apply emit_kept | apply modDbg_kept | apply drawn_kept | dsimp only

theorem execDbgUnlock_kept (proof : Bytes) (s : State) (hs : Kept k0 s) :
    KeptO k0 (execDbgUnlock proof s) := by
  unfold execDbgUnlock
  with_reducible repeat' first
    | assumption | apply KeptO.next | apply modDbg_kept | apply bump_kept | apply Kept.ite | intro _ | dsimp only
    | split

theorem dbgAct_kept (jtag : Bool) (tile core th : Nat) (eff : DbgEff) (s : State) (heff : ∀ a s, Kept k0 s → Kept k0 (eff a s).2.2) (hs : Kept k0 s) :
    Kept k0 (dbgAct jtag tile core th eff s).2.2 := by
  unfold dbgAct
  with_reducible repeat' first
    | assumption | apply Kept.ite | apply heff | intro _ | split

theorem dbgWrite_kept (tile core th : Nat) (eff : DbgEff) (a0 : Nat) (v0 : Bytes) (s : State) (heff : ∀ a s, Kept k0 s → Kept k0 (eff a s).2.2) (hs : Kept k0 s) :
    Kept k0 (dbgWrite tile core th eff a0 v0 s).2 := by
  unfold dbgWrite
  with_reducible repeat' first
    | assumption | apply dbgAct_kept | apply modSess_kept | apply heff | intro _ | dsimp only

theorem dbgRun_kept (via : DbgVia) (cmd : Nat) (tile core th : BitVec 8) (arg : Bytes) (eff : DbgEff) (s : State) (heff : ∀ a s, Kept k0 s → Kept k0 (eff a s).2.2) (hs : Kept k0 s) :
    Kept k0 (dbgRun via cmd tile core th arg eff s) := by
  unfold dbgRun
  with_reducible repeat' first
    | assumption | apply dictWriteRow_kept | apply dbgWrite_kept | apply dbgAct_kept | apply emit_kept | apply heff
    | intro _ | refine Kept.of_pair (by assumption) ?_ | refine Kept.of_triple (by assumption) ?_ | dsimp only | split

theorem dbgHalt_kept (a0 : Nat) (s : State) (hs : Kept k0 s) :
    Kept k0 (dbgHalt a0 s).2.2 := by
  unfold dbgHalt
  with_reducible repeat' first
    | assumption | apply modThr_kept | apply Kept.ite | intro _ | dsimp only | split

theorem execHalt_kept (via : DbgVia) (tile core th : BitVec 8) (s : State) (hs : Kept k0 s) :
    KeptO k0 (execHalt via tile core th s) := by
  unfold execHalt
  with_reducible repeat' first
    | assumption | apply KeptO.next | apply dbgRun_kept | apply dbgHalt_kept | intro _ | dsimp only

theorem haltThread_kept (t : Nat) (s : State) (hs : Kept k0 s) :
    Kept k0 (haltThread t s) := by
  unfold haltThread
  with_reducible repeat' first
    | assumption | apply modCore_kept | apply modThr_kept | dsimp only

theorem execHaltEffect_kept (t : Fin 776) (s : State) (hs : Kept k0 s) :
    KeptO k0 (execHaltEffect t s) := by
  unfold execHaltEffect
  with_reducible repeat' first
    | assumption | apply KeptO.next | apply bump_kept | apply haltThread_kept | apply modThr_kept
    | apply watchDrop_kept | apply Kept.ite | intro _ | dsimp only | split

theorem resumeLeases_kept (t : Nat) (dur : Nat) (s : State) (hs : Kept k0 s) :
    Kept k0 (resumeLeases t dur s) := by
  unfold resumeLeases
  with_reducible repeat' first
    | assumption | apply modLocks_kept | apply Kept.ite | intro _ | dsimp only

theorem unhalt_kept (t : Nat) (steps : Option Nat) (s : State) (hs : Kept k0 s) :
    Kept k0 (unhalt t steps s) := by
  unfold unhalt
  with_reducible repeat' first
    | assumption | apply resumeLeases_kept | apply modSched_kept | apply modThr_kept | apply Kept.ite | intro _
    | dsimp only

theorem dbgResume_kept (a0 : Nat) (s : State) (hs : Kept k0 s) :
    Kept k0 (dbgResume a0 s).2.2 := by
  unfold dbgResume
  with_reducible repeat' first
    | assumption | apply unhalt_kept | dsimp only

theorem execResume_kept (via : DbgVia) (tile core th : BitVec 8) (s : State) (hs : Kept k0 s) :
    KeptO k0 (execResume via tile core th s) := by
  unfold execResume
  with_reducible repeat' first
    | assumption | apply KeptO.next | apply dbgRun_kept | apply dbgResume_kept | intro _ | dsimp only

theorem dbgStep_kept (n : Nat) (a0 : Nat) (s : State) (hs : Kept k0 s) :
    Kept k0 (dbgStep n a0 s).2.2 := by
  unfold dbgStep
  with_reducible repeat' first
    | assumption | apply unhalt_kept | apply Kept.ite | intro _ | dsimp only | split

theorem execStep_kept (via : DbgVia) (tile core th : BitVec 8) (n : BitVec 16) (s : State) (hs : Kept k0 s) :
    KeptO k0 (execStep via tile core th n s) := by
  unfold execStep
  with_reducible repeat' first
    | assumption | apply KeptO.next | apply dbgRun_kept | apply dbgStep_kept | intro _ | dsimp only

theorem execReadRegs_kept (via : DbgVia) (tile core th : BitVec 8) (s : State) (hs : Kept k0 s) :
    KeptO k0 (execReadRegs via tile core th s) := by
  unfold execReadRegs
  with_reducible repeat' first
    | assumption | apply KeptO.next | apply dbgRun_kept | intro _ | dsimp only

theorem writeReg_kept (t reg : Nat) (v : W72) (s : State) (hs : Kept k0 s) :
    Kept k0 (writeReg t reg v s).2.2 := by
  unfold writeReg
  with_reducible repeat' first
    | assumption | apply setReg_kept | apply modThr_kept | apply srWrite_kept | apply Kept.ite | intro _ | dsimp only
    | split

theorem execWriteReg_kept (via : DbgVia) (tile core th : BitVec 8) (reg : BitVec 8) (v : W72) (s : State) (hs : Kept k0 s) :
    KeptO k0 (execWriteReg via tile core th reg v s) := by
  unfold execWriteReg
  with_reducible repeat' first
    | assumption | apply KeptO.next | apply dbgRun_kept | apply writeReg_kept | intro _ | dsimp only

theorem dbgReadMem_kept (addr len : Nat) (a0 : Nat) (s : State) (hs : Kept k0 s) :
    Kept k0 (dbgReadMem addr len a0 s).2.2 := by
  unfold dbgReadMem
  with_reducible repeat' first
    | assumption | apply Kept.ite | intro _ | dsimp only | split

theorem execReadMem_kept (via : DbgVia) (tile core th : BitVec 8) (addr : BitVec 48) (len : Fin 65) (s : State) (hs : Kept k0 s) :
    KeptO k0 (execReadMem via tile core th addr len s) := by
  unfold execReadMem
  with_reducible repeat' first
    | assumption | apply KeptO.next | apply dbgRun_kept | apply dbgReadMem_kept | intro _ | dsimp only

theorem dbgWriteMem_kept (addr : Nat) (data tags : Bytes) (a0 : Nat) (s : State) (hs : Kept k0 s) :
    Kept k0 (dbgWriteMem addr data tags a0 s).2.2 := by
  unfold dbgWriteMem
  with_reducible repeat' first
    | assumption | apply tagPut_kept | apply memWrite_kept | apply Kept.ite | apply Kept.foldl | intro _ | dsimp only
    | split

theorem execWriteMem_kept (via : DbgVia) (tile core th : BitVec 8) (addr : BitVec 48) (data tags : Bytes) (s : State) (hs : Kept k0 s) :
    KeptO k0 (execWriteMem via tile core th addr data tags s) := by
  unfold execWriteMem
  with_reducible repeat' first
    | assumption | apply KeptO.next | apply dbgRun_kept | apply dbgWriteMem_kept | intro _ | dsimp only

theorem dbgSetBp_kept (slot : Nat) (b : Bp) (a0 : Nat) (s : State) (hs : Kept k0 s) :
    Kept k0 (dbgSetBp slot b a0 s).2.2 := by
  unfold dbgSetBp
  with_reducible repeat' first
    | assumption | apply modDbg_kept | apply Kept.ite | intro _ | dsimp only | split

theorem execSetBp_kept (via : DbgVia) (tile core th : BitVec 8) (slot : Fin 4) (index : BitVec 17) (mask : BitVec 8) (en : Bool) (s : State) (hs : Kept k0 s) :
    KeptO k0 (execSetBp via tile core th slot index mask en s) := by
  unfold execSetBp
  with_reducible repeat' first
    | assumption | apply KeptO.next | apply dbgRun_kept | apply dbgSetBp_kept | intro _ | dsimp only

theorem dbgSetWp_kept (slot : Nat) (w : Wp) (a0 : Nat) (s : State) (hs : Kept k0 s) :
    Kept k0 (dbgSetWp slot w a0 s).2.2 := by
  unfold dbgSetWp
  with_reducible repeat' first
    | assumption | apply modDbg_kept | apply Kept.ite | intro _ | dsimp only | split

theorem execSetWp_kept (via : DbgVia) (tile core th : BitVec 8) (slot : Fin 4) (base mask : BitVec 48) (rd wr : Bool) (thr : BitVec 8) (en : Bool) (s : State) (hs : Kept k0 s) :
    KeptO k0 (execSetWp via tile core th slot base mask rd wr thr en s) := by
  unfold execSetWp
  with_reducible repeat' first
    | assumption | apply KeptO.next | apply dbgRun_kept | apply dbgSetWp_kept | intro _ | dsimp only

theorem dbgChanAbort_kept (chan : Nat) (a0 : Nat) (s : State) (hs : Kept k0 s) :
    Kept k0 (dbgChanAbort chan a0 s).2.2 := by
  unfold dbgChanAbort
  with_reducible repeat' first
    | assumption | apply bump_kept | apply abortRsv_kept | apply Kept.ite | intro _ | dsimp only | split

theorem execChanAbort_kept (via : DbgVia) (tile core th : BitVec 8) (chan : Fin 64) (s : State) (hs : Kept k0 s) :
    KeptO k0 (execChanAbort via tile core th chan s) := by
  unfold execChanAbort
  with_reducible repeat' first
    | assumption | apply KeptO.next | apply dbgRun_kept | apply dbgChanAbort_kept | intro _ | dsimp only

theorem dbgTrace_kept (masks : BitVec 64) (mode first last : Nat) (a0 : Nat) (s : State) (hs : Kept k0 s) :
    Kept k0 (dbgTrace masks mode first last a0 s).2.2 := by
  unfold dbgTrace
  with_reducible repeat' first
    | assumption | apply modDbg_kept | apply Kept.ite | intro _ | dsimp only | split

theorem execTrace_kept (via : DbgVia) (tile core th : BitVec 8) (masks : BitVec 64) (stop : Bool) (first last : Option (Fin 4)) (s : State) (hs : Kept k0 s) :
    KeptO k0 (execTrace via tile core th masks stop first last s) := by
  unfold execTrace
  with_reducible repeat' first
    | assumption | apply KeptO.next | apply dbgRun_kept | apply dbgTrace_kept | intro _ | dsimp only

theorem dbgTraceRead_kept (first : Nat) (a0 : Nat) (s : State) (hs : Kept k0 s) :
    Kept k0 (dbgTraceRead first a0 s).2.2 := by
  unfold dbgTraceRead
  with_reducible repeat' first
    | assumption | apply Kept.ite | intro _ | dsimp only | split

theorem execTraceRead_kept (via : DbgVia) (tile core th : BitVec 8) (first : BitVec 16) (s : State) (hs : Kept k0 s) :
    KeptO k0 (execTraceRead via tile core th first s) := by
  unfold execTraceRead
  with_reducible repeat' first
    | assumption | apply KeptO.next | apply dbgRun_kept | apply dbgTraceRead_kept | intro _ | dsimp only

theorem dbgEffOf_kept {cmd : Nat} {arg : Bytes} {eff : DbgEff} (e : dbgEffOf cmd arg = some eff) :
    ∀ a s, Kept k0 s → Kept k0 (eff a s).2.2 := by
  unfold dbgEffOf at e
  split at e <;> cases e <;> intro a s hs
  · exact dbgHalt_kept _ _ hs
  · exact dbgResume_kept _ _ hs
  · exact dbgStep_kept _ _ _ hs
  · exact hs
  · exact writeReg_kept _ _ _ _ hs
  · exact dbgReadMem_kept _ _ _ _ hs
  · exact dbgWriteMem_kept _ _ _ _ _ hs
  · exact dbgSetBp_kept _ _ _ _ hs
  · exact dbgSetWp_kept _ _ _ _ hs
  · exact dbgChanAbort_kept _ _ _ hs
  · exact dbgTrace_kept _ _ _ _ _ _ hs
  · exact dbgTraceRead_kept _ _ _ hs

theorem wrDebugCmd_kept (a0 : Nat) (v0 : Bytes) (s : State) (hs : Kept k0 s) :
    Kept k0 (wrDebugCmd a0 v0 s).2 := by
  unfold wrDebugCmd
  split
  · exact hs
  · split
    · rename_i heq
      exact dbgWrite_kept _ _ _ _ _ _ _ (dbgEffOf_kept heq) hs
    · exact hs

theorem traceMark_kept (t : Nat) (slots : List Nat) (s : State) (hs : Kept k0 s) :
    Kept k0 (traceMark t slots s) := by
  unfold traceMark
  with_reducible repeat' first
    | assumption | apply modDbg_kept | apply Kept.ite | intro _ | dsimp only

theorem execBreakpointHit_kept (t : Fin 776) (s : State) (hs : Kept k0 s) :
    KeptO k0 (execBreakpointHit t s) := by
  unfold execBreakpointHit
  with_reducible repeat' first
    | assumption | apply KeptO.next | apply bump_kept | apply haltThread_kept | apply traceMark_kept | apply Kept.ite
    | intro _ | dsimp only | split

theorem execWatchpointHit_kept (t : Fin 776) (s : State) (hs : Kept k0 s) :
    KeptO k0 (execWatchpointHit t s) := by
  unfold execWatchpointHit
  with_reducible repeat' first
    | assumption | apply KeptO.next | apply bump_kept | apply haltThread_kept | apply modThr_kept | apply Kept.ite
    | intro _ | dsimp only | split

end Sys2Proof.Machine
end

