-- ==== Sys2Proof/Laws/KeptSched.lean ====
section
/-! SUPPORT. What every operation of Machine/Sched.lean keeps. -/

namespace Sys2Proof.Machine

variable {k0 : State}

theorem modPost_kept (m : Nat) (f : PostArea → PostArea) (s : State) (hs : Kept k0 s) :
    Kept k0 (modPost m f s) := by
  unfold modPost
  with_reducible repeat' first
    | assumption | apply modSched_kept | dsimp only

theorem postDone_kept (m : Nat) (r : Nat × BitVec 32 × State) (hr : Kept k0 r.2.2) :
    Kept k0 (postDone m r) := by
  unfold postDone
  with_reducible repeat' first
    | assumption | apply modPost_kept | apply Kept.ite | intro _ | dsimp only

theorem postGo_kept (m master : Nat) (delay : Option Nat) (s : State) (hs : Kept k0 s) :
    Kept k0 (postGo m master delay s) := by
  unfold postGo
  with_reducible repeat' first
    | assumption | apply postDone_kept | apply countRefusal_kept | apply acceptBrick_kept | apply acceptDelayed_kept
    | apply Kept.ite | intro _ | refine Kept.of_triple (by assumption) ?_ | dsimp only | split

theorem execPostImmediate_kept (area : Fin 769) (s : State) (hs : Kept k0 s) :
    KeptO k0 (execPostImmediate area s) := by
  unfold execPostImmediate
  with_reducible repeat' first
    | assumption | apply KeptO.next | apply postGo_kept

theorem execPostDelayed_kept (area : Fin 769) (list : Fin 4) (s : State) (hs : Kept k0 s) :
    KeptO k0 (execPostDelayed area list s) := by
  unfold execPostDelayed
  with_reducible repeat' first
    | assumption | apply KeptO.next | apply postGo_kept

theorem execSpillRefill_kept (s : State) (hs : Kept k0 s) :
    KeptO k0 (execSpillRefill s) := by
  unfold execSpillRefill
  with_reducible repeat' first
    | assumption | apply KeptO.next | apply modSched_kept | apply modRq_kept | apply Kept.ite | intro _ | dsimp only
    | split

theorem releaseOne_kept (e : DlEnt) (s : State) (hs : Kept k0 s) :
    Kept k0 (releaseOne e s) := by
  unfold releaseOne
  with_reducible repeat' first
    | assumption | apply contReady_kept | apply rqPush_kept | split

theorem releaseDue_kept (s : State) (hs : Kept k0 s) :
    Kept k0 (releaseDue s) := by
  unfold releaseDue
  with_reducible repeat' first
    | assumption | apply modDl_kept | apply releaseOne_kept | apply Kept.foldl | intro _ | dsimp only

theorem execDelayListRelease_kept (s : State) (hs : Kept k0 s) :
    KeptO k0 (execDelayListRelease s) := by
  unfold execDelayListRelease
  with_reducible repeat' first
    | assumption | apply KeptO.next | apply releaseDue_kept

theorem lockHint_kept (t : Nat) (words : List W64) (s : State) (hs : Kept k0 s) :
    Kept k0 (lockHint t words s).2 := by
  unfold lockHint
  with_reducible repeat' first
    | assumption | apply lockAcquire_kept | apply bump_kept | apply Kept.ite | intro _ | dsimp only | split

theorem startBrick_kept (t : Nat) (words : List W64) (s : State) (hs : Kept k0 s) :
    Kept k0 (startBrick t words s) := by
  unfold startBrick
  with_reducible repeat' first
    | assumption | apply bump_kept | apply modThr_kept | apply lockHint_kept | apply setReg_kept | apply Kept.ite
    | intro _ | dsimp only | split

theorem startCont_kept (t slot : Nat) (s : State) (hs : Kept k0 s) :
    Kept k0 (startCont t slot s) := by
  unfold startCont
  with_reducible repeat' first
    | assumption | apply bump_kept | apply resumeLocks_kept | apply modSched_kept | apply modThr_kept | apply Kept.ite
    | intro _ | dsimp only | split

theorem dispatchTo_kept (t : Nat) (b : QBrick) (s : State) (hs : Kept k0 s) :
    Kept k0 (dispatchTo t b s) := by
  unfold dispatchTo
  with_reducible repeat' first
    | assumption | apply modCore_kept | apply wakeDomain_kept | apply startCont_kept | apply startBrick_kept
    | apply Kept.ite | intro _ | dsimp only | split

theorem dispatchTile_kept {tile : Nat} {left : Tab Nat} {s : State} (h : Kept k0 s) {x : Tab Nat × State}
    (e : dispatchTile tile left s = some x) : Kept k0 x.2 := by
  unfold dispatchTile at e
  split at e
  · cases e
  · obtain ⟨a, _, ha⟩ := List.exists_of_findSome?_eq_some e
    split at ha
    · cases ha
      exact dispatchTo_kept _ _ _ (modRq_kept _ _ _ h)
    · cases ha

theorem execDispatch_kept (s : State) (hs : Kept k0 s) : KeptO k0 (execDispatch s) := by
  unfold execDispatch
  dsimp only
  with_reducible apply KeptO.next
  with_reducible apply Kept.ite
  · intro _
    split
    · with_reducible apply modSched_kept
      with_reducible apply Kept.foldlTriple
      · intro a x ha
        split
        · rename_i heq
          exact dispatchTile_kept ha heq
        · exact ha
      · exact hs
    · exact hs
  · intro _
    exact hs

theorem execBudgetFault_kept (t : Fin 776) (s : State) (hs : Kept k0 s) :
    KeptO k0 (execBudgetFault t s) := by
  unfold execBudgetFault
  with_reducible repeat' first
    | assumption | apply KeptO.next | apply bump_kept | apply faultAt_kept | apply modThr_kept | apply squashCpx_kept
    | apply Kept.ite | intro _ | dsimp only | split

theorem execBudgetReset_kept (t : Fin 776) (s : State) (hs : Kept k0 s) :
    KeptO k0 (execBudgetReset t s) := by
  unfold execBudgetReset
  with_reducible repeat' first
    | assumption | apply KeptO.next | apply bump_kept | apply endBrick_kept | apply resetThread_kept | apply Kept.ite
    | intro _ | dsimp only | split

theorem shortenLimits_kept (tile : Nat) (s : State) (hs : Kept k0 s) :
    Kept k0 (shortenLimits tile s) := by
  unfold shortenLimits
  with_reducible repeat' first
    | assumption | apply modThr_kept | apply Kept.ite | apply Kept.foldl | intro _ | dsimp only

theorem openChange_kept (f : State → State) (s : State) (hf : ∀  s, Kept k0 s → Kept k0 (f  s)) (hs : Kept k0 s) :
    Kept k0 (openChange f s) := by
  unfold openChange
  with_reducible repeat' first
    | assumption | apply bumpBy_kept | apply hf | intro _

theorem drainWrite_kept (v : Nat) (s : State) (hs : Kept k0 s) :
    Kept k0 (drainWrite v s) := by
  unfold drainWrite
  with_reducible repeat' first
    | assumption | apply openChange_kept | apply setVal_kept | apply checkDrained_kept | apply modSched_kept
    | apply shortenLimits_kept | apply Kept.ite | apply Kept.foldl | intro _ | dsimp only

theorem wrTileDrain_kept (a0 : Nat) (v0 : Bytes) (s : State) (hs : Kept k0 s) :
    Kept k0 (wrTileDrain a0 v0 s).2 := by
  unfold wrTileDrain
  with_reducible repeat' first
    | assumption | apply drainWrite_kept | intro _ | dsimp only

theorem execTileDrain_kept (h : DHdr) (v : Bytes) (s : State) (hs : Kept k0 s) :
    KeptO k0 (execTileDrain h v s) := by
  unfold execTileDrain
  with_reducible repeat' first
    | assumption | apply KeptO.next | apply dictWriteRow_kept | apply wrTileDrain_kept | intro _ | dsimp only

theorem execDrainTimeout_kept (tile : Fin 12) (s : State) (hs : Kept k0 s) :
    KeptO k0 (execDrainTimeout tile s) := by
  unfold execDrainTimeout
  with_reducible repeat' first
    | assumption | apply KeptO.next | apply bump_kept | apply resetThread_kept | apply lostBrick_kept | apply Kept.ite
    | apply Kept.foldl | intro _ | dsimp only | split

end Sys2Proof.Machine
end

