-- ==== Sys2Proof/Laws/KeptFaults.lean ====
section
/-! SUPPORT. What every operation of Machine/Faults.lean keeps. -/

namespace Sys2Proof.Machine

variable {k0 : State}

theorem checkLedger_kept (s : State) (hs : Kept k0 s) :
    Kept k0 (checkLedger s) := by
  unfold checkLedger
  with_reducible repeat' first
    | assumption | apply bump_kept | refine modLed_kept (fun _ => rfl) ?_ | apply freezeEvent_kept | apply emit_kept
    | refine modDict_kept (fun _ hd => ⟨hd, Nat.le_refl _⟩) ?_ | apply Kept.ite | intro _ | dsimp only | split

theorem execLedgerCheck_kept (s : State) (hs : Kept k0 s) :
    KeptO k0 (execLedgerCheck s) := by
  unfold execLedgerCheck
  with_reducible repeat' first
    | assumption | apply KeptO.next | apply checkLedger_kept | apply Kept.ite | intro _ | split

theorem rdMismatches_kept (a0 : Nat) (s : State) (hs : Kept k0 s) :
    Kept k0 (rdMismatches a0 s).2.2 := by
  unfold rdMismatches
  with_reducible repeat' first
    | assumption | refine modDict_kept (fun _ hd => ⟨hd, Nat.le_refl _⟩) ?_ | dsimp only | split

theorem execLedgerAlertClear_kept (h : DHdr) (s : State) (hs : Kept k0 s) :
    KeptO k0 (execLedgerAlertClear h s) := by
  unfold execLedgerAlertClear
  with_reducible repeat' first
    | assumption | apply KeptO.next | apply dictReadRow_kept | apply rdMismatches_kept | intro _
    | refine Kept.of_triple (by assumption) ?_ | dsimp only | split

theorem rdFailureLog_kept (a0 : Nat) (s : State) (hs : Kept k0 s) :
    Kept k0 (rdFailureLog a0 s).2.2 := by
  unfold rdFailureLog
  with_reducible repeat' first
    | assumption | refine modLed_kept (fun _ => rfl) ?_ | dsimp only

theorem execFailureLogRead_kept (h : DHdr) (s : State) (hs : Kept k0 s) :
    KeptO k0 (execFailureLogRead h s) := by
  unfold execFailureLogRead
  with_reducible repeat' first
    | assumption | apply KeptO.next | apply dictReadRow_kept | apply rdFailureLog_kept | intro _ | dsimp only

theorem resetCore_kept (c reason : Nat) (s : State) (hs : Kept k0 s) :
    Kept k0 (resetCore c reason s) := by
  unfold resetCore
  with_reducible repeat' first
    | assumption | apply resetThread_kept | apply lostBrick_kept | apply bump_kept | apply Kept.ite | apply Kept.foldl
    | intro _ | dsimp only | split

theorem beginSelfTest_kept (c : Nat) (s : State) (hs : Kept k0 s) :
    Kept k0 (beginSelfTest c s) := by
  unfold beginSelfTest
  with_reducible repeat' first
    | assumption | refine modLed_kept (fun _ => rfl) ?_ | dsimp only

theorem faultCore_kept (c : Nat) (s : State) (hs : Kept k0 s) :
    Kept k0 (faultCore c s) := by
  unfold faultCore
  with_reducible repeat' first
    | assumption | apply watchDrop_kept | apply modThr_kept | apply modCore_kept | apply bump_kept
    | apply freezeEvent_kept | apply beginSelfTest_kept | apply resetCore_kept | apply Kept.foldl | intro _
    | dsimp only

theorem execCoreFault_kept (core : Fin 96) (s : State) (hs : Kept k0 s) :
    KeptO k0 (execCoreFault core s) := by
  unfold execCoreFault
  with_reducible repeat' first
    | assumption | apply KeptO.next | apply faultCore_kept

theorem execTecChannelFault_kept (tile : Fin 12) (s : State) (hs : Kept k0 s) :
    KeptO k0 (execTecChannelFault tile s) := by
  unfold execTecChannelFault
  with_reducible repeat' first
    | assumption | apply KeptO.next | apply faultCore_kept | apply bump_kept | apply modTile_kept | apply Kept.foldl
    | intro _ | dsimp only

theorem execSelfTestEnd_kept (core : Fin 96) (pass : Bool) (s : State) (hs : Kept k0 s) :
    KeptO k0 (execSelfTestEnd core pass s) := by
  unfold execSelfTestEnd
  with_reducible repeat' first
    | assumption | apply KeptO.next | refine modLed_kept (fun _ => rfl) ?_ | apply bump_kept | apply Kept.ite
    | intro _ | dsimp only | split

theorem wrCoreReadmit_kept (a0 : Nat) (v0 : Bytes) (s : State) (hs : Kept k0 s) :
    Kept k0 (wrCoreReadmit a0 v0 s).2 := by
  unfold wrCoreReadmit
  with_reducible repeat' first
    | assumption | apply beginSelfTest_kept | apply Kept.ite | intro _ | dsimp only | split

theorem execCoreReadmit_kept (h : DHdr) (v : Bytes) (s : State) (hs : Kept k0 s) :
    KeptO k0 (execCoreReadmit h v s) := by
  unfold execCoreReadmit
  with_reducible repeat' first
    | assumption | apply KeptO.next | apply dictWriteRow_kept | apply wrCoreReadmit_kept | intro _ | dsimp only

theorem execStewardMismatch_kept (s : State) (hs : Kept k0 s) :
    KeptO k0 (execStewardMismatch s) := by
  unfold execStewardMismatch
  with_reducible repeat' first
    | assumption | apply KeptO.next | apply modThr_kept | apply resetThread_kept | apply modCore_kept
    | apply freezeEvent_kept | apply bump_kept | refine modLed_kept (fun _ => rfl) ?_ | apply Kept.ite
    | apply Kept.foldl | intro _ | dsimp only | split

theorem execWarmRestartEnd_kept (s : State) (hs : Kept k0 s) :
    KeptO k0 (execWarmRestartEnd s) := by
  unfold execWarmRestartEnd
  with_reducible repeat' first
    | assumption | apply KeptO.next | refine modLed_kept (fun _ => rfl) ?_ | dsimp only | split

theorem execStallReset_kept (core : Fin 96) (s : State) (hs : Kept k0 s) :
    KeptO k0 (execStallReset core s) := by
  unfold execStallReset
  with_reducible repeat' first
    | assumption | apply KeptO.next | refine modLed_kept (fun _ => rfl) ?_ | apply resetCore_kept | apply bump_kept
    | apply Kept.ite | intro _ | dsimp only | split

end Sys2Proof.Machine
end

