-- ==== Sys2Proof/Laws/KeptPower.lean ====
section
/-! SUPPORT. What every operation of Machine/Power.lean keeps. -/

namespace Sys2Proof.Machine

variable {k0 : State}

theorem applyTarget_kept (d st : Nat) (s : State) (hs : Kept k0 s) :
    Kept k0 (applyTarget d st s) := by
  unfold applyTarget
  with_reducible repeat' first
    | assumption | apply wakeDomain_kept | apply requestLeave_kept | apply Kept.ite | intro _ | split

theorem wrDomainTarget_kept (d : Nat) (a0 : Nat) (v0 : Bytes) (s : State) (hs : Kept k0 s) :
    Kept k0 (wrDomainTarget d a0 v0 s).2 := by
  unfold wrDomainTarget
  with_reducible repeat' first
    | assumption | apply bump_kept | apply applyTarget_kept | apply setVal_kept | apply Kept.ite | intro _
    | dsimp only | split

theorem execDomainTargetWrite_kept (h : DHdr) (dom : Fin 80) (v : Bytes) (s : State) (hs : Kept k0 s) :
    KeptO k0 (execDomainTargetWrite h dom v s) := by
  unfold execDomainTargetWrite
  with_reducible repeat' first
    | assumption | apply KeptO.next | apply dictWriteRow_kept | apply wrDomainTarget_kept | intro _ | dsimp only

theorem deviceWake_kept (s : State) (hs : Kept k0 s) :
    Kept k0 (deviceWake s) := by
  unfold deviceWake
  with_reducible repeat' first
    | assumption | apply setVal_kept | apply modPower_kept | apply dawnStart_kept | apply Kept.ite | intro _
    | dsimp only

theorem wakeDomains_kept (src group : Nat) (ds : List Nat) (s : State) (hs : Kept k0 s) :
    Kept k0 (wakeDomains src group ds s) := by
  unfold wakeDomains
  with_reducible repeat' first
    | assumption | apply wakeDeps_kept | apply recordWake_kept | apply deviceWake_kept | apply Kept.foldl | intro _
    | dsimp only

theorem wakeNow_kept (src g : Nat) (s : State) (hs : Kept k0 s) :
    Kept k0 (wakeNow src g s) := by
  unfold wakeNow
  with_reducible repeat' first
    | assumption | apply wakeDomains_kept | apply Kept.ite | intro _ | split

theorem wakeGroupFor_kept (src g : Nat) (s : State) (hs : Kept k0 s) :
    Kept k0 (wakeGroupFor src g s) := by
  unfold wakeGroupFor
  with_reducible repeat' first
    | assumption | apply modPower_kept | apply wakeNow_kept | apply Kept.ite | intro _ | dsimp only

theorem runHeld_kept (s : State) (hs : Kept k0 s) :
    Kept k0 (runHeld s) := by
  unfold runHeld
  with_reducible repeat' first
    | assumption | apply wakeNow_kept | apply modPower_kept | apply Kept.foldl | intro _ | dsimp only

theorem wrWakeGroup_kept (a0 : Nat) (v0 : Bytes) (s : State) (hs : Kept k0 s) :
    Kept k0 (wrWakeGroup a0 v0 s).2 := by
  unfold wrWakeGroup
  with_reducible repeat' first
    | assumption | apply wakeGroupFor_kept | apply setVal_kept | apply Kept.foldl | intro _ | dsimp only | split

theorem execWakeGroup_kept (h : DHdr) (v : Bytes) (s : State) (hs : Kept k0 s) :
    KeptO k0 (execWakeGroup h v s) := by
  unfold execWakeGroup
  with_reducible repeat' first
    | assumption | apply KeptO.next | apply dictWriteRow_kept | apply wrWakeGroup_kept | intro _ | dsimp only

theorem wrDeviceMode_kept (a0 : Nat) (v0 : Bytes) (s : State) (hs : Kept k0 s) :
    Kept k0 (wrDeviceMode a0 v0 s).2 := by
  unfold wrDeviceMode
  with_reducible repeat' first
    | assumption | apply setVal_kept | apply nightCheck_kept | apply requestLeave_kept | apply bump_kept
    | apply wakeGroupFor_kept | apply Kept.ite | apply Kept.foldl | intro _ | dsimp only | split

theorem execDeviceModeWrite_kept (h : DHdr) (v : Bytes) (s : State) (hs : Kept k0 s) :
    KeptO k0 (execDeviceModeWrite h v s) := by
  unfold execDeviceModeWrite
  with_reducible repeat' first
    | assumption | apply KeptO.next | apply dictWriteRow_kept | apply wrDeviceMode_kept | intro _ | dsimp only

theorem wrWakeAlarm_kept (a0 : Nat) (v0 : Bytes) (s : State) (hs : Kept k0 s) :
    Kept k0 (wrWakeAlarm a0 v0 s).2 := by
  unfold wrWakeAlarm
  with_reducible repeat' first
    | assumption | apply modPower_kept | apply timedCount_kept | apply Kept.ite | intro _ | dsimp only | split

theorem execWakeAlarm_kept (h : DHdr) (v : Bytes) (s : State) (hs : Kept k0 s) :
    KeptO k0 (execWakeAlarm h v s) := by
  unfold execWakeAlarm
  with_reducible repeat' first
    | assumption | apply KeptO.next | apply dictWriteRow_kept | apply wrWakeAlarm_kept | intro _ | dsimp only

theorem execWakeAlarmFire_kept (s : State) (hs : Kept k0 s) :
    KeptO k0 (execWakeAlarmFire s) := by
  unfold execWakeAlarmFire
  with_reducible repeat' first
    | assumption | apply KeptO.next | apply bump_kept | apply wakeGroupFor_kept | apply modPower_kept | apply Kept.ite
    | intro _ | dsimp only | split

theorem execMgmtWakeByte_kept (addr : BitVec 7) (first : BitVec 8) (s : State) (hs : Kept k0 s) :
    KeptO k0 (execMgmtWakeByte addr first s) := by
  unfold execMgmtWakeByte
  with_reducible repeat' first
    | assumption | apply KeptO.next | apply bump_kept | apply wakeGroupFor_kept | apply Kept.ite | intro _
    | dsimp only | split

theorem execSignalDetectWake_kept (rx : RxLevel) (s : State) (hs : Kept k0 s) :
    KeptO k0 (execSignalDetectWake rx s) := by
  unfold execSignalDetectWake
  with_reducible repeat' first
    | assumption | apply KeptO.next | apply modFab_kept | apply bump_kept | apply wakeGroupFor_kept | apply Kept.ite
    | intro _ | dsimp only | split

theorem execPairWake_kept (t : Fin 768) (s : State) (hs : Kept k0 s) :
    KeptO k0 (execPairWake t s) := by
  unfold execPairWake
  with_reducible repeat' first
    | assumption | apply KeptO.next | apply wakeFor_kept | apply Kept.ite | intro _ | dsimp only | split

theorem execDuskIdleEntry_kept (dom : Fin 80) (s : State) (hs : Kept k0 s) :
    KeptO k0 (execDuskIdleEntry dom s) := by
  unfold execDuskIdleEntry
  with_reducible repeat' first
    | assumption | apply KeptO.next | apply requestLeave_kept | apply Kept.ite | intro _ | split

theorem execDuskUngate_kept (dom : Fin 80) (s : State) (hs : Kept k0 s) :
    KeptO k0 (execDuskUngate dom s) := by
  unfold execDuskUngate
  with_reducible repeat' first
    | assumption | apply KeptO.next | apply wakeDomain_kept | apply Kept.ite | intro _ | dsimp only | split

theorem execSoftStartBegin_kept (s : State) (hs : Kept k0 s) :
    KeptO k0 (execSoftStartBegin s) := by
  unfold execSoftStartBegin
  with_reducible repeat' first
    | assumption | apply KeptO.next | apply modPower_kept | apply modDom_kept | apply addM_kept
    | apply countDelay_kept | apply Kept.ite | intro _ | dsimp only | split

theorem execSoftStartEnd_kept (dom : Fin 80) (s : State) (hs : Kept k0 s) :
    KeptO k0 (execSoftStartEnd dom s) := by
  unfold execSoftStartEnd
  with_reducible repeat' first
    | assumption | apply KeptO.next | apply modPower_kept | apply modDom_kept | apply Kept.ite | intro _ | dsimp only
    | split

theorem restoreDomain_kept (d : Nat) (s : State) (hs : Kept k0 s) :
    Kept k0 (restoreDomain d s) := by
  unfold restoreDomain
  with_reducible repeat' first
    | assumption | apply reloadTile_kept | apply modHbm_kept | apply Kept.ite | intro _ | dsimp only | split

theorem execRestoreEnd_kept (dom : Fin 80) (s : State) (hs : Kept k0 s) :
    KeptO k0 (execRestoreEnd dom s) := by
  unfold execRestoreEnd
  with_reducible repeat' first
    | assumption | apply KeptO.next | apply beginStages_kept | apply restoreDomain_kept | apply Kept.ite | intro _
    | dsimp only | split

theorem reloadCourse_kept (s : State) (hs : Kept k0 s) :
    Kept k0 (reloadCourse s) := by
  unfold reloadCourse
  with_reducible repeat' first
    | assumption | apply loadCourse_kept | apply Kept.ite | intro _ | dsimp only

theorem reachDay_kept (d : Nat) (s : State) (hs : Kept k0 s) :
    Kept k0 (reachDay d s) := by
  unfold reachDay
  with_reducible repeat' first
    | assumption | apply bumpIf_kept | apply modDom_kept | apply startTraining_kept | apply modPort_kept
    | apply stackWake_kept | apply modHbm_kept | apply reloadCourse_kept | apply setElig_kept
    | apply requestLeave_kept | apply Kept.ite | apply Kept.foldl | intro _ | dsimp only | split

theorem clocksStopped_kept (d : Nat) (s : State) (hs : Kept k0 s) :
    Kept k0 (clocksStopped d s) := by
  unfold clocksStopped
  with_reducible repeat' first
    | assumption | apply bump_kept | apply modDom_kept | apply Kept.ite | intro _ | dsimp only

theorem windowStage_kept (a : Nat × State) (d : Nat) (ha : Kept k0 a.2) :
    Kept k0 (windowStage a d).2 := by
  unfold windowStage
  with_reducible repeat' first
    | assumption | apply modPower_kept | apply reachDay_kept | apply clocksStopped_kept | apply modDom_kept
    | apply Kept.ite | intro _ | dsimp only | split

theorem startWaiting_kept (s : State) (hs : Kept k0 s) :
    Kept k0 (startWaiting s) := by
  unfold startWaiting
  with_reducible repeat' first
    | assumption | apply startStages_kept | apply Kept.ite | apply Kept.foldl | intro _ | dsimp only

theorem ballastWindow_kept (s : State) (hs : Kept k0 s) :
    Kept k0 (ballastWindow s) := by
  unfold ballastWindow
  with_reducible repeat' first
    | assumption | apply modPower_kept | apply Kept.ite | intro _ | dsimp only

theorem execGovernorWindow_kept (s : State) (hs : Kept k0 s) :
    KeptO k0 (execGovernorWindow s) := by
  unfold execGovernorWindow
  with_reducible repeat' first
    | assumption | apply KeptO.next | exact KeptO.fault _ | exact KeptO.refused _ | apply KeptO.ite
    | apply ballastWindow_kept | apply startWaiting_kept | apply windowStage_kept | apply Kept.ite | apply Kept.foldl
    | apply Kept.foldlPair | apply Kept.foldlFst | intro _ | refine Kept.of_pair (by assumption) ?_
    | refine Kept.of_triple (by assumption) ?_ | dsimp only | split

theorem execDomainLeaveEnd_kept (dom : Fin 80) (s : State) (hs : Kept k0 s) :
    KeptO k0 (execDomainLeaveEnd dom s) := by
  unfold execDomainLeaveEnd
  with_reducible repeat' first
    | assumption | apply KeptO.next | apply modDom_kept | apply bump_kept | apply loseDomain_kept | apply modHbm_kept
    | apply modPower_kept | apply nightCheck_kept | apply wakeDeps_kept | apply Kept.ite | intro _ | dsimp only
    | split

theorem execLstepDeassert_kept (s : State) (hs : Kept k0 s) :
    KeptO k0 (execLstepDeassert s) := by
  unfold execLstepDeassert
  with_reducible repeat' first
    | assumption | apply KeptO.next | apply modPower_kept | apply emit_kept | apply Kept.ite | intro _ | dsimp only
    | split

end Sys2Proof.Machine
end

