-- ==== Sys2Proof/Laws/KeptFreeze.lean ====
section
/-! SUPPORT. What every operation of Machine/Freeze.lean keeps. -/

namespace Sys2Proof.Machine

variable {k0 : State}

theorem execFreezeNEdge_kept (s : State) (hs : Kept k0 s) :
    KeptO k0 (execFreezeNEdge s) := by
  unfold execFreezeNEdge
  with_reducible repeat' first
    | assumption | apply KeptO.next | apply freezeTrigger_kept

theorem wrFreeze_kept (a0 : Nat) (v0 : Bytes) (s : State) (hs : Kept k0 s) :
    Kept k0 (wrFreeze a0 v0 s).2 := by
  unfold wrFreeze
  with_reducible repeat' first
    | assumption | apply freezeTrigger_kept | apply Kept.ite | intro _ | dsimp only | split

theorem execFreeze_kept (h : DHdr) (v : Bytes) (s : State) (hs : Kept k0 s) :
    KeptO k0 (execFreeze h v s) := by
  unfold execFreeze
  with_reducible repeat' first
    | assumption | apply KeptO.next | apply dictWriteRow_kept | apply wrFreeze_kept | intro _ | dsimp only

theorem wrFreezeTime_kept (a0 : Nat) (v0 : Bytes) (s : State) (hs : Kept k0 s) :
    Kept k0 (wrFreezeTime a0 v0 s).2 := by
  unfold wrFreezeTime
  with_reducible repeat' first
    | assumption | apply timedCount_kept | apply modDbg_kept | apply Kept.ite | intro _ | dsimp only | split

theorem execFreezeTime_kept (h : DHdr) (v : Bytes) (s : State) (hs : Kept k0 s) :
    KeptO k0 (execFreezeTime h v s) := by
  unfold execFreezeTime
  with_reducible repeat' first
    | assumption | apply KeptO.next | apply dictWriteRow_kept | apply wrFreezeTime_kept | intro _ | dsimp only

theorem beginFreeze_kept (f : Nat) (timed : Bool) (s : State) (hs : Kept k0 s) :
    Kept k0 (beginFreeze f timed s) := by
  unfold beginFreeze
  with_reducible repeat' first
    | assumption | apply modDbg_kept | apply bump_kept | apply assertLstep_kept | apply modClk_kept | apply Kept.ite
    | intro _ | dsimp only | split

theorem freezeNow_kept (timed : Bool) (s : State) (hs : Kept k0 s) :
    Kept k0 (freezeNow timed s) := by
  unfold freezeNow
  with_reducible repeat' first
    | assumption | apply beginFreeze_kept | apply bump_kept | apply modDbg_kept | apply Kept.ite | intro _
    | dsimp only

theorem execFreezeFire_kept (s : State) (hs : Kept k0 s) :
    KeptO k0 (execFreezeFire s) := by
  unfold execFreezeFire
  with_reducible repeat' first
    | assumption | apply KeptO.next | apply freezeNow_kept | split

theorem selfRefresh_kept (s : State) (hs : Kept k0 s) :
    Kept k0 (selfRefresh s) := by
  unfold selfRefresh
  with_reducible repeat' first
    | assumption | apply modHbm_kept | apply stackSelfRefresh_kept | apply Kept.ite | apply Kept.foldl | intro _
    | dsimp only

theorem dropPartial_kept (s : State) (hs : Kept k0 s) :
    Kept k0 (dropPartial s) := by
  unfold dropPartial
  with_reducible repeat' first
    | assumption | apply releaseQuiet_kept | apply Kept.foldl | intro _ | dsimp only

theorem holdCurrent_kept (s : State) (hs : Kept k0 s) :
    Kept k0 (holdCurrent s) := by
  unfold holdCurrent
  with_reducible repeat' first
    | assumption | apply modPower_kept | dsimp only

theorem execFreezeStop_kept (s : State) (hs : Kept k0 s) :
    KeptO k0 (execFreezeStop s) := by
  unfold execFreezeStop
  with_reducible repeat' first
    | assumption | apply KeptO.next | apply holdCurrent_kept | apply dropPartial_kept | apply selfRefresh_kept
    | apply modDbg_kept | apply Kept.ite | intro _ | dsimp only | split

theorem startDump_kept (jtag : Bool) (s : State) (hs : Kept k0 s) :
    Kept k0 (startDump jtag s).2 := by
  unfold startDump
  with_reducible repeat' first
    | assumption | apply modDbg_kept | apply Kept.ite | intro _ | dsimp only | split

theorem execDumpStart_kept (via : DumpVia) (s : State) (hs : Kept k0 s) :
    KeptO k0 (execDumpStart via s) := by
  unfold execDumpStart
  with_reducible repeat' first
    | assumption | apply KeptO.next | apply dictWriteRow_kept | apply startDump_kept | apply Kept.ite | intro _
    | refine Kept.of_pair (by assumption) ?_ | dsimp only | split

theorem execDumpEnd_kept (s : State) (hs : Kept k0 s) :
    KeptO k0 (execDumpEnd s) := by
  unfold execDumpEnd
  with_reducible repeat' first
    | assumption | apply KeptO.next | apply bump_kept | apply emit_kept | apply modDbg_kept | apply Kept.ite | intro _
    | dsimp only | split

theorem wrThaw_kept (a0 : Nat) (v0 : Bytes) (s : State) (hs : Kept k0 s) :
    Kept k0 (wrThaw a0 v0 s).2 := by
  unfold wrThaw
  with_reducible repeat' first
    | assumption | apply modDbg_kept | apply Kept.ite | intro _ | dsimp only | split

theorem execThaw_kept (h : DHdr) (v : Bytes) (s : State) (hs : Kept k0 s) :
    KeptO k0 (execThaw h v s) := by
  unfold execThaw
  with_reducible repeat' first
    | assumption | apply KeptO.next | apply dictWriteRow_kept | apply wrThaw_kept | intro _ | dsimp only

theorem wrThawTime_kept (a0 : Nat) (v0 : Bytes) (s : State) (hs : Kept k0 s) :
    Kept k0 (wrThawTime a0 v0 s).2 := by
  unfold wrThawTime
  with_reducible repeat' first
    | assumption | apply timedCount_kept | apply modDbg_kept | apply Kept.ite | intro _ | dsimp only | split

theorem execThawTime_kept (h : DHdr) (v : Bytes) (s : State) (hs : Kept k0 s) :
    KeptO k0 (execThawTime h v s) := by
  unfold execThawTime
  with_reducible repeat' first
    | assumption | apply KeptO.next | apply dictWriteRow_kept | apply wrThawTime_kept | intro _ | dsimp only

theorem execThawFire_kept (s : State) (hs : Kept k0 s) :
    KeptO k0 (execThawFire s) := by
  unfold execThawFire
  with_reducible repeat' first
    | assumption | apply KeptO.next | apply modDbg_kept | apply modHbm_kept | apply stackWake_kept
    | apply assertLstep_kept | apply bump_kept | apply Kept.ite | apply Kept.foldl | intro _ | dsimp only | split

theorem shiftTimers_kept (dur : Nat) (s : State) (hs : Kept k0 s) :
    Kept k0 (shiftTimers dur s) := by
  unfold shiftTimers
  with_reducible repeat' first
    | assumption | apply modLocks_kept | apply modZmt_kept | apply Kept.ite | intro _ | dsimp only

theorem shiftThreads_kept (dur : Nat) (s : State) (hs : Kept k0 s) :
    Kept k0 (shiftThreads dur s) := by
  unfold shiftThreads
  with_reducible repeat' first
    | assumption | apply modCpu_kept | apply Kept.ite | intro _ | dsimp only

theorem shiftPower_kept (dur rel : Nat) (s : State) (hs : Kept k0 s) :
    Kept k0 (shiftPower dur rel s) := by
  unfold shiftPower
  with_reducible repeat' first
    | assumption | apply modPower_kept | apply Kept.ite | intro _ | dsimp only

theorem thawPort_kept (rel sp : Nat) (s : State) (hs : Kept k0 s) :
    Kept k0 (thawPort rel sp s) := by
  unfold thawPort
  with_reducible repeat' first
    | assumption | apply modSub_kept | apply startTraining_kept | apply dropTx_kept | apply Kept.ite | intro _
    | dsimp only

theorem endFreeze_kept (rel : Nat) (s : State) (hs : Kept k0 s) :
    Kept k0 (endFreeze rel s) := by
  unfold endFreeze
  with_reducible repeat' first
    | assumption | apply modClk_kept | apply modPower_kept | apply modDbg_kept | apply shiftPower_kept
    | apply shiftThreads_kept | apply shiftTimers_kept | apply thawPort_kept | apply modMat_kept | apply bump_kept
    | apply runHeld_kept | apply Kept.foldl | intro _ | dsimp only

end Sys2Proof.Machine
end

