-- ==== Sys2Proof/Laws/KeptFwdTab.lean ====
section
/-! SUPPORT. What every operation of Machine/FwdTab.lean keeps. -/

namespace Sys2Proof.Machine

variable {k0 : State}

theorem lnqPut_kept (kind : Nat) (lt : Bool) (slot : Nat) (e : W64 × W64) (s : State) (hs : Kept k0 s) :
    Kept k0 (lnqPut kind lt slot e s) := by
  unfold lnqPut
  with_reducible repeat' first
    | assumption | apply bump_kept | apply tecLearn_kept | apply modFwd_kept | apply Kept.ite | intro _ | dsimp only

theorem modEt_kept (i : Nat) (f : W64 × W64 → W64 × W64) (s : State) (hs : Kept k0 s) :
    Kept k0 (modEt i f s) := by
  unfold modEt
  with_reducible repeat' first
    | assumption | apply modFwd_kept | dsimp only

theorem writeEt_kept (i : Nat) (f : W64 × W64 → W64 × W64) (s : State) (hs : Kept k0 s) :
    Kept k0 (writeEt i f s) := by
  unfold writeEt
  with_reducible repeat' first
    | assumption | apply metaWrite_kept | apply modEt_kept | intro _

theorem etTouch_kept (i : Nat) (s : State) (hs : Kept k0 s) :
    Kept k0 (etTouch i s) := by
  unfold etTouch
  with_reducible repeat' first
    | assumption | apply modEt_kept | dsimp only

theorem cacheFill_kept (slot : Nat) (s : State) (hs : Kept k0 s) :
    Kept k0 (cacheFill slot s) := by
  unfold cacheFill
  with_reducible repeat' first
    | assumption | apply modFwd_kept | dsimp only

theorem cacheDrop_kept (slot : Nat) (s : State) (hs : Kept k0 s) :
    Kept k0 (cacheDrop slot s) := by
  unfold cacheDrop
  with_reducible repeat' first
    | assumption | apply modFwd_kept | dsimp only

theorem etClear_kept (i : Nat) (s : State) (hs : Kept k0 s) :
    Kept k0 (etClear i s) := by
  unfold etClear
  with_reducible repeat' first
    | assumption | apply cacheDrop_kept | apply writeEt_kept | apply peerDiscard_kept | apply Kept.ite | intro _
    | dsimp only

theorem pickVictim_kept (c : List (Nat × Nat)) (oldest : Bool) (s : State) (hs : Kept k0 s) :
    Kept k0 (pickVictim c oldest s).2 := by
  unfold pickVictim
  with_reducible repeat' first
    | assumption | apply drawn_kept | apply Kept.ite | apply Kept.foldl | intro _ | dsimp only | split

theorem insertEt_kept (w0 w1 : Nat) (s : State) (hs : Kept k0 s) :
    Kept k0 (insertEt w0 w1 s).2 := by
  unfold insertEt
  with_reducible repeat' first
    | assumption | apply bump_kept | apply writeEt_kept | apply pickVictim_kept | apply lnqPut_kept
    | apply etClear_kept | apply Kept.ite | intro _ | refine Kept.of_pair (by assumption) ?_ | dsimp only | split

theorem modLt_kept (i : Nat) (f : W64 × W64 → W64 × W64) (s : State) (hs : Kept k0 s) :
    Kept k0 (modLt i f s) := by
  unfold modLt
  with_reducible repeat' first
    | assumption | apply modFwd_kept | dsimp only

theorem ltTouch_kept (i : Nat) (s : State) (hs : Kept k0 s) :
    Kept k0 (ltTouch i s) := by
  unfold ltTouch
  with_reducible repeat' first
    | assumption | apply modLt_kept | dsimp only

theorem insertLt_kept (w0 w1 : Nat) (s : State) (hs : Kept k0 s) :
    Kept k0 (insertLt w0 w1 s).2 := by
  unfold insertLt
  with_reducible repeat' first
    | assumption | apply modLt_kept | apply pickVictim_kept | apply bump_kept | apply lnqPut_kept | apply Kept.ite
    | intro _ | refine Kept.of_pair (by assumption) ?_ | dsimp only | split

theorem learnDo_kept (sp mac vid birth : Nat) (s : State) (hs : Kept k0 s) :
    Kept k0 (learnDo sp mac vid birth s) := by
  unfold learnDo
  with_reducible repeat' first
    | assumption | apply ltTouch_kept | apply bump_kept | apply modLt_kept | apply lnqPut_kept | apply insertLt_kept
    | apply Kept.ite | intro _ | refine Kept.of_pair (by assumption) ?_ | dsimp only | split

theorem sweepEtSlot_kept (i : Nat) (s : State) (hs : Kept k0 s) :
    Kept k0 (sweepEtSlot i s) := by
  unfold sweepEtSlot
  with_reducible repeat' first
    | assumption | apply modEt_kept | apply bump_kept | apply lnqPut_kept | apply etClear_kept | apply Kept.ite
    | intro _ | dsimp only | split

theorem sweepLtSlot_kept (i : Nat) (s : State) (hs : Kept k0 s) :
    Kept k0 (sweepLtSlot i s) := by
  unfold sweepLtSlot
  with_reducible repeat' first
    | assumption | apply modLt_kept | apply bump_kept | apply lnqPut_kept | apply Kept.ite | intro _ | dsimp only
    | split

theorem sweepEt_kept (s : State) (hs : Kept k0 s) :
    Kept k0 (sweepEt s) := by
  unfold sweepEt
  with_reducible repeat' first
    | assumption | apply sweepEtSlot_kept | apply modFwd_kept | apply Kept.foldl | intro _ | dsimp only

theorem sweepLt_kept (s : State) (hs : Kept k0 s) :
    Kept k0 (sweepLt s) := by
  unfold sweepLt
  with_reducible repeat' first
    | assumption | apply sweepLtSlot_kept | apply modFwd_kept | apply Kept.foldl | intro _ | dsimp only

theorem sweepBoth_kept (s : State) (hs : Kept k0 s) :
    Kept k0 (sweepBoth s) := by
  unfold sweepBoth
  with_reducible repeat' first
    | assumption | apply sweepEtSlot_kept | apply sweepLtSlot_kept | apply modFwd_kept | apply Kept.ite
    | apply Kept.foldl | intro _ | dsimp only

theorem dueEt_kept (s : State) (hs : Kept k0 s) :
    Kept k0 (dueEt s) := by
  unfold dueEt
  with_reducible repeat' first
    | assumption | apply bump_kept | apply modFwd_kept | apply sweepEt_kept | apply Kept.ite | intro _ | dsimp only

theorem dueLt_kept (s : State) (hs : Kept k0 s) :
    Kept k0 (dueLt s) := by
  unfold dueLt
  with_reducible repeat' first
    | assumption | apply bump_kept | apply modFwd_kept | apply sweepLt_kept | apply Kept.ite | intro _ | dsimp only

theorem filtPut_kept (af blk : Nat) (v : Nat) (s : State) (hs : Kept k0 s) :
    Kept k0 (filtPut af blk v s) := by
  unfold filtPut
  with_reducible repeat' first
    | assumption | apply modFwd_kept | dsimp only

theorem lpmRoute_kept (pl af a : Nat) (s : State) (hs : Kept k0 s) :
    Kept k0 (lpmRoute pl af a s).2 := by
  unfold lpmRoute
  with_reducible repeat' first
    | assumption | apply bumpBy_kept | apply bump_kept | apply Kept.ite | intro _ | dsimp only | split

theorem filtSet_kept (af len pfx : Nat) (b : Bool) (s : State) (hs : Kept k0 s) :
    Kept k0 (filtSet af len pfx b s) := by
  unfold filtSet
  with_reducible repeat' first
    | assumption | apply modFwd_kept | apply Kept.foldl | intro _ | dsimp only

theorem filtSet0_kept (af : Nat) (b : Bool) (s : State) (hs : Kept k0 s) :
    Kept k0 (filtSet0 af b s) := by
  unfold filtSet0
  with_reducible repeat' first
    | assumption | apply modFwd_kept | apply Kept.ite | intro _ | dsimp only

theorem lpmAdd_kept (af len pfx nhg : Nat) (s : State) (hs : Kept k0 s) :
    Kept k0 (lpmAdd af len pfx nhg s).2 := by
  unfold lpmAdd
  with_reducible repeat' first
    | assumption | apply modFwd_kept | apply filtSet0_kept | apply filtSet_kept | apply Kept.ite | intro _
    | dsimp only | split

theorem lpmDelete_kept (af len pfx : Nat) (s : State) (hs : Kept k0 s) :
    Kept k0 (lpmDelete af len pfx s).2 := by
  unfold lpmDelete
  with_reducible repeat' first
    | assumption | apply filtSet0_kept | apply modFwd_kept | apply filtSet_kept | apply Kept.ite | intro _
    | dsimp only | split

theorem lpmConfig_kept (af len : Nat) (v : W64) (s : State) (hs : Kept k0 s) :
    Kept k0 (lpmConfig af len v s).2 := by
  unfold lpmConfig
  with_reducible repeat' first
    | assumption | apply modFwd_kept | apply Kept.ite | intro _ | dsimp only | split

end Sys2Proof.Machine
end

