-- ==== Sys2Proof/Laws/KeptForward.lean ====
section
/-! SUPPORT. What every operation of Machine/Forward.lean keeps. -/

namespace Sys2Proof.Machine

variable {k0 : State}

theorem failFwd_kept (k pl reason sub : Nat) (s : State) (hs : Kept k0 s) :
    Kept k0 (failFwd k pl reason sub s) := by
  unfold failFwd
  with_reducible repeat' first
    | assumption | apply failPkt_kept | apply bump_kept

theorem queuePkt_kept (k pl sp : Nat) (s : State) (hs : Kept k0 s) :
    Kept k0 (queuePkt k pl sp s) := by
  unfold queuePkt
  with_reducible repeat' first
    | assumption | apply admitPkt_kept | apply pfcCheck_kept | apply failFwd_kept | apply Kept.ite | intro _
    | refine Kept.of_pair (by assumption) ?_ | dsimp only | split

theorem forwardGroup_kept (k pl : Nat) (g : Option Nat) (s : State) (hs : Kept k0 s) :
    Kept k0 (forwardGroup k pl g s) := by
  unfold forwardGroup
  with_reducible repeat' first
    | assumption | apply failFwd_kept | apply routeTo_kept | apply queuePkt_kept | apply writeMacs_kept
    | apply modPkt_kept | intro _ | refine Kept.of_pair (by assumption) ?_ | dsimp only | split

theorem forwardLpm_kept (k pl : Nat) (p : Pkt) (s : State) (hs : Kept k0 s) :
    Kept k0 (forwardLpm k pl p s) := by
  unfold forwardLpm
  with_reducible repeat' first
    | assumption | apply lpmRoute_kept | apply forwardGroup_kept | dsimp only

theorem forwardEt_kept (k pl : Nat) (p : Pkt) (slot : Option Nat) (s : State) (hs : Kept k0 s) :
    Kept k0 (forwardEt k pl p slot s) := by
  unfold forwardEt
  with_reducible repeat' first
    | assumption | apply bump_kept | apply cacheFill_kept | apply etTouch_kept | apply forwardGroup_kept
    | apply forwardLpm_kept | dsimp only | split

theorem forwardBridge_kept (k pl : Nat) (p : Pkt) (s : State) (hs : Kept k0 s) :
    Kept k0 (forwardBridge k pl p s) := by
  unfold forwardBridge
  with_reducible repeat' first
    | assumption | apply failFwd_kept | apply queuePkt_kept | apply ltTouch_kept | apply Kept.ite | intro _ | split

theorem waitMiss_kept (k pl b : Nat) (s : State) (hs : Kept k0 s) :
    Kept k0 (waitMiss k pl b s) := by
  unfold waitMiss
  with_reducible repeat' first
    | assumption | apply modPkt_kept | apply modFwd_kept | apply metaRead_kept | apply bump_kept | apply Kept.ite
    | intro _ | dsimp only

theorem execForwardDecision_kept (pl : Fin 8) (s : State) (hs : Kept k0 s) :
    KeptO k0 (execForwardDecision pl s) := by
  unfold execForwardDecision
  with_reducible repeat' first
    | assumption | apply KeptO.next | apply KeptO.ite | apply forwardBridge_kept | apply failFwd_kept
    | apply waitMiss_kept | apply forwardEt_kept | apply forwardLpm_kept | apply Kept.ite | intro _ | dsimp only
    | split

theorem execEtMissComplete_kept (pl : Fin 8) (bucket : Nat) (s : State) (hs : Kept k0 s) :
    KeptO k0 (execEtMissComplete pl bucket s) := by
  unfold execEtMissComplete
  with_reducible repeat' first
    | assumption | apply KeptO.next | apply KeptO.ite | apply modFwd_kept | apply forwardEt_kept | apply modPkt_kept
    | apply Kept.ite | apply Kept.foldl | intro _ | dsimp only | split

theorem execLearnInsert_kept (s : State) (hs : Kept k0 s) :
    KeptO k0 (execLearnInsert s) := by
  unfold execLearnInsert
  with_reducible repeat' first
    | assumption | apply KeptO.next | apply learnDo_kept | apply modFwd_kept | dsimp only | split

theorem execAgingSweepStart_kept (s : State) (hs : Kept k0 s) :
    KeptO k0 (execAgingSweepStart s) := by
  unfold execAgingSweepStart
  with_reducible repeat' first
    | assumption | apply KeptO.next | apply KeptO.ite | apply modFwd_kept | apply dueLt_kept | apply dueEt_kept
    | apply sweepBoth_kept | apply Kept.ite | intro _ | dsimp only | split

theorem execAgingSweepEnd_kept (lt : Bool) (s : State) (hs : Kept k0 s) :
    KeptO k0 (execAgingSweepEnd lt s) := by
  unfold execAgingSweepEnd
  with_reducible repeat' first
    | assumption | apply KeptO.next | apply KeptO.ite | apply modFwd_kept | apply sweepLt_kept | apply sweepEt_kept
    | apply Kept.ite | intro _ | dsimp only | split

theorem lnqPop_kept (master : Nat) (s : State) (hs : Kept k0 s) :
    Kept k0 (lnqPop master s).2 := by
  unfold lnqPop
  with_reducible repeat' first
    | assumption | apply tecLearn_kept | apply modFwd_kept | dsimp only | split

theorem execLnqPop_kept (master : Nat) (s : State) (hs : Kept k0 s) :
    KeptO k0 (execLnqPop master s) := by
  unfold execLnqPop
  with_reducible repeat' first
    | assumption | apply KeptO.next | apply lnqPop_kept | apply emit_kept | dsimp only

theorem rdLnq_kept (a0 : Nat) (s : State) (hs : Kept k0 s) :
    Kept k0 (rdLnq a0 s).2.2 := by
  unfold rdLnq
  with_reducible repeat' first
    | assumption | apply tecLearn_kept | apply modFwd_kept | dsimp only

theorem execLnqRead_kept (h : DHdr) (s : State) (hs : Kept k0 s) :
    KeptO k0 (execLnqRead h s) := by
  unfold execLnqRead
  with_reducible repeat' first
    | assumption | apply KeptO.next | apply dictReadRow_kept | apply rdLnq_kept | intro _ | dsimp only

theorem modFwdCmd_kept (m : Bool) (f : FwdCmd → FwdCmd) (s : State) (hs : Kept k0 s) :
    Kept k0 (modFwdCmd m f s) := by
  unfold modFwdCmd
  with_reducible repeat' first
    | assumption | apply modFwd_kept | apply Kept.ite | intro _ | dsimp only

theorem fwdDone_kept (m : Bool) (st : Nat) (s : State) (hs : Kept k0 s) :
    Kept k0 (fwdDone m st s) := by
  unfold fwdDone
  with_reducible repeat' first
    | assumption | apply modFwdCmd_kept | dsimp only

theorem fwdGive_kept (m : Bool) (e : W64 × W64) (s : State) (hs : Kept k0 s) :
    Kept k0 (fwdGive m e s) := by
  unfold fwdGive
  with_reducible repeat' first
    | assumption | apply modFwdCmd_kept | dsimp only

theorem fwdLookupOp_kept (m lt : Bool) (s : State) (hs : Kept k0 s) :
    Kept k0 (fwdLookupOp m lt s) := by
  unfold fwdLookupOp
  with_reducible repeat' first
    | assumption | apply fwdDone_kept | apply ltTouch_kept | apply etTouch_kept | apply fwdGive_kept | apply Kept.ite
    | intro _ | dsimp only | split

theorem fwdInsertOp_kept (m lt : Bool) (s : State) (hs : Kept k0 s) :
    Kept k0 (fwdInsertOp m lt s) := by
  unfold fwdInsertOp
  with_reducible repeat' first
    | assumption | apply insertLt_kept | apply insertEt_kept | apply fwdDone_kept | apply Kept.ite | intro _
    | refine Kept.of_pair (by assumption) ?_ | dsimp only | split

theorem fwdDeleteOp_kept (m lt : Bool) (s : State) (hs : Kept k0 s) :
    Kept k0 (fwdDeleteOp m lt s) := by
  unfold fwdDeleteOp
  with_reducible repeat' first
    | assumption | apply fwdDone_kept | apply modLt_kept | apply etClear_kept | apply Kept.ite | intro _ | dsimp only
    | split

theorem fwdReadWayOp_kept (m lt : Bool) (way bucket : Nat) (s : State) (hs : Kept k0 s) :
    Kept k0 (fwdReadWayOp m lt way bucket s) := by
  unfold fwdReadWayOp
  with_reducible repeat' first
    | assumption | apply fwdDone_kept | apply fwdGive_kept | apply Kept.ite | intro _ | split

theorem execFwdLookup_kept (levelM lt : Bool) (s : State) (hs : Kept k0 s) :
    KeptO k0 (execFwdLookup levelM lt s) := by
  unfold execFwdLookup
  with_reducible repeat' first
    | assumption | apply KeptO.next | apply fwdLookupOp_kept

theorem execFwdInsert_kept (levelM lt : Bool) (s : State) (hs : Kept k0 s) :
    KeptO k0 (execFwdInsert levelM lt s) := by
  unfold execFwdInsert
  with_reducible repeat' first
    | assumption | apply KeptO.next | apply fwdInsertOp_kept

theorem execFwdDelete_kept (levelM lt : Bool) (s : State) (hs : Kept k0 s) :
    KeptO k0 (execFwdDelete levelM lt s) := by
  unfold execFwdDelete
  with_reducible repeat' first
    | assumption | apply KeptO.next | apply fwdDeleteOp_kept

theorem execReadWay_kept (levelM lt : Bool) (way : Fin 4) (bucket : Nat) (s : State) (hs : Kept k0 s) :
    KeptO k0 (execReadWay levelM lt way bucket s) := by
  unfold execReadWay
  with_reducible repeat' first
    | assumption | apply KeptO.next | apply fwdReadWayOp_kept

theorem wrEtOp_kept (a0 : Nat) (v0 : Bytes) (s : State) (hs : Kept k0 s) :
    Kept k0 (wrEtOp a0 v0 s).2 := by
  unfold wrEtOp
  with_reducible repeat' first
    | assumption | apply insertEt_kept | apply etClear_kept | apply Kept.ite | intro _
    | refine Kept.of_pair (by assumption) ?_ | dsimp only | split

theorem execEtInsert_kept (h : DHdr) (s : State) (hs : Kept k0 s) :
    KeptO k0 (execEtInsert h s) := by
  unfold execEtInsert
  with_reducible repeat' first
    | assumption | apply KeptO.next | apply dictWriteRow_kept | apply wrEtOp_kept | intro _ | dsimp only

theorem execEtDelete_kept (h : DHdr) (s : State) (hs : Kept k0 s) :
    KeptO k0 (execEtDelete h s) := by
  unfold execEtDelete
  with_reducible repeat' first
    | assumption | apply KeptO.next | apply dictWriteRow_kept | apply wrEtOp_kept | intro _ | dsimp only

theorem wrLpmOp_kept (a0 : Nat) (v0 : Bytes) (s : State) (hs : Kept k0 s) :
    Kept k0 (wrLpmOp a0 v0 s).2 := by
  unfold wrLpmOp
  with_reducible repeat' first
    | assumption | apply lpmAdd_kept | apply lpmDelete_kept | apply Kept.ite | intro _ | dsimp only | split

theorem execLpmAdd_kept (h : DHdr) (s : State) (hs : Kept k0 s) :
    KeptO k0 (execLpmAdd h s) := by
  unfold execLpmAdd
  with_reducible repeat' first
    | assumption | apply KeptO.next | apply dictWriteRow_kept | apply wrLpmOp_kept | intro _ | dsimp only

theorem execLpmDelete_kept (h : DHdr) (s : State) (hs : Kept k0 s) :
    KeptO k0 (execLpmDelete h s) := by
  unfold execLpmDelete
  with_reducible repeat' first
    | assumption | apply KeptO.next | apply dictWriteRow_kept | apply wrLpmOp_kept | intro _ | dsimp only

theorem wrLpmLenCfg_kept (a0 : Nat) (v0 : Bytes) (s : State) (hs : Kept k0 s) :
    Kept k0 (wrLpmLenCfg a0 v0 s).2 := by
  unfold wrLpmLenCfg
  with_reducible repeat' first
    | assumption | apply lpmConfig_kept | dsimp only

theorem rdLpmLenCfg_kept (a0 : Nat) (s : State) (hs : Kept k0 s) :
    Kept k0 (rdLpmLenCfg a0 s).2.2 := by
  unfold rdLpmLenCfg
  with_reducible repeat' first
    | assumption | dsimp only

theorem execLpmLenCfg_kept (h : DHdr) (v : Bytes) (s : State) (hs : Kept k0 s) :
    KeptO k0 (execLpmLenCfg h v s) := by
  unfold execLpmLenCfg
  with_reducible repeat' first
    | assumption | apply KeptO.next | apply dictWriteRow_kept | apply wrLpmLenCfg_kept | intro _ | dsimp only

theorem wrNhg_kept (a0 : Nat) (v0 : Bytes) (s : State) (hs : Kept k0 s) :
    Kept k0 (wrNhg a0 v0 s).2 := by
  unfold wrNhg
  with_reducible repeat' first
    | assumption | apply modFwd_kept | dsimp only

theorem execNhgWrite_kept (h : DHdr) (v : Bytes) (s : State) (hs : Kept k0 s) :
    KeptO k0 (execNhgWrite h v s) := by
  unfold execNhgWrite
  with_reducible repeat' first
    | assumption | apply KeptO.next | apply dictWriteRow_kept | apply wrNhg_kept | intro _ | dsimp only

end Sys2Proof.Machine
end

