-- ==== Sys2Proof/Laws/KeptHbm.lean ====
section
/-! SUPPORT. What every operation of Machine/Hbm.lean keeps. -/

namespace Sys2Proof.Machine

variable {k0 : State}

theorem tagQueue_kept (stack line : Nat) (write : Bool) (s : State) (hs : Kept k0 s) :
    Kept k0 (tagQueue stack line write s) := by
  unfold tagQueue
  with_reducible repeat' first
    | assumption | apply modHbmPc_kept | dsimp only

theorem tagTouch_kept (p : HbmPlace) (wr : Bool) (s : State) (hs : Kept k0 s) :
    Kept k0 (tagTouch p wr s) := by
  unfold tagTouch
  with_reducible repeat' first
    | assumption | apply modHbm_kept | apply bumpHbm_kept | apply tagQueue_kept | apply Kept.ite | apply Kept.foldl
    | intro _ | dsimp only | split

theorem blockWrite_kept (a : Nat) (mask : BitVec 64) (data : Bytes) (tsel : BitVec 8) (tags : Bytes) (s : State) (hs : Kept k0 s) :
    Kept k0 (blockWrite a mask data tsel tags s) := by
  unfold blockWrite
  with_reducible repeat' first
    | assumption | apply memPut_kept | apply tagPut_kept | apply Kept.ite | apply Kept.foldl | intro _ | dsimp only

theorem execHbmRequestAccept_kept (tag : Nat) (block : Fin 2818572288) (write : Bool) (mask : BitVec 64) (data : Bytes) (tsel : BitVec 8) (tags : Bytes) (prio : Fin 16) (s : State) (hs : Kept k0 s) :
    KeptO k0 (execHbmRequestAccept tag block write mask data tsel tags prio s) := by
  unfold execHbmRequestAccept
  with_reducible repeat' first
    | assumption | apply KeptO.next | apply KeptO.ite | apply hbmAnswer_kept | apply tagTouch_kept | apply pdExit_kept
    | apply bumpHbm_kept | apply modHbmPc_kept | apply blockWrite_kept | apply Kept.ite | intro _ | dsimp only | split

theorem hbmServe_kept (p : Nat) (q : HbmReq) (starved : Bool) (s : State) (hs : Kept k0 s) :
    Kept k0 (hbmServe p q starved s) := by
  unfold hbmServe
  with_reducible repeat' first
    | assumption | apply bumpHbm_kept | apply hbmCmd_kept | apply modHbmBank_kept | apply modHbmPc_kept
    | apply Kept.ite | intro _ | dsimp only | split

theorem hbmRefresh_kept (p b : Nat) (s : State) (hs : Kept k0 s) :
    Kept k0 (hbmRefresh p b s) := by
  unfold hbmRefresh
  with_reducible repeat' first
    | assumption | apply hbmCmd_kept | apply modHbmBank_kept | apply bumpHbm_kept | apply modHbmPc_kept | dsimp only
    | split

theorem execHbmCommandIssue_kept (pc : Fin 128) (s : State) (hs : Kept k0 s) :
    KeptO k0 (execHbmCommandIssue pc s) := by
  unfold execHbmCommandIssue
  with_reducible repeat' first
    | assumption | apply KeptO.next | apply KeptO.ite | apply modHbmPc_kept | apply hbmRefresh_kept
    | apply hbmServe_kept | apply Kept.ite | intro _ | dsimp only | split

theorem readOther_kept (q : HbmReq) (s : State) (hs : Kept k0 s) :
    Kept k0 (readOther q s) := by
  unfold readOther
  with_reducible repeat' first
    | assumption | apply queueMeta_kept | apply Kept.ite | intro _ | dsimp only

theorem pcFail_kept (p : Nat) (s : State) (hs : Kept k0 s) :
    Kept k0 (pcFail p s) := by
  unfold pcFail
  with_reducible repeat' first
    | assumption | apply modHbmPc_kept | apply bumpHbm_kept | apply readOther_kept | apply hbmAnswer_kept
    | apply Kept.ite | apply Kept.foldl | intro _ | dsimp only

theorem sev2Note_kept (p : Nat) (s : State) (hs : Kept k0 s) :
    Kept k0 (sev2Note p s) := by
  unfold sev2Note
  with_reducible repeat' first
    | assumption | apply bumpHbm_kept | apply modHbmPc_kept | apply Kept.ite | intro _ | dsimp only

theorem dataSeverity_kept (p a i sev : Nat) (s : State) (hs : Kept k0 s) :
    Kept k0 (dataSeverity p a i sev s) := by
  unfold dataSeverity
  with_reducible repeat' first
    | assumption | apply bumpHbm_kept | apply sev2Note_kept | apply poisonWord_kept | apply Kept.ite
    | apply Kept.foldl | intro _ | dsimp only

theorem tagSeverity_kept (p a sev : Nat) (s : State) (hs : Kept k0 s) :
    Kept k0 (tagSeverity p a sev s) := by
  unfold tagSeverity
  with_reducible repeat' first
    | assumption | apply bumpHbm_kept | apply sev2Note_kept | apply poisonLog_kept | apply tagPut_kept
    | apply Kept.ite | apply Kept.foldl | intro _ | dsimp only

theorem metaSeverity_kept (p : Nat) (q : HbmReq) (sev : Nat) (s : State) (hs : Kept k0 s) :
    Kept k0 (metaSeverity p q sev s) := by
  unfold metaSeverity
  with_reducible repeat' first
    | assumption | apply bumpHbm_kept | apply sev2Note_kept | apply queueMeta_kept | apply readOther_kept
    | apply Kept.ite | intro _ | dsimp only

theorem execHbmReadReturn_kept (pc : Fin 128) (sev0 sev1 sevTag : Fin 4) (s : State) (hs : Kept k0 s) :
    KeptO k0 (execHbmReadReturn pc sev0 sev1 sevTag s) := by
  unfold execHbmReadReturn
  with_reducible repeat' first
    | assumption | apply KeptO.next | apply KeptO.ite | apply modHbmPc_kept | apply metaSeverity_kept
    | apply tagSeverity_kept | apply dataSeverity_kept | apply hbmAnswer_kept | apply Kept.ite | intro _ | dsimp only
    | split

theorem execIdleClose_kept (pc : Fin 128) (bank : Fin 64) (s : State) (hs : Kept k0 s) :
    KeptO k0 (execIdleClose pc bank s) := by
  unfold execIdleClose
  with_reducible repeat' first
    | assumption | apply KeptO.next | apply KeptO.ite | apply hbmCmd_kept | apply modHbmBank_kept | apply Kept.ite
    | intro _ | dsimp only | split

theorem execRefreshDue_kept (pc : Fin 128) (s : State) (hs : Kept k0 s) :
    KeptO k0 (execRefreshDue pc s) := by
  unfold execRefreshDue
  with_reducible repeat' first
    | assumption | apply KeptO.next | apply KeptO.ite | apply modHbmPc_kept | apply pdExit_kept | apply Kept.ite
    | intro _ | dsimp only

theorem execHbmTemperatureRead_kept (stack : Fin 4) (temp : BitVec 8) (s : State) (hs : Kept k0 s) :
    KeptO k0 (execHbmTemperatureRead stack temp s) := by
  unfold execHbmTemperatureRead
  with_reducible repeat' first
    | assumption | apply KeptO.next | apply modHbm_kept | apply Kept.ite | intro _ | dsimp only | split

theorem execPowerDownEntry_kept (pc : Fin 128) (s : State) (hs : Kept k0 s) :
    KeptO k0 (execPowerDownEntry pc s) := by
  unfold execPowerDownEntry
  with_reducible repeat' first
    | assumption | apply KeptO.next | apply KeptO.ite | apply bumpHbm_kept | apply hbmCmd_kept | apply modHbmPc_kept
    | apply Kept.ite | intro _ | dsimp only

theorem hbmReissue_kept (p : Nat) (c : Nat × Nat × Nat × Nat) (s : State) (hs : Kept k0 s) :
    Kept k0 (hbmReissue p c s) := by
  unfold hbmReissue
  with_reducible repeat' first
    | assumption | apply emit_kept | apply modHbmBank_kept | apply Kept.ite | intro _ | dsimp only

theorem execParityAlert_kept (pc : Fin 128) (late : Fin 33) (s : State) (hs : Kept k0 s) :
    KeptO k0 (execParityAlert pc late s) := by
  unfold execParityAlert
  with_reducible repeat' first
    | assumption | apply KeptO.next | apply KeptO.ite | apply bumpHbm_kept | apply emit_kept | apply modHbmBank_kept
    | apply modHbmPc_kept | apply pcFail_kept | apply hbmReissue_kept | apply Kept.ite | apply Kept.foldl | intro _
    | dsimp only

theorem wrRetirePc_kept (a0 : Nat) (v0 : Bytes) (s : State) (hs : Kept k0 s) :
    Kept k0 (wrRetirePc a0 v0 s).2 := by
  unfold wrRetirePc
  with_reducible repeat' first
    | assumption | apply pcFail_kept | dsimp only

theorem execRetirePc_kept (h : DHdr) (v : Bytes) (s : State) (hs : Kept k0 s) :
    KeptO k0 (execRetirePc h v s) := by
  unfold execRetirePc
  with_reducible repeat' first
    | assumption | apply KeptO.next | apply dictWriteRow_kept | apply wrRetirePc_kept | intro _ | dsimp only

theorem laneFix_kept (v : Nat) (s : State) (hs : Kept k0 s) :
    Kept k0 (laneFix v s) := by
  unfold laneFix
  with_reducible repeat' first
    | assumption | apply hbmCmd_kept | apply modHbmBank_kept | apply bumpHbm_kept | apply modHbm_kept
    | apply Kept.foldl | intro _ | dsimp only

theorem wrLaneRepair_kept (a0 : Nat) (v0 : Bytes) (s : State) (hs : Kept k0 s) :
    Kept k0 (wrLaneRepair a0 v0 s).2 := by
  unfold wrLaneRepair
  with_reducible repeat' first
    | assumption | apply laneFix_kept | apply Kept.ite | intro _ | dsimp only | split

theorem execLaneRepair_kept (h : Option DHdr) (v : Bytes) (s : State) (hs : Kept k0 s) :
    KeptO k0 (execLaneRepair h v s) := by
  unfold execLaneRepair
  with_reducible repeat' first
    | assumption | apply KeptO.next | apply dictWriteRow_kept | apply wrLaneRepair_kept | apply laneFix_kept
    | apply pcFail_kept | apply Kept.ite | intro _ | refine Kept.of_pair (by assumption) ?_ | dsimp only | split

theorem wrRetireStack_kept (a0 : Nat) (v0 : Bytes) (s : State) (hs : Kept k0 s) :
    Kept k0 (wrRetireStack a0 v0 s).2 := by
  unfold wrRetireStack
  with_reducible repeat' first
    | assumption | apply modHbm_kept | apply retire_kept | apply poolDrain_kept | apply Kept.ite | apply Kept.foldl
    | intro _ | dsimp only | split

theorem execRetireStack_kept (h : DHdr) (v : Bytes) (s : State) (hs : Kept k0 s) :
    KeptO k0 (execRetireStack h v s) := by
  unfold execRetireStack
  with_reducible repeat' first
    | assumption | apply KeptO.next | apply dictWriteRow_kept | apply wrRetireStack_kept | intro _ | dsimp only

theorem execMetadataMoveComplete_kept (s : State) (hs : Kept k0 s) :
    KeptO k0 (execMetadataMoveComplete s) := by
  unfold execMetadataMoveComplete
  with_reducible repeat' first
    | assumption | apply KeptO.next | apply KeptO.ite | apply retireCheck_kept | apply modHbm_kept | apply Kept.ite
    | intro _ | dsimp only

end Sys2Proof.Machine
end

