-- ==== Sys2Proof/Laws/KeptHostQ.lean ====
section
/-! SUPPORT. What every operation of Machine/HostQ.lean keeps. -/

namespace Sys2Proof.Machine

variable {k0 : State}

theorem modLink_kept (k : Nat) (g : HLink → HLink) (s : State) (hs : Kept k0 s) :
    Kept k0 (modLink k g s) := by
  unfold modLink
  with_reducible repeat' first
    | assumption | apply modHost_kept | dsimp only

theorem bumpPort_kept (f sub : Nat) (s : State) (hs : Kept k0 s) :
    Kept k0 (bumpPort f sub s) := by
  unfold bumpPort
  with_reducible repeat' first
    | assumption | apply bump_kept

theorem toFunc_kept (f : Nat) (k : State → State) (s : State) (hk : ∀  s, Kept k0 s → Kept k0 (k  s)) (hs : Kept k0 s) :
    Kept k0 (toFunc f k s) := by
  unfold toFunc
  with_reducible repeat' first
    | assumption | apply bumpPort_kept | apply Kept.ite | apply hk | intro _ | dsimp only

theorem queueError_kept (q st : Nat) (s : State) (hs : Kept k0 s) :
    Kept k0 (queueError q st s) := by
  unfold queueError
  with_reducible repeat' first
    | assumption | apply postCpl_kept | apply bumpPort_kept | apply modFunc_kept | apply modCmq_kept | dsimp only

theorem doorbellError_kept (q : Nat) (s : State) (hs : Kept k0 s) :
    Kept k0 (doorbellError q s) := by
  unfold doorbellError
  with_reducible repeat' first
    | assumption | apply queueError_kept | apply drawn_kept

theorem tailWrite_kept (q t : Nat) (s : State) (hs : Kept k0 s) :
    Kept k0 (tailWrite q t s) := by
  unfold tailWrite
  with_reducible repeat' first
    | assumption | apply doorbellError_kept | apply modCmq_kept | apply Kept.ite | intro _ | dsimp only

theorem doorbell_kept (f q : Nat) (k : State → State) (s : State) (hk : ∀  s, Kept k0 s → Kept k0 (k  s)) (hs : Kept k0 s) :
    Kept k0 (doorbell f q k s) := by
  unfold doorbell
  with_reducible repeat' first
    | assumption | apply toFunc_kept | apply bumpPort_kept | apply Kept.ite | apply hk | intro _ | dsimp only

theorem execDoorbellTail_kept (func : Fin 256) (q : Fin 4096) (tail : BitVec 32) (s : State) (hs : Kept k0 s) :
    KeptO k0 (execDoorbellTail func q tail s) := by
  unfold execDoorbellTail
  with_reducible repeat' first
    | assumption | apply KeptO.next | apply doorbell_kept | apply tailWrite_kept | intro _ | dsimp only

theorem execDoorbellInline_kept (func : Fin 256) (q : Fin 4096) (whole : Bool) (entry : Bytes) (s : State) (hs : Kept k0 s) :
    KeptO k0 (execDoorbellInline func q whole entry s) := by
  unfold execDoorbellInline
  with_reducible repeat' first
    | assumption | apply KeptO.next | apply doorbell_kept | apply doorbellError_kept | apply modCmq_kept
    | apply Kept.ite | intro _ | dsimp only

theorem acceptEntries_kept {q : Nat} {l : List Bytes} : ∀ {s : State}, Kept k0 s →
    Kept k0 (acceptEntries q l s) := by
  induction l with
  | nil => intro s h; exact h
  | cons r t ih =>
    intro s h
    unfold acceptEntries
    dsimp only
    exact Kept.ite (fun _ => h) (fun _ => ih (bumpPort_kept _ _ _ (ledAccept_kept _ _ (modCmq_kept _ _ _ (modHost_kept h)))))

theorem hostAdvance_kept {n : Nat} : ∀ {q : Nat} {s : State}, Kept k0 s → Kept k0 (hostAdvance n q s) := by
  induction n with
  | zero => intro q s h; exact h
  | succ n ih =>
    intro q s h
    unfold hostAdvance
    repeat' (first | with_reducible assumption | with_reducible apply ih | with_reducible apply endCmd_kept | with_reducible apply Kept.ite | with_reducible intro _ | split)

theorem advanceQueue_kept (q : Nat) (s : State) (hs : Kept k0 s) :
    Kept k0 (advanceQueue q s) := by
  unfold advanceQueue
  with_reducible repeat' first
    | assumption | apply hostAdvance_kept

theorem runCmd_kept (q : Nat) (want : HCmd → Bool) (body : Nat → HCmd → State → State) (s : State) (hbody : ∀ a b s, Kept k0 s → Kept k0 (body a b s)) (hs : Kept k0 s) :
    Kept k0 (runCmd q want body s) := by
  unfold runCmd
  with_reducible repeat' first
    | assumption | apply advanceQueue_kept | apply modHost_kept | apply Kept.ite | apply hbody | intro _ | dsimp only
    | split | simp only [id_eq]

theorem execCmdFetch_kept (port : Fin 2) (data : Bytes) (err : Bool) (s : State) (hs : Kept k0 s) :
    KeptO k0 (execCmdFetch port data err s) := by
  unfold execCmdFetch
  with_reducible repeat' first
    | assumption | apply KeptO.next | apply modHost_kept | apply advanceQueue_kept | apply acceptEntries_kept
    | apply queueError_kept | apply requestXlate_kept | apply atcTouch_kept | apply emit_kept | apply Kept.ite
    | intro _ | dsimp only | split

theorem openCmq_kept (n : Nat) (y : CmQ) (s : State) (hs : Kept k0 s) :
    Kept k0 (openCmq n y s) := by
  unfold openCmq
  with_reducible repeat' first
    | assumption | apply modCmq_kept | apply modHost_kept | apply emit_kept | apply Kept.ite | intro _ | dsimp only

theorem adminWrite_kept (f v : Nat) (s : State) (hs : Kept k0 s) :
    Kept k0 (adminWrite f v s) := by
  unfold adminWrite
  with_reducible repeat' first
    | assumption | apply modFunc_kept | apply openCmq_kept | apply modCpq_kept | apply modCmq_kept | apply Kept.ite
    | intro _ | dsimp only | split

theorem execAdminQueueEnable_kept (func : Fin 256) (reg : Fin 8) (v : BitVec 64) (s : State) (hs : Kept k0 s) :
    KeptO k0 (execAdminQueueEnable func reg v s) := by
  unfold execAdminQueueEnable
  with_reducible repeat' first
    | assumption | apply KeptO.next | apply toFunc_kept | apply modFunc_kept | apply adminWrite_kept | intro _
    | dsimp only | split

theorem signalVec_kept (f v : Nat) (s : State) (hs : Kept k0 s) :
    Kept k0 (signalVec f v s) := by
  unfold signalVec
  with_reducible repeat' first
    | assumption | apply modHost_kept | apply bumpPort_kept | apply emit_kept | apply Kept.ite | intro _ | dsimp only

theorem execCompletionWrite_kept (j : Fin 4096) (s : State) (hs : Kept k0 s) :
    KeptO k0 (execCompletionWrite j s) := by
  unfold execCompletionWrite
  with_reducible repeat' first
    | assumption | apply KeptO.next | apply requestXlate_kept | apply modHost_kept | apply emit_kept
    | apply hostPut_kept | apply endHostItem_kept | apply atcTouch_kept | apply signalVec_kept | apply modCpq_kept
    | apply Kept.ite | intro _ | dsimp only | split

theorem execCqHeadWrite_kept (func : Fin 256) (j : Fin 4096) (head : BitVec 32) (s : State) (hs : Kept k0 s) :
    KeptO k0 (execCqHeadWrite func j head s) := by
  unfold execCqHeadWrite
  with_reducible repeat' first
    | assumption | apply KeptO.next | apply toFunc_kept | apply modCpq_kept | apply bumpPort_kept | apply Kept.ite
    | intro _ | dsimp only

theorem execCoalesceTimer_kept (s : State) (hs : Kept k0 s) :
    KeptO k0 (execCoalesceTimer s) := by
  unfold execCoalesceTimer
  with_reducible repeat' first
    | assumption | apply KeptO.next | apply KeptO.ite | apply modCpq_kept | apply signalVec_kept | apply Kept.ite
    | apply Kept.foldl | intro _ | dsimp only | split

theorem execMsixUnmask_kept (func : Fin 256) (vec : Fin 2048) (mask : Bool) (s : State) (hs : Kept k0 s) :
    KeptO k0 (execMsixUnmask func vec mask s) := by
  unfold execMsixUnmask
  with_reducible repeat' first
    | assumption | apply KeptO.next | apply toFunc_kept | apply modHost_kept | apply signalVec_kept | apply Kept.ite
    | intro _ | dsimp only

theorem execCxlSnoop_kept (q : Fin 4096) (tail : BitVec 32) (s : State) (hs : Kept k0 s) :
    KeptO k0 (execCxlSnoop q tail s) := by
  unfold execCxlSnoop
  with_reducible repeat' first
    | assumption | apply KeptO.next | apply doorbell_kept | apply tailWrite_kept | apply emit_kept | apply Kept.ite
    | intro _ | dsimp only | split

end Sys2Proof.Machine
end

