-- ==== Sys2Proof/Laws/KeptZmtMem.lean ====
section
/-! SUPPORT. What every operation of Machine/ZmtMem.lean keeps. -/

namespace Sys2Proof.Machine

variable {k0 : State}

theorem askRange_kept (id : Nat) (wr : Bool) (pasid a n : Nat) (s : State) (hs : Kept k0 s) :
    Kept k0 (askRange id wr pasid a n s) := by
  unfold askRange
  with_reducible repeat' first
    | assumption | apply requestXlate_kept | apply Kept.ite | apply Kept.foldl | intro _ | dsimp only
    | simp only [id_eq]

theorem undeny_kept (id : Nat) (s : State) (hs : Kept k0 s) :
    Kept k0 (undeny id s) := by
  unfold undeny
  with_reducible repeat' first
    | assumption | apply modHost_kept | dsimp only | simp only [id_eq]

theorem sendReads_kept (pasid a n tag : Nat) (s : State) (hs : Kept k0 s) :
    Kept k0 (sendReads pasid a n tag s) := by
  unfold sendReads
  with_reducible repeat' first
    | assumption | apply atcTouch_kept | apply emit_kept | apply Kept.ite | apply Kept.foldl | intro _ | dsimp only
    | split

theorem unitPlace_kept (pasid a : Nat) (bs : Bytes) (mark : Nat) (s : State) (hs : Kept k0 s) :
    Kept k0 (unitPlace pasid a bs mark s) := by
  unfold unitPlace
  with_reducible repeat' first
    | assumption | apply atcTouch_kept | apply hostPut_kept | apply placeBytes_kept | apply Kept.ite
    | apply Kept.foldl | intro _ | dsimp only

theorem modCtrRec_kept (c : Nat) (f : Ctr → Ctr) (s : State) (hs : Kept k0 s) :
    Kept k0 (modCtrRec c f s) := by
  unfold modCtrRec
  with_reducible repeat' first
    | assumption | apply modZmt_kept | dsimp only

theorem modAsm_kept (i : Nat) (f : Asm → Asm) (s : State) (hs : Kept k0 s) :
    Kept k0 (modAsm i f s) := by
  unfold modAsm
  with_reducible repeat' first
    | assumption | apply modZmt_kept | dsimp only

theorem asmFree_kept (i : Nat) (s : State) (hs : Kept k0 s) :
    Kept k0 (asmFree i s) := by
  unfold asmFree
  with_reducible repeat' first
    | assumption | apply modZmt_kept | apply bufFree_kept | refine Kept.of_pair (by assumption) ?_ | dsimp only
    | split

theorem asmSettle_kept (i : Nat) (s : State) (hs : Kept k0 s) :
    Kept k0 (asmSettle i s) := by
  unfold asmSettle
  with_reducible repeat' first
    | assumption | apply asmFree_kept | apply Kept.ite | intro _ | dsimp only | split

theorem asmEnd_kept (ccid : Nat) (s : State) (hs : Kept k0 s) :
    Kept k0 (asmEnd ccid s) := by
  unfold asmEnd
  with_reducible repeat' first
    | assumption | apply asmSettle_kept | apply Kept.foldl | intro _ | dsimp only

theorem ctrFire_kept (ts ccid ep : Nat) (s : State) (hs : Kept k0 s) :
    Kept k0 (ctrFire ts ccid ep s) := by
  unfold ctrFire
  with_reducible repeat' first
    | assumption | apply asmEnd_kept | apply postCpl_kept | apply acceptUnitBrick_kept | apply tecComplete_kept
    | refine Kept.of_triple (by assumption) ?_ | dsimp only | split

theorem ctrFail_kept (ts ccid ep reason : Nat) (s : State) (hs : Kept k0 s) :
    Kept k0 (ctrFail ts ccid ep reason s) := by
  unfold ctrFail
  with_reducible repeat' first
    | assumption | apply ctrFire_kept | apply modCtrRec_kept | apply Kept.ite | intro _ | dsimp only

theorem ctrFirst_kept (ccid mlen : Nat) (s : State) (hs : Kept k0 s) :
    Kept k0 (ctrFirst ccid mlen s) := by
  unfold ctrFirst
  with_reducible repeat' first
    | assumption | apply modCtrRec_kept | apply Kept.ite | intro _ | dsimp only

theorem ctrCount_kept (ts ccid ep mlen plen : Nat) (s : State) (hs : Kept k0 s) :
    Kept k0 (ctrCount ts ccid ep mlen plen s) := by
  unfold ctrCount
  with_reducible repeat' first
    | assumption | apply modCtrRec_kept | apply ctrFirst_kept | apply ctrFire_kept | apply bump_kept | apply Kept.ite
    | intro _ | dsimp only

end Sys2Proof.Machine
end

