-- ==== Sys2Proof/Laws/KeptHostDma.lean ====
section
/-! SUPPORT. What every operation of Machine/HostDma.lean keeps. -/

namespace Sys2Proof.Machine

variable {k0 : State}

theorem modItem_kept (i : Nat) (f : DItem → DItem) (s : State) (hs : Kept k0 s) :
    Kept k0 (modItem i f s) := by
  unfold modItem
  with_reducible repeat' first
    | assumption | apply modHost_kept | dsimp only

theorem newItem_kept (it : DItem) (s : State) (hs : Kept k0 s) :
    Kept k0 (newItem it s).2 := by
  unfold newItem
  with_reducible repeat' first
    | assumption | apply bump_kept | apply ledAccept_kept | apply modHost_kept | dsimp only

theorem itemCounter_kept (it : DItem) (done : Nat) (s : State) (hs : Kept k0 s) :
    Kept k0 (itemCounter it done s) := by
  unfold itemCounter
  with_reducible repeat' first
    | assumption | apply ctrFail_kept | apply drawn_kept | apply ctrCount_kept | apply Kept.ite | intro _ | dsimp only

theorem itemNotify_kept (it : DItem) (s : State) (hs : Kept k0 s) :
    Kept k0 (itemNotify it s) := by
  unfold itemNotify
  with_reducible repeat' first
    | assumption | apply tecComplete_kept | apply Kept.ite | intro _

theorem dropItem_kept (i reason done : Nat) (s : State) (hs : Kept k0 s) :
    Kept k0 (dropItem i reason done s) := by
  unfold dropItem
  with_reducible repeat' first
    | assumption | apply bumpBy_kept | apply modHost_kept | apply bump_kept | apply ledComplete_kept
    | apply ledFail_kept | apply Kept.ite | intro _ | dsimp only

theorem endItem_kept (i st done : Nat) (s : State) (hs : Kept k0 s) :
    Kept k0 (endItem i st done s) := by
  unfold endItem
  with_reducible repeat' first
    | assumption | apply dropItem_kept | apply endCmd_kept | apply itemNotify_kept | apply itemCounter_kept | intro _
    | dsimp only | split

theorem moveBytes_kept (it : DItem) (data : Nat → Byte) (whole : Nat → Bool) (offs : List Nat) (s : State) (hs : Kept k0 s) :
    Kept k0 (moveBytes it data whole offs s) := by
  unfold moveBytes
  with_reducible repeat' first
    | assumption | apply memPut_kept | apply tagPut_kept | apply Kept.ite | apply Kept.foldl | intro _ | dsimp only

theorem moveRead_kept (it : DItem) (i x n : Nat) (s : State) (hs : Kept k0 s) :
    Kept k0 (moveRead it i x n s) := by
  unfold moveRead
  with_reducible repeat' first
    | assumption | apply atcTouch_kept | apply emit_kept | apply Kept.ite | intro _ | dsimp only | split

theorem moveHost_kept (it : DItem) (x : Nat) (data : Bytes) (s : State) (hs : Kept k0 s) :
    Kept k0 (moveHost it x data s) := by
  unfold moveHost
  with_reducible repeat' first
    | assumption | apply atcTouch_kept | apply hostPut_kept | dsimp only

theorem moveOne_kept (it : DItem) (i x0 : Nat) (host : Bytes) (x n : Nat) (s : State) (hs : Kept k0 s) :
    Kept k0 (moveOne it i x0 host x n s) := by
  unfold moveOne
  with_reducible repeat' first
    | assumption | apply moveRead_kept | apply moveHost_kept | apply moveBytes_kept | apply Kept.ite | intro _
    | dsimp only

theorem poisonCovered_kept (it : DItem) (x n : Nat) (s : State) (hs : Kept k0 s) :
    Kept k0 (poisonCovered it x n s) := by
  unfold poisonCovered
  with_reducible repeat' first
    | assumption | apply poisonLog_kept | apply tagPut_kept | apply Kept.ite | apply Kept.foldl | intro _ | dsimp only

theorem moveLoop_kept {n : Nat} : ∀ {it : DItem} {i x0 : Nat} {host : Bytes} {err : Option Nat} {x : Nat}
    {s : State}, Kept k0 s → Kept k0 (moveLoop n it i x0 host err x s).2.2 := by
  induction n with
  | zero => intro it i x0 host err x s h; exact h
  | succ n ih =>
    intro it i x0 host err x s h
    unfold moveLoop
    repeat' (first | with_reducible assumption | with_reducible apply ih | with_reducible apply poisonCovered_kept | with_reducible apply moveRead_kept | with_reducible apply moveOne_kept | with_reducible intro _ | dsimp only | split)

theorem strayBytes_kept (it : DItem) (x0 : Nat) (host : Bytes) (d : Nat) (s : State) (hs : Kept k0 s) :
    Kept k0 (strayBytes it x0 host d s) := by
  unfold strayBytes
  with_reducible repeat' first
    | assumption | apply modFree_kept | apply moveBytes_kept | apply moveHost_kept | apply Kept.foldl | intro _
    | dsimp only

theorem runItem_kept (i : Nat) (it : DItem) (host : Bytes) (err : Option Nat) (s : State) (hs : Kept k0 s) :
    Kept k0 (runItem i it host err s) := by
  unfold runItem
  with_reducible repeat' first
    | assumption | apply moveLoop_kept | apply modItem_kept | apply endItem_kept | apply requestXlate_kept
    | apply strayBytes_kept | apply Kept.ite | intro _ | dsimp only | split

theorem execDmaItemEnd_kept (item : Nat) (host : Bytes) (err : Option Nat) (s : State) (hs : Kept k0 s) :
    KeptO k0 (execDmaItemEnd item host err s) := by
  unfold execDmaItemEnd
  with_reducible repeat' first
    | assumption | apply KeptO.next | apply runItem_kept | apply Kept.ite | intro _ | split

theorem execDmaContextTake_kept (s : State) (hs : Kept k0 s) :
    KeptO k0 (execDmaContextTake s) := by
  unfold execDmaContextTake
  with_reducible repeat' first
    | assumption | apply KeptO.next | apply modItem_kept | apply requestXlate_kept | dsimp only | split

theorem modDpost_kept (m : Nat) (f : DPost → DPost) (s : State) (hs : Kept k0 s) :
    Kept k0 (modDpost m f s) := by
  unfold modDpost
  with_reducible repeat' first
    | assumption | apply modHost_kept | dsimp only

theorem dmaSubmit_kept (m : Nat) (s : State) (hs : Kept k0 s) :
    Kept k0 (dmaSubmit m s) := by
  unfold dmaSubmit
  with_reducible repeat' first
    | assumption | apply bump_kept | apply modDpost_kept | apply newItem_kept | apply Kept.ite | intro _ | dsimp only

theorem execDmaPost_kept (area : Fin 769) (s : State) (hs : Kept k0 s) :
    KeptO k0 (execDmaPost area s) := by
  unfold execDmaPost
  with_reducible repeat' first
    | assumption | apply KeptO.next | apply dmaSubmit_kept

end Sys2Proof.Machine
end

