-- ==== Sys2Proof/Laws/KeptTec.lean ====
section
/-! SUPPORT. What every operation of Machine/Tec.lean keeps. -/

namespace Sys2Proof.Machine

variable {k0 : State}

theorem execTecCompletion_kept (tile : Fin 12) (src : Fin 256) (s : State) (hs : Kept k0 s) :
    KeptO k0 (execTecCompletion tile src s) := by
  unfold execTecCompletion
  with_reducible repeat' first
    | assumption | apply KeptO.next | apply tecComplete_kept

theorem execTecComplete_kept (tile : Fin 12) (v : W64) (s : State) (hs : Kept k0 s) :
    KeptO k0 (execTecComplete tile v s) := by
  unfold execTecComplete
  with_reducible repeat' first
    | assumption | apply KeptO.next | apply tecComplete_kept

theorem tecActive_kept (tile src : Nat) (b : Bool) (s : State) (hs : Kept k0 s) :
    Kept k0 (tecActive tile src b s) := by
  unfold tecActive
  with_reducible repeat' first
    | assumption | apply modTile_kept | apply Kept.ite | intro _ | dsimp only

theorem execTecActset_kept (tile : Fin 12) (v : W64) (s : State) (hs : Kept k0 s) :
    KeptO k0 (execTecActset tile v s) := by
  unfold execTecActset
  with_reducible repeat' first
    | assumption | apply KeptO.next | apply tecActive_kept

theorem execTecActclr_kept (tile : Fin 12) (v : W64) (s : State) (hs : Kept k0 s) :
    KeptO k0 (execTecActclr tile v s) := by
  unfold execTecActclr
  with_reducible repeat' first
    | assumption | apply KeptO.next | apply tecActive_kept

theorem tecAck_kept (tile g : Nat) (s : State) (hs : Kept k0 s) :
    Kept k0 (tecAck tile g s) := by
  unfold tecAck
  with_reducible repeat' first
    | assumption | apply modGroup_kept | apply tecCount_kept | apply Kept.ite | intro _ | dsimp only

theorem execTecAck_kept (tile : Fin 12) (v : W64) (s : State) (hs : Kept k0 s) :
    KeptO k0 (execTecAck tile v s) := by
  unfold execTecAck
  with_reducible repeat' first
    | assumption | apply KeptO.next | apply tecAck_kept

theorem tecPendClear_kept (tile g bits : Nat) (s : State) (hs : Kept k0 s) :
    Kept k0 (tecPendClear tile g bits s) := by
  unfold tecPendClear
  with_reducible repeat' first
    | assumption | apply modTile_kept | apply Kept.ite | intro _ | dsimp only

theorem tecSense_kept (tile g v : Nat) (s : State) (hs : Kept k0 s) :
    Kept k0 (tecSense tile g v s) := by
  unfold tecSense
  with_reducible repeat' first
    | assumption | apply modTile_kept | apply Kept.ite | intro _ | dsimp only

theorem execTecPendClear_kept (tile : Fin 12) (g : Fin 32) (v : W64) (s : State) (hs : Kept k0 s) :
    KeptO k0 (execTecPendClear tile g v s) := by
  unfold execTecPendClear
  with_reducible repeat' first
    | assumption | apply KeptO.next | apply tecPendClear_kept

theorem tecCtrl_kept (tile : Nat) (g : Bool) (s : State) (hs : Kept k0 s) :
    Kept k0 (tecCtrl tile g s) := by
  unfold tecCtrl
  with_reducible repeat' first
    | assumption | apply modTile_kept | apply tecDeliver_kept | apply Kept.ite | apply Kept.foldl | intro _
    | dsimp only

theorem execTecCtrlWrite_kept (tile : Fin 12) (v : W64) (s : State) (hs : Kept k0 s) :
    KeptO k0 (execTecCtrlWrite tile v s) := by
  unfold execTecCtrlWrite
  with_reducible repeat' first
    | assumption | apply KeptO.next | apply tecCtrl_kept

theorem tecSwin_kept (tile v : Nat) (s : State) (hs : Kept k0 s) :
    Kept k0 (tecSwin tile v s) := by
  unfold tecSwin
  with_reducible repeat' first
    | assumption | apply tecInput_kept | apply modTile_kept | apply Kept.foldl | intro _ | dsimp only

theorem execTecSwinWrite_kept (tile : Fin 12) (v : W64) (s : State) (hs : Kept k0 s) :
    KeptO k0 (execTecSwinWrite tile v s) := by
  unfold execTecSwinWrite
  with_reducible repeat' first
    | assumption | apply KeptO.next | apply tecSwin_kept

theorem tecStray_kept (tile : Nat) (s : State) (hs : Kept k0 s) :
    Kept k0 (tecStray tile s).2 := by
  unfold tecStray
  with_reducible repeat' first
    | assumption | apply modTile_kept | dsimp only

theorem execTecStrayRead_kept (tile : Fin 12) (s : State) (hs : Kept k0 s) :
    KeptO k0 (execTecStrayRead tile s) := by
  unfold execTecStrayRead
  with_reducible repeat' first
    | assumption | apply KeptO.next | apply tecStray_kept | apply emit_kept | dsimp only

theorem execTecGroupTimer_kept (tile : Fin 12) (g : Fin 32) (s : State) (hs : Kept k0 s) :
    KeptO k0 (execTecGroupTimer tile g s) := by
  unfold execTecGroupTimer
  with_reducible repeat' first
    | assumption | apply KeptO.next | apply tecDeliver_kept | apply modGroup_kept | apply Kept.ite | intro _
    | dsimp only | split

end Sys2Proof.Machine
end

