-- ==== Sys2Proof/Laws/KeptTime.lean ====
section
/-! SUPPORT. What every operation of Machine/Time.lean keeps. -/

namespace Sys2Proof.Machine

variable {k0 : State}

theorem runServo_kept (offset : Int) (t : Nat) (s : State) (hs : Kept k0 s) :
    Kept k0 (runServo offset t s) := by
  unfold runServo
  with_reducible repeat' first
    | assumption | apply modClk_kept | apply Kept.ite | intro _ | dsimp only

theorem stepFtc_kept (d : Int) (s : State) (hs : Kept k0 s) :
    Kept k0 (stepFtc d s) := by
  unfold stepFtc
  with_reducible repeat' first
    | assumption | apply modClk_kept | apply bump_kept | apply Kept.ite | intro _ | dsimp only

theorem modTimeSub_kept (sp : Nat) (f : SubTime → SubTime) (s : State) (hs : Kept k0 s) :
    Kept k0 (modTimeSub sp f s) := by
  unfold modTimeSub
  with_reducible repeat' first
    | assumption | apply modClk_kept | dsimp only

theorem queueTime_kept (sp kind ep : Nat) (payload : Bytes) (s : State) (hs : Kept k0 s) :
    Kept k0 (queueTime sp kind ep payload s) := by
  unfold queueTime
  with_reducible repeat' first
    | assumption | apply ctlPush_kept | apply drawn_kept

theorem countMissed_kept (ivl sp : Nat) (s : State) (hs : Kept k0 s) :
    Kept k0 (countMissed ivl sp s) := by
  unfold countMissed
  with_reducible repeat' first
    | assumption | apply bump_kept | apply modTimeSub_kept | apply Kept.ite | intro _ | dsimp only

theorem execTimeReqSend_kept (sp : Fin 16) (s : State) (hs : Kept k0 s) :
    KeptO k0 (execTimeReqSend sp s) := by
  unfold execTimeReqSend
  with_reducible repeat' first
    | assumption | apply KeptO.next | apply KeptO.ite | apply modTimeSub_kept | apply countMissed_kept
    | apply queueTime_kept | apply drawn_kept | apply Kept.ite | intro _ | dsimp only

theorem timeDiscard_kept (s : State) (hs : Kept k0 s) :
    Kept k0 (timeDiscard s) := by
  unfold timeDiscard
  with_reducible repeat' first
    | assumption | apply bump_kept

theorem timeReq_kept (sp ep : Nat) (b : Bytes) (s : State) (hs : Kept k0 s) :
    Kept k0 (timeReq sp ep b s) := by
  unfold timeReq
  with_reducible repeat' first
    | assumption | apply queueTime_kept

theorem timeResp_kept (sp : Nat) (b : Bytes) (s : State) (hs : Kept k0 s) :
    Kept k0 (timeResp sp b s) := by
  unfold timeResp
  with_reducible repeat' first
    | assumption | apply timeDiscard_kept | apply modTimeSub_kept | apply Kept.ite | apply Kept.foldl | intro _
    | dsimp only | split

theorem timeMessage_kept (sp ep : Nat) (b : Bytes) (s : State) (hs : Kept k0 s) :
    Kept k0 (timeMessage sp ep b s) := by
  unfold timeMessage
  with_reducible repeat' first
    | assumption | apply timeReq_kept | apply timeResp_kept | apply timeDiscard_kept | apply Kept.ite | intro _
    | split

theorem execTimeReqReceive_kept (sp : Fin 16) (srcEp : BitVec 32) (payload : Bytes) (s : State) (hs : Kept k0 s) :
    KeptO k0 (execTimeReqReceive sp srcEp payload s) := by
  unfold execTimeReqReceive
  with_reducible repeat' first
    | assumption | apply KeptO.next | apply timeMessage_kept

theorem execTimeRespReceive_kept (sp : Fin 16) (payload : Bytes) (s : State) (hs : Kept k0 s) :
    KeptO k0 (execTimeRespReceive sp payload s) := by
  unfold execTimeRespReceive
  with_reducible repeat' first
    | assumption | apply KeptO.next | apply timeMessage_kept

theorem modPtp_kept (sp : Nat) (f : PtpPort → PtpPort) (s : State) (hs : Kept k0 s) :
    Kept k0 (modPtp sp f s) := by
  unfold modPtp
  with_reducible repeat' first
    | assumption | apply modClk_kept | dsimp only

theorem toGrandmaster_kept (s : State) (hs : Kept k0 s) :
    Kept k0 (toGrandmaster s) := by
  unfold toGrandmaster
  with_reducible repeat' first
    | assumption | apply modClk_kept | apply drawn_kept | apply Kept.ite | intro _ | dsimp only

theorem toHoldover_kept (s : State) (hs : Kept k0 s) :
    Kept k0 (toHoldover s) := by
  unfold toHoldover
  with_reducible repeat' first
    | assumption | apply bump_kept | apply modClk_kept | dsimp only

theorem followParent_kept (c : Cand) (s : State) (hs : Kept k0 s) :
    Kept k0 (followParent c s) := by
  unfold followParent
  with_reducible repeat' first
    | assumption | apply bump_kept | apply modClk_kept | apply stepFtc_kept | apply runServo_kept | apply Kept.ite
    | intro _ | dsimp only | split

theorem execExchangeIntervalEnd_kept (s : State) (hs : Kept k0 s) :
    KeptO k0 (execExchangeIntervalEnd s) := by
  unfold execExchangeIntervalEnd
  with_reducible repeat' first
    | assumption | apply KeptO.next | apply KeptO.ite | apply countMissed_kept | apply modClk_kept
    | apply toGrandmaster_kept | apply followParent_kept | apply toHoldover_kept | apply Kept.ite | apply Kept.foldl
    | intro _ | dsimp only | split

theorem wrTimeSet_kept (a0 : Nat) (v0 : Bytes) (s : State) (hs : Kept k0 s) :
    Kept k0 (wrTimeSet a0 v0 s).2 := by
  unfold wrTimeSet
  with_reducible repeat' first
    | assumption | apply bump_kept | apply modClk_kept | apply Kept.ite | intro _ | dsimp only | split

theorem execTimeSet_kept (h : DHdr) (v : Bytes) (s : State) (hs : Kept k0 s) :
    KeptO k0 (execTimeSet h v s) := by
  unfold execTimeSet
  with_reducible repeat' first
    | assumption | apply KeptO.next | apply dictWriteRow_kept | apply wrTimeSet_kept | intro _ | dsimp only

theorem execTimeinEdge_kept (s : State) (hs : Kept k0 s) :
    KeptO k0 (execTimeinEdge s) := by
  unfold execTimeinEdge
  with_reducible repeat' first
    | assumption | apply KeptO.next | apply KeptO.ite | apply modClk_kept | apply stepFtc_kept | apply runServo_kept
    | apply Kept.ite | intro _ | dsimp only | split

theorem execTimeoutPulseStart_kept (s : State) (hs : Kept k0 s) :
    KeptO k0 (execTimeoutPulseStart s) := by
  unfold execTimeoutPulseStart
  with_reducible repeat' first
    | assumption | apply KeptO.next | apply KeptO.ite | apply emit_kept | apply modClk_kept | apply Kept.ite | intro _
    | dsimp only

theorem execTimeoutPulseEnd_kept (s : State) (hs : Kept k0 s) :
    KeptO k0 (execTimeoutPulseEnd s) := by
  unfold execTimeoutPulseEnd
  with_reducible repeat' first
    | assumption | apply KeptO.next | apply KeptO.ite | apply emit_kept | apply modClk_kept | apply Kept.ite | intro _
    | dsimp only

theorem ptpFeed_kept (sp : Nat) (o : Int) (s : State) (hs : Kept k0 s) :
    Kept k0 (ptpFeed sp o s) := by
  unfold ptpFeed
  with_reducible repeat' first
    | assumption | apply stepFtc_kept | apply runServo_kept | apply Kept.ite | intro _ | split

theorem sendPtp_kept (sp : Nat) (b : Bytes) (s : State) (hs : Kept k0 s) :
    Kept k0 (sendPtp sp b s) := by
  unfold sendPtp
  with_reducible repeat' first
    | assumption | apply emit_kept

theorem ptpDiscard_kept (s : State) (hs : Kept k0 s) :
    Kept k0 (ptpDiscard s) := by
  unfold ptpDiscard
  with_reducible repeat' first
    | assumption | apply bump_kept

theorem ptpAct_kept (sp : Nat) (b : Bytes) (s : State) (hs : Kept k0 s) :
    Kept k0 (ptpAct sp b s) := by
  unfold ptpAct
  with_reducible repeat' first
    | assumption | apply modPtp_kept | apply ptpFeed_kept | apply ptpDiscard_kept | apply sendPtp_kept
    | apply Kept.ite | intro _ | dsimp only | split

theorem execPtpMessageReceive_kept (sp : Fin 16) (transport : Nat) (msg : Bytes) (s : State) (hs : Kept k0 s) :
    KeptO k0 (execPtpMessageReceive sp transport msg s) := by
  unfold execPtpMessageReceive
  with_reducible repeat' first
    | assumption | apply KeptO.next | apply KeptO.ite | apply ptpDiscard_kept | apply ptpAct_kept | apply Kept.ite
    | intro _

theorem execPtpMessageInterval_kept (sp : Fin 16) (s : State) (hs : Kept k0 s) :
    KeptO k0 (execPtpMessageInterval sp s) := by
  unfold execPtpMessageInterval
  with_reducible repeat' first
    | assumption | apply KeptO.next | apply KeptO.ite | apply sendPtp_kept | apply modPtp_kept | apply Kept.ite
    | intro _ | dsimp only

end Sys2Proof.Machine
end

