-- ==== Sys2Proof/Laws/KeptCop.lean ====
section
/-! SUPPORT. What every operation of Machine/Cop.lean keeps. -/

namespace Sys2Proof.Machine

variable {k0 : State}

theorem copPtr_kept (tile unit c : Nat) (s : State) (hs : Kept k0 s) :
    Kept k0 (copPtr tile unit c s) := by
  unfold copPtr
  with_reducible repeat' first
    | assumption | apply modCop_kept | apply Kept.ite | intro _ | dsimp only

theorem runCpx_kept (t unit fn rd ra rb : Nat) (ok busy : Bool) (regs : List Nat) (s : State) (hs : Kept k0 s) :
    Kept k0 (runCpx t unit fn rd ra rb ok busy regs s) := by
  unfold runCpx
  with_reducible repeat' first
    | assumption | apply issue_kept | apply faultInst_kept | apply faultAt_kept | apply retire_kept
    | apply bumpTile_kept | apply modThr_kept | apply bump_kept | apply copPtr_kept | apply Kept.ite | intro _
    | dsimp only

theorem cpThr_kept (t : Nat) (c : Cpx) (f : Thread → Thread) (s : State) (hs : Kept k0 s) :
    Kept k0 (cpThr t c f s) := by
  unfold cpThr
  with_reducible repeat' first
    | assumption | apply modThr_kept | apply Kept.ite | intro _

theorem cpReg_kept (t : Nat) (c : Cpx) (r : Nat) (v : W72) (s : State) (hs : Kept k0 s) :
    Kept k0 (cpReg t c r v s) := by
  unfold cpReg
  with_reducible repeat' first
    | assumption | apply cpThr_kept

theorem cpPoison_kept (t : Nat) (c : Cpx) (a : Nat) (s : State) (hs : Kept k0 s) :
    Kept k0 (cpPoison t c a s) := by
  unfold cpPoison
  with_reducible repeat' first
    | assumption | apply bump_kept | apply cpThr_kept | dsimp only

theorem setXd_kept (t : Nat) (c : Cpx) (slot : Nat) (b : Bool) (s : State) (hs : Kept k0 s) :
    Kept k0 (setXd t c slot b s) := by
  unfold setXd
  with_reducible repeat' first
    | assumption | apply cpThr_kept | dsimp only

theorem gcmDone_kept (t : Nat) (c : Cpx) (y : Nat) (ctr : Option Nat) (s : State) (hs : Kept k0 s) :
    Kept k0 (gcmDone t c y ctr s) := by
  unfold gcmDone
  with_reducible repeat' first
    | assumption | apply cpReg_kept | dsimp only | split

theorem gcmCommit_kept (t : Nat) (c : Cpx) (s : State) (hs : Kept k0 s) :
    Kept k0 (gcmCommit t c s) := by
  unfold gcmCommit
  with_reducible repeat' first
    | assumption | apply bump_kept | apply cpReg_kept | apply gcmDone_kept | apply cpPoison_kept
    | apply storeBytes_kept | apply Kept.ite | apply Kept.elim | intro _ | dsimp only | split

theorem xsCount_kept (tile : Nat) (old new : XSlot) (s : State) (hs : Kept k0 s) :
    Kept k0 (xsCount tile old new s) := by
  unfold xsCount
  with_reducible repeat' first
    | assumption | apply bump_kept | apply Kept.ite | intro _

theorem xsFold_kept (t slot flags : Nat) (sum : Int) (c : Cpx) (s : State) (hs : Kept k0 s) :
    Kept k0 (xsFold t slot flags sum c s) := by
  unfold xsFold
  with_reducible repeat' first
    | assumption | apply cpReg_kept | apply setXd_kept | apply xsCount_kept | apply modSlot_kept | dsimp only

theorem xsForm_kept (t slot : Nat) (rest : Bool) (f : Option (Int × Nat)) (c : Cpx) (s : State) (hs : Kept k0 s) :
    Kept k0 (xsForm t slot rest f c s) := by
  unfold xsForm
  with_reducible repeat' first
    | assumption | apply bump_kept | apply cpReg_kept | apply setXd_kept | apply modSlot_kept | apply xsFold_kept
    | apply Kept.ite | intro _ | dsimp only | split

theorem xsRead_kept (t a len align : Nat) (c : Cpx) (k : Bytes → State → State) (s : State) (hk : ∀ a s, Kept k0 s → Kept k0 (k a s)) (hs : Kept k0 s) :
    Kept k0 (xsRead t a len align c k s) := by
  unfold xsRead
  with_reducible repeat' first
    | assumption | apply cpReg_kept | apply cpPoison_kept | apply Kept.elim | apply hk | intro _ | dsimp only | split

theorem xsWrite_kept (t a : Nat) (b : Bytes) (c : Cpx) (s : State) (hs : Kept k0 s) :
    Kept k0 (xsWrite t a b c s) := by
  unfold xsWrite
  with_reducible repeat' first
    | assumption | apply cpReg_kept | apply storeBytes_kept | apply Kept.elim | intro _ | dsimp only

theorem xsCommit_kept (t : Nat) (c : Cpx) (s : State) (hs : Kept k0 s) :
    Kept k0 (xsCommit t c s) := by
  unfold xsCommit
  with_reducible repeat' first
    | assumption | apply bump_kept | apply cpReg_kept | apply setXd_kept | apply modSlot_kept | apply xsFold_kept
    | apply xsRead_kept | apply bumpBy_kept | apply xsForm_kept | apply xsWrite_kept | apply Kept.ite | intro _
    | dsimp only | split

theorem execCrc32c_kept (t : Fin 776) (rd ra rb : Fin 32) (nb : Fin 8) (busy : Bool) (s : State) (hs : Kept k0 s) :
    KeptO k0 (execCrc32c t rd ra rb nb busy s) := by
  unfold execCrc32c
  with_reducible repeat' first
    | assumption | apply KeptO.next | apply runCpx_kept

theorem execCrc64_kept (t : Fin 776) (rd ra rb : Fin 32) (nb : Fin 8) (busy : Bool) (s : State) (hs : Kept k0 s) :
    KeptO k0 (execCrc64 t rd ra rb nb busy s) := by
  unfold execCrc64
  with_reducible repeat' first
    | assumption | apply KeptO.next | apply runCpx_kept

theorem execTpz_kept (t : Fin 776) (rd ra rb : Fin 32) (k : Fin 4) (nb : Fin 8) (busy : Bool) (s : State) (hs : Kept k0 s) :
    KeptO k0 (execTpz t rd ra rb k nb busy s) := by
  unfold execTpz
  with_reducible repeat' first
    | assumption | apply KeptO.next | apply runCpx_kept

theorem runGcm_kept (t op rd ra rb len : Nat) (busy : Bool) (s : State) (hs : Kept k0 s) :
    Kept k0 (runGcm t op rd ra rb len busy s) := by
  unfold runGcm
  with_reducible repeat' first
    | assumption | apply runCpx_kept | dsimp only

theorem execEnc_kept (t : Fin 776) (rd ra rb : Fin 32) (len : Fin 64) (busy : Bool) (s : State) (hs : Kept k0 s) :
    KeptO k0 (execEnc t rd ra rb len busy s) := by
  unfold execEnc
  with_reducible repeat' first
    | assumption | apply KeptO.next | apply runGcm_kept

theorem execDec_kept (t : Fin 776) (rd ra rb : Fin 32) (len : Fin 64) (busy : Bool) (s : State) (hs : Kept k0 s) :
    KeptO k0 (execDec t rd ra rb len busy s) := by
  unfold execDec
  with_reducible repeat' first
    | assumption | apply KeptO.next | apply runGcm_kept

theorem execAad_kept (t : Fin 776) (rd ra rb : Fin 32) (len : Fin 64) (busy : Bool) (s : State) (hs : Kept k0 s) :
    KeptO k0 (execAad t rd ra rb len busy s) := by
  unfold execAad
  with_reducible repeat' first
    | assumption | apply KeptO.next | apply runGcm_kept

theorem execGcmTag_kept (t : Fin 776) (rd ra rb : Fin 32) (busy : Bool) (s : State) (hs : Kept k0 s) :
    KeptO k0 (execGcmTag t rd ra rb busy s) := by
  unfold execGcmTag
  with_reducible repeat' first
    | assumption | apply KeptO.next | apply runGcm_kept

theorem execXsumClr_kept (t : Fin 776) (rd ra : Fin 32) (slot : Fin 16) (busy : Bool) (s : State) (hs : Kept k0 s) :
    KeptO k0 (execXsumClr t rd ra slot busy s) := by
  unfold execXsumClr
  with_reducible repeat' first
    | assumption | apply KeptO.next | apply runCpx_kept

theorem execXsumAdd_kept (t : Fin 776) (rd ra : Fin 32) (slot : Fin 16) (typ : Fin 3) (busy : Bool) (s : State) (hs : Kept k0 s) :
    KeptO k0 (execXsumAdd t rd ra slot typ busy s) := by
  unfold execXsumAdd
  with_reducible repeat' first
    | assumption | apply KeptO.next | apply runCpx_kept

theorem execXsumAddv_kept (t : Fin 776) (rd ra rb : Fin 32) (slot : Fin 16) (typ : Fin 3) (busy : Bool) (s : State) (hs : Kept k0 s) :
    KeptO k0 (execXsumAddv t rd ra rb slot typ busy s) := by
  unfold execXsumAddv
  with_reducible repeat' first
    | assumption | apply KeptO.next | apply runCpx_kept

theorem execXsumMerge_kept (t : Fin 776) (rd ra : Fin 32) (slot : Fin 16) (image busy : Bool) (s : State) (hs : Kept k0 s) :
    KeptO k0 (execXsumMerge t rd ra slot image busy s) := by
  unfold execXsumMerge
  with_reducible repeat' first
    | assumption | apply KeptO.next | apply runCpx_kept

theorem execXsumRnd_kept (t : Fin 776) (rd ra : Fin 32) (slot : Fin 16) (busy : Bool) (s : State) (hs : Kept k0 s) :
    KeptO k0 (execXsumRnd t rd ra slot busy s) := by
  unfold execXsumRnd
  with_reducible repeat' first
    | assumption | apply KeptO.next | apply runCpx_kept

theorem execXsumRnd2_kept (t : Fin 776) (rd ra rb : Fin 32) (slot : Fin 16) (busy : Bool) (s : State) (hs : Kept k0 s) :
    KeptO k0 (execXsumRnd2 t rd ra rb slot busy s) := by
  unfold execXsumRnd2
  with_reducible repeat' first
    | assumption | apply KeptO.next | apply runCpx_kept

theorem execXsumSave_kept (t : Fin 776) (rd ra : Fin 32) (slot : Fin 16) (busy : Bool) (s : State) (hs : Kept k0 s) :
    KeptO k0 (execXsumSave t rd ra slot busy s) := by
  unfold execXsumSave
  with_reducible repeat' first
    | assumption | apply KeptO.next | apply runCpx_kept

theorem execXsumRest_kept (t : Fin 776) (rd ra : Fin 32) (slot : Fin 16) (busy : Bool) (s : State) (hs : Kept k0 s) :
    KeptO k0 (execXsumRest t rd ra slot busy s) := by
  unfold execXsumRest
  with_reducible repeat' first
    | assumption | apply KeptO.next | apply runCpx_kept

theorem execXsumCxa_kept (t : Fin 776) (rd ra : Fin 32) (slot : Fin 16) (busy : Bool) (s : State) (hs : Kept k0 s) :
    KeptO k0 (execXsumCxa t rd ra slot busy s) := by
  unfold execXsumCxa
  with_reducible repeat' first
    | assumption | apply KeptO.next | apply runCpx_kept

theorem execXsumFlags_kept (t : Fin 776) (rd ra : Fin 32) (slot : Fin 16) (busy : Bool) (s : State) (hs : Kept k0 s) :
    KeptO k0 (execXsumFlags t rd ra slot busy s) := by
  unfold execXsumFlags
  with_reducible repeat' first
    | assumption | apply KeptO.next | apply runCpx_kept

theorem cpxWork_kept (t : Nat) (c : Cpx) (s : State) (hs : Kept k0 s) :
    Kept k0 (cpxWork t c s) := by
  unfold cpxWork
  with_reducible repeat' first
    | assumption | apply cpReg_kept | apply gcmCommit_kept | apply armSettle_kept | apply xsCommit_kept | split

theorem execCpCommit_kept (t : Fin 776) (ok : Bool) (s : State) (hs : Kept k0 s) :
    KeptO k0 (execCpCommit t ok s) := by
  unfold execCpCommit
  with_reducible repeat' first
    | assumption | apply KeptO.next | apply squashCpx_kept | apply commitCpx_kept | apply settle_kept
    | apply cpxWork_kept | apply modThr_kept | apply Kept.ite | apply Kept.elim | intro _ | dsimp only | split

end Sys2Proof.Machine
end

