-- ==== Sys2Proof/Laws/KeptZmtSend.lean ====
section
/-! SUPPORT. What every operation of Machine/ZmtSend.lean keeps. -/

namespace Sys2Proof.Machine

variable {k0 : State}

theorem ensurePeer_kept (ep slice : Nat) (s : State) (hs : Kept k0 s) :
    Kept k0 (ensurePeer ep slice s).2 := by
  unfold ensurePeer
  with_reducible repeat' first
    | assumption | apply modZmt_kept | apply writeEt_kept | apply insertEt_kept | intro _
    | refine Kept.of_pair (by assumption) ?_ | dsimp only | split

theorem setEtVer_kept (ep v : Nat) (s : State) (hs : Kept k0 s) :
    Kept k0 (setEtVer ep v s) := by
  unfold setEtVer
  with_reducible repeat' first
    | assumption | apply writeEt_kept | apply Kept.ite | intro _ | dsimp only | split

theorem localRoute_kept (ts ep : Nat) (s : State) (hs : Kept k0 s) :
    Kept k0 (localRoute ts ep s).2 := by
  unfold localRoute
  with_reducible repeat' first
    | assumption | apply lpmRoute_kept | apply cacheFill_kept | apply etTouch_kept | apply Kept.ite | intro _
    | refine Kept.of_pair (by assumption) ?_ | dsimp only | split

theorem notSent_kept (k : Nat) (s : State) (hs : Kept k0 s) :
    Kept k0 (notSent k s) := by
  unfold notSent
  with_reducible repeat' first
    | assumption | apply lostLocal_kept | apply bump_kept

theorem localFrame_kept (ts ep tc : Nat) (frame : Bytes) (s : State) (hs : Kept k0 s) :
    Kept k0 (localFrame ts ep tc frame s).2 := by
  unfold localFrame
  with_reducible repeat' first
    | assumption | apply modFab_kept | apply localRoute_kept | apply notSent_kept | apply routeTo_kept
    | apply admitPkt_kept | apply writeMacs_kept | apply Kept.ite | intro _ | refine Kept.of_pair (by assumption) ?_
    | dsimp only | split

theorem sendZmt_kept (ts ep tc : Nat) (h : ZHdr) (body : Bytes) (s : State) (hs : Kept k0 s) :
    Kept k0 (sendZmt ts ep tc h body s).2 := by
  unfold sendZmt
  with_reducible repeat' first
    | assumption | apply localFrame_kept | apply drawn_kept | apply Kept.ite | intro _ | dsimp only | split

theorem sendCtrl_kept (ts ep : Nat) (mk : Nat → ZHdr) (body : Bytes) (s : State) (hs : Kept k0 s) :
    Kept k0 (sendCtrl ts ep mk body s) := by
  unfold sendCtrl
  with_reducible repeat' first
    | assumption | apply sendZmt_kept | apply drawn_kept | apply modPeer_kept | refine Kept.of_pair (by assumption) ?_
    | dsimp only | split

theorem sendResp_kept (pk ts ep : Nat) (h : ZHdr) (body : Bytes) (s : State) (hs : Kept k0 s) :
    Kept k0 (sendResp pk ts ep h body s) := by
  unfold sendResp
  with_reducible repeat' first
    | assumption | apply modPeer_kept | apply sendCtrl_kept | dsimp only

theorem abortNotice_kept (m : ZMsg) (s : State) (hs : Kept k0 s) :
    Kept k0 (abortNotice m s) := by
  unfold abortNotice
  with_reducible repeat' first
    | assumption | apply zmsgNew_kept | apply Kept.ite | intro _ | dsimp only | simp only [id_eq]

theorem abortMsg_kept (id code : Nat) (remote abort : Bool) (s : State) (hs : Kept k0 s) :
    Kept k0 (abortMsg id code remote abort s) := by
  unfold abortMsg
  with_reducible repeat' first
    | assumption | apply undeny_kept | apply zmsgEndFail_kept | apply abortNotice_kept | apply Kept.ite | intro _
    | dsimp only | split | simp only [id_eq]

theorem checkDone_kept (k id : Nat) (s : State) (hs : Kept k0 s) :
    Kept k0 (checkDone k id s) := by
  unfold checkDone
  with_reducible repeat' first
    | assumption | apply zmsgDone_kept | apply Kept.ite | intro _ | dsimp only | split | simp only [id_eq]

theorem startPk_kept (pk id : Nat) (m : ZMsg) (k : ZPk) (host : Bytes) (s : State) (hs : Kept k0 s) :
    Kept k0 (startPk pk id m k host s) := by
  unfold startPk
  with_reducible repeat' first
    | assumption | apply sendReads_kept | apply sendZmt_kept | apply modPeer_kept | apply modZmsg_kept
    | apply drawn_kept | apply Kept.ite | intro _ | refine Kept.of_pair (by assumption) ?_ | dsimp only | split
    | simp only [id_eq]

theorem execOutboundPacketSend_kept (ep : BitVec 32) (host : Bytes) (s : State) (hs : Kept k0 s) :
    KeptO k0 (execOutboundPacketSend ep host s) := by
  unfold execOutboundPacketSend
  with_reducible repeat' first
    | assumption | apply KeptO.next | apply KeptO.ite | apply ensurePeer_kept | apply zmsgEndFail_kept
    | apply abortMsg_kept | apply askRange_kept | apply startPk_kept | apply Kept.ite | apply Kept.foldl | intro _
    | refine Kept.of_pair (by assumption) ?_ | dsimp only | split | simp only [id_eq]

theorem abandonPeer_kept (pk : Nat) (s : State) (hs : Kept k0 s) :
    Kept k0 (abandonPeer pk s) := by
  unfold abandonPeer
  with_reducible repeat' first
    | assumption | apply modPeer_kept | apply bump_kept | apply undeny_kept | apply zmsgEndFail_kept
    | apply Kept.foldl | intro _ | dsimp only | split

theorem resend_kept (pk : Nat) (o : ZOut) (dur : Nat) (filler : Bool) (host : Bytes) (s : State) (hs : Kept k0 s) :
    Kept k0 (resend pk o dur filler host s) := by
  unfold resend
  with_reducible repeat' first
    | assumption | apply sendReads_kept | apply sendZmt_kept | apply bump_kept | apply modPeer_kept | apply Kept.ite
    | intro _ | refine Kept.of_pair (by assumption) ?_ | dsimp only | split

theorem tryResend_kept (pk : Nat) (o : ZOut) (dur : Nat) (host : Bytes) (s : State) (hs : Kept k0 s) :
    Kept k0 (tryResend pk o dur host s) := by
  unfold tryResend
  with_reducible repeat' first
    | assumption | apply resend_kept | apply askRange_kept | apply abortMsg_kept | apply Kept.ite | intro _
    | dsimp only | split

theorem execRetransmitTimerExpiry_kept (ep psn : BitVec 32) (host : Bytes) (s : State) (hs : Kept k0 s) :
    KeptO k0 (execRetransmitTimerExpiry ep psn host s) := by
  unfold execRetransmitTimerExpiry
  with_reducible repeat' first
    | assumption | apply KeptO.next | apply KeptO.ite | apply abandonPeer_kept | apply tryResend_kept
    | apply bump_kept | apply Kept.ite | intro _ | dsimp only | split

theorem execCcRateUpdate_kept (ep : BitVec 32) (s : State) (hs : Kept k0 s) :
    KeptO k0 (execCcRateUpdate ep s) := by
  unfold execCcRateUpdate
  with_reducible repeat' first
    | assumption | apply KeptO.next | apply KeptO.ite | apply modPeer_kept | apply Kept.ite | intro _ | split

theorem ackReceive_kept (pk : Nat) (h : ZHdr) (body : Bytes) (s : State) (hs : Kept k0 s) :
    Kept k0 (ackReceive pk h body s) := by
  unfold ackReceive
  with_reducible repeat' first
    | assumption | apply modPeer_kept | apply modZmsg_kept | apply checkDone_kept | apply Kept.ite | apply Kept.foldl
    | intro _ | dsimp only | split | simp only [id_eq]

theorem toFallback_kept (id : Nat) (s : State) (hs : Kept k0 s) :
    Kept k0 (toFallback id s) := by
  unfold toFallback
  with_reducible repeat' first
    | assumption | apply modZmsg_kept | dsimp only | simp only [id_eq]

theorem nackReceive_kept (pk : Nat) (h : ZHdr) (s : State) (hs : Kept k0 s) :
    Kept k0 (nackReceive pk h s) := by
  unfold nackReceive
  with_reducible repeat' first
    | assumption | apply bump_kept | apply abandonPeer_kept | apply modPeer_kept | apply tryResend_kept
    | apply setEtVer_kept | apply toFallback_kept | apply abortMsg_kept | apply Kept.ite | intro _ | dsimp only
    | split

end Sys2Proof.Machine
end

