-- ==== Sys2Proof/Laws/KeptZmtRecv.lean ====
section
/-! SUPPORT. What every operation of Machine/ZmtRecv.lean keeps. -/

namespace Sys2Proof.Machine

variable {k0 : State}

theorem zInFail_kept (z : ZIn) (code : Nat) (s : State) (hs : Kept k0 s) :
    Kept k0 (zInFail z code s) := by
  unfold zInFail
  with_reducible repeat' first
    | assumption | apply ledFail_kept

theorem zInDone_kept (s : State) (hs : Kept k0 s) :
    Kept k0 (zInDone s) := by
  unfold zInDone
  with_reducible repeat' first
    | assumption | apply ledComplete_kept

theorem modReady_kept (ts : Nat) (f : List ZIn → List ZIn) (s : State) (hs : Kept k0 s) :
    Kept k0 (modReady ts f s) := by
  unfold modReady
  with_reducible repeat' first
    | assumption | apply modZmt_kept | dsimp only

theorem dropReady_kept (ts : Nat) (z : ZIn) (s : State) (hs : Kept k0 s) :
    Kept k0 (dropReady ts z s) := by
  unfold dropReady
  with_reducible repeat' first
    | assumption | apply undeny_kept | apply modReady_kept | dsimp only | simp only [id_eq]

theorem sendAck_kept (pk : Nat) (echo : Option Nat) (s : State) (hs : Kept k0 s) :
    Kept k0 (sendAck pk echo s) := by
  unfold sendAck
  with_reducible repeat' first
    | assumption | apply sendCtrl_kept | apply bump_kept | apply modPeer_kept | apply Kept.ite | intro _ | dsimp only
    | split

theorem sendNack_kept (ts ep psn code job msgId : Nat) (s : State) (hs : Kept k0 s) :
    Kept k0 (sendNack ts ep psn code job msgId s) := by
  unfold sendNack
  with_reducible repeat' first
    | assumption | apply bump_kept | apply sendCtrl_kept | apply Kept.ite | intro _ | dsimp only | split

theorem ackPolicy_kept (pk : Nat) (z : ZIn) (fresh : Bool) (s : State) (hs : Kept k0 s) :
    Kept k0 (ackPolicy pk z fresh s) := by
  unfold ackPolicy
  with_reducible repeat' first
    | assumption | apply modPeer_kept | apply sendAck_kept | apply Kept.ite | intro _ | dsimp only | split

theorem donePsn_kept (pk : Nat) (z : ZIn) (held : Bool) (s : State) (hs : Kept k0 s) :
    Kept k0 (donePsn pk z held s) := by
  unfold donePsn
  with_reducible repeat' first
    | assumption | apply ackPolicy_kept | apply modPeer_kept | apply Kept.ite | intro _ | dsimp only | split

theorem zPlaced_kept (ts pk : Nat) (z : ZIn) (s : State) (hs : Kept k0 s) :
    Kept k0 (zPlaced ts pk z s) := by
  unfold zPlaced
  with_reducible repeat' first
    | assumption | apply zInDone_kept | apply donePsn_kept | apply dropReady_kept

theorem zRefuse_kept (ts pk : Nat) (z : ZIn) (code : Nat) (s : State) (hs : Kept k0 s) :
    Kept k0 (zRefuse ts pk z code s) := by
  unfold zRefuse
  with_reducible repeat' first
    | assumption | apply dropReady_kept | apply bump_kept | apply sendNack_kept | apply zInFail_kept
    | apply donePsn_kept | apply Kept.ite | intro _ | dsimp only

theorem zBusyNack_kept (ts : Nat) (z : ZIn) (s : State) (hs : Kept k0 s) :
    Kept k0 (zBusyNack ts z s) := by
  unfold zBusyNack
  with_reducible repeat' first
    | assumption | apply zInFail_kept | apply sendNack_kept | apply dropReady_kept

theorem zOrphan_kept (ts : Nat) (z : ZIn) (s : State) (hs : Kept k0 s) :
    Kept k0 (zOrphan ts z s) := by
  unfold zOrphan
  with_reducible repeat' first
    | assumption | apply zInFail_kept | apply dropReady_kept

theorem tracePacket_kept (ts : Nat) (z : ZIn) (h : ZHdr) (s : State) (hs : Kept k0 s) :
    Kept k0 (tracePacket ts z h s) := by
  unfold tracePacket
  with_reducible repeat' first
    | assumption | apply bump_kept | apply modZmt_kept | apply Kept.ite | intro _ | dsimp only

theorem discardBadOp_kept (ts : Nat) (z : ZIn) (s : State) (hs : Kept k0 s) :
    Kept k0 (discardBadOp ts z s) := by
  unfold discardBadOp
  with_reducible repeat' first
    | assumption | apply zInFail_kept | apply bump_kept

theorem nackGaps_kept (ts pk : Nat) (psn : Nat) (s : State) (hs : Kept k0 s) :
    Kept k0 (nackGaps ts pk psn s) := by
  unfold nackGaps
  with_reducible repeat' first
    | assumption | apply modPeer_kept | apply sendNack_kept | apply drawn_kept | apply Kept.ite | apply Kept.foldl
    | intro _ | dsimp only | split

theorem windowCheck_kept (ts pk : Nat) (z : ZIn) (refused : Bool) (s : State) (hs : Kept k0 s) :
    Kept k0 (windowCheck ts pk z refused s) := by
  unfold windowCheck
  with_reducible repeat' first
    | assumption | apply zInFail_kept | apply nackGaps_kept | apply bump_kept | apply ackPolicy_kept
    | apply modReady_kept | apply zInDone_kept | apply zRefuse_kept | apply Kept.ite | intro _ | dsimp only | split

theorem refuseUnseq_kept (ts : Nat) (z : ZIn) (code : Nat) (s : State) (hs : Kept k0 s) :
    Kept k0 (refuseUnseq ts z code s) := by
  unfold refuseUnseq
  with_reducible repeat' first
    | assumption | apply zInFail_kept | apply sendNack_kept

theorem execZmtPacketReceive_kept (ts : Fin 8) (s : State) (hs : Kept k0 s) :
    KeptO k0 (execZmtPacketReceive ts s) := by
  unfold execZmtPacketReceive
  with_reducible repeat' first
    | assumption | apply KeptO.next | apply KeptO.ite | apply feedSlice_kept | apply modZmt_kept | apply setEtVer_kept
    | apply discardBadOp_kept | apply refuseUnseq_kept | apply zInDone_kept | apply tracePacket_kept
    | apply ensurePeer_kept | apply windowCheck_kept | apply modReady_kept | apply Kept.ite | intro _
    | refine Kept.of_pair (by assumption) ?_ | dsimp only | split

theorem unseqOp_kept (ts op : Nat) (act : Nat → ZIn → State → State) (s : State) (hact : ∀ a b s, Kept k0 s → Kept k0 (act a b s)) (hs : Kept k0 s) :
    Kept k0 (unseqOp ts op act s) := by
  unfold unseqOp
  with_reducible repeat' first
    | assumption | apply zOrphan_kept | apply zInDone_kept | apply dropReady_kept | apply hact | intro _ | split

theorem execAck_kept (ts : Fin 8) (s : State) (hs : Kept k0 s) :
    KeptO k0 (execAck ts s) := by
  unfold execAck
  with_reducible repeat' first
    | assumption | apply KeptO.next | apply unseqOp_kept | apply ackReceive_kept | intro _ | dsimp only

theorem execNack_kept (ts : Fin 8) (s : State) (hs : Kept k0 s) :
    KeptO k0 (execNack ts s) := by
  unfold execNack
  with_reducible repeat' first
    | assumption | apply KeptO.next | apply unseqOp_kept | apply nackReceive_kept | intro _ | dsimp only

theorem creditReceive_kept (pk : Nat) (b : Bytes) (s : State) (hs : Kept k0 s) :
    Kept k0 (creditReceive pk b s) := by
  unfold creditReceive
  with_reducible repeat' first
    | assumption | apply modPeer_kept | apply Kept.ite | intro _ | dsimp only

theorem execCredit_kept (ts : Fin 8) (s : State) (hs : Kept k0 s) :
    KeptO k0 (execCredit ts s) := by
  unfold execCredit
  with_reducible repeat' first
    | assumption | apply KeptO.next | apply unseqOp_kept | apply creditReceive_kept | intro _ | dsimp only

theorem seqOp_kept (ts op : Nat) (act : Nat → ZIn → State → State) (s : State) (hact : ∀ a b s, Kept k0 s → Kept k0 (act a b s)) (hs : Kept k0 s) :
    Kept k0 (seqOp ts op act s) := by
  unfold seqOp
  with_reducible repeat' first
    | assumption | apply zOrphan_kept | apply hact | intro _ | split

theorem execMgmt_kept (ts : Fin 8) (s : State) (hs : Kept k0 s) :
    KeptO k0 (execMgmt ts s) := by
  unfold execMgmt
  with_reducible repeat' first
    | assumption | apply KeptO.next | apply seqOp_kept | apply zPlaced_kept
    | refine modDict_kept (fun _ hd => ⟨hd, Nat.le_refl _⟩) ?_ | intro _ | dsimp only

theorem finReceive_kept (z : ZIn) (s : State) (hs : Kept k0 s) :
    Kept k0 (finReceive z s) := by
  unfold finReceive
  with_reducible repeat' first
    | assumption | apply zmsgDone_kept | apply modZmsg_kept | dsimp only | split | simp only [id_eq]

theorem execFin_kept (ts : Fin 8) (s : State) (hs : Kept k0 s) :
    KeptO k0 (execFin ts s) := by
  unfold execFin
  with_reducible repeat' first
    | assumption | apply KeptO.next | apply seqOp_kept | apply zPlaced_kept | apply finReceive_kept | intro _
    | dsimp only

theorem execZmtAckSend_kept (ep : BitVec 32) (s : State) (hs : Kept k0 s) :
    KeptO k0 (execZmtAckSend ep s) := by
  unfold execZmtAckSend
  with_reducible repeat' first
    | assumption | apply KeptO.next | apply KeptO.ite | apply sendAck_kept | apply Kept.ite | intro _ | split

theorem execZmtCreditSend_kept (ep : BitVec 32) (s : State) (hs : Kept k0 s) :
    KeptO k0 (execZmtCreditSend ep s) := by
  unfold execZmtCreditSend
  with_reducible repeat' first
    | assumption | apply KeptO.next | apply KeptO.ite | apply modPeer_kept | apply sendCtrl_kept | apply Kept.ite
    | intro _ | dsimp only | split

end Sys2Proof.Machine
end

