-- ==== Sys2Proof/Laws/KeptZmtOps.lean ====
section
/-! SUPPORT. What every operation of Machine/ZmtOps.lean keeps. -/

namespace Sys2Proof.Machine

variable {k0 : State}

theorem placePrefix_kept (pasid a : Nat) (data : Bytes) (mark : Nat) (s : State) (hs : Kept k0 s) :
    Kept k0 (placePrefix pasid a data mark s) := by
  unfold placePrefix
  with_reducible repeat' first
    | assumption | apply unitPlace_kept

theorem counterGate_kept (ts ep ccid job mlen plen : Nat) (s : State) (k : State → ZRes) (hk : ∀ s, Kept k0 s → KeptZ k0 (k s)) (hs : Kept k0 s) :
    KeptZ k0 (counterGate ts ep ccid job mlen plen s k) := by
  unfold counterGate
  with_reducible repeat' first
    | assumption | exact KeptZ.busy | apply KeptZ.refuse | apply KeptZ.ite | apply ctrFail_kept | apply Kept.ite
    | apply hk | intro _ | dsimp only | split

theorem placeCount_kept (ts id ep ccid mlen pasid a mark : Nat) (data : Bytes) (s : State) (hs : Kept k0 s) :
    KeptZ k0 (placeCount ts id ep ccid mlen pasid a mark data s) := by
  unfold placeCount
  with_reducible repeat' first
    | assumption | apply KeptZ.done | apply KeptZ.refuse | apply KeptZ.wait | apply askRange_kept
    | apply placePrefix_kept | apply ctrCount_kept | apply bumpBy_kept | apply unitPlace_kept | split
    | simp only [id_eq]

theorem intoWindow_kept (ts id ep job tofs ccid mlen : Nat) (data : Bytes) (s : State) (hs : Kept k0 s) :
    KeptZ k0 (intoWindow ts id ep job tofs ccid mlen data s) := by
  unfold intoWindow
  with_reducible repeat' first
    | assumption | apply KeptZ.refuse | apply KeptZ.ite | apply counterGate_kept | apply placeCount_kept
    | apply Kept.ite | intro _ | dsimp only | simp only [id_eq]

theorem settleSeq_kept (ts pk : Nat) (z : ZIn) (s : State) (r : ZRes) (hr : KeptZ k0 r) (hs : Kept k0 s) :
    Kept k0 (settleSeq ts pk z s r) := by
  unfold settleSeq
  with_reducible repeat' first
    | assumption | apply zPlaced_kept | apply zRefuse_kept | apply zBusyNack_kept
    | refine KeptZ.of_done (by assumption) ?_ | refine KeptZ.of_refuse (by assumption) ?_
    | refine KeptZ.of_wait (by assumption) ?_ | exact KeptZ.out_done (by assumption)
    | exact KeptZ.out_refuse (by assumption) | exact KeptZ.out_wait (by assumption) | split

theorem abortReceive_kept (ts pk : Nat) (z : ZIn) (s : State) (hs : Kept k0 s) :
    Kept k0 (abortReceive ts pk z s) := by
  unfold abortReceive
  with_reducible repeat' first
    | assumption | apply bump_kept | apply ctrFail_kept | apply zBusyNack_kept | apply zPlaced_kept
    | apply asmFree_kept | apply Kept.ite | intro _ | dsimp only | split

theorem execPut_kept (ts : Fin 8) (s : State) (hs : Kept k0 s) :
    KeptO k0 (execPut ts s) := by
  unfold execPut
  with_reducible repeat' first
    | assumption | apply KeptO.next | apply seqOp_kept | apply abortReceive_kept | apply settleSeq_kept
    | apply intoWindow_kept | apply Kept.ite | intro _ | dsimp only

theorem serveGet_kept (pk ts : Nat) (z : ZIn) (host : Bytes) (s : State) (hs : Kept k0 s) :
    KeptZ k0 (serveGet pk ts z host s) := by
  unfold serveGet
  with_reducible repeat' first
    | assumption | apply KeptZ.done | apply KeptZ.refuse | apply KeptZ.wait | apply KeptZ.ite | apply askRange_kept
    | apply sendResp_kept | apply sendReads_kept | apply Kept.ite | intro _ | dsimp only | split

theorem dupDone_kept (ts : Nat) (z : ZIn) (s : State) (hs : Kept k0 s) :
    Kept k0 (dupDone ts z s) := by
  unfold dupDone
  with_reducible repeat' first
    | assumption | apply zInDone_kept | apply dropReady_kept

theorem execGet_kept (ts : Fin 8) (host : Bytes) (s : State) (hs : Kept k0 s) :
    KeptO k0 (execGet ts host s) := by
  unfold execGet
  with_reducible repeat' first
    | assumption | apply KeptO.next | apply seqOp_kept | apply serveGet_kept | apply dupDone_kept
    | apply settleSeq_kept | apply Kept.ite | refine KeptZ.of_done (by assumption) ?_
    | refine KeptZ.of_wait (by assumption) ?_ | intro _ | dsimp only | split

theorem respTaken_kept (pk psn : Nat) (s : State) (hs : Kept k0 s) :
    Kept k0 (respTaken pk psn s) := by
  unfold respTaken
  with_reducible repeat' first
    | assumption | apply modPeer_kept | dsimp only

theorem sendFin_kept (ep job tc msgId : Nat) (s : State) (hs : Kept k0 s) :
    Kept k0 (sendFin ep job tc msgId s) := by
  unfold sendFin
  with_reducible repeat' first
    | assumption | apply zmsgNew_kept | dsimp only | simp only [id_eq]

theorem placeResp_kept (ts : Nat) (z : ZIn) (m : ZMsg) (r : ZResp) (data : Bytes) (s : State) (hs : Kept k0 s) :
    KeptZ k0 (placeResp ts z m r data s) := by
  unfold placeResp
  with_reducible repeat' first
    | assumption | apply KeptZ.ite | apply intoWindow_kept | apply counterGate_kept | apply placeCount_kept
    | apply drawn_kept | apply Kept.ite | intro _ | dsimp only

theorem respReceive_kept (ts : Nat) (op : Nat) (data : ZIn → Bytes) (s : State) (hs : Kept k0 s) :
    Kept k0 (respReceive ts op data s) := by
  unfold respReceive
  with_reducible repeat' first
    | assumption | apply zOrphan_kept | apply zInDone_kept | apply dropReady_kept | apply placeResp_kept
    | apply zInFail_kept | apply abortMsg_kept | apply modZmsg_kept | apply respTaken_kept | apply asmSettle_kept
    | apply sendFin_kept | apply checkDone_kept | apply Kept.ite | refine KeptZ.of_done (by assumption) ?_
    | refine KeptZ.of_refuse (by assumption) ?_ | refine KeptZ.of_wait (by assumption) ?_ | intro _ | dsimp only
    | split

theorem execGetr_kept (ts : Fin 8) (s : State) (hs : Kept k0 s) :
    KeptO k0 (execGetr ts s) := by
  unfold execGetr
  with_reducible repeat' first
    | assumption | apply KeptO.next | apply respReceive_kept | dsimp only

theorem doAtomic_kept (z : ZIn) (host : Bytes) (s : State) (hs : Kept k0 s) :
    KeptZ k0 (doAtomic z host s).1 := by
  unfold doAtomic
  with_reducible repeat' first
    | assumption | apply KeptZ.done | apply KeptZ.refuse | apply KeptZ.wait | apply KeptZ.ite | apply askRange_kept
    | apply emit_kept | apply storeBytes_kept | apply Kept.ite | intro _ | dsimp only | split

theorem execAtomic_kept (ts : Fin 8) (host : Bytes) (s : State) (hs : Kept k0 s) :
    KeptO k0 (execAtomic ts host s) := by
  unfold execAtomic
  with_reducible repeat' first
    | assumption | apply KeptO.next | apply seqOp_kept | apply dupDone_kept | apply sendResp_kept
    | apply doAtomic_kept | apply zPlaced_kept | apply modPeer_kept | apply settleSeq_kept | apply Kept.ite
    | refine KeptZ.of_done (by assumption) ?_ | refine KeptZ.out_done (KeptZ.of_fst (by assumption) ?_)
    | refine KeptZ.of_fst (by assumption) ?_ | intro _ | dsimp only | split

theorem execAtomr_kept (ts : Fin 8) (s : State) (hs : Kept k0 s) :
    KeptO k0 (execAtomr ts s) := by
  unfold execAtomr
  with_reducible repeat' first
    | assumption | apply KeptO.next | apply respReceive_kept | dsimp only

theorem newAsm_inl_kept {ts pk : Nat} {z : ZIn} {s : State} (h : Kept k0 s) {x : Nat × State}
    (e : newAsm ts pk z s = .inl (some x)) : Kept k0 x.2 := by
  unfold newAsm at e
  repeat' (first
    | (cases e; done)
    | (cases e
       repeat' (first | with_reducible assumption | with_reducible apply modZmt_kept | with_reducible apply arrSubmit_kept | with_reducible (refine Kept.of_pair (by with_reducible assumption) ?_) | with_reducible apply bufAlloc_kept | dsimp only))
    | dsimp only at e
    | split at e)

theorem newAsm_inr_kept {ts pk : Nat} {z : ZIn} {s : State} (h : Kept k0 s) {x : State}
    (e : newAsm ts pk z s = .inr x) : Kept k0 x := by
  unfold newAsm at e
  repeat' (first
    | (cases e; done)
    | (cases e
       repeat' (first | with_reducible assumption | with_reducible (refine Kept.of_pair (by with_reducible assumption) ?_) | with_reducible apply bufAlloc_kept | dsimp only))
    | dsimp only at e
    | split at e)

theorem sendInto_kept (ts : Nat) (z : ZIn) (i : Nat) (a : Asm) (s : State) (hs : Kept k0 s) :
    KeptZ k0 (sendInto ts z i a s) := by
  unfold sendInto
  with_reducible repeat' first
    | assumption | apply KeptZ.done | apply KeptZ.refuse | apply KeptZ.wait | apply KeptZ.ite | apply intoWindow_kept
    | apply asmSettle_kept | apply askRange_kept | apply modAsm_kept | apply unitPlace_kept | apply Kept.ite
    | refine KeptZ.of_done (by assumption) ?_ | refine KeptZ.of_refuse (by assumption) ?_
    | refine KeptZ.of_wait (by assumption) ?_ | intro _ | dsimp only | split

theorem execSend_kept (ts : Fin 8) (host : Bytes) (s : State) (hs : Kept k0 s) :
    KeptO k0 (execSend ts host s) := by
  unfold execSend
  with_reducible repeat' first
    | assumption | apply KeptO.next | apply seqOp_kept | apply settleSeq_kept | apply sendInto_kept
    | apply zBusyNack_kept | exact newAsm_inl_kept (by assumption) (by assumption)
    | exact newAsm_inr_kept (by assumption) (by assumption) | intro _ | dsimp only | split

theorem copyPieces_kept {ts i : Nat} {a : Asm} {tofs ccid b : Nat} {l : List (Nat × Nat)} :
    ∀ {host : Bytes} {s : State}, Kept k0 s → KeptZ k0 (copyPieces ts i a tofs ccid b host l s) := by
  induction l with
  | nil => intro host s h; exact h
  | cons e t ih =>
    intro host s h
    obtain ⟨off, n⟩ := e
    unfold copyPieces
    split
    · exact askRange_kept _ _ _ _ _ _ h
    · exact h
    · split
      · rename_i heq
        exact ih (modAsm_kept _ _ _ (KeptZ.of_done heq (intoWindow_kept _ _ _ _ _ _ _ _ _ h)))
      · exact intoWindow_kept _ _ _ _ _ _ _ _ _ h

theorem resolveTo_kept (ts i : Nat) (a : Asm) (desc : Nat) (d host : Bytes) (s : State) (hs : Kept k0 s) :
    KeptZ k0 (resolveTo ts i a desc d host s) := by
  unfold resolveTo
  with_reducible repeat' first
    | assumption | exact KeptZ.busy | apply KeptZ.done | apply KeptZ.refuse | apply KeptZ.ite | apply modAsm_kept
    | apply acceptUnitBrick_kept | apply placeCopy_kept | apply sendFin_kept | apply zmsgNew_kept
    | apply copyPieces_kept | apply asmSettle_kept | apply bump_kept | apply ctrFail_kept | apply Kept.ite
    | refine KeptZ.of_done (by assumption) ?_ | refine KeptZ.of_refuse (by assumption) ?_ | intro _
    | refine Kept.of_pair (by assumption) ?_ | refine Kept.of_triple (by assumption) ?_ | dsimp only | split

theorem execMatchResolve_kept (ts : Fin 8) (host : Bytes) (s : State) (hs : Kept k0 s) :
    KeptO k0 (execMatchResolve ts host s) := by
  unfold execMatchResolve
  with_reducible repeat' first
    | assumption | apply KeptO.next | apply KeptO.ite | apply modMat_kept | apply askRange_kept | apply undeny_kept
    | apply modAsm_kept | apply sendReads_kept | apply resolveTo_kept | apply Kept.ite
    | refine KeptZ.of_done (by assumption) ?_ | refine KeptZ.of_wait (by assumption) ?_ | intro _ | dsimp only | split

theorem reduceWindow_kept (ts : Nat) (z : ZIn) (mode : Nat) (host : Bytes) (s : State) (hs : Kept k0 s) :
    KeptZ k0 (reduceWindow ts z mode host s) := by
  unfold reduceWindow
  with_reducible repeat' first
    | assumption | apply KeptZ.done | apply KeptZ.refuse | apply KeptZ.wait | apply KeptZ.ite | apply counterGate_kept
    | apply askRange_kept | apply unitPlace_kept | apply sendReads_kept | apply storeBytes_kept | apply bump_kept
    | apply ctrCount_kept | apply Kept.ite | refine KeptZ.of_done (by assumption) ?_
    | refine KeptZ.of_refuse (by assumption) ?_ | refine KeptZ.of_wait (by assumption) ?_ | intro _ | dsimp only
    | split

theorem reduceSlot_kept (ts : Nat) (z : ZIn) (mode : Nat) (s : State) (hs : Kept k0 s) :
    KeptZ k0 (reduceSlot ts z mode s) := by
  unfold reduceSlot
  with_reducible repeat' first
    | assumption | exact KeptZ.busy | apply KeptZ.done | apply KeptZ.refuse | apply KeptZ.ite | apply ctrFail_kept
    | apply bump_kept | apply modCop_kept | apply ctrFirst_kept | apply Kept.ite | intro _ | dsimp only | split
    | simp only [id_eq]

theorem execReduce_kept (ts : Fin 8) (host : Bytes) (s : State) (hs : Kept k0 s) :
    KeptO k0 (execReduce ts host s) := by
  unfold execReduce
  with_reducible repeat' first
    | assumption | apply KeptO.next | apply seqOp_kept | apply zRefuse_kept | apply settleSeq_kept
    | apply reduceWindow_kept | apply reduceSlot_kept | apply donePsn_kept | apply dropReady_kept | apply Kept.ite
    | refine KeptZ.of_done (by assumption) ?_ | intro _ | dsimp only | split

theorem depositChunk_kept (tile : Nat) (d : Deposit) (s : State) (hs : Kept k0 s) :
    Kept k0 (depositChunk tile d s).2 := by
  unfold depositChunk
  with_reducible repeat' first
    | assumption | apply xsCount_kept | apply modSlot_kept | apply bumpBy_kept | apply bump_kept | apply Kept.ite
    | intro _ | dsimp only | split

theorem execDepositChunk_kept (tile : Fin 12) (s : State) (hs : Kept k0 s) :
    KeptO k0 (execDepositChunk tile s) := by
  unfold execDepositChunk
  with_reducible repeat' first
    | assumption | apply KeptO.next | apply KeptO.ite | apply depositChunk_kept | apply copPtr_kept
    | apply modCop_kept | apply ctrCount_kept | apply modPeer_kept | apply zInDone_kept | apply bump_kept
    | apply Kept.ite | intro _ | refine Kept.of_pair (by assumption) ?_ | dsimp only | split

theorem execReduceFallbackBrick_kept (msg : Nat) (s : State) (hs : Kept k0 s) :
    KeptO k0 (execReduceFallbackBrick msg s) := by
  unfold execReduceFallbackBrick
  with_reducible repeat' first
    | assumption | apply KeptO.next | apply KeptO.ite | apply acceptUnitBrick_kept | apply placeCopy_kept
    | apply bump_kept | apply modZmsg_kept | apply Kept.ite | intro _ | refine Kept.of_triple (by assumption) ?_
    | dsimp only | split

theorem execCounterDeadline_kept (ccid : Nat) (s : State) (hs : Kept k0 s) :
    KeptO k0 (execCounterDeadline ccid s) := by
  unfold execCounterDeadline
  with_reducible repeat' first
    | assumption | apply KeptO.next | apply KeptO.ite | apply bump_kept | apply ctrFail_kept | apply drawn_kept
    | apply Kept.ite | intro _ | dsimp only

theorem ctrArm_kept (ccid job act arg deadline : Nat) (target : Option Nat) (s : State) (hs : Kept k0 s) :
    Kept k0 (ctrArm ccid job act arg deadline target s) := by
  unfold ctrArm
  with_reducible repeat' first
    | assumption | apply modCtrRec_kept | apply Kept.ite | intro _ | dsimp only

theorem tsDone_kept (st : Nat) (s : State) (hs : Kept k0 s) :
    Kept k0 (tsDone st s) := by
  unfold tsDone
  with_reducible repeat' first
    | assumption | apply modZmt_kept | dsimp only

theorem tsGive_kept (w : List W64) (s : State) (hs : Kept k0 s) :
    Kept k0 (tsGive w s) := by
  unfold tsGive
  with_reducible repeat' first
    | assumption | apply modZmt_kept | dsimp only

theorem tsWriteOp_kept (tbl idx : Nat) (s : State) (hs : Kept k0 s) :
    Kept k0 (tsWriteOp tbl idx s) := by
  unfold tsWriteOp
  with_reducible repeat' first
    | assumption | apply tsDone_kept | apply modZmt_kept | apply modCtrRec_kept | apply Kept.ite | intro _
    | dsimp only | split

theorem tsReadOp_kept (tbl idx : Nat) (s : State) (hs : Kept k0 s) :
    Kept k0 (tsReadOp tbl idx s) := by
  unfold tsReadOp
  with_reducible repeat' first
    | assumption | apply tsDone_kept | apply tsGive_kept | apply Kept.ite | intro _ | split

theorem tsArmOp_kept (tbl idx : Nat) (s : State) (hs : Kept k0 s) :
    Kept k0 (tsArmOp tbl idx s) := by
  unfold tsArmOp
  with_reducible repeat' first
    | assumption | apply tsDone_kept | apply ctrArm_kept | apply armSlot_kept | apply Kept.ite | intro _ | dsimp only
    | split

theorem tsDisarmOp_kept (tbl idx : Nat) (s : State) (hs : Kept k0 s) :
    Kept k0 (tsDisarmOp tbl idx s) := by
  unfold tsDisarmOp
  with_reducible repeat' first
    | assumption | apply tsDone_kept | apply modCtrRec_kept | apply armSlot_kept | apply Kept.ite | intro _
    | dsimp only

theorem tsAbortOp_kept (tbl idx : Nat) (s : State) (hs : Kept k0 s) :
    Kept k0 (tsAbortOp tbl idx s) := by
  unfold tsAbortOp
  with_reducible repeat' first
    | assumption | apply tsDone_kept | apply bump_kept | apply ctrFail_kept | apply drawn_kept | apply tsDisarmOp_kept
    | apply Kept.ite | intro _ | dsimp only

theorem execTsWrite_kept (tbl : Fin 4) (idx : Fin 1048576) (s : State) (hs : Kept k0 s) :
    KeptO k0 (execTsWrite tbl idx s) := by
  unfold execTsWrite
  with_reducible repeat' first
    | assumption | apply KeptO.next | apply tsWriteOp_kept | intro _

theorem execTsRead_kept (tbl : Fin 4) (idx : Fin 1048576) (s : State) (hs : Kept k0 s) :
    KeptO k0 (execTsRead tbl idx s) := by
  unfold execTsRead
  with_reducible repeat' first
    | assumption | apply KeptO.next | apply tsReadOp_kept

theorem execArm_kept (tbl : Fin 4) (idx : Fin 1048576) (s : State) (hs : Kept k0 s) :
    KeptO k0 (execArm tbl idx s) := by
  unfold execArm
  with_reducible repeat' first
    | assumption | apply KeptO.next | apply tsArmOp_kept

theorem execDisarm_kept (tbl : Fin 4) (idx : Fin 1048576) (s : State) (hs : Kept k0 s) :
    KeptO k0 (execDisarm tbl idx s) := by
  unfold execDisarm
  with_reducible repeat' first
    | assumption | apply KeptO.next | apply tsDisarmOp_kept

theorem execTsAbort_kept (tbl : Fin 4) (idx : Fin 1048576) (s : State) (hs : Kept k0 s) :
    KeptO k0 (execTsAbort tbl idx s) := by
  unfold execTsAbort
  with_reducible repeat' first
    | assumption | apply KeptO.next | apply tsAbortOp_kept

theorem rdPeerState_kept (a0 : Nat) (s : State) (hs : Kept k0 s) :
    Kept k0 (rdPeerState a0 s).2.2 := by
  unfold rdPeerState
  with_reducible repeat' first
    | assumption | dsimp only | split

theorem execPeerStateRead_kept (h : DHdr) (s : State) (hs : Kept k0 s) :
    KeptO k0 (execPeerStateRead h s) := by
  unfold execPeerStateRead
  with_reducible repeat' first
    | assumption | apply KeptO.next | apply dictReadRow_kept | apply rdPeerState_kept | intro _ | dsimp only

theorem rdTrace_kept (a0 : Nat) (s : State) (hs : Kept k0 s) :
    Kept k0 (rdTrace a0 s).2.2 := by
  unfold rdTrace
  with_reducible repeat' first
    | assumption | apply modZmt_kept | dsimp only | simp only [id_eq]

theorem execTraceRingRead_kept (h : DHdr) (s : State) (hs : Kept k0 s) :
    KeptO k0 (execTraceRingRead h s) := by
  unfold execTraceRingRead
  with_reducible repeat' first
    | assumption | apply KeptO.next | apply dictReadRow_kept | apply rdTrace_kept | intro _ | dsimp only

end Sys2Proof.Machine
end

