-- ==== Sys2Proof/Laws/KeptUnitRead.lean ====
section
/-! SUPPORT. What every operation of Machine/UnitRead.lean keeps. -/

namespace Sys2Proof.Machine

variable {k0 : State}

theorem loadAlloc_kept (t p : Nat) (s : State) (hs : Kept k0 s) :
    KeptL k0 (loadAlloc t p s) := by
  unfold loadAlloc
  with_reducible repeat' first
    | assumption | apply KeptL.value | apply KeptL.wait | apply KeptL.ite | apply bufAlloc_kept | apply modPool_kept
    | apply Kept.ite | intro _ | refine Kept.of_pair (by assumption) ?_ | dsimp only | split

theorem loadBuf_kept (t k : Nat) (bad : Bool) (s : State) (hs : Kept k0 s) :
    KeptL k0 (loadBuf t k bad s) := by
  unfold loadBuf
  with_reducible repeat' first
    | assumption | apply KeptL.value | apply KeptL.wait | apply KeptL.ite | apply bufAddref_kept | apply bufFree_kept
    | apply bufQuery_kept | intro _ | refine Kept.of_pair (by assumption) ?_ | dsimp only | split

theorem unitLoad_kept (t u off : Nat) (bad : Bool) (s : State) (hs : Kept k0 s) :
    KeptL k0 (unitLoad t u off bad s) := by
  unfold unitLoad
  with_reducible repeat' first
    | assumption | apply KeptL.value | apply KeptL.wait | apply KeptL.ite | apply modClk_kept | apply modCls_kept
    | apply lnqPop_kept | apply lockOp_kept | apply loadAlloc_kept | apply loadBuf_kept | apply tecStray_kept
    | apply Kept.ite | refine KeptL.of_value (by assumption) ?_ | refine KeptL.of_wait (by assumption) ?_ | intro _
    | refine Kept.of_pair (by assumption) ?_ | dsimp only | split

end Sys2Proof.Machine
end

