-- ==== Sys2Proof/Laws/KeptEntryRead.lean ====
section
/-! SUPPORT. What every operation of Machine/EntryRead.lean keeps. -/

namespace Sys2Proof.Machine

variable {k0 : State}

theorem entryRead_kept (idx sub : Nat) (pend : Bool) (a0 : Nat) (s : State) (hs : Kept k0 s) :
    Kept k0 (entryRead idx sub pend a0 s).2.2 := by
  unfold entryRead
  with_reducible repeat' first
    | assumption | apply rdCounters_kept | apply rdLnq_kept | apply rdLpmLenCfg_kept | apply rdPeerState_kept
    | apply rdTrace_kept | apply rdLockState_kept | apply rdMatchEntry_kept | apply rdPoisonLog_kept
    | apply rdJournal_kept | apply rdMismatches_kept | apply rdFailureLog_kept | apply Kept.ite | intro _
    | refine Kept.of_triple (by assumption) ?_ | dsimp only | split

theorem execDictRead_kept (h : DHdr) (idx : BitVec 16) (sub : BitVec 8) (s : State) (hs : Kept k0 s) :
    KeptO k0 (execDictRead h idx sub s) := by
  unfold execDictRead
  with_reducible repeat' first
    | assumption | apply KeptO.next | apply KeptO.ite | apply dictArrive_kept | apply respond_kept
    | apply inSession_kept | apply performRead_kept | apply entryRead_kept | apply Kept.ite | intro _ | dsimp only

end Sys2Proof.Machine
end

