-- ==== Sys2Proof/Laws/KeptUnitWrite.lean ====
section
/-! SUPPORT. What every operation of Machine/UnitWrite.lean keeps. -/

namespace Sys2Proof.Machine

variable {k0 : State}

theorem setNum_kept (idx sub n v : Nat) (s : State) (hs : Kept k0 s) :
    Kept k0 (setNum idx sub n v s) := by
  unfold setNum
  with_reducible repeat' first
    | assumption | apply setVal_kept

theorem wrPortReg_kept (p off v : Nat) (s : State) (hs : Kept k0 s) :
    Kept k0 (wrPortReg p off v s) := by
  unfold wrPortReg
  with_reducible repeat' first
    | assumption | apply setNum_kept | apply wrPortMode_kept | apply wrPortAdmin_kept | apply modPort_kept
    | apply Kept.ite | intro _ | refine Kept.of_pair (by assumption) ?_ | dsimp only | split

theorem wrClsReg_kept (k off v : Nat) (s : State) (hs : Kept k0 s) :
    Kept k0 (wrClsReg k off v s) := by
  unfold wrClsReg
  with_reducible repeat' first
    | assumption | apply modCls_kept | apply modEntry_kept | apply Kept.ite | intro _ | dsimp only | split

theorem fwdCommand_kept (m : Bool) (v : Nat) (s : State) (hs : Kept k0 s) :
    Kept k0 (fwdCommand m v s) := by
  unfold fwdCommand
  with_reducible repeat' first
    | assumption | apply fwdLookupOp_kept | apply fwdInsertOp_kept | apply fwdDeleteOp_kept | apply fwdReadWayOp_kept
    | apply Kept.ite | intro _ | dsimp only | split

theorem wrFwdCmd_kept (m : Bool) (o v : Nat) (s : State) (hs : Kept k0 s) :
    Kept k0 (wrFwdCmd m o v s) := by
  unfold wrFwdCmd
  with_reducible repeat' first
    | assumption | apply modFwdCmd_kept | apply fwdCommand_kept | dsimp only | split

theorem wrFwdReg_kept (off v : Nat) (s : State) (hs : Kept k0 s) :
    Kept k0 (wrFwdReg off v s) := by
  unfold wrFwdReg
  with_reducible repeat' first
    | assumption | apply wrFwdCmd_kept | apply setNum_kept | apply modFwd_kept | apply filtPut_kept | apply Kept.ite
    | intro _ | dsimp only | split

theorem zmtCommand_kept (v : Nat) (s : State) (hs : Kept k0 s) :
    Kept k0 (zmtCommand v s) := by
  unfold zmtCommand
  with_reducible repeat' first
    | assumption | apply tsWriteOp_kept | apply tsReadOp_kept | apply tsArmOp_kept | apply tsDisarmOp_kept
    | apply tsAbortOp_kept | intro _ | dsimp only | split

theorem wrZmtReg_kept (off v : Nat) (s : State) (hs : Kept k0 s) :
    Kept k0 (wrZmtReg off v s) := by
  unfold wrZmtReg
  with_reducible repeat' first
    | assumption | apply setNum_kept | apply modZmt_kept | apply zmtCommand_kept | dsimp only | split

theorem wrSchedReg_kept (t off v : Nat) (s : State) (hs : Kept k0 s) :
    Kept k0 (wrSchedReg t off v s) := by
  unfold wrSchedReg
  with_reducible repeat' first
    | assumption | apply openChange_kept | apply setNum_kept | apply drainWrite_kept | apply setVal_kept
    | apply modPost_kept | apply postGo_kept | apply Kept.ite | intro _ | dsimp only | split

theorem wrLockReg_kept (off v : Nat) (s : State) (hs : Kept k0 s) :
    Kept k0 (wrLockReg off v s) := by
  unfold wrLockReg
  with_reducible repeat' first
    | assumption | apply setNum_kept | apply groupWrite_kept | apply modLocks_kept | apply Kept.ite | intro _
    | dsimp only | split

theorem wrMatchReg_kept (off v : Nat) (s : State) (hs : Kept k0 s) :
    Kept k0 (wrMatchReg off v s) := by
  unfold wrMatchReg
  with_reducible repeat' first
    | assumption | apply setNum_kept | apply blkClsWrite_kept | apply modMat_kept | apply mStart_kept | apply Kept.ite
    | intro _ | refine Kept.of_pair (by assumption) ?_ | dsimp only | split

theorem wrBufReg_kept (t off v : Nat) (bad : Bool) (s : State) (hs : Kept k0 s) :
    Kept k0 (wrBufReg t off v bad s) := by
  unfold wrBufReg
  with_reducible repeat' first
    | assumption | apply modPool_kept | apply bump_kept | apply modBufs_kept | apply bufFree_kept
    | apply bufAddref_kept | apply Kept.ite | intro _ | refine Kept.of_pair (by assumption) ?_ | dsimp only | split

theorem wrHbmReg_kept (k off v : Nat) (s : State) (hs : Kept k0 s) :
    Kept k0 (wrHbmReg k off v s) := by
  unfold wrHbmReg
  with_reducible repeat' first
    | assumption | apply modHbm_kept | dsimp only | split

theorem wrHostReg_kept (off v : Nat) (s : State) (hs : Kept k0 s) :
    Kept k0 (wrHostReg off v s) := by
  unfold wrHostReg
  with_reducible repeat' first
    | assumption | apply modCmq_kept | apply modCpq_kept | dsimp only | split

theorem wrDmaReg_kept (off v : Nat) (s : State) (hs : Kept k0 s) :
    Kept k0 (wrDmaReg off v s) := by
  unfold wrDmaReg
  with_reducible repeat' first
    | assumption | apply modHost_kept | apply modDpost_kept | apply dmaSubmit_kept | apply Kept.ite | intro _
    | dsimp only | split

theorem wrPowerReg_kept (off v : Nat) (s : State) (hs : Kept k0 s) :
    Kept k0 (wrPowerReg off v s) := by
  unfold wrPowerReg
  with_reducible repeat' first
    | assumption | apply setNum_kept | apply wrDomainTarget_kept | apply Kept.ite | intro _
    | refine Kept.of_pair (by assumption) ?_ | dsimp only | split

theorem groupCtl_kept (tile g v : Nat) (s : State) (hs : Kept k0 s) :
    Kept k0 (groupCtl tile g v s) := by
  unfold groupCtl
  with_reducible repeat' first
    | assumption | apply tecDeliver_kept | apply modGroup_kept | dsimp only

theorem wrTileReg_kept (t off v : Nat) (s : State) (hs : Kept k0 s) :
    Kept k0 (wrTileReg t off v s) := by
  unfold wrTileReg
  with_reducible repeat' first
    | assumption | apply modTile_kept | apply tecCtrl_kept | apply tecSwin_kept | apply tecAck_kept
    | apply tecActive_kept | apply tecComplete_kept | apply groupCtl_kept | apply tecPendClear_kept
    | apply tecSense_kept | apply modCop_kept | apply Kept.ite | intro _ | dsimp only | split

theorem unitStore_kept (t u off v : Nat) (bad : Bool) (s : State) (hs : Kept k0 s) :
    Kept k0 (unitStore t u off v bad s) := by
  unfold unitStore
  with_reducible repeat' first
    | assumption | apply wrPortReg_kept | apply wrClsReg_kept | apply wrFwdReg_kept | apply wrZmtReg_kept
    | apply wrSchedReg_kept | apply wrLockReg_kept | apply wrMatchReg_kept | apply wrBufReg_kept | apply wrHbmReg_kept
    | apply wrHostReg_kept | apply wrDmaReg_kept | apply wrPowerReg_kept | apply wrTileReg_kept | apply Kept.ite
    | intro _

end Sys2Proof.Machine
end

