-- ==== Sys2Proof/Laws/KeptEntryWrite.lean ====
section
/-! SUPPORT. What every operation of Machine/EntryWrite.lean keeps. -/

namespace Sys2Proof.Machine

variable {k0 : State}

theorem wrKeyOp_kept (a0 : Nat) (v0 : Bytes) (s : State) (hs : Kept k0 s) :
    Kept k0 (wrKeyOp a0 v0 s).2 := by
  unfold wrKeyOp
  with_reducible repeat' first
    | assumption | apply modCops_kept | apply Kept.ite | intro _ | dsimp only | split

theorem wrTransports_kept (a0 : Nat) (v0 : Bytes) (s : State) (hs : Kept k0 s) :
    Kept k0 (wrTransports a0 v0 s).2 := by
  unfold wrTransports
  with_reducible repeat' first
    | assumption | apply setVal_kept | apply closeWhere_kept | dsimp only

theorem wrDumpStart_kept (a0 : Nat) (v0 : Bytes) (s : State) (hs : Kept k0 s) :
    Kept k0 (wrDumpStart a0 v0 s).2 := by
  unfold wrDumpStart
  with_reducible repeat' first
    | assumption | apply startDump_kept | apply Kept.ite | intro _ | dsimp only | split

theorem ccImage_kept (s0 s : State) (hs0 : Kept k0 s0) (hs : Kept k0 s) :
    Kept k0 (ccImage s0 s) := by
  unfold ccImage
  with_reducible repeat' first
    | assumption | apply modZmt_kept | apply Kept.ite | intro _ | dsimp only

theorem wrNow_kept (idx sub : Nat) (a0 : Nat) (v0 : Bytes) (s : State) (hs : Kept k0 s) :
    Kept k0 (wrNow idx sub a0 v0 s).2 := by
  unfold wrNow
  with_reducible repeat' first
    | assumption | apply openChange_kept | apply setVal_kept | apply tecLearn_kept | apply ageImage_kept
    | apply ccImage_kept | apply tileImage_kept | apply modHbm_kept | apply Kept.ite | apply Kept.foldl | intro _
    | dsimp only | split

theorem wrByClass_kept (idx sub : Nat) (a0 : Nat) (v0 : Bytes) (s : State) (hs : Kept k0 s) :
    Kept k0 (wrByClass idx sub a0 v0 s).2 := by
  unfold wrByClass
  with_reducible repeat' first
    | assumption | apply storeOwn_kept | apply wrCourseEntry_kept | apply storePersist_kept | apply wrNow_kept
    | apply Kept.ite | intro _ | refine Kept.of_pair (by assumption) ?_ | dsimp only | split

theorem entryWrite_kept (idx sub : Nat) (a0 : Nat) (v0 : Bytes) (s : State) (hs : Kept k0 s) :
    Kept k0 (entryWrite idx sub a0 v0 s).2 := by
  unfold entryWrite
  with_reducible repeat' first
    | assumption | apply wrPortAdmin_kept | apply wrPortMode_kept | apply wrGroup_kept | apply wrPoolConfig_kept
    | apply wrPoolState_kept | apply wrDomainTarget_kept | apply wrOperatorKey_kept | apply wrTimeSet_kept
    | apply wrCommit_kept | apply wrCommitTime_kept | apply wrAbort_kept | apply wrStageOp_kept
    | apply wrProgImage_kept | apply wrMeterStage_kept | apply wrEtOp_kept | apply wrLpmOp_kept
    | apply wrLpmLenCfg_kept | apply wrNhg_kept | apply wrTileDrain_kept | apply wrBreakLock_kept
    | apply wrBlkCls_kept | apply wrRenumber_kept | apply wrKeyOp_kept | apply wrRetireStack_kept
    | apply wrRetirePc_kept | apply wrLaneRepair_kept | apply wrWakeGroup_kept | apply wrDeviceMode_kept
    | apply wrWakeAlarm_kept | apply wrCloseSession_kept | apply wrInstallerKey_kept | apply wrUnclaim_kept
    | apply wrTransports_kept | apply wrConfigErase_kept | apply wrTimedCancel_kept | apply wrCoreReadmit_kept
    | apply wrFreeze_kept | apply wrFreezeTime_kept | apply wrThaw_kept | apply wrThawTime_kept
    | apply wrDumpStart_kept | apply wrDebugCmd_kept | apply wrImageLoad_kept | apply wrImageChunk_kept
    | apply wrSwap_kept | apply wrSwapTime_kept | apply wrRollback_kept | apply wrDeviceReset_kept
    | apply wrByClass_kept | apply Kept.ite | intro _ | refine Kept.of_pair (by assumption) ?_ | dsimp only | split

theorem execDictWrite_kept (h : DHdr) (idx : BitVec 16) (sub : BitVec 8) (v : Bytes) (s : State) (hs : Kept k0 s) :
    KeptO k0 (execDictWrite h idx sub v s) := by
  unfold execDictWrite
  with_reducible repeat' first
    | assumption | apply KeptO.next | apply takeReset_kept | apply dictWriteRow_kept | apply entryWrite_kept | intro _
    | dsimp only

theorem execTimedWrite_kept (h : DHdr) (idx : BitVec 16) (sub : BitVec 8) (atime : BitVec 80) (v : Bytes) (s : State) (hs : Kept k0 s) :
    KeptO k0 (execTimedWrite h idx sub atime v s) := by
  unfold execTimedWrite
  with_reducible repeat' first
    | assumption | apply KeptO.next | apply inSession_kept | apply refuseFull_kept | apply recordWrite_kept
    | refine modDict_kept (fun _ hd => ⟨hd, Nat.le_refl _⟩) ?_ | apply timedCount_kept | apply Kept.ite | intro _
    | dsimp only | split

theorem fireTimed_kept (t : TimedW) (s : State) (hs : Kept k0 s) :
    Kept k0 (fireTimed t s) := by
  unfold fireTimed
  with_reducible repeat' first
    | assumption | refine modDict_kept (fun _ hd => ⟨hd, Nat.le_refl _⟩) ?_ | apply bump_kept | apply entryWrite_kept
    | apply journal_kept | apply takeReset_kept | apply Kept.ite | intro _ | dsimp only | split

theorem execTimedWriteFire_kept (s : State) (hs : Kept k0 s) :
    KeptO k0 (execTimedWriteFire s) := by
  unfold execTimedWriteFire
  with_reducible repeat' first
    | assumption | apply KeptO.next | apply fireTimed_kept | split

theorem execReadGroup_kept (h : DHdr) (atime : BitVec 80) (entries : List (BitVec 16 × BitVec 8)) (s : State) (hs : Kept k0 s) :
    KeptO k0 (execReadGroup h atime entries s) := by
  unfold execReadGroup
  with_reducible repeat' first
    | assumption | apply KeptO.next | apply inSession_kept | apply respond_kept | apply timedCount_kept
    | apply modSess_kept | refine modDict_kept (fun _ hd => ⟨hd, Nat.le_refl _⟩) ?_ | apply Kept.ite | intro _
    | dsimp only

theorem groupRead_kept (g : PGroup) (xport : Nat) (e : Nat × Nat) (s : State) (hs : Kept k0 s) :
    Kept k0 (groupRead g xport e s).2 := by
  unfold groupRead
  with_reducible repeat' first
    | assumption | apply entryRead_kept | apply bump_kept | apply journal_kept | apply Kept.ite | intro _ | dsimp only
    | split

theorem groupRecords_kept {g : PGroup} {xport : Nat} {l : List (Nat × Nat)} : ∀ {s : State}, Kept k0 s →
    Kept k0 (groupRecords g xport l s).2 := by
  induction l with
  | nil => intro s h; exact h
  | cons r t ih => intro s h; exact ih (groupRead_kept _ _ _ _ h)

theorem captureGroup_kept (g : PGroup) (s : State) (hs : Kept k0 s) :
    Kept k0 (captureGroup g s) := by
  unfold captureGroup
  with_reducible repeat' first
    | assumption | apply modSess_kept | refine modDict_kept (fun _ hd => ⟨hd, Nat.le_refl _⟩) ?_
    | apply groupRecords_kept | apply respond_kept | apply bump_kept | apply Kept.ite | intro _ | dsimp only | split

theorem execReadGroupCapture_kept (s : State) (hs : Kept k0 s) :
    KeptO k0 (execReadGroupCapture s) := by
  unfold execReadGroupCapture
  with_reducible repeat' first
    | assumption | apply KeptO.next | apply captureGroup_kept | split

end Sys2Proof.Machine
end

