-- ==== Sys2Proof/Laws/KeptHostCmd.lean ====
section
/-! SUPPORT. What every operation of Machine/HostCmd.lean keeps. -/

namespace Sys2Proof.Machine

variable {k0 : State}

theorem cmdEnd_kept (id st : Nat) (s : State) (hs : Kept k0 s) :
    Kept k0 (cmdEnd id st s) := by
  unfold cmdEnd
  with_reducible repeat' first
    | assumption | apply endCmd_kept | simp only [id_eq]

theorem cmdLink_kept (id link : Nat) (s : State) (hs : Kept k0 s) :
    Kept k0 (cmdLink id link s) := by
  unfold cmdLink
  with_reducible repeat' first
    | assumption | apply modHost_kept | dsimp only | simp only [id_eq]

theorem execNop_kept (q : Fin 4096) (s : State) (hs : Kept k0 s) :
    KeptO k0 (execNop q s) := by
  unfold execNop
  with_reducible repeat' first
    | assumption | apply KeptO.next | apply runCmd_kept | apply cmdEnd_kept | intro _ | dsimp only | simp only [id_eq]

theorem execDma_kept (q : Fin 4096) (s : State) (hs : Kept k0 s) :
    KeptO k0 (execDma q s) := by
  unfold execDma
  with_reducible repeat' first
    | assumption | apply KeptO.next | apply runCmd_kept | apply newItem_kept | apply cmdLink_kept | apply endItem_kept
    | apply Kept.ite | intro _ | dsimp only | split | simp only [id_eq]

theorem cmdSend_kept (q z : Nat) (s : State) (hs : Kept k0 s) :
    Kept k0 (cmdSend q z s) := by
  unfold cmdSend
  with_reducible repeat' first
    | assumption | apply runCmd_kept | apply zmsgNew_kept | apply cmdLink_kept | apply bump_kept
    | apply ledAccept_kept | apply zmsgDone_kept | apply Kept.ite | intro _ | dsimp only | simp only [id_eq]

theorem execMsgPut_kept (q : Fin 4096) (s : State) (hs : Kept k0 s) :
    KeptO k0 (execMsgPut q s) := by
  unfold execMsgPut
  with_reducible repeat' first
    | assumption | apply KeptO.next | apply cmdSend_kept

theorem execMsgGet_kept (q : Fin 4096) (s : State) (hs : Kept k0 s) :
    KeptO k0 (execMsgGet q s) := by
  unfold execMsgGet
  with_reducible repeat' first
    | assumption | apply KeptO.next | apply cmdSend_kept

theorem execMsgAtomic_kept (q : Fin 4096) (s : State) (hs : Kept k0 s) :
    KeptO k0 (execMsgAtomic q s) := by
  unfold execMsgAtomic
  with_reducible repeat' first
    | assumption | apply KeptO.next | apply cmdSend_kept

theorem execMsgSend_kept (q : Fin 4096) (s : State) (hs : Kept k0 s) :
    KeptO k0 (execMsgSend q s) := by
  unfold execMsgSend
  with_reducible repeat' first
    | assumption | apply KeptO.next | apply cmdSend_kept

theorem execMsgReduce_kept (q : Fin 4096) (s : State) (hs : Kept k0 s) :
    KeptO k0 (execMsgReduce q s) := by
  unfold execMsgReduce
  with_reducible repeat' first
    | assumption | apply KeptO.next | apply cmdSend_kept

theorem execMatchOp_kept (q : Fin 4096) (s : State) (hs : Kept k0 s) :
    KeptO k0 (execMatchOp q s) := by
  unfold execMatchOp
  with_reducible repeat' first
    | assumption | apply KeptO.next | apply runCmd_kept | apply mRequest_kept | intro _ | dsimp only
    | simp only [id_eq]

theorem execBrick_kept (q : Fin 4096) (s : State) (hs : Kept k0 s) :
    KeptO k0 (execBrick q s) := by
  unfold execBrick
  with_reducible repeat' first
    | assumption | apply KeptO.next | apply runCmd_kept | apply acceptBrick_kept | apply cmdEnd_kept
    | apply cmdLink_kept | apply placeCopy_kept | apply Kept.ite | intro _ | dsimp only | simp only [id_eq]

theorem execCounterArm_kept (q : Fin 4096) (s : State) (hs : Kept k0 s) :
    KeptO k0 (execCounterArm q s) := by
  unfold execCounterArm
  with_reducible repeat' first
    | assumption | apply KeptO.next | apply runCmd_kept | apply cmdEnd_kept | apply ctrArm_kept | apply Kept.ite
    | intro _ | dsimp only | simp only [id_eq]

theorem execCounterDisarm_kept (q : Fin 4096) (s : State) (hs : Kept k0 s) :
    KeptO k0 (execCounterDisarm q s) := by
  unfold execCounterDisarm
  with_reducible repeat' first
    | assumption | apply KeptO.next | apply runCmd_kept | apply cmdEnd_kept | apply drawn_kept | apply modCtrRec_kept
    | apply Kept.ite | intro _ | dsimp only | simp only [id_eq]

theorem execWindow_kept (q : Fin 4096) (s : State) (hs : Kept k0 s) :
    KeptO k0 (execWindow q s) := by
  unfold execWindow
  with_reducible repeat' first
    | assumption | apply KeptO.next | apply runCmd_kept | apply cmdEnd_kept | apply modZmt_kept | intro _ | dsimp only
    | simp only [id_eq]

theorem execCreateCmq_kept (q : Fin 4096) (s : State) (hs : Kept k0 s) :
    KeptO k0 (execCreateCmq q s) := by
  unfold execCreateCmq
  with_reducible repeat' first
    | assumption | apply KeptO.next | apply runCmd_kept | apply cmdEnd_kept | apply openCmq_kept | apply Kept.ite
    | intro _ | dsimp only | simp only [id_eq]

theorem execDeleteCmq_kept (q : Fin 4096) (s : State) (hs : Kept k0 s) :
    KeptO k0 (execDeleteCmq q s) := by
  unfold execDeleteCmq
  with_reducible repeat' first
    | assumption | apply KeptO.next | apply runCmd_kept | apply cmdEnd_kept | apply modCmq_kept | apply Kept.ite
    | intro _ | dsimp only | simp only [id_eq]

theorem execCreateCpq_kept (q : Fin 4096) (s : State) (hs : Kept k0 s) :
    KeptO k0 (execCreateCpq q s) := by
  unfold execCreateCpq
  with_reducible repeat' first
    | assumption | apply KeptO.next | apply runCmd_kept | apply cmdEnd_kept | apply modCpq_kept | apply Kept.ite
    | intro _ | dsimp only | simp only [id_eq]

theorem execDeleteCpq_kept (q : Fin 4096) (s : State) (hs : Kept k0 s) :
    KeptO k0 (execDeleteCpq q s) := by
  unfold execDeleteCpq
  with_reducible repeat' first
    | assumption | apply KeptO.next | apply runCmd_kept | apply cmdEnd_kept | apply modCpq_kept | apply Kept.ite
    | intro _ | dsimp only | simp only [id_eq]

theorem execPasidReg_kept (q : Fin 4096) (s : State) (hs : Kept k0 s) :
    KeptO k0 (execPasidReg q s) := by
  unfold execPasidReg
  with_reducible repeat' first
    | assumption | apply KeptO.next | apply runCmd_kept | apply cmdEnd_kept | apply modHost_kept | intro _
    | dsimp only | simp only [id_eq]

theorem atcRemove_kept (p : AtcEnt → Bool) (s : State) (hs : Kept k0 s) :
    Kept k0 (atcRemove p s) := by
  unfold atcRemove
  with_reducible repeat' first
    | assumption | apply modHost_kept | dsimp only

theorem execPasidUnreg_kept (q : Fin 4096) (s : State) (hs : Kept k0 s) :
    KeptO k0 (execPasidUnreg q s) := by
  unfold execPasidUnreg
  with_reducible repeat' first
    | assumption | apply KeptO.next | apply runCmd_kept | apply cmdEnd_kept | apply atcRemove_kept
    | apply modHost_kept | apply Kept.ite | intro _ | dsimp only | split | simp only [id_eq]

theorem execAperture_kept (q : Fin 4096) (s : State) (hs : Kept k0 s) :
    KeptO k0 (execAperture q s) := by
  unfold execAperture
  with_reducible repeat' first
    | assumption | apply KeptO.next | apply runCmd_kept | apply cmdEnd_kept | apply modHost_kept | apply Kept.ite
    | intro _ | dsimp only | simp only [id_eq]

end Sys2Proof.Machine
end

