-- ==== Sys2Proof/Laws/KeptHostLink.lean ====
section
/-! SUPPORT. What every operation of Machine/HostLink.lean keeps. -/

namespace Sys2Proof.Machine

variable {k0 : State}

theorem modXl_kept (y : Xlate) (g : Xlate → Xlate) (s : State) (hs : Kept k0 s) :
    Kept k0 (modXl y g s) := by
  unfold modXl
  with_reducible repeat' first
    | assumption | apply modHost_kept | apply Kept.ite | intro _ | dsimp only

theorem dropXl_kept (y : Xlate) (s : State) (hs : Kept k0 s) :
    Kept k0 (dropXl y s) := by
  unfold dropXl
  with_reducible repeat' first
    | assumption | apply modHost_kept | dsimp only

theorem failReq_kept (s0 : State) (r : XReq) (s : State) (hs0 : Kept k0 s0) (hs : Kept k0 s) :
    Kept k0 (failReq s0 r s) := by
  unfold failReq
  with_reducible repeat' first
    | assumption | apply faultAddr_kept | apply modThr_kept | apply endItem_kept | apply contResponse_kept
    | apply modHost_kept | apply Kept.ite | intro _ | dsimp only | split

theorem grantReq_kept (r : XReq) (s : State) (hs : Kept k0 s) :
    Kept k0 (grantReq r s) := by
  unfold grantReq
  with_reducible repeat' first
    | assumption | apply memGo_kept | apply modItem_kept | apply Kept.ite | intro _ | dsimp only | split

theorem failXl_kept (y : Xlate) (s : State) (hs : Kept k0 s) :
    Kept k0 (failXl y s) := by
  unfold failXl
  with_reducible repeat' first
    | assumption | apply failReq_kept | apply dropXl_kept | apply Kept.foldl | intro _ | dsimp only

theorem sendPrg_kept (y : Xlate) (s : State) (hs : Kept k0 s) :
    Kept k0 (sendPrg y s) := by
  unfold sendPrg
  with_reducible repeat' first
    | assumption | apply bump_kept | apply emit_kept | apply modXl_kept | apply Kept.ite | intro _ | dsimp only

theorem sendWaiting_kept (f : Nat) (s : State) (hs : Kept k0 s) :
    Kept k0 (sendWaiting f s) := by
  unfold sendWaiting
  with_reducible repeat' first
    | assumption | apply sendPrg_kept | apply Kept.foldl | intro _ | dsimp only

theorem pageFault_kept (y : Xlate) (s0 : State) (r : XReq) (s : State) (hs0 : Kept k0 s0) (hs : Kept k0 s) :
    Kept k0 (pageFault y s0 r s) := by
  unfold pageFault
  with_reducible repeat' first
    | assumption | apply bump_kept | apply faultAddr_kept | apply modThr_kept | apply modItem_kept | apply Kept.ite
    | intro _ | dsimp only | split

theorem denyXl_kept (y : Xlate) (s : State) (hs : Kept k0 s) :
    Kept k0 (denyXl y s) := by
  unfold denyXl
  with_reducible repeat' first
    | assumption | apply bump_kept | apply failReq_kept | apply modXl_kept | apply pageFault_kept | apply sendPrg_kept
    | apply failXl_kept | apply Kept.ite | apply Kept.foldl | intro _ | dsimp only

theorem execAtsCompletion_kept (func : Fin 256) (pasid : Option (BitVec 20)) (addr : BitVec 64) (wr : Bool) (phys : BitVec 64) (log2 : Fin 31) (rd wt : Bool) (s : State) (hs : Kept k0 s) :
    KeptO k0 (execAtsCompletion func pasid addr wr phys log2 rd wt s) := by
  unfold execAtsCompletion
  with_reducible repeat' first
    | assumption | apply KeptO.next | apply grantReq_kept | apply atcInstall_kept | apply dropXl_kept
    | apply denyXl_kept | apply Kept.ite | apply Kept.foldl | intro _ | dsimp only | split

theorem estSample_kept (f : Nat) (pasid : Option Nat) (sample : Nat) (s : State) (hs : Kept k0 s) :
    Kept k0 (estSample f pasid sample s) := by
  unfold estSample
  with_reducible repeat' first
    | assumption | apply modHost_kept | dsimp only | split

theorem pageAnswer_kept (r : XReq) (s : State) (hs : Kept k0 s) :
    Kept k0 (pageAnswer r s) := by
  unfold pageAnswer
  with_reducible repeat' first
    | assumption | apply modThr_kept | apply contResponse_kept | dsimp only | split

theorem execPrgResponse_kept (func : Fin 256) (pasid : Option (BitVec 20)) (addr : BitVec 64) (wr ok : Bool) (s : State) (hs : Kept k0 s) :
    KeptO k0 (execPrgResponse func pasid addr wr ok s) := by
  unfold execPrgResponse
  with_reducible repeat' first
    | assumption | apply KeptO.next | apply bump_kept | apply estSample_kept | apply pageAnswer_kept
    | apply modXl_kept | apply sendWaiting_kept | apply emit_kept | apply failXl_kept | apply Kept.ite
    | apply Kept.foldl | intro _ | dsimp only | split

theorem execPrgTimeout_kept (func : Fin 256) (pasid : Option (BitVec 20)) (addr : BitVec 64) (wr : Bool) (s : State) (hs : Kept k0 s) :
    KeptO k0 (execPrgTimeout func pasid addr wr s) := by
  unfold execPrgTimeout
  with_reducible repeat' first
    | assumption | apply KeptO.next | apply sendWaiting_kept | apply failXl_kept | apply bump_kept | apply Kept.ite
    | intro _ | dsimp only | split

theorem execAtsInvalidate_kept (func : Fin 256) (pasid : Option (BitVec 20)) (addr : BitVec 64) (log2 : Fin 65) (s : State) (hs : Kept k0 s) :
    KeptO k0 (execAtsInvalidate func pasid addr log2 s) := by
  unfold execAtsInvalidate
  with_reducible repeat' first
    | assumption | apply KeptO.next | apply atcRemove_kept | apply bump_kept | apply emit_kept | apply Kept.ite
    | intro _ | dsimp only | split

theorem dropQueued_kept (p : QBrick → Bool) (s : State) (hs : Kept k0 s) :
    Kept k0 (dropQueued p s) := by
  unfold dropQueued
  with_reducible repeat' first
    | assumption | apply modDl_kept | apply modRq_kept | apply Kept.foldl | intro _ | dsimp only

theorem failWaiting_kept (bid reason : Nat) (s : State) (hs : Kept k0 s) :
    Kept k0 (failWaiting bid reason s) := by
  unfold failWaiting
  with_reducible repeat' first
    | assumption | apply endBrick_kept | apply dropQueued_kept | apply contFail_kept | apply Kept.foldl | intro _
    | dsimp only

theorem resetCmd_kept (id : Nat) (c : HCmd) (s : State) (hs : Kept k0 s) :
    Kept k0 (resetCmd id c s) := by
  unfold resetCmd
  with_reducible repeat' first
    | assumption | apply endHostItem_kept | apply modHost_kept | apply dropItem_kept | apply failWaiting_kept
    | apply Kept.ite | intro _ | dsimp only | split | simp only [id_eq]

theorem resetFunc_kept (f : Nat) (s : State) (hs : Kept k0 s) :
    Kept k0 (resetFunc f s) := by
  unfold resetFunc
  with_reducible repeat' first
    | assumption | apply resetCmd_kept | apply endHostItem_kept | apply modHost_kept | apply failXl_kept
    | apply breakMaster_kept | apply Kept.ite | apply Kept.foldl | intro _ | dsimp only | split

theorem execFlr_kept (func : Fin 256) (s : State) (hs : Kept k0 s) :
    KeptO k0 (execFlr func s) := by
  unfold execFlr
  with_reducible repeat' first
    | assumption | apply KeptO.next | apply toFunc_kept | apply bumpPort_kept | apply resetFunc_kept | intro _
    | dsimp only

theorem execHostLinkReset_kept (port half : Fin 2) (s : State) (hs : Kept k0 s) :
    KeptO k0 (execHostLinkReset port half s) := by
  unfold execHostLinkReset
  with_reducible repeat' first
    | assumption | apply KeptO.next | apply resetFunc_kept | apply bumpIf_kept | apply modLink_kept | apply Kept.foldl
    | intro _ | dsimp only

theorem execHostLaneFail_kept (port half : Fin 2) (width : Fin 17) (s : State) (hs : Kept k0 s) :
    KeptO k0 (execHostLaneFail port half width s) := by
  unfold execHostLaneFail
  with_reducible repeat' first
    | assumption | apply KeptO.next | apply bump_kept | apply modLink_kept | apply Kept.ite | intro _ | dsimp only
    | split

theorem execHostLinkTrainingEnd_kept (port half : Fin 2) (width : Fin 17) (rate : Fin 7) (cxl : Bool) (s : State) (hs : Kept k0 s) :
    KeptO k0 (execHostLinkTrainingEnd port half width rate cxl s) := by
  unfold execHostLinkTrainingEnd
  with_reducible repeat' first
    | assumption | apply KeptO.next | apply modLink_kept | apply bump_kept | apply Kept.ite | intro _ | dsimp only
    | split

theorem execPerstNDeassert_kept (port : Fin 2) (s : State) (hs : Kept k0 s) :
    KeptO k0 (execPerstNDeassert port s) := by
  unfold execPerstNDeassert
  with_reducible repeat' first
    | assumption | apply KeptO.next | apply modLink_kept | apply Kept.foldl | intro _ | dsimp only

theorem execConfigurationRequest_kept (func : Fin 256) (req : CfgReq) (s : State) (hs : Kept k0 s) :
    KeptO k0 (execConfigurationRequest func req s) := by
  unfold execConfigurationRequest
  with_reducible repeat' first
    | assumption | apply KeptO.next | apply emit_kept | apply bumpPort_kept | apply modFunc_kept
    | apply sendWaiting_kept | apply Kept.ite | intro _ | dsimp only | split

end Sys2Proof.Machine
end

