-- ==== Sys2Proof/Laws/KeptPoolDrain.lean ====
section
/-! SUPPORT. What every operation of Machine/PoolDrain.lean keeps. -/

namespace Sys2Proof.Machine

variable {k0 : State}

theorem failTransitOwner_kept (oitem : Nat) (s : State) (hs : Kept k0 s) :
    ∀ t, failTransitOwner oitem s = some t → Kept k0 t := by
  intro t ht
  obtain ⟨_, _, rfl⟩ := Option.map_eq_some_iff.1 ht
  exact failPkt_kept _ _ _ _ hs

theorem failInboundOwner_kept (oitem : Nat) (s : State) (hs : Kept k0 s) :
    ∀ t, failInboundOwner oitem s = some t → Kept k0 t := by
  intro t ht
  obtain ⟨_, _, rfl⟩ := Option.map_eq_some_iff.1 ht
  exact ledFail_kept _ _ _ _ _ _ (modZmt_kept hs)

theorem failOutboundOwner_kept (oitem : Nat) (s : State) (hs : Kept k0 s) :
    ∀ t, failOutboundOwner oitem s = some t → Kept k0 t := by
  intro t ht
  unfold failOutboundOwner at ht
  split at ht
  · cases ht
  · cases ht
    rename_i id m _
    have h1 := bump_kept 0xC068 0x03 _ (ledFail_kept 2 poolRetired 0x0F 0 (m.id + m.ep * 2 ^ 32) _
      (undeny_kept (xoutId id) _ (zmsgDrop_kept id _ hs)))
    refine abortNotice_kept _ _ ?_
    split
    · exact drawn_kept _ (endCmd_kept _ _ _ _ _ _ _ _ h1)
    · exact h1

theorem failBrickOwner_kept (oitem : Nat) (s : State) (hs : Kept k0 s) :
    ∀ t, failBrickOwner oitem s = some t → Kept k0 t := by
  intro t ht
  unfold failBrickOwner at ht
  dsimp only at ht
  repeat' split at ht
  all_goals first
    | (cases ht; done)
    | (cases ht; first | exact endBrick_kept _ _ _ _ (resetThread_kept _ _ hs) | exact failWaiting_kept _ _ _ hs)

theorem failDmaOwner_kept (oitem : Nat) (s : State) (hs : Kept k0 s) :
    ∀ t, failDmaOwner oitem s = some t → Kept k0 t := by
  intro t ht
  unfold failDmaOwner at ht
  split at ht
  · cases ht
  · cases ht
    rename_i it _
    have h1 := dropItem_kept oitem poolRetired it.done s hs
    split
    · exact drawn_kept _ (endCmd_kept _ _ _ _ _ _ _ _ h1)
    · exact h1

theorem failHostOwner_kept (oitem : Nat) (s : State) (hs : Kept k0 s) :
    ∀ t, failHostOwner oitem s = some t → Kept k0 t := by
  intro t ht
  obtain ⟨_, _, rfl⟩ := Option.map_eq_some_iff.1 ht
  exact drawn_kept _ (endCmd_kept _ _ _ _ _ _ _ _ hs)

theorem failOwner_kept (r : W64) (s : State) (hs : Kept k0 s) :
    ∀ t, failOwner r s = some t → Kept k0 t := by
  intro t ht
  unfold failOwner at ht
  split at ht
  · exact failTransitOwner_kept _ _ hs t ht
  · cases ho : failOutboundOwner (recOitem r) s with
    | none => exact failInboundOwner_kept _ _ hs t (by rwa [ho] at ht)
    | some u =>
      rw [ho] at ht
      cases ht
      exact failOutboundOwner_kept _ _ hs _ ho
  · exact failBrickOwner_kept _ _ hs t ht
  · exact failDmaOwner_kept _ _ hs t ht
  · exact failHostOwner_kept _ _ hs t ht
  · cases ht

theorem retireBuffer_kept (p n : Nat) (s : State) (hs : Kept k0 s) :
    Kept k0 (retireBuffer p n s) := by
  unfold retireBuffer
  with_reducible repeat' first
    | assumption | apply bump_kept | apply clearF_kept | apply setRec_kept

theorem retireOwners_kept {l : List W64} : ∀ {s : State}, Kept k0 s → Kept k0 (retireOwners l s) := by
  induction l with
  | nil => intro s h; exact h
  | cons r t ih =>
    intro s h
    unfold retireOwners
    dsimp only
    refine Kept.ite (fun _ => ih (Kept.ite (fun _ => bump_kept _ _ _ h) (fun _ => h))) (fun _ => ?_)
    split
    · rename_i s1 e
      exact ih (bump_kept _ _ _ (failOwner_kept _ _ h _ e))
    · exact ih (bump_kept _ _ _ h)

theorem execPoolDrainTimeout_kept (pool : Fin 64) (s : State) (hs : Kept k0 s) :
    KeptO k0 (execPoolDrainTimeout pool s) := by
  unfold execPoolDrainTimeout
  with_reducible repeat' first
    | assumption | apply KeptO.next | apply retireBuffer_kept | apply retireOwners_kept | apply notSent_kept
    | apply retireCheck_kept | apply modPool_kept | apply Kept.ite | apply Kept.foldl | intro _ | dsimp only | split

end Sys2Proof.Machine
end

