-- ==== Sys2Proof/Laws/KeptServe.lean ====
section
/-! SUPPORT. What every operation of Machine/Serve.lean keeps. -/

namespace Sys2Proof.Machine

variable {k0 : State}

theorem took_kept {s : State} {o : Host.Outcome State Fault Refusal} (h : Kept k0 s) (ho : KeptO k0 o) :
    Kept k0 (took s o) := by
  unfold took
  split
  · exact ho
  · exact h

theorem DueAct.fire_kept (a : DueAct) (s : State) (hs : Kept k0 s) :
    Kept k0 (DueAct.fire a s) := by
  unfold DueAct.fire
  with_reducible repeat' first
    | assumption | apply commitNow_kept | apply fireTimed_kept | apply swapNow_kept | apply captureGroup_kept
    | apply checkLedger_kept | apply freezeNow_kept | split

theorem fireDue_kept {n : Nat} : ∀ {s : State}, Kept k0 s → Kept k0 (fireDue n s) := by
  induction n with
  | zero => intro s h; exact h
  | succ n ih =>
    intro s h
    unfold fireDue
    split
    · exact ih (DueAct.fire_kept _ _ h)
    · exact h

theorem serve_kept (s : State) (hs : Kept k0 s) :
    Kept k0 (serve s) := by
  unfold serve
  with_reducible repeat' first
    | assumption | apply fireDue_kept

theorem serveAt_kept (s : State) (hs : Kept k0 s) :
    Kept k0 (serveAt s) := by
  unfold serveAt
  with_reducible repeat' first
    | assumption | apply serve_kept | apply modClk_kept | apply Kept.ite | intro _ | dsimp only

theorem expireTimers_kept (s : State) (hs : Kept k0 s) : Kept k0 (expireTimers s) := by
  have fold : ∀ {α : Type} (l : List α) (f : State → α → State) (u : State), (∀ st x, Kept k0 st → Kept k0 (f st x)) →
      Kept k0 u → Kept k0 (l.foldl f u) := fun l _ _ hf h => Kept.foldl l hf h
  unfold expireTimers
  have h1 := took_kept hs (execWakeAlarmFire_kept _ (took_kept hs (execDelayListRelease_kept _ hs)))
  generalize took s (execWakeAlarmFire (took s (execDelayListRelease s))) = s1 at h1 ⊢
  have h2 := fold s1.zmt.ctr (fun s e => took s (execCounterDeadline e.1 s)) s1
    (fun _ _ h => took_kept h (execCounterDeadline_kept _ _ h)) h1
  dsimp only
  apply fold
  · exact fun _ _ h => took_kept h (execPoolDrainTimeout_kept _ _ h)
  apply fold
  · exact fun _ _ h => took_kept h (execMseqHoldTimeout_kept _ _ _ h)
  apply fold
  · exact fun _ _ h => took_kept h (execDrainTimeout_kept _ _ h)
  apply fold
  · exact fun _ _ h => took_kept h (execZmtAckSend_kept _ _ h)
  generalize hb : List.foldl _ _ (List.finRange 12) = s4
  have h4 : Kept k0 s4 := by
    rw [← hb]
    apply fold
    · intro st x h
      have h' := fold (List.finRange 32) (fun s g => took s (execTecGroupTimer x g s)) st
        (fun _ _ h => took_kept h (execTecGroupTimer_kept _ _ _ h)) h
      with_reducible exact Kept.ite (fun _ => h') (fun _ => h)
    apply fold
    · intro st x h
      have h' := took_kept h (execThreadDeadline_kept x st h)
      with_reducible exact Kept.ite (fun _ => h') (fun _ => h)
    exact h2
  exact took_kept h4 (execCoalesceTimer_kept _ h4)

theorem fireOverdue_kept {rel n : Nat} : ∀ {s : State}, Kept k0 s → Kept k0 (fireOverdue rel n s) := by
  induction n with
  | zero => intro s h; exact h
  | succ n ih =>
    intro s h
    unfold fireOverdue
    split
    · exact h
    · exact ih (DueAct.fire_kept _ _ h)
    · exact ih (modClk_kept (expireTimers_kept _ (modClk_kept h)))

theorem execThawRelease_kept (s : State) (hs : Kept k0 s) :
    KeptO k0 (execThawRelease s) := by
  unfold execThawRelease
  with_reducible repeat' first
    | assumption | apply KeptO.next | apply endFreeze_kept | apply fireOverdue_kept | apply Kept.ite | intro _
    | dsimp only | split

end Sys2Proof.Machine
end

