-- ==== Sys2Proof/Laws/KeptClock.lean ====
section
/-! SUPPORT. What every operation of Machine/Clock.lean keeps. -/

namespace Sys2Proof.Machine

variable {k0 : State}

theorem advance_kept (s : State) (hs : Kept k0 s) :
    Kept k0 (advance s) := by
  unfold advance
  with_reducible repeat' first
    | assumption | apply modClk_kept | dsimp only

theorem idleTick_kept (s : State) (hs : Kept k0 s) :
    Kept k0 (idleTick s) := by
  unfold idleTick
  with_reducible repeat' first
    | assumption | apply serveAt_kept | apply advance_kept | apply Kept.ite | intro _ | dsimp only

end Sys2Proof.Machine
end

