-- ==== Sys2Proof/Laws/KeptIkAlu.lean ====
section
/-! SUPPORT. What every operation of Machine/IkAlu.lean keeps. -/

namespace Sys2Proof.Machine

variable {k0 : State}

theorem aluR_kept (cls : Nat) (t rd ra rb : Nat) (f : W72 → W72 → W72) (s : State) (hs : Kept k0 s) :
    Kept k0 (aluR cls t rd ra rb f s) := by
  unfold aluR
  with_reducible repeat' first
    | assumption | apply runWrite_kept | intro _

theorem aluU_kept (t rd ra : Nat) (f : W72 → W72) (s : State) (hs : Kept k0 s) :
    Kept k0 (aluU t rd ra f s) := by
  unfold aluU
  with_reducible repeat' first
    | assumption | apply runWrite_kept | intro _

theorem branch_kept (t : Nat) (regs : List Nat) (taken : Bool) (ofs : BitVec 18) (s : State) (hs : Kept k0 s) :
    Kept k0 (branch t regs taken ofs s) := by
  unfold branch
  with_reducible repeat' first
    | assumption | apply runIns_kept | apply retire_kept | apply Kept.ite | intro _ | dsimp only | split

theorem setShared_kept (t n : Nat) (v : W72) (s : State) (hs : Kept k0 s) :
    Kept k0 (setShared t n v s) := by
  unfold setShared
  with_reducible repeat' first
    | assumption | apply modThr_kept | apply modCore_kept | apply Kept.ite | apply Kept.foldl | intro _ | dsimp only

theorem sharedOp_kept (t rd ra n : Nat) (f : W72 → W72 → W72) (s : State) (hs : Kept k0 s) :
    Kept k0 (sharedOp t rd ra n f s) := by
  unfold sharedOp
  with_reducible repeat' first
    | assumption | apply runIns_kept | apply retire_kept | apply setReg_kept | apply setShared_kept | intro _
    | dsimp only

theorem execAdd_kept (t : Fin 776) (rd ra rb : Fin 32) (s : State) (hs : Kept k0 s) :
    KeptO k0 (execAdd t rd ra rb s) := by
  unfold execAdd
  with_reducible repeat' first
    | assumption | apply KeptO.next | apply aluR_kept | dsimp only

theorem execSub_kept (t : Fin 776) (rd ra rb : Fin 32) (s : State) (hs : Kept k0 s) :
    KeptO k0 (execSub t rd ra rb s) := by
  unfold execSub
  with_reducible repeat' first
    | assumption | apply KeptO.next | apply aluR_kept | dsimp only

theorem execAndR_kept (t : Fin 776) (rd ra rb : Fin 32) (s : State) (hs : Kept k0 s) :
    KeptO k0 (execAndR t rd ra rb s) := by
  unfold execAndR
  with_reducible repeat' first
    | assumption | apply KeptO.next | apply aluR_kept | dsimp only

theorem execOrR_kept (t : Fin 776) (rd ra rb : Fin 32) (s : State) (hs : Kept k0 s) :
    KeptO k0 (execOrR t rd ra rb s) := by
  unfold execOrR
  with_reducible repeat' first
    | assumption | apply KeptO.next | apply aluR_kept | dsimp only

theorem execXorR_kept (t : Fin 776) (rd ra rb : Fin 32) (s : State) (hs : Kept k0 s) :
    KeptO k0 (execXorR t rd ra rb s) := by
  unfold execXorR
  with_reducible repeat' first
    | assumption | apply KeptO.next | apply aluR_kept | dsimp only

theorem execAndn_kept (t : Fin 776) (rd ra rb : Fin 32) (s : State) (hs : Kept k0 s) :
    KeptO k0 (execAndn t rd ra rb s) := by
  unfold execAndn
  with_reducible repeat' first
    | assumption | apply KeptO.next | apply aluR_kept | dsimp only

theorem execShl_kept (t : Fin 776) (rd ra rb : Fin 32) (s : State) (hs : Kept k0 s) :
    KeptO k0 (execShl t rd ra rb s) := by
  unfold execShl
  with_reducible repeat' first
    | assumption | apply KeptO.next | apply aluR_kept | dsimp only

theorem execShr_kept (t : Fin 776) (rd ra rb : Fin 32) (s : State) (hs : Kept k0 s) :
    KeptO k0 (execShr t rd ra rb s) := by
  unfold execShr
  with_reducible repeat' first
    | assumption | apply KeptO.next | apply aluR_kept | dsimp only

theorem execSar_kept (t : Fin 776) (rd ra rb : Fin 32) (s : State) (hs : Kept k0 s) :
    KeptO k0 (execSar t rd ra rb s) := by
  unfold execSar
  with_reducible repeat' first
    | assumption | apply KeptO.next | apply aluR_kept | dsimp only

theorem execSlt_kept (t : Fin 776) (rd ra rb : Fin 32) (s : State) (hs : Kept k0 s) :
    KeptO k0 (execSlt t rd ra rb s) := by
  unfold execSlt
  with_reducible repeat' first
    | assumption | apply KeptO.next | apply aluR_kept | dsimp only

theorem execSltu_kept (t : Fin 776) (rd ra rb : Fin 32) (s : State) (hs : Kept k0 s) :
    KeptO k0 (execSltu t rd ra rb s) := by
  unfold execSltu
  with_reducible repeat' first
    | assumption | apply KeptO.next | apply aluR_kept | dsimp only

theorem execMin_kept (t : Fin 776) (rd ra rb : Fin 32) (s : State) (hs : Kept k0 s) :
    KeptO k0 (execMin t rd ra rb s) := by
  unfold execMin
  with_reducible repeat' first
    | assumption | apply KeptO.next | apply aluR_kept | apply Kept.ite | intro _ | dsimp only

theorem execMax_kept (t : Fin 776) (rd ra rb : Fin 32) (s : State) (hs : Kept k0 s) :
    KeptO k0 (execMax t rd ra rb s) := by
  unfold execMax
  with_reducible repeat' first
    | assumption | apply KeptO.next | apply aluR_kept | apply Kept.ite | intro _ | dsimp only

theorem execMinu_kept (t : Fin 776) (rd ra rb : Fin 32) (s : State) (hs : Kept k0 s) :
    KeptO k0 (execMinu t rd ra rb s) := by
  unfold execMinu
  with_reducible repeat' first
    | assumption | apply KeptO.next | apply aluR_kept | apply Kept.ite | intro _ | dsimp only

theorem execMaxu_kept (t : Fin 776) (rd ra rb : Fin 32) (s : State) (hs : Kept k0 s) :
    KeptO k0 (execMaxu t rd ra rb s) := by
  unfold execMaxu
  with_reducible repeat' first
    | assumption | apply KeptO.next | apply aluR_kept | apply Kept.ite | intro _ | dsimp only

theorem execMul_kept (t : Fin 776) (rd ra rb : Fin 32) (s : State) (hs : Kept k0 s) :
    KeptO k0 (execMul t rd ra rb s) := by
  unfold execMul
  with_reducible repeat' first
    | assumption | apply KeptO.next | apply aluR_kept | dsimp only

theorem execMulh_kept (t : Fin 776) (rd ra rb : Fin 32) (s : State) (hs : Kept k0 s) :
    KeptO k0 (execMulh t rd ra rb s) := by
  unfold execMulh
  with_reducible repeat' first
    | assumption | apply KeptO.next | apply aluR_kept

theorem execMulhu_kept (t : Fin 776) (rd ra rb : Fin 32) (s : State) (hs : Kept k0 s) :
    KeptO k0 (execMulhu t rd ra rb s) := by
  unfold execMulhu
  with_reducible repeat' first
    | assumption | apply KeptO.next | apply aluR_kept

theorem execDiv_kept (t : Fin 776) (rd ra rb : Fin 32) (s : State) (hs : Kept k0 s) :
    KeptO k0 (execDiv t rd ra rb s) := by
  unfold execDiv
  with_reducible repeat' first
    | assumption | apply KeptO.next | apply aluR_kept

theorem execDivu_kept (t : Fin 776) (rd ra rb : Fin 32) (s : State) (hs : Kept k0 s) :
    KeptO k0 (execDivu t rd ra rb s) := by
  unfold execDivu
  with_reducible repeat' first
    | assumption | apply KeptO.next | apply aluR_kept

theorem execRem_kept (t : Fin 776) (rd ra rb : Fin 32) (s : State) (hs : Kept k0 s) :
    KeptO k0 (execRem t rd ra rb s) := by
  unfold execRem
  with_reducible repeat' first
    | assumption | apply KeptO.next | apply aluR_kept

theorem execRemu_kept (t : Fin 776) (rd ra rb : Fin 32) (s : State) (hs : Kept k0 s) :
    KeptO k0 (execRemu t rd ra rb s) := by
  unfold execRemu
  with_reducible repeat' first
    | assumption | apply KeptO.next | apply aluR_kept

theorem execClz_kept (t : Fin 776) (rd ra : Fin 32) (s : State) (hs : Kept k0 s) :
    KeptO k0 (execClz t rd ra s) := by
  unfold execClz
  with_reducible repeat' first
    | assumption | apply KeptO.next | apply aluU_kept | dsimp only

theorem execCtz_kept (t : Fin 776) (rd ra : Fin 32) (s : State) (hs : Kept k0 s) :
    KeptO k0 (execCtz t rd ra s) := by
  unfold execCtz
  with_reducible repeat' first
    | assumption | apply KeptO.next | apply aluU_kept | dsimp only

theorem execPopc_kept (t : Fin 776) (rd ra : Fin 32) (s : State) (hs : Kept k0 s) :
    KeptO k0 (execPopc t rd ra s) := by
  unfold execPopc
  with_reducible repeat' first
    | assumption | apply KeptO.next | apply aluU_kept | dsimp only

theorem execBswap_kept (t : Fin 776) (rd ra : Fin 32) (s : State) (hs : Kept k0 s) :
    KeptO k0 (execBswap t rd ra s) := by
  unfold execBswap
  with_reducible repeat' first
    | assumption | apply KeptO.next | apply aluU_kept

theorem execExt_kept (t : Fin 776) (rd ra : Fin 32) (pos len : Fin 128) (s : State) (hs : Kept k0 s) :
    KeptO k0 (execExt t rd ra pos len s) := by
  unfold execExt
  with_reducible repeat' first
    | assumption | apply KeptO.next | apply aluU_kept | dsimp only

theorem execIns_kept (t : Fin 776) (rd ra : Fin 32) (pos len : Fin 128) (s : State) (hs : Kept k0 s) :
    KeptO k0 (execIns t rd ra pos len s) := by
  unfold execIns
  with_reducible repeat' first
    | assumption | apply KeptO.next | apply aluU_kept | dsimp only

theorem execSext_kept (t : Fin 776) (rd ra : Fin 32) (pos : Fin 128) (s : State) (hs : Kept k0 s) :
    KeptO k0 (execSext t rd ra pos s) := by
  unfold execSext
  with_reducible repeat' first
    | assumption | apply KeptO.next | apply aluU_kept | dsimp only

theorem execAddi_kept (t : Fin 776) (rd ra : Fin 32) (imm : BitVec 18) (s : State) (hs : Kept k0 s) :
    KeptO k0 (execAddi t rd ra imm s) := by
  unfold execAddi
  with_reducible repeat' first
    | assumption | apply KeptO.next | apply aluU_kept | dsimp only

theorem execAndi_kept (t : Fin 776) (rd ra : Fin 32) (imm : BitVec 18) (s : State) (hs : Kept k0 s) :
    KeptO k0 (execAndi t rd ra imm s) := by
  unfold execAndi
  with_reducible repeat' first
    | assumption | apply KeptO.next | apply aluU_kept | dsimp only

theorem execOri_kept (t : Fin 776) (rd ra : Fin 32) (imm : BitVec 18) (s : State) (hs : Kept k0 s) :
    KeptO k0 (execOri t rd ra imm s) := by
  unfold execOri
  with_reducible repeat' first
    | assumption | apply KeptO.next | apply aluU_kept | dsimp only

theorem execXori_kept (t : Fin 776) (rd ra : Fin 32) (imm : BitVec 18) (s : State) (hs : Kept k0 s) :
    KeptO k0 (execXori t rd ra imm s) := by
  unfold execXori
  with_reducible repeat' first
    | assumption | apply KeptO.next | apply aluU_kept | dsimp only

theorem execShli_kept (t : Fin 776) (rd ra : Fin 32) (sh : Fin 128) (s : State) (hs : Kept k0 s) :
    KeptO k0 (execShli t rd ra sh s) := by
  unfold execShli
  with_reducible repeat' first
    | assumption | apply KeptO.next | apply aluU_kept | dsimp only

theorem execShri_kept (t : Fin 776) (rd ra : Fin 32) (sh : Fin 128) (s : State) (hs : Kept k0 s) :
    KeptO k0 (execShri t rd ra sh s) := by
  unfold execShri
  with_reducible repeat' first
    | assumption | apply KeptO.next | apply aluU_kept | dsimp only

theorem execSari_kept (t : Fin 776) (rd ra : Fin 32) (sh : Fin 128) (s : State) (hs : Kept k0 s) :
    KeptO k0 (execSari t rd ra sh s) := by
  unfold execSari
  with_reducible repeat' first
    | assumption | apply KeptO.next | apply aluU_kept | dsimp only

theorem execSlti_kept (t : Fin 776) (rd ra : Fin 32) (imm : BitVec 18) (s : State) (hs : Kept k0 s) :
    KeptO k0 (execSlti t rd ra imm s) := by
  unfold execSlti
  with_reducible repeat' first
    | assumption | apply KeptO.next | apply aluU_kept | dsimp only

theorem execSltiu_kept (t : Fin 776) (rd ra : Fin 32) (imm : BitVec 18) (s : State) (hs : Kept k0 s) :
    KeptO k0 (execSltiu t rd ra imm s) := by
  unfold execSltiu
  with_reducible repeat' first
    | assumption | apply KeptO.next | apply aluU_kept | dsimp only

theorem execLui_kept (t : Fin 776) (rd : Fin 32) (imm : BitVec 23) (s : State) (hs : Kept k0 s) :
    KeptO k0 (execLui t rd imm s) := by
  unfold execLui
  with_reducible repeat' first
    | assumption | apply KeptO.next | apply runWrite_kept | intro _

theorem execBeq_kept (t : Fin 776) (ra rb : Fin 32) (ofs : BitVec 18) (s : State) (hs : Kept k0 s) :
    KeptO k0 (execBeq t ra rb ofs s) := by
  unfold execBeq
  with_reducible repeat' first
    | assumption | apply KeptO.next | apply branch_kept | dsimp only

theorem execBne_kept (t : Fin 776) (ra rb : Fin 32) (ofs : BitVec 18) (s : State) (hs : Kept k0 s) :
    KeptO k0 (execBne t ra rb ofs s) := by
  unfold execBne
  with_reducible repeat' first
    | assumption | apply KeptO.next | apply branch_kept | dsimp only

theorem execBlt_kept (t : Fin 776) (ra rb : Fin 32) (ofs : BitVec 18) (s : State) (hs : Kept k0 s) :
    KeptO k0 (execBlt t ra rb ofs s) := by
  unfold execBlt
  with_reducible repeat' first
    | assumption | apply KeptO.next | apply branch_kept | dsimp only

theorem execBge_kept (t : Fin 776) (ra rb : Fin 32) (ofs : BitVec 18) (s : State) (hs : Kept k0 s) :
    KeptO k0 (execBge t ra rb ofs s) := by
  unfold execBge
  with_reducible repeat' first
    | assumption | apply KeptO.next | apply branch_kept | dsimp only

theorem execBltu_kept (t : Fin 776) (ra rb : Fin 32) (ofs : BitVec 18) (s : State) (hs : Kept k0 s) :
    KeptO k0 (execBltu t ra rb ofs s) := by
  unfold execBltu
  with_reducible repeat' first
    | assumption | apply KeptO.next | apply branch_kept | dsimp only

theorem execBgeu_kept (t : Fin 776) (ra rb : Fin 32) (ofs : BitVec 18) (s : State) (hs : Kept k0 s) :
    KeptO k0 (execBgeu t ra rb ofs s) := by
  unfold execBgeu
  with_reducible repeat' first
    | assumption | apply KeptO.next | apply branch_kept | dsimp only

theorem execBeqi_kept (t : Fin 776) (ra : Fin 32) (imm : BitVec 5) (ofs : BitVec 18) (s : State) (hs : Kept k0 s) :
    KeptO k0 (execBeqi t ra imm ofs s) := by
  unfold execBeqi
  with_reducible repeat' first
    | assumption | apply KeptO.next | apply branch_kept | dsimp only

theorem execBnei_kept (t : Fin 776) (ra : Fin 32) (imm : BitVec 5) (ofs : BitVec 18) (s : State) (hs : Kept k0 s) :
    KeptO k0 (execBnei t ra imm ofs s) := by
  unfold execBnei
  with_reducible repeat' first
    | assumption | apply KeptO.next | apply branch_kept | dsimp only

theorem execBlti_kept (t : Fin 776) (ra : Fin 32) (imm : BitVec 5) (ofs : BitVec 18) (s : State) (hs : Kept k0 s) :
    KeptO k0 (execBlti t ra imm ofs s) := by
  unfold execBlti
  with_reducible repeat' first
    | assumption | apply KeptO.next | apply branch_kept | dsimp only

theorem execBgei_kept (t : Fin 776) (ra : Fin 32) (imm : BitVec 5) (ofs : BitVec 18) (s : State) (hs : Kept k0 s) :
    KeptO k0 (execBgei t ra imm ofs s) := by
  unfold execBgei
  with_reducible repeat' first
    | assumption | apply KeptO.next | apply branch_kept | dsimp only

theorem execJal_kept (t : Fin 776) (rd : Fin 32) (ofs : BitVec 23) (s : State) (hs : Kept k0 s) :
    KeptO k0 (execJal t rd ofs s) := by
  unfold execJal
  with_reducible repeat' first
    | assumption | apply KeptO.next | apply runIns_kept | apply retire_kept | apply setReg_kept | intro _ | dsimp only

theorem execJalr_kept (t : Fin 776) (rd ra : Fin 32) (imm : BitVec 18) (s : State) (hs : Kept k0 s) :
    KeptO k0 (execJalr t rd ra imm s) := by
  unfold execJalr
  with_reducible repeat' first
    | assumption | apply KeptO.next | apply runIns_kept | apply retire_kept | apply setReg_kept | intro _ | dsimp only

theorem execSrget_kept (t : Fin 776) (rd : Fin 32) (sn : Fin 16) (s : State) (hs : Kept k0 s) :
    KeptO k0 (execSrget t rd sn s) := by
  unfold execSrget
  with_reducible repeat' first
    | assumption | apply KeptO.next | apply runWrite_kept | intro _

theorem execSrset_kept (t : Fin 776) (ra : Fin 32) (sn : Fin 16) (s : State) (hs : Kept k0 s) :
    KeptO k0 (execSrset t ra sn s) := by
  unfold execSrset
  with_reducible repeat' first
    | assumption | apply KeptO.next | apply runIns_kept | apply retire_kept | apply setShared_kept | intro _
    | dsimp only

theorem execSrswap_kept (t : Fin 776) (rd ra : Fin 32) (sn : Fin 16) (s : State) (hs : Kept k0 s) :
    KeptO k0 (execSrswap t rd ra sn s) := by
  unfold execSrswap
  with_reducible repeat' first
    | assumption | apply KeptO.next | apply sharedOp_kept | dsimp only

theorem execSradd_kept (t : Fin 776) (rd ra : Fin 32) (sn : Fin 16) (s : State) (hs : Kept k0 s) :
    KeptO k0 (execSradd t rd ra sn s) := by
  unfold execSradd
  with_reducible repeat' first
    | assumption | apply KeptO.next | apply sharedOp_kept | dsimp only

theorem execSrfor_kept (t : Fin 776) (rd ra : Fin 32) (sn : Fin 16) (s : State) (hs : Kept k0 s) :
    KeptO k0 (execSrfor t rd ra sn s) := by
  unfold execSrfor
  with_reducible repeat' first
    | assumption | apply KeptO.next | apply sharedOp_kept | dsimp only

theorem execSig_kept (t : Fin 776) (ra : Fin 32) (s : State) (hs : Kept k0 s) :
    KeptO k0 (execSig t ra s) := by
  unfold execSig
  with_reducible repeat' first
    | assumption | apply KeptO.next | apply runIns_kept | apply retire_kept | apply signalThread_kept | apply Kept.ite
    | apply Kept.foldl | intro _ | dsimp only

theorem execRget_kept (t : Fin 776) (rd ra : Fin 32) (s : State) (hs : Kept k0 s) :
    KeptO k0 (execRget t rd ra s) := by
  unfold execRget
  with_reducible repeat' first
    | assumption | apply KeptO.next | apply runWrite_kept | intro _ | dsimp only

theorem execRset_kept (t : Fin 776) (ra rb : Fin 32) (s : State) (hs : Kept k0 s) :
    KeptO k0 (execRset t ra rb s) := by
  unfold execRset
  with_reducible repeat' first
    | assumption | apply KeptO.next | apply runWrite_kept | intro _ | dsimp only

theorem execIll_kept (t : Fin 776) (ones : Bool) (low : BitVec 28) (s : State) (hs : Kept k0 s) :
    KeptO k0 (execIll t ones low s) := by
  unfold execIll
  with_reducible repeat' first
    | assumption | apply KeptO.next | apply runIns_kept | apply faultInst_kept | apply Kept.ite | intro _ | dsimp only
    | split

theorem execReservedOp_kept (t : Fin 776) (word : BitVec 36) (s : State) (hs : Kept k0 s) :
    KeptO k0 (execReservedOp t word s) := by
  unfold execReservedOp
  with_reducible repeat' first
    | assumption | apply KeptO.next | apply runIns_kept | apply faultInst_kept | apply Kept.ite | intro _ | dsimp only
    | split

theorem execSysc_kept (t : Fin 776) (imm : BitVec 18) (s : State) (hs : Kept k0 s) :
    KeptO k0 (execSysc t imm s) := by
  unfold execSysc
  with_reducible repeat' first
    | assumption | apply KeptO.next | apply runIns_kept | apply takeFault_kept | apply modThr_kept
    | apply bumpTile_kept | intro _ | dsimp only

theorem execEret_kept (t : Fin 776) (s : State) (hs : Kept k0 s) :
    KeptO k0 (execEret t s) := by
  unfold execEret
  with_reducible repeat' first
    | assumption | apply KeptO.next | apply runPriv_kept | apply bumpTile_kept | apply modThr_kept | intro _
    | dsimp only

end Sys2Proof.Machine
end

