-- ==== Sys2Proof/Laws/KeptSpdm.lean ====
section
/-! SUPPORT. What every operation of Machine/Spdm.lean keeps. -/

namespace Sys2Proof.Machine

variable {k0 : State}

theorem sendSpdm_kept (x : Nat) (m : Bytes) (s : State) (hs : Kept k0 s) :
    Kept k0 (sendSpdm x m s) := by
  unfold sendSpdm
  with_reducible repeat' first
    | assumption | apply emit_kept | apply Kept.ite | intro _ | split

theorem setSpdm_kept (x : Nat) (c : SpdmConn) (s : State) (hs : Kept k0 s) :
    Kept k0 (setSpdm x c s) := by
  unfold setSpdm
  with_reducible repeat' first
    | assumption | refine modDict_kept (fun _ hd => ⟨hd, Nat.le_refl _⟩) ?_ | dsimp only

theorem execSpdmRequest_kept (xport : Nat) (msg : Bytes) (s : State) (hs : Kept k0 s) :
    KeptO k0 (execSpdmRequest xport msg s) := by
  unfold execSpdmRequest
  with_reducible repeat' first
    | assumption | apply KeptO.next | apply bump_kept | apply sendSpdm_kept | apply setSpdm_kept | apply drawn_kept
    | apply Kept.ite | intro _ | dsimp only | split

end Sys2Proof.Machine
end

