-- ==== Sys2Proof/Laws/KeptUnitSpace.lean ====
section
/-! SUPPORT. What every operation of Machine/UnitSpace.lean keeps. -/

namespace Sys2Proof.Machine

variable {k0 : State}

theorem unitLoadDone_kept (t : Nat) (m : MemOp) (v : W64) (s : State) (hs : Kept k0 s) :
    Kept k0 (unitLoadDone t m v s) := by
  unfold unitLoadDone
  with_reducible repeat' first
    | assumption | apply memDone_kept | apply setReg_kept

theorem unitLoadGo_kept (t : Nat) (m : MemOp) (bad : Bool) (s : State) (hs : Kept k0 s) :
    Kept k0 (unitLoadGo t m bad s) := by
  unfold unitLoadGo
  with_reducible repeat' first
    | assumption | apply faultAddr_kept | apply modThr_kept | apply unitLoad_kept | apply unitLoadDone_kept
    | apply Kept.ite | refine KeptL.of_value (by assumption) ?_ | refine KeptL.of_wait (by assumption) ?_ | intro _
    | dsimp only | split

theorem execUnitLoadReturn_kept (t : Fin 776) (bad : Bool) (s : State) (hs : Kept k0 s) :
    KeptO k0 (execUnitLoadReturn t bad s) := by
  unfold execUnitLoadReturn
  with_reducible repeat' first
    | assumption | apply KeptO.next | apply unitLoadGo_kept | apply unitLoadDone_kept | apply Kept.ite | intro _
    | split

theorem icInvalidate_kept (tile line : Nat) (s : State) (hs : Kept k0 s) :
    Kept k0 (icInvalidate tile line s) := by
  unfold icInvalidate
  with_reducible repeat' first
    | assumption | apply modCore_kept | apply Kept.foldl | intro _ | dsimp only

theorem drainStore_kept (e : SbEnt) (s0 : State) (hs0 : Kept k0 s0) :
    Kept k0 (drainStore e s0) := by
  unfold drainStore
  with_reducible repeat' first
    | assumption | apply feServe_kept | apply storeMasked_kept | apply memPutWord_kept | apply icInvalidate_kept
    | apply tagPut_kept | apply memWrite_kept | intro _ | dsimp only | split

theorem drainHead_kept (c : Nat) (e : SbEnt) (k : State → State) (s : State) (hk : ∀  s, Kept k0 s → Kept k0 (k  s)) (hs : Kept k0 s) :
    Kept k0 (drainHead c e k s) := by
  unfold drainHead
  with_reducible repeat' first
    | assumption | apply settle_kept | apply modCore_kept | apply hk | intro _ | dsimp only

theorem drainHost_kept (c : Nat) (e : SbEnt) (s : State) (hs : Kept k0 s) :
    Kept k0 (drainHost c e s) := by
  unfold drainHost
  with_reducible repeat' first
    | assumption | apply drainHead_kept | apply atcTouch_kept | apply hostPut_kept | apply modHost_kept
    | apply requestXlate_kept | apply Kept.ite | intro _ | dsimp only | simp only [id_eq]

theorem execStoreBufferDrain_kept (core : Fin 97) (bad : Bool) (s : State) (hs : Kept k0 s) :
    KeptO k0 (execStoreBufferDrain core bad s) := by
  unfold execStoreBufferDrain
  with_reducible repeat' first
    | assumption | apply KeptO.next | apply drainHead_kept | apply unitStore_kept | apply drainHost_kept
    | apply drainStore_kept | apply Kept.ite | intro _ | dsimp only | split | simp only [id_eq]

theorem execUnitRegisterWrite_kept (t : Fin 776) (addr : BitVec 48) (size : Fin 4) (v : W64) (bad : Bool) (s : State) (hs : Kept k0 s) :
    KeptO k0 (execUnitRegisterWrite t addr size v bad s) := by
  unfold execUnitRegisterWrite
  with_reducible repeat' first
    | assumption | apply KeptO.next | apply faultAddr_kept | apply unitStore_kept | apply Kept.ite | intro _
    | dsimp only | split

end Sys2Proof.Machine
end

