-- ==== Sys2Proof/WellFormed.lean ====
section
/-! DEFINITION. Well-formed commands: what the manual says of operands that their types do not say. Every command has its
meaning whether or not it is well formed; this says which ones a sender of this device can send. -/

namespace Sys2Proof

/-- A request header: a transport of Table 17-6 and a MAC of 32 bytes or none (R558). -/
def headerOk (h : DHdr) : Bool := decide (h.xport ≤ 4) && (decide (h.mac.length = 32) || decide (h.mac = []))

/-- A value of a dictionary entry is at most 4,000 bytes (Table 17-1). -/
def valueOk (v : Bytes) : Bool := decide (v.length ≤ 4000)

def viaOk : DbgVia → Bool
  | .session h => headerOk h
  | .jtag => true

def dumpViaOk : DumpVia → Bool
  | .session h v => headerOk h && valueOk v
  | .jtag => true

/-- A master id: a tile thread, or one of the steward's (R35). -/
def masterOk (m : Nat) : Bool := decide (m < 768) || (decide (0xC000 ≤ m) && decide (m < 0xC008))

def memberOk (m : CMember) : Bool := decide (m.pos < 4) && decide (m.mask < 16)

/-- A local result in a cascade frame: round, position and record number. -/
def resultOk (r : Nat × Nat × Nat × CRes) : Bool := decide (r.1 < 2 ^ 32) && decide (r.2.1 < 4)

/-- The command is well formed. -/
def Instr.wf : Instr → Bool
  | .timeReqSend _ => true
  | .timeReqReceive _ _ payload => decide (payload.length ≤ 4096)
  | .timeRespReceive _ payload => decide (payload.length ≤ 4096)
  | .exchangeIntervalEnd => true
  | .timeSet h v => headerOk h && valueOk v
  | .timeinEdge => true
  | .timeoutPulseStart => true
  | .timeoutPulseEnd => true
  | .ptpMessageReceive _ transport msg => decide (transport ≤ 2) && decide (msg.length ≤ 1500)
  | .ptpMessageInterval _ => true
  | .frameReceive _ rx frame => decide (rx.pre.length = 6) && decide (frame.length ≤ 65535) && decide (rx.fecOk < 2 ^ 64) && decide (rx.fecBad < 2 ^ 64)
  | .pfcRefresh _ => true
  | .pfcFrameReceive _ _ timers => decide (timers.length = 8)
  | .pauseExpiry _ _ => true
  | .creditLcfSend _ => true
  | .creditLcfReceive _ grants => decide (grants.length = 8)
  | .llrFrameSend _ => true
  | .llrAckReceive _ _ => true
  | .llrNackReceive _ _ => true
  | .llrAckTimeout _ => true
  | .ackLcfSend _ => true
  | .linkTrainingEnd _ _ _ _ => true
  | .syncReceive _ _ _ => true
  | .llrHoldExpiry _ => true
  | .laneFailureDeclare _ _ _ => true
  | .shed _ _ => true
  | .receiverLock _ => true
  | .shedAck _ _ => true
  | .restoreHoldExpiry _ _ => true
  | .restore _ _ => true
  | .portAdminWrite h _ v => headerOk h && valueOk v
  | .portModeWrite h _ v => headerOk h && valueOk v
  | .linkLoss _ => true
  | .signalDetectWake rx => decide (rx.mv < 2 ^ 16)
  | .frameEnterPipeline _ head => decide (head.length ≤ 65535)
  | .parseEnd _ _ => true
  | .parseBudgetExpiry _ _ => true
  | .classifierSearch _ => true
  | .meterLengthRelease _ => true
  | .fenceRelease => true
  | .classifierEntryWrite _ _ _ _ => true
  | .counterPktsRead master _ => masterOk master
  | .counterWrite _ _ _ => true
  | .stageAdd h => headerOk h
  | .stageKill h => headerOk h
  | .programLoad h v => headerOk h && valueOk v
  | .meterStage h v => headerOk h && valueOk v
  | .courseEntryStage h _ _ v => headerOk h && valueOk v
  | .commit h v => headerOk h && valueOk v
  | .commitTime h v => headerOk h && valueOk v
  | .abort h v => headerOk h && valueOk v
  | .courseCommitFire => true
  | .slotCopyEnd => true
  | .courseSweepEnd => true
  | .waitedCommitFire => true
  | .counterRead h => headerOk h
  | .egressDequeue _ => true
  | .forwardDecision _ => true
  | .etMissComplete _ bucket => decide (bucket < 2 ^ 19)
  | .packetLastByteSent _ => true
  | .learnInsert => true
  | .etInsert h => headerOk h
  | .etDelete h => headerOk h
  | .fwdLookup _ _ => true
  | .fwdInsert _ _ => true
  | .fwdDelete _ _ => true
  | .readWay _ lt _ bucket => decide (bucket < (if lt then 2 ^ 16 else 2 ^ 19))
  | .agingSweepStart => true
  | .agingSweepEnd _ => true
  | .lnqPop master => masterOk master
  | .lnqRead h => headerOk h
  | .lpmAdd h => headerOk h
  | .lpmDelete h => headerOk h
  | .lpmLenCfg h v => headerOk h && valueOk v
  | .nhgWrite h v => headerOk h && valueOk v
  | .zmtPacketReceive _ => true
  | .put _ => true
  | .get _ _ => true
  | .getr _ => true
  | .atomic _ _ => true
  | .atomr _ => true
  | .send _ _ => true
  | .reduce _ _ => true
  | .ack _ => true
  | .nack _ => true
  | .credit _ => true
  | .mgmt _ => true
  | .fin _ => true
  | .zmtAckSend _ => true
  | .zmtCreditSend _ => true
  | .outboundPacketSend _ _ => true
  | .retransmitTimerExpiry _ _ _ => true
  | .ccRateUpdate _ => true
  | .counterDeadline ccid => decide (ccid < 2 ^ 20)
  | .reduceFallbackBrick _ => true
  | .matchResolve _ _ => true
  | .tsWrite _ _ => true
  | .tsRead _ _ => true
  | .arm _ _ => true
  | .disarm _ _ => true
  | .tsAbort _ _ => true
  | .peerStateRead h => headerOk h
  | .traceRingRead h => headerOk h
  | .depositChunk _ => true
  | .add _ _ _ _ => true
  | .sub _ _ _ _ => true
  | .andR _ _ _ _ => true
  | .orR _ _ _ _ => true
  | .xorR _ _ _ _ => true
  | .andn _ _ _ _ => true
  | .shl _ _ _ _ => true
  | .shr _ _ _ _ => true
  | .sar _ _ _ _ => true
  | .slt _ _ _ _ => true
  | .sltu _ _ _ _ => true
  | .min _ _ _ _ => true
  | .max _ _ _ _ => true
  | .minu _ _ _ _ => true
  | .maxu _ _ _ _ => true
  | .mul _ _ _ _ => true
  | .mulh _ _ _ _ => true
  | .mulhu _ _ _ _ => true
  | .div _ _ _ _ => true
  | .divu _ _ _ _ => true
  | .rem _ _ _ _ => true
  | .remu _ _ _ _ => true
  | .clz _ _ _ => true
  | .ctz _ _ _ => true
  | .popc _ _ _ => true
  | .bswap _ _ _ => true
  | .ext _ _ _ _ _ => true
  | .ins _ _ _ _ _ => true
  | .sext _ _ _ _ => true
  | .addi _ _ _ _ => true
  | .andi _ _ _ _ => true
  | .ori _ _ _ _ => true
  | .xori _ _ _ _ => true
  | .shli _ _ _ _ => true
  | .shri _ _ _ _ => true
  | .sari _ _ _ _ => true
  | .slti _ _ _ _ => true
  | .sltiu _ _ _ _ => true
  | .lui _ _ _ => true
  | .beq _ _ _ _ => true
  | .bne _ _ _ _ => true
  | .blt _ _ _ _ => true
  | .bge _ _ _ _ => true
  | .bltu _ _ _ _ => true
  | .bgeu _ _ _ _ => true
  | .beqi _ _ _ _ => true
  | .bnei _ _ _ _ => true
  | .blti _ _ _ _ => true
  | .bgei _ _ _ _ => true
  | .jal _ _ _ => true
  | .jalr _ _ _ _ => true
  | .srget _ _ _ => true
  | .srset _ _ _ => true
  | .srswap _ _ _ _ => true
  | .sradd _ _ _ _ => true
  | .srfor _ _ _ _ => true
  | .sig _ _ => true
  | .rget _ _ _ => true
  | .rset _ _ _ => true
  | .ill _ _ _ => true
  | .reservedOp _ _ => true
  | .sysc _ _ => true
  | .eret _ => true
  | .getsr _ _ _ => true
  | .setsr _ _ _ => true
  | .chput _ _ => true
  | .chseal _ _ => true
  | .chget _ _ => true
  | .cptest _ _ _ => true
  | .wfe _ _ => true
  | .wait _ _ => true
  | .waitWake _ => true
  | .threadDeadline _ => true
  | .fence _ => true
  | .park _ => true
  | .endb _ _ => true
  | .eventEntry _ => true
  | .stallDetect _ => true
  | .ld8 _ _ _ _ => true
  | .ld8u _ _ _ _ => true
  | .ld16 _ _ _ _ => true
  | .ld16u _ _ _ _ => true
  | .ld32 _ _ _ _ => true
  | .ld32u _ _ _ _ => true
  | .ld64 _ _ _ _ => true
  | .ld64u _ _ _ _ => true
  | .ldw _ _ _ _ => true
  | .ldtag _ _ _ _ => true
  | .ldf _ _ _ _ => true
  | .ldfe _ _ _ _ => true
  | .st8 _ _ _ _ => true
  | .st16 _ _ _ _ => true
  | .st32 _ _ _ _ => true
  | .st64 _ _ _ _ => true
  | .stw _ _ _ _ => true
  | .sttag _ _ _ _ => true
  | .stf _ _ _ _ => true
  | .postedLoadReturn _ _ _ _ => true
  | .fullEmptyAnswer _ => true
  | .watchRetry _ => true
  | .loadReplay _ => true
  | .icacheFill _ _ => true
  | .unitLoadReturn _ _ => true
  | .storeBufferDrain _ _ => true
  | .tecCompletion _ _ => true
  | .tecComplete _ _ => true
  | .tecActset _ _ => true
  | .tecActclr _ _ => true
  | .tecAck _ _ => true
  | .tecPendClear _ _ _ => true
  | .tecCtrlWrite _ _ => true
  | .tecSwinWrite _ _ => true
  | .tecStrayRead _ => true
  | .tecGroupTimer _ _ => true
  | .postImmediate _ => true
  | .postDelayed _ _ => true
  | .spillRefill => true
  | .dispatch => true
  | .delayListRelease => true
  | .budgetFault _ => true
  | .budgetReset _ => true
  | .tileDrain h v => headerOk h && valueOk v
  | .drainTimeout _ => true
  | .acquireTry _ _ _ => true
  | .acquireQueue _ _ _ => true
  | .release _ _ => true
  | .lockQuery _ _ => true
  | .leaseExpiry _ => true
  | .breakLock h v => headerOk h && valueOk v
  | .lockGroupConfig h _ v => headerOk h && valueOk v
  | .lockStateRead h => headerOk h
  | .matchSearch _ _ => true
  | .matchInsert _ _ => true
  | .matchDelete _ _ => true
  | .matchStep _ _ => true
  | .hfree _ _ => true
  | .post _ _ => true
  | .matchRead _ _ => true
  | .arrive => true
  | .heldArriveIssue _ _ => true
  | .mseqHoldTimeout _ _ => true
  | .renumber h v => headerOk h && valueOk v
  | .renumberEnd others => decide (others.length ≤ 196608)
  | .cascadeTraining members => decide (members.length ≤ 3) && members.all memberOk
  | .cascadeRound => true
  | .cascadeFrameReceive _ _ _ results _ => results.all resultOk
  | .cascadeMemberTimeout _ => true
  | .blockClassWrite h v => headerOk h && valueOk v
  | .matchEntryRead h => headerOk h
  | .memberRejoin _ _ _ _ _ => true
  | .crc32c _ _ _ _ _ _ => true
  | .crc64 _ _ _ _ _ _ => true
  | .tpz _ _ _ _ _ _ _ => true
  | .enc _ _ _ _ _ _ => true
  | .dec _ _ _ _ _ _ => true
  | .aad _ _ _ _ _ _ => true
  | .gcmTag _ _ _ _ _ => true
  | .xsumClr _ _ _ _ _ => true
  | .xsumAdd _ _ _ _ _ _ => true
  | .xsumAddv _ _ _ _ _ _ _ => true
  | .xsumMerge _ _ _ _ _ _ => true
  | .xsumRnd _ _ _ _ _ => true
  | .xsumRnd2 _ _ _ _ _ _ => true
  | .xsumSave _ _ _ _ _ => true
  | .xsumRest _ _ _ _ _ => true
  | .xsumCxa _ _ _ _ _ => true
  | .xsumFlags _ _ _ _ _ => true
  | .cpCommit _ _ => true
  | .alloc _ _ _ _ _ => true
  | .addref _ _ _ _ => true
  | .free _ _ _ _ => true
  | .bufferQuery _ _ _ _ => true
  | .freep _ _ _ _ => true
  | .addrefp _ _ _ _ => true
  | .fifoRefill _ _ => true
  | .poolConfigWrite h _ v => headerOk h && valueOk v
  | .poolStateWrite h _ v => headerOk h && valueOk v
  | .poolDrainTimeout _ => true
  | .poisonLogRead h => headerOk h
  | .hbmRequestAccept _ _ _ _ data _ tags _ => decide (data.length = 64) && decide (tags.length = 8)
  | .hbmCommandIssue _ => true
  | .hbmReadReturn _ _ _ _ => true
  | .idleClose _ _ => true
  | .refreshDue _ => true
  | .hbmTemperatureRead _ _ => true
  | .powerDownEntry _ => true
  | .parityAlert _ _ => true
  | .retirePc h v => headerOk h && valueOk v
  | .laneRepair h v => (match h with | some h => headerOk h | none => true) && valueOk v
  | .retireStack h v => headerOk h && valueOk v
  | .metadataMoveComplete => true
  | .doorbellTail _ _ _ => true
  | .doorbellInline _ _ _ entry => decide (entry.length ≤ 64)
  | .cmdFetch _ data _ => decide (data.length ≤ 4096)
  | .nop _ => true
  | .dma _ => true
  | .msgPut _ => true
  | .msgGet _ => true
  | .msgAtomic _ => true
  | .msgSend _ => true
  | .msgReduce _ => true
  | .matchOp _ => true
  | .brick _ => true
  | .counterArm _ => true
  | .counterDisarm _ => true
  | .window _ => true
  | .createCmq _ => true
  | .deleteCmq _ => true
  | .createCpq _ => true
  | .deleteCpq _ => true
  | .pasidReg _ => true
  | .pasidUnreg _ => true
  | .aperture _ => true
  | .adminQueueEnable _ _ _ => true
  | .completionWrite _ => true
  | .cqHeadWrite _ _ _ => true
  | .coalesceTimer => true
  | .cxlSnoop _ _ => true
  | .atsCompletion _ _ _ _ _ _ _ _ => true
  | .prgResponse _ _ _ _ _ => true
  | .prgTimeout _ _ _ _ => true
  | .atsInvalidate _ _ _ _ => true
  | .dmaPost _ => true
  | .dmaContextTake => true
  | .dmaItemEnd _ _ _ => true
  | .flr _ => true
  | .hostLinkReset _ _ => true
  | .hostLaneFail _ _ _ => true
  | .msixUnmask _ _ _ => true
  | .configurationRequest _ _ => true
  | .perstNDeassert _ => true
  | .hostLinkTrainingEnd _ _ _ _ _ => true
  | .dictOpen h body => headerOk h && decide (body.length ≤ 4048)
  | .dictProve h proof => headerOk h && decide (proof.length ≤ 4048)
  | .dictRead h _ _ => headerOk h
  | .dictWrite h _ _ v => headerOk h && valueOk v
  | .timedWrite h _ _ _ v => headerOk h && valueOk v
  | .readGroup h _ entries => headerOk h && decide (1 ≤ entries.length) && decide (entries.length ≤ 64)
  | .dictClose h => headerOk h
  | .claim h _ _ key pub sgn => headerOk h && decide (key.length = 48) && decide (pub.length = 97) && decide (sgn.length = 96)
  | .timedWriteFire => true
  | .readGroupCapture => true
  | .timedCancel h v => headerOk h && valueOk v
  | .challengeTimeout _ => true
  | .idleSessionTimeout _ => true
  | .closeSession h v => headerOk h && valueOk v
  | .operatorKey h _ v => headerOk h && valueOk v
  | .installerKey h v => headerOk h && valueOk v
  | .unclaim h v => headerOk h && valueOk v
  | .configErase h v => headerOk h && valueOk v
  | .journalRead h => headerOk h
  | .journalMirror => true
  | .spdmRequest xport msg => decide (xport ≤ 3 ∨ xport = 6 ∨ xport = 7) && decide (msg.length ≤ 4096)
  | .mctpControl xport msg => decide (xport ≤ 3) && decide (msg.length ≤ 4096)
  | .domainTargetWrite h _ v => headerOk h && valueOk v
  | .wakeGroup h v => headerOk h && valueOk v
  | .deviceModeWrite h v => headerOk h && valueOk v
  | .wakeAlarm h v => headerOk h && valueOk v
  | .wakeAlarmFire => true
  | .mgmtWakeByte _ _ => true
  | .pairWake _ => true
  | .duskIdleEntry _ => true
  | .duskUngate _ => true
  | .softStartBegin => true
  | .softStartEnd _ => true
  | .restoreEnd _ => true
  | .governorWindow => true
  | .domainLeaveEnd _ => true
  | .lstepDeassert => true
  | .ledgerCheck => true
  | .ledgerAlertClear h => headerOk h
  | .failureLogRead h => headerOk h
  | .coreFault _ => true
  | .tecChannelFault _ => true
  | .selfTestEnd _ _ => true
  | .coreReadmit h v => headerOk h && valueOk v
  | .stewardMismatch => true
  | .warmRestartEnd => true
  | .stallReset _ => true
  | .pwrGoodRise _ _ => true
  | .pwrGoodFall => true
  | .resetNAssert _ _ => true
  | .dawnPhaseEnd _ => true
  | .dawn4Timeout => true
  | .imageLoad h v => headerOk h && valueOk v
  | .imageLoadEnd _ => true
  | .imageChunk h v => headerOk h && valueOk v
  | .swap h v => headerOk h && valueOk v
  | .swapTime h v => headerOk h && valueOk v
  | .swapFire => true
  | .rollback h v => headerOk h && valueOk v
  | .deviceReset h v => headerOk h && valueOk v
  | .dbgNonce => true
  | .dbgUnlock proof => decide (proof.length = 48)
  | .halt via _ _ _ => viaOk via
  | .haltEffect _ => true
  | .resume via _ _ _ => viaOk via
  | .step via _ _ _ _ => viaOk via
  | .readRegs via _ _ _ => viaOk via
  | .writeReg via _ _ _ _ _ => viaOk via
  | .readMem via _ _ _ _ _ => viaOk via
  | .writeMem via _ _ _ _ data tags => viaOk via && decide (data.length ≤ 64) && decide (tags.length ≤ 9)
  | .setBp via _ _ _ _ _ _ _ => viaOk via
  | .setWp via _ _ _ _ _ _ _ _ _ _ => viaOk via
  | .chanAbort via _ _ _ _ => viaOk via
  | .trace via _ _ _ _ _ _ _ => viaOk via
  | .traceRead via _ _ _ _ => viaOk via
  | .breakpointHit _ => true
  | .watchpointHit _ => true
  | .freezeNEdge => true
  | .freeze h v => headerOk h && valueOk v
  | .freezeTime h v => headerOk h && valueOk v
  | .freezeFire => true
  | .freezeStop => true
  | .dumpStart via => dumpViaOk via
  | .dumpEnd => true
  | .thaw h v => headerOk h && valueOk v
  | .thawTime h v => headerOk h && valueOk v
  | .thawFire => true
  | .thawRelease => true
  | .unitRegisterWrite _ _ _ _ _ => true

end Sys2Proof
end

