-- ==== Sys2Proof/Tests/Slice0.lean ====
section
/-! SUPPORT. The package's own tests: ill-formed commands that the well-formedness check refuses, known answers from the
spec and its standards, and for every statement of the obligations file concrete states and operands that meet the
hypotheses of its clauses. -/

namespace Sys2Proof.Tests

set_option Elab.async false

open Sys2Proof Sys2Proof.Machine

/-! ### Ill-formed commands -/

/-- A request header on a transport. -/
def hdr (xport : Nat) (mac : Bytes) : DHdr :=
  { xport := xport, peer := 0, dver := 1, tag := 0, sid := 0, seq := 0, blen := 0, flags := 0, status := 0, mac := mac }

def goodHdr : DHdr := hdr 4 (List.replicate 32 0)

/-- A header on no transport of Table 17-6, and one whose MAC has not 32 bytes. -/
theorem test_wf_header : (Instr.stageAdd (hdr 5 [])).wf = false ∧ (Instr.stageAdd (hdr 0 [0])).wf = false ∧
    (Instr.stageAdd goodHdr).wf = true := by decide

/-- A value beyond 4,000 bytes; the same over the debug and read-out paths. -/
theorem test_wf_value : (Instr.freeze goodHdr (List.replicate 4001 0)).wf = false ∧ (Instr.freeze goodHdr [1]).wf = true ∧
    (Instr.halt (.session (hdr 9 [])) 0 0 0).wf = false ∧ (Instr.halt .jtag 0 0 0).wf = true ∧
    (Instr.dumpStart (.session goodHdr (List.replicate 4001 0))).wf = false ∧
    (Instr.laneRepair none (List.replicate 4001 0)).wf = false := by
  simp only [Instr.wf, headerOk, valueOk, viaOk, dumpViaOk, goodHdr, hdr, List.length_replicate]; decide

/-- Frames, preambles, timers, grants and messages of a wrong length. -/
theorem test_wf_frames : (Instr.timeReqReceive 0 0 (List.replicate 4097 0)).wf = false ∧
    (Instr.timeRespReceive 0 (List.replicate 4097 0)).wf = false ∧
    (Instr.ptpMessageReceive 0 3 []).wf = false ∧ (Instr.ptpMessageReceive 0 0 (List.replicate 1501 0)).wf = false ∧
    (Instr.frameReceive 0 ⟨[0], 0, 0⟩ []).wf = false ∧ (Instr.frameReceive 0 ⟨List.replicate 6 0, 0, 0⟩ (List.replicate 65536 0)).wf = false ∧
    (Instr.pfcFrameReceive 0 0 [0]).wf = false ∧ (Instr.creditLcfReceive 0 [0]).wf = false ∧
    (Instr.frameEnterPipeline 0 (List.replicate 65536 0)).wf = false := by
  simp only [Instr.wf, List.length_replicate]; decide

/-- Numbers that name nothing: a bucket, a counter, a master, a member, a round, a transport. -/
theorem test_wf_numbers : (Instr.etMissComplete 0 (2 ^ 19)).wf = false ∧ (Instr.readWay true true 0 (2 ^ 16)).wf = false ∧
    (Instr.readWay true false 0 (2 ^ 16)).wf = true ∧ (Instr.counterDeadline (2 ^ 20)).wf = false ∧
    (Instr.counterPktsRead 768 0).wf = false ∧ (Instr.lnqPop 0xC008).wf = false ∧ (Instr.lnqPop 0xC007).wf = true ∧
    (Instr.cascadeTraining [⟨4, 0, 0, 0, 0, 0, 0, 0⟩]).wf = false ∧ (Instr.cascadeTraining [⟨0, 16, 0, 0, 0, 0, 0, 0⟩]).wf = false ∧
    (Instr.cascadeTraining (List.replicate 4 ⟨0, 0, 0, 0, 0, 0, 0, 0⟩)).wf = false ∧
    (Instr.cascadeFrameReceive 0 0 [] [(2 ^ 32, 0, 0, {})] true).wf = false ∧
    (Instr.cascadeFrameReceive 0 0 [] [(0, 4, 0, {})] true).wf = false ∧
    (Instr.spdmRequest 4 []).wf = false ∧ (Instr.spdmRequest 7 []).wf = true ∧ (Instr.mctpControl 4 []).wf = false := by decide

/-- Records and lists of a wrong length. -/
theorem test_wf_lists : (Instr.renumberEnd (List.replicate 196609 0)).wf = false ∧
    (Instr.hbmRequestAccept 0 0 true 0 [] 0 (List.replicate 8 0) 0).wf = false ∧
    (Instr.hbmRequestAccept 0 0 true 0 (List.replicate 64 0) 0 [] 0).wf = false ∧
    (Instr.doorbellInline 0 0 true (List.replicate 65 0)).wf = false ∧ (Instr.cmdFetch 0 (List.replicate 4097 0) true).wf = false ∧
    (Instr.dictOpen goodHdr (List.replicate 4049 0)).wf = false ∧ (Instr.dictProve goodHdr (List.replicate 4049 0)).wf = false ∧
    (Instr.readGroup goodHdr 0 []).wf = false ∧ (Instr.readGroup goodHdr 0 (List.replicate 65 (0, 0))).wf = false ∧
    (Instr.claim goodHdr 0 0 [] (List.replicate 97 0) (List.replicate 96 0)).wf = false ∧
    (Instr.claim goodHdr 0 0 (List.replicate 48 0) [] (List.replicate 96 0)).wf = false ∧
    (Instr.claim goodHdr 0 0 (List.replicate 48 0) (List.replicate 97 0) []).wf = false ∧
    (Instr.dbgUnlock []).wf = false ∧ (Instr.writeMem .jtag 0 0 0 0 (List.replicate 65 0) []).wf = false ∧
    (Instr.writeMem .jtag 0 0 0 0 [] (List.replicate 10 0)).wf = false ∧ (Instr.spdmRequest 0 (List.replicate 4097 0)).wf = false ∧
    (Instr.mctpControl 0 (List.replicate 4097 0)).wf = false := by
  simp only [Instr.wf, headerOk, goodHdr, hdr, List.length_replicate]; decide

/-! ### States for the witnesses -/

/-- Thread `t` runs, and is otherwise as after reset but for `f`. -/
def running (t : Nat) (f : Thread → Thread) : State := modThr t (fun x => f { x with state := .run }) State.reset

/-! ### Witnesses: the queue, reset, the cores -/

theorem test_inv_reset : Inv State.reset :=
  ⟨by decide, fun _ => rfl, by decide⟩

/-- A queue with two commands; an idle clock at the bounds of its two premises. -/
theorem wit_StepRunsTheFrontCommand : ({ State.reset with pending := [.timeinEdge, .dispatch] } : State).pending =
    .timeinEdge :: [.dispatch] := rfl

theorem wit_IdleStepAdvancesTheClock :
    ({ State.reset with clk := { State.reset.clk with acc := 2 ^ 48 - 1, rate := -(2 ^ 48) } } : State).pending = [] ∧
    ({ State.reset with clk := { State.reset.clk with acc := 2 ^ 48 - 1, rate := -(2 ^ 48) } } : State).clk.acc < 2 ^ 48 ∧
    State.reset.dbg.pwrGood = true ∧ landed State.reset = false ∧ now State.reset % 64 < 62 ∧
    landed { State.reset with clk := { ftc := 64 * 65536 } } = true ∧
    ({ State.reset with dbg := { pwrGood := false } } : State).dbg.pwrGood = false ∧
    dueActs (modClk (fun c => { c with served := now State.reset / 64 }) State.reset) = [] := by
  decide

/-- A command and a step from a state with the invariant. -/
theorem wit_StepKeepsTheInvariant : Inv State.reset ∧ exec .wakeAlarmFire State.reset = .next State.reset ∧
    step { State.reset with pending := [.wakeAlarmFire] } = .next State.reset :=
  ⟨test_inv_reset, rfl, rfl⟩

/-- Threads 0 and 775 issue instructions of each class of the register instructions, with registers 0 and 31. -/
theorem wit_RegisterResults : canIssue (running 0 id) 0 clsA [0, 31, 31] = true ∧ canIssue (running 0 id) 0 clsX [31, 1, 2] = true ∧
    canIssue State.reset 775 clsA [31, 1, 2] = true ∧ canIssue State.reset 775 clsX [0, 1, 2] = true ∧
    canIssue (running 767 id) 767 clsA [5, 6] = true := by decide

theorem wit_InsertUpperAndMoves : canIssue (running 0 id) 0 clsA [1, 2] = true ∧ canIssue (running 0 id) 0 clsA [1] = true ∧
    canIssue (running 0 (Thread.setReg 2 37)) 0 clsS [1, 2, (getReg (running 0 (Thread.setReg 2 37)) 0 2).toNat % 32] = true ∧
    canIssue (running 0 (Thread.setReg 2 31)) 0 clsS [(getReg (running 0 (Thread.setReg 2 31)) 0 2).toNat % 32, 2, 3] = true ∧
    canIssue (running 0 id) 0 clsM [1] = true := by decide

/-- A taken and a not taken branch of each condition, from the last index. -/
theorem wit_BranchTargets : canIssue (running 0 (fun x => { x with pc := 0x1FFFF })) 0 clsB [0, 1, 2] = true ∧
    canIssue (running 0 id) 0 clsB [0, 1] = true ∧ canIssue (running 0 id) 0 clsB [1] = true ∧
    canIssue (running 0 id) 0 clsB [1, 1] = true ∧ getReg (running 0 id) 0 1 = getReg (running 0 id) 0 2 ∧
    getReg (running 0 (Thread.setReg 1 (BitVec.allOnes 72))) 0 1 ≠ getReg (running 0 (Thread.setReg 1 (BitVec.allOnes 72))) 0 2 ∧
    (getReg (running 0 (Thread.setReg 1 (BitVec.allOnes 72))) 0 1).toInt < (getReg (running 0 (Thread.setReg 1 (BitVec.allOnes 72))) 0 2).toInt ∧
    ¬(getReg (running 0 (Thread.setReg 1 (BitVec.allOnes 72))) 0 1).toNat < (getReg (running 0 (Thread.setReg 1 (BitVec.allOnes 72))) 0 2).toNat := by
  decide

theorem wit_SharedRegisterOperations : canIssue (running 0 id) 0 clsM [0, 1] = true ∧ canIssue (running 0 id) 0 clsM [1, 2] = true := by
  decide

/-- The four words of the worked example of chapter 7 (Table 7-9), and the two words of the code store that hold them. -/
theorem test_decodeIns : (decodeIns 0 false 0x463100000 = .ld64 0 6 4 ⟨0, 0⟩ ∧ decodeIns 0 false 0x0139CC000 = .add 0 7 7 6 ∧
    decodeIns 0 false 0x202100008 = .addi 0 4 4 8 ∧ decodeIns 0 false 0x31217FFFD = .bne 0 4 5 (-3)) ∧
    (codeSlot 0x0139CC000463100000 0x3E = 0x463100000 ∧ codeSlot 0x0139CC000463100000 0x3F = 0x0139CC000 ∧
      codeSlot 0x31217FFFD202100008 0x40 = 0x202100008 ∧ codeSlot 0x31217FFFD202100008 0x41 = 0x31217FFFD) ∧
    decodeIns 5 false 0 = .ill 5 false 0 ∧ decodeIns 5 false 0xFFFFFFFFF = .ill 5 true 0xFFFFFFF ∧
    decodeIns 5 false 0xF00000000 = .reservedOp 5 0xF00000000 := by decide +kernel

/-! ### Witnesses: memory -/

/-- Thread 0 runs with `a` in register 2. -/
def at2 (a : W72) : State := running 0 (Thread.setReg 2 a)
/-- The same with `es` in the store buffer of its core. -/
def withSb (es : List SbEnt) (s : State) : State := modCore 0 (fun c => { c with sb := es }) s
/-- A data entry of thread 0. -/
def sbEnt (addr kind : Nat) (mask : BitVec 8) : SbEnt :=
  { thr := 0, addr := addr, kind := kind, mask := mask, data := 0x12, lvl := 1, pasid := 0 }

/-- A load whose bytes lie in the tile store, aligned and across two words. -/
theorem home_tileStore (op a : Nat) (s : State) (h1 : memFault s 0 op a = none) (h2 : (coreSt s 0).sb = [])
    (h3 : (memParts op a).all (fun x => decide (regionOf (unalias 0 x.1) = .tileStore 0) &&
      !tagP (memTag s (unalias 0 x.1))) = true) : ReadsAtHome s 0 op a where
  noFault := h1
  buffer := by show (coreSt s 0).sb.length ≤ 8; rw [h2]; decide
  near := by
    intro x hx
    have h := List.all_eq_true.mp h3 x hx
    simp only [Bool.and_eq_true, decide_eq_true_eq] at h
    show regionOf (unalias 0 x.1) ≠ .hbm ∧ _ ∧ _
    change regionOf (unalias 0 x.1) ≠ .hbm ∧ regionOf (unalias 0 x.1) ≠ .hostWin ∧
      ∀ u o, regionOf (unalias 0 x.1) ≠ .unitSpace u o
    rw [h.1]
    exact ⟨nofun, nofun, nofun⟩
  drained := by
    intro x _ e he
    have : storesOf s 0 = [] := by
      show (coreSt s 0).sb.filter _ = []
      rw [h2]; rfl
    rw [this] at he; cases he
  clean := by
    intro _ _ x hx
    have h := List.all_eq_true.mp h3 x hx
    simp only [Bool.and_eq_true, Bool.not_eq_true'] at h
    show ((regionOf (unalias 0 x.1)).tagged && tagP (memTag s (unalias 0 x.1))) = false
    rw [h.2]; simp

/-- LD64 across two words, LDW at the first byte of the store. -/
theorem wit_LoadsReadTheirBytes :
    (0xE000000005 = (getReg (at2 0xE000000005) 0 2 + (0 : BitVec 18).signExtend 72).toNat % 2 ^ 48 ∧
      canIssue (at2 0xE000000005) 0 clsM [1, 2] = true ∧ ReadsAtHome (at2 0xE000000005) 0 0x46 0xE000000005) ∧
    (canIssue (at2 0xE00003FFF8) 0 clsM [1, 2] = true ∧ ReadsAtHome (at2 0xE00003FFF8) 0 0x46 0xE00003FFF8 ∧
      sramPlace (unalias (coreOf 0) 0xE00003FFF8) = some 0 ∧ stIH (thr (at2 0xE00003FFF8) 0).st = false ∧
      (thr (at2 0xE00003FFF8) 0).shadow = none) ∧
    (canIssue (at2 0xE000000000) 0 clsM [0, 2] = true ∧ ReadsAtHome (at2 0xE000000000) 0 0x48 0xE000000000) :=
  ⟨⟨by decide, by decide, home_tileStore _ _ _ (by decide) (by decide) (by decide)⟩,
   ⟨by decide, home_tileStore _ _ _ (by decide) (by decide) (by decide), by decide, by decide, by decide⟩,
   by decide, home_tileStore _ _ _ (by decide) (by decide) (by decide)⟩

/-- A posted load of thread 0 to register 3, with and without poison. -/
def postedTo3 (poison : Bool) : Posted :=
  { rd := 3, op := 0x46, ea := 0x1000, pc := 0, word := 0, host := false, val := 7, poison := poison, own := 0, seq := 0 }

theorem wit_HbmLoads :
    (canIssue (at2 0x29FFFFFFF8) 0 clsM [1, 2] = true ∧ memFault (at2 0x29FFFFFFF8) 0 0x48 0x29FFFFFFF8 = none ∧
      (coreSt (at2 0x29FFFFFFF8) 0).sb.length ≤ 8 ∧ (thr (at2 0x29FFFFFFF8) 0).posted.length < 8 ∧
      ((coreThreads 0).map (fun v => (thr (at2 0x29FFFFFFF8) v).posted.length)).sum < 32 ∧
      (∀ p ∈ memParts 0x48 0x29FFFFFFF8, regionOf (unalias 0 p.1) = .hbm ∧
        ∀ e ∈ storesOf (at2 0x29FFFFFFF8) 0, e.addr ≠ unalias 0 p.1 / 8 * 8)) ∧
    (∀ b, (thr (running 0 (fun x => { x with posted := [postedTo3 b] })) 0).posted.find? (fun q => decide (q.rd = 3)) =
        some (postedTo3 b) ∧ (running 0 id).dbg.fstate ≤ 1 ∧ (thr (running 0 id) 0).hold = .none ∧
      ((postedTo3 b).poison || ((postedTo3 b).host && true)) = b) := by decide

/-- A store into seven entries, one across two words; a head of each kind at a store beside the core and at HBM. -/
theorem wit_StoresAndTheirBuffer :
    (canIssue (withSb (List.replicate 7 (sbEnt 0xE000000000 0 1)) (at2 0xE000000000)) 0 clsM [1, 2] = true ∧
      memFault (at2 0xE000000005) 0 0x4C 0xE000000005 = none ∧ memMiss (at2 0xE000000005) 0 0x4C 0xE000000005 = none ∧
      (coreSt (withSb (List.replicate 6 (sbEnt 0xE000000000 0 1)) (at2 0xE000000005)) 0).sb.length +
        (memParts 0x4C 0xE000000005).length ≤ 8) ∧
    (∀ k : Fin 4, ∀ a ∈ [0xE000000000, 0xE10005FFF8, 0x1000],
      (coreSt (withSb [sbEnt a k.val 0xFF] State.reset) 0).sb = [sbEnt a k.val 0xFF] ∧ State.reset.dbg.fstate ≤ 1 ∧
      (thr State.reset (threadOn 0 0)).hold = .none ∧ a % 8 = 0) ∧
    regionOf 0xE000000000 = .tileStore 0 ∧ regionOf 0xE10005FFF8 = .nearStore 5 ∧ regionOf 0x1000 = .hbm ∧
    hbmRetired State.reset 0x1000 = false ∧ hbmFailed State.reset 0x1000 = false ∧ regionOf 0xE300000000 = .sram := by decide

/-- Thread 768 of the steward, at M, with `a` in register 2. -/
def stew2 (a : W72) : State := modThr 768 (Thread.setReg 2 a) State.reset
/-- A domain in state `k` of Table 18-6. -/
def inDom (d k : Nat) (s : State) : State := modPower (fun p => { p with dom := tset {} p.dom d { state := k } }) s
/-- Stack `k` of the HBM retired. -/
def retired (k : Nat) (s : State) : State := modHbm (fun h => { h with retire := tset 0 h.retire k 2 }) s
/-- The thread waits for `h`. -/
def holding (t : Nat) (h : Hold) (s : State) : State := modThr t (fun x => { x with hold := h }) s
/-- The clocks in freeze state `k`. -/
def clocksAt (k : Nat) (s : State) : State := modDbg (fun d => { d with fstate := k }) s
/-- A tag of the word at `a`. -/
def tagged (a : Nat) (t : Byte) (s : State) : State := modMem (fun m => { m with tag := tset 0 m.tag (a / 8) t }) s
/-- Aperture 0 for function 0, readable and writable at every level, whose function translates when `ats`. -/
def window (ats : Bool) (s : State) : State :=
  modHost (fun h => { h with aper := tset {} h.aper 0 { ctl := 0x1E01, hbase := 0x1000, len := 1 },
                             func := tset {} h.func 0 { ats := ats } }) s

/-- The head of the steward's buffer at each target, at the first word of it or at its last. -/
theorem wit_StoreBufferTargets :
    (∀ a ∈ [0xF002000010, 0xE200000000, 0xE20007FFF8, 0x20, 0x400000000FF8],
      (coreSt (modCore 96 (fun c => { c with sb := [sbEnt a 1 0xFF] }) State.reset) 96).sb = sbEnt a 1 0xFF :: []) ∧
    2 ≤ (clocksAt 2 State.reset).dbg.fstate ∧ State.reset.dbg.fstate ≤ 1 ∧ (thr State.reset (threadOn 96 0)).hold = .none ∧
    regionOf 0xF002000010 = .unitSpace 2 0x10 ∧ unitHeld (inDom 60 1 State.reset) 2 0x10 = true ∧
    unitHeld (inDom 60 2 State.reset) 2 0x10 = false ∧ unitOff (inDom 60 2 State.reset) 2 0x10 = true ∧
    regionOf 0x29FFFFFFF8 = .hbm ∧ hbmRetired (retired 3 State.reset) 0x29FFFFFFF8 = true ∧
    regionOf 0xE200000000 = .codeStore 0 ∧ regionOf 0xE20007FFF8 = .codeStore 0 ∧ regionOf 0xE2005FFFF8 = .codeStore 11 ∧
    regionOf 0x400000000FF8 = .hostWin ∧
    (apCheck (window true State.reset) true false 1 0x400000000FF8).1 = 0 ∧
    (apCheck (window true State.reset) true false 1 0x400000000FF8).2.addr < 2 ^ 64 ∧
    translate (window true State.reset) (apCheck (window true State.reset) true false 1 0x400000000FF8).2 true = none ∧
    xsbId 96 ∉ (window true State.reset).host.denied ∧
    translate (window false State.reset) (apCheck (window false State.reset) true false 1 0x400000000FF8).2 true = some 0x1FF8 := by
  decide

/-- A load of fabric time, one of a unit that waits, one of a unit that sleeps, and one that finds its thread's stores. -/
def unitLd (ea : Nat) : MemOp := { op := 0x46, rd := 3, ea := ea, val := 0, word := 0 }

theorem wit_UnitSpaceAccesses :
    (canIssue (stew2 0xF001000010) 768 clsM [1, 2] = true ∧ memFault (stew2 0xF001000010) 768 0x46 0xF001000010 = none ∧
      memFault (stew2 0xF001000010) 768 0x48 0xF001000010 = none ∧
      (coreSt (stew2 0xF001000010) (coreOf 768)).sb.length ≤ 8 ∧ regionOf 0xF001000010 = .unitSpace 1 0x10) ∧
    (∀ ea ∈ [0xF001000010, 0xF002000010], (thr (holding 768 (.unit (unitLd ea)) State.reset) 768).hold = .unit (unitLd ea)) ∧
    regionOf (unalias (coreOf 768) 0xF002000010) = .unitSpace 2 0x10 ∧
    storesOf (modCore 96 (fun c => { c with sb := [sbEnt 0x1000 0 0xFF] }) State.reset) 768 ≠ [] ∧ storesOf State.reset 768 = [] ∧
    unitHeld (inDom 60 1 State.reset) 2 0x10 = true ∧ unitHeld (inDom 60 2 State.reset) 2 0x10 = false ∧
    unitOff (inDom 60 2 State.reset) 2 0x10 = true ∧ unitOff State.reset 2 0x10 = false ∧ unitHeld State.reset 1 0x10 = false ∧
    unitOff State.reset 1 0x10 = false ∧ (∃ s1, unitLoad 768 1 0x10 false State.reset = .value 0 s1) ∧
    (canIssue State.reset 768 clsM [] = true ∧ partFault State.reset 768 (storeOp (2 ^ 3)) 0xF002000010 = none ∧
      (partFault State.reset 768 (storeOp (2 ^ 2)) 0xF002000010).isSome = true) := by
  refine ⟨?_, ?_, ?_, ?_, ?_, ?_, ?_, ?_, ?_, ?_, ?_, ⟨_, rfl⟩, ?_⟩ <;> decide

/-- LDF of full, empty and poisoned words of the tile store and of the last word of HBM; STF with and without older stores. -/
theorem wit_FullEmptyInstructions :
    (∀ a ∈ [0xE000000000, 0x29FFFFFFF8], ∀ g ∈ [0x00, 0x40, 0x80], ∀ op ∈ [0x50, 0x51, 0x52],
      canIssue (tagged a (BitVec.ofNat 8 g) (at2 (BitVec.ofNat 72 a))) 0 clsM [1, 2] = true ∧
      memFault (tagged a (BitVec.ofNat 8 g) (at2 (BitVec.ofNat 72 a))) 0 op a = none ∧
      (coreSt (tagged a (BitVec.ofNat 8 g) (at2 (BitVec.ofNat 72 a))) (coreOf 0)).sb.length < 8 ∧
      (∀ e ∈ storesOf (tagged a (BitVec.ofNat 8 g) (at2 (BitVec.ofNat 72 a))) 0, e.addr ≠ a / 8 * 8) ∧
      hbmFailed (tagged a (BitVec.ofNat 8 g) (at2 (BitVec.ofNat 72 a))) a = false ∧
      stIH (thr (tagged a (BitVec.ofNat 8 g) (at2 (BitVec.ofNat 72 a))) 0).st = false ∧
      memTag (tagged a (BitVec.ofNat 8 g) (at2 (BitVec.ofNat 72 a))) a = BitVec.ofNat 8 g) ∧
    storesOf (withSb [sbEnt 0xE000000000 0 1] (at2 8)) 0 ≠ [] := by decide

/-- Thread 0 waits on the first word of the tile store, full or empty, alone. -/
def waiting (g : Byte) : State :=
  modCpu (fun c => { c with fe := [0] }) (tagged 0xE000000000 g (holding 0 (.full 3 0xE000000000 true) (running 0 id)))

theorem wit_WaitersAndReplays :
    ((thr (waiting 0x40) 0).hold = .full 3 0xE000000000 true ∧ unalias (coreOf 0) 0xE000000000 = 0xE000000000 ∧
      tagP (memTag (waiting 0x40) 0xE000000000) = false ∧ tagF (memTag (waiting 0x40) 0xE000000000) = true ∧
      hbmFailed (waiting 0x40) 0xE000000000 = false ∧ regionOf 0xE000000000 ≠ .rom ∧ (waiting 0x40).dbg.fstate ≤ 1 ∧
      0 ∉ (waiting 0x40).hbm.noWatch.map (·.2) ∧ (waiting 0x40).cpu.fe = [] ++ 0 :: []) ∧
    ((modHbm (fun h => { h with noWatch := [(2, 0)] }) (waiting 0)).hbm.noWatch.find? (fun w => decide (w.2 = 0)) = some (2, 0) ∧
      tagF (memTag (waiting 0) 0xE000000000) = false ∧ ((waiting 0).hbm.watch.filter (fun w => decide (w.1 = 2))).length < 1024) ∧
    1024 ≤ ((modHbm (fun h => { h with watch := List.replicate 1024 (2, 1) }) (waiting 0)).hbm.watch.filter
      (fun w => decide (w.1 = 2))).length ∧
    ReadsAtHome (holding 0 (.replay (unitLd 0xE000000005)) (running 0 id)) 0 0x46 0xE000000005 ∧
    (∃ line : BitVec 13, line.toNat ∉ tget [] (coreSt State.reset 96).ic (line.toNat % 128)) := by
  refine ⟨by decide, by decide, ?_, home_tileStore _ _ _ (by decide) (by decide) (by decide), ⟨0x1FFF, by decide⟩⟩
  show 1024 ≤ ((List.replicate 1024 (2, 1)).filter (fun w => decide (w.1 = 2))).length
  rw [List.filter_replicate, if_pos (by decide)]; exact Nat.le_of_eq List.length_replicate.symm

/-! ### Witnesses: waits, system registers, channels, events -/

/-- A thread that wants the sources `w`, with SIG pending when `sg`. -/
def armed (t w : Nat) (sg : Bool) : State :=
  running t (fun x => { x with wctl := BitVec.ofNat 64 w, sig := sg, st := 0x31 })

theorem wit_WaitsAndSignals :
    (canIssue (armed 0 0x1F true) 0 clsS [31] = true ∧ wakeBits (armed 0 0x1F true) 0 ≠ 0) ∧
    (canIssue (armed 767 0 false) 767 clsS [0] = true ∧ (thr (armed 767 0 false) 767).wctl.toNat % 32 = 0) ∧
    (canIssue (armed 0 1 false) 0 clsS [1] = true ∧ wakeBits (armed 0 1 false) 0 = 0 ∧ (thr (armed 0 1 false) 0).wctl.toNat % 32 ≠ 0 ∧
      bf (thr (armed 0 1 false) 0).st.toNat 4 2 = 3) ∧
    (∀ sg, (thr (holding 0 (.wake 3 3) (armed 0 1 sg)) 0).hold = .wake 3 3 ∧ decide (wakeBits (holding 0 (.wake 3 3) (armed 0 1 sg)) 0 ≠ 0) = sg ∧
      isHalted (thr (holding 0 (.wake 3 3) (armed 0 1 sg)) 0) = false ∧ pairDay (holding 0 (.wake 3 3) (armed 0 1 sg)) 0 = true ∧
      (holding 0 (.wake 3 3) (armed 0 1 sg)).dbg.fstate ≤ 1) ∧
    ((thr (running 0 (fun x => { x with tdl := 1 })) 0).tdl ≠ 0 ∧ (thr (running 0 (fun x => { x with tdl := 1 })) 0).timer = false ∧
      (running 0 (fun x => { x with tdl := 1 })).clk.frozen = none) ∧
    canIssue (at2 0xFF) 0 clsS [0, 2] = true := by decide

theorem wit_SystemRegisterReads :
    (canIssue (running 0 (fun x => { x with st := 1 })) 0 clsS [1] = true ∧ level (running 0 (fun x => { x with st := 1 })) 0 ≠ 0 ∧
      (thr (running 0 (fun x => { x with st := 1 })) 0).shadow = none ∧ stIH (thr (running 0 (fun x => { x with st := 1 })) 0).st = false) ∧
    (canIssue (running 767 (fun x => { x with st := 0 })) 767 clsS [0] = true ∧ level (running 767 (fun x => { x with st := 0 })) 767 = 0) ∧
    (canIssue State.reset 775 clsS [31] = true ∧ level State.reset 775 = 2) := by decide

/-- Every index a SETSR of the steward may write passes; a reserved index, one above a thread's level, a level above its own. -/
theorem wit_SystemRegisterWrites :
    (∀ i ∈ [0, 1, 2, 3, 4, 5, 6, 7, 8, 9, 10, 11, 12, 15, 16, 17, 18, 19], setsrFault (stew2 2) 768 i 2 = none) ∧
    canIssue (stew2 2) 768 clsS [0, 2] = true ∧ (thr (stew2 2) 768).shadow = none ∧
    setsrFault (stew2 2) 768 0x14 2 = some 0x01 ∧ setsrFault (running 0 (fun x => { x with st := 0 })) 0 2 0 = some 0x03 ∧
    (setsrFault (at2 2) 0 0 2).isSome = true ∧ canIssue (running 0 (fun x => { x with st := 0 })) 0 clsS [0, 2] = true ∧
    stIH (thr (running 0 (fun x => { x with st := 0 })) 0).st = false := by decide

/-- Channel `k` of tile 0 is `c`. -/
def withChan (k : Nat) (c : Chan) (s : State) : State := modChan 0 k (fun _ => c) s
/-- Thread 0 runs and writes channel `k`, reads channel `k`. -/
def onChan (k : Nat) : State := running 0 (fun x => { x with chsel := BitVec.ofNat 64 (k + 256 * k) })

theorem wit_ChannelWrites :
    (∀ k ∈ [0, 63], canIssue (onChan k) 0 clsS [0, 31] = true ∧ k = (thr (onChan k) 0).chsel.toNat % 64 ∧
      rsvChan (onChan k) 0 0 = none ∧ (chanOf (onChan k) 0 k).rsv = none ∧ (chanOf (onChan k) 0 k).used < 4) ∧
    (∀ ws ∈ [List.replicate 1 (0 : W72), List.replicate 7 0, List.replicate 8 0],
      rsvChan (withChan 5 { rsv := some (0, ws) } (onChan 5)) 0 0 = some 5 ∧
      (chanOf (withChan 5 { rsv := some (0, ws) } (onChan 5)) 0 5).rsv = some (0, ws)) ∧
    (rsvChan (withChan 6 { rsv := some (0, [0]) } (onChan 5)) 0 0 = some 6 ∧ rsvChan (withChan 5 { rsv := some (1, [0]) } (onChan 5)) 0 0 = none ∧
      (chanOf (withChan 5 { rsv := some (1, [0]) } (onChan 5)) 0 5).rsv.isSome = true ∧
      4 ≤ (chanOf (withChan 5 { sealed := [[0], [0], [0], [0]] } (onChan 5)) 0 5).used) ∧ canIssue State.reset 768 clsS [0, 1] = true := by
  decide

theorem wit_ChannelReads :
    (canIssue (onChan 63) 0 clsS [31] = true ∧ claimChan (onChan 63) 0 0 = none ∧ 63 = bf (thr (onChan 63) 0).chsel.toNat 8 6 ∧
      (chanOf (onChan 63) 0 63).sealed = []) ∧
    (∀ ms ∈ [[[7]], [[7, 8], [9]]], claimChan (withChan 5 { sealed := ms } (onChan 5)) 0 0 = none ∧
      (∀ m ∈ (chanOf (withChan 5 { sealed := ms } (onChan 5)) 0 5).claimed, m.1 ≠ 0) ∧
      (chanOf (withChan 5 { sealed := ms } (onChan 5)) 0 5).sealed = ms) ∧
    (claimChan (withChan 5 { claimed := [(0, [7], 8)] } (onChan 6)) 0 0 = some 5 ∧
      (chanOf (withChan 5 { claimed := [(0, [7], 8)] } (onChan 6)) 0 5).claimed.find? (fun m => decide (m.1 = 0)) = some (0, 7 :: [], 8)) ∧
    canIssue State.reset 775 clsS [0] = true := by decide

theorem wit_FaultsAndReturn :
    (∀ l ∈ [0, 1], canIssue (running 0 (fun x => { x with st := BitVec.ofNat 64 l })) 0 clsS [0] = true ∧
      stIH (thr (running 0 (fun x => { x with st := BitVec.ofNat 64 l })) 0).st = false ∧
      (thr (running 0 (fun x => { x with st := BitVec.ofNat 64 l })) 0).shadow = none ∧
      level (running 0 (fun x => { x with st := BitVec.ofNat 64 l })) 0 = l) ∧
    (reservedWord (0x7FFFFFFFF : BitVec 36) = true ∧ reservedWord (0x010000001 : BitVec 36) = true ∧ reservedWord (0x010000000 : BitVec 36) = false) ∧
    (∀ t ∈ [0, 768], canIssue (running t (fun x => { x with st := 9 })) t clsS [0] = true ∧
      stIH (thr (running t (fun x => { x with st := 9 })) t).st = true ∧ (thr (running t (fun x => { x with st := 9 })) t).brick = none ∧
      (thr (running t (fun x => { x with st := 9 })) t).shadow = none) ∧
    (∀ e ∈ [0, 7], ∀ n ∈ [1, 2],
      canIssue (running 0 (fun x => { x with st := 9, shadow := some (n, 9, e) })) 0 clsS [0] = true ∧
      level (commitCpx 0 (running 0 (fun x => { x with st := 9, shadow := some (n, 9, e) }))) 0 ≠ 0 ∧
      (thr (commitCpx 0 (running 0 (fun x => { x with st := 9, shadow := some (n, 9, e) }))) 0).shadow = some (n, 9, e)) := by
  decide

/-- Thread 0 runs and may take events. -/
def eventful (f : Thread → Thread) : State := running 0 (fun x => f { x with st := 0x1C5 })

theorem wit_EventsEnterTheirHandlers :
    (∀ f ∈ [id, (fun x : Thread => { x with poisons := [(0x1000, 0, 0)] }), (fun x => { x with stall := true }),
        (fun x => { x with timer := true, hold := .wake 3 0 })],
      (thr (eventful f) 0).state ≠ .idle ∧ (thr (eventful f) 0).state ≠ .entry ∧ isHalted (thr (eventful f) 0) = false ∧
      (eventful f).dbg.fstate ≤ 1 ∧ pairDay (eventful f) 0 = true ∧ (thr (eventful f) 0).shadow = none ∧
      uncommitted (thr (eventful f) 0) = false ∧ stIH (thr (eventful f) 0).st = false) ∧
    ((thr (eventful id) 0).hold = .none ∧ (thr (eventful id) 0).poisons = [] ∧ deliverable (eventful id) 0 (thr (eventful id) 0).st = []) ∧
    deliverable (eventful (fun x => { x with stall := true })) 0 (thr (eventful (fun x => { x with stall := true })) 0).st = [1] ∧
    deliverable (eventful (fun x => { x with timer := true, hold := .wake 3 0 })) 0 0x1C5 = [3] := by decide

/-- An accepted instruction of unit `u` and function `fn`. -/
def cpx (u fn : Nat) : Cpx :=
  { unit := u, fn := fn, rd := 1, ra := 2, rb := 3, a := 5, b := 6, a1 := 0, a2 := 0, a3 := 0, b1 := 0, lvl := 1, pc := 9, key := none }

/-- A brick's eight words. -/
def words0 : List W64 := [0, 0, 0, 0, 0, 0, 0, 0]

/-- A core all of whose threads have waited for SIG alone since 0, at 2,048 ns. -/
def stalled : State :=
  (coreThreads 95).foldl (fun s t => modThr t (fun x => { x with state := .run, hold := .wake 1 0, wctl := 1 }) s)
    { State.reset with clk := { ftc := 2048 * 65536 } }

theorem wit_FenceParkAndEnd :
    (∀ f ∈ [(fun x : Thread => { x with st := 1 }), (fun x => { x with st := 1, brick := some words0, limit := 100 }),
        (fun x => { x with st := 1, posted := [postedTo3 false] })],
      canIssue (running 0 f) 0 clsS [0] = true ∧ canIssue (running 0 f) 0 clsS [0, 31] = true ∧ canIssue (running 0 f) 0 clsC [1] = true ∧
      level (running 0 f) 0 ≠ 0 ∧ storesOf (running 0 f) 0 = [] ∧ (running 0 f).sched.cont.length < 262144 ∧
      (thr (running 0 f) 0).prg = false ∧ (thr (running 0 f) 0).tdl = 0) ∧
    (thr (running 0 (fun x => { x with posted := [postedTo3 false] })) 0).posted ≠ [] ∧
    (thr (running 0 id) 0).posted = [] ∧ (thr (running 0 id) 0).brick = none ∧ (thr (running 0 id) 0).cpx = [] ∧
    (thr (running 0 id) 0).shadow = none ∧ (thr (running 0 (fun x => { x with cpx := [cpx 0 7] })) 0).cpx = [cpx 0 7] ∧
    (cpx 0 7).dead = false ∧ canIssue (running 0 (fun x => { x with st := 1, cpx := [cpx 0 7] })) 0 clsS [0] = true ∧
    (thr (running 0 (fun x => { x with brick := some words0 })) 0).brick = some words0 ∧
    (∀ b, stallCounted (modCore 95 (fun c => { c with fired := b }) stalled) 95 = true ∧
      (modCore 95 (fun c => { c with fired := b }) stalled).dbg.fstate ≤ 1 ∧
      (coreSt (modCore 95 (fun c => { c with fired := b }) stalled) 95).fired = b) := by decide

/-! ### Witnesses: the coprocessors -/

/-- Thread 0 with the units of its tile enabled at S, or not. -/
def copReady (en : Bool) (s : State) : State := modTile 0 (fun x => { x with cpEn := if en then 7 else 0 }) s
/-- A slot of tile 0, armed or not. -/
def withSlot (k : Nat) (x : XSlot) (s : State) : State := modCops (fun u => { u with tile := [(0, { slot := [(k, x)] })] }) s

theorem wit_CoprocessorIssue :
    (∃ t ra ok regs, CpxForm (.enc 0 1 29 1 63 false) t 1 63 1 ra 1 ok regs false ∧ ok = false ∧
      canIssue (copReady true (running 0 (fun x => { x with st := 1 }))) t clsC regs = true) ∧
    (∃ t ra ok regs, CpxForm (.enc 0 1 28 30 63 true) t 1 63 1 ra 30 ok regs true ∧ ok = true ∧
      canIssue (copReady true (running 0 (fun x => { x with st := 1 }))) t clsC regs = true) ∧
    (∃ t regs, CpxForm (.xsumAddv 0 31 0 3 15 2 false) t 2 190 31 0 3 true regs false ∧
      canIssue (copReady true (running 0 (fun x => { x with st := 1 }))) t clsC regs = true) ∧
    cpEnabled (copReady true (running 0 (fun x => { x with st := 1 }))) 0 1 = true ∧
    cpEnabled (copReady false (running 0 (fun x => { x with st := 1 }))) 0 1 = false ∧
    stIH (thr (running 0 (fun x => { x with st := 1 })) 0).st = false ∧ (thr (running 0 (fun x => { x with st := 1 })) 0).shadow = none ∧
    bit (busyUnits (commitCpx 0 (running 0 (fun x => { x with cpx := [cpx 0 7] }))) 0) 0 = false ∧
    bit (busyUnits (commitCpx 0 (running 0 (fun x => { x with cpx := [cpx 2 60] }))) 0) 2 = true :=
  ⟨⟨_, _, _, _, .enc 0 1 29 1 63 false, by decide, by decide⟩, ⟨_, _, _, _, .enc 0 1 28 30 63 true, by decide, by decide⟩,
   ⟨_, _, .xsumAddv 0 31 0 3 15 2 false, by decide⟩, by decide, by decide, by decide, by decide, by decide, by decide⟩

theorem wit_CoprocessorCommit :
    State.reset.dbg.fstate ≤ 1 ∧ (thr (running 0 id) 0).cpx = [] ∧ uncommitted (thr (running 0 id) 0) = false ∧
    (∀ c ∈ [cpx 0 7, cpx 0 71, cpx 0 135, cpx 1 63, cpx 2 60, cpx 2 124, cpx 2 316, cpx 2 636],
      (thr (running 0 (fun x => { x with cpx := [c] })) 0).cpx.find? (fun x => !x.committed) = some c ∧ c.dead = false ∧
      cpxNext (commitCpx 0 (running 0 (fun x => { x with cpx := [c] }))) 0 = some { c with committed := true } ∧
      (thr (running 0 (fun x => { x with cpx := [c] })) 0).hold = .none) ∧
    (cpxNext (commitCpx 0 (running 0 (fun x => { x with cpx := [{ cpx 0 7 with committed := true, dead := true }] }))) 0).isSome = true ∧
    cpxMem (cpx 1 63) = true ∧ storesOf (withSb [sbEnt 0x1000 0 0xFF] (running 0 id)) 0 ≠ [] ∧ storesOf (running 0 id) 0 = [] ∧
    (slotOf (withSlot 15 { armed := some (3, 1) } State.reset) (tileOf 0) 15).armed.isSome = true ∧
    (slotOf State.reset (tileOf 0) 15).armed = none ∧ (slotOf State.reset (tileOf 0) 15).later = none := by decide +kernel

/-- A deposit of `n` FP32 elements in slot 15 of tile 11. -/
def dep (n : Nat) : Deposit :=
  { slot := 15, mode := 0, typ := 1, rest := List.replicate (4 * n) 0, bytes := 4 * n, slice := 0, ccid := 0, ep := 0, mlen := 0, item := 0 }

theorem wit_DepositsTakeTurns : (copOf State.reset 11).dep = [] ∧
    (∀ n ∈ [1, 64, 65], (copOf (modCops (fun u => { u with tile := [(11, { dep := [dep n] })] }) State.reset) 11).dep = dep n :: [] ∧
      (dep n).mode = 0 ∧ (dep n).rest.length % xsSize (dep n).typ = 0) ∧
    64 * xsSize (dep 65).typ < (dep 65).rest.length ∧ (dep 64).rest.length ≤ 64 * xsSize (dep 64).typ ∧
    ctrBlocked State.reset 0 0 0 = false := by decide +kernel

/-! ### Witnesses: tile event controller, scheduler -/

/-- Entry `idx:sub` has the value `n` in `w` bytes. -/
def setEnt (idx sub w n : Nat) (s : State) : State :=
  modDict (fun d => { d with vals := tput d.vals (ekey idx sub) (natLE w n) }) s
/-- Fabric time stands at `n` nanoseconds. -/
def atNs (n : Nat) (s : State) : State := modClk (fun c => { c with ftc := BitVec.ofNat 80 (n * 65536), served := n / 64 }) s

theorem wit_TecCompletions : (0xFF1F : W64).toNat % 256 = (31 : Fin 256).val ∧
    (tileSt State.reset 11).active.getLsbD 255 = false ∧
    (tileSt (modTile 11 (fun x => { x with active := BitVec.ofNat 256 (2 ^ 255 + 2 ^ 32) }) State.reset) 11).active.getLsbD 255 = true ∧
    (tileSt (modTile 11 (fun x => { x with active := BitVec.ofNat 256 (2 ^ 255 + 2 ^ 32) }) State.reset) 11).active.getLsbD 32 = true ∧
    (tecGroup (modGroup 11 31 (fun x => { x with en := true, count := 255 }) State.reset) 11 31).en = true ∧
    (tecGroup State.reset 11 31).en = false := by decide

/-- Group 31 of tile 11 runs its timer. -/
def timing : State := modGroup 11 31 (fun x => { x with en := true, t := 1, start := some 0 }) State.reset

theorem wit_TecRegisters : (32 ≤ (0x20 : W64).toNat % 256 ∧ (0xFF1F : W64).toNat % 256 < 32) ∧
    (bf (tileSt (modTile 11 (fun x => { x with input := 2, pend := 2 }) State.reset) 11).sense.toNat 2 2 = 1 ∧
      (tileSt (modTile 11 (fun x => { x with pend := 2 }) State.reset) 11).pend.getLsbD 1 = true ∧
      (tileSt State.reset 11).input.getLsbD 1 = false) ∧
    ((tecGroup timing 11 31).start = some 0 ∧ (tecGroup timing 11 31).en = true ∧ (tecGroup timing 11 31).deliv = false ∧
      (tecGroup timing 11 31).expired = false ∧ (tecGroup timing 11 31).t ≠ 0 ∧ timing.clk.frozen = none ∧
      fireAt timing < expiryAt 0 (0 + 64 * (tecGroup timing 11 31).t.toNat) 0 ∧
      expiryAt 0 (0 + 64 * (tecGroup timing 11 31).t.toNat) 0 ≤ fireAt (atNs 1024 timing)) := by decide

/-- Bricks of KIND 1 and class 63 for every tile, with a budget of 1; ones of no KIND; ones for no tile. -/
def brick1 : List W64 := [0x10FFF00003F01, 0x1FFFF, 0, 0, 0, 0, 0, 0]
/-- Post area 0 holds these words and DUE. -/
def posting (ws : List W64) (due : Nat) : State :=
  modPost 0 (fun a => { a with w := ws, due := BitVec.ofNat 64 due }) State.reset
/-- `n` bricks stand in queue `q`, on chip or spilled. -/
def queued (q n : Nat) (spilled : Bool) (s : State) : State :=
  modSched (fun u => { u with rq := [(q, List.replicate n { words := brick1, cont := none, spilled := spilled })] }) s

theorem wit_PostedBricks :
    (awake (posting brick1 0) = false ∧ awake (modDbg (fun d => { d with phase := 5 }) (posting brick1 0)) = true) ∧
    (brickCheck (posting words0 0) words0 false = 4 ∧ brickCheck (posting brick1 0) brick1 false = 0 ∧
      brickCheck (setEnt 0x8402 1 2 0 (posting brick1 0)) brick1 false = 5 ∧ (postOf (posting brick1 0) 0).w = brick1) ∧
    brickRoom (posting brick1 0) 0 = true ∧ brickRoom (queued 0 1 true State.reset) 0 = true ∧
    overflowCount (queued 31 1 true State.reset) < 1048576 ∧
    (now State.reset + 2 ^ 40 < 2 ^ 40 + 1 ∧ 2 ^ 40 ≤ now State.reset + 2 ^ 40 ∧ now State.reset < dlUp 3 (2 ^ 40) ∧
      now State.reset < dlUp 0 1 ∧ dlUp 0 0 ≤ now State.reset ∧ (dlOf State.reset 3).length < 262144) := by decide

/-- Full stores of bricks. -/
theorem queued_count (n : Nat) : onchipCount (queued 0 n false State.reset) = n ∧ overflowCount (queued 0 n true State.reset) = n := by
  refine ⟨?_, ?_⟩
  · simp [onchipCount, queued, modSched]
  · simp [overflowCount, queued, modSched]; rfl

theorem wit_PostedBricks_full : brickRoom (queued 0 1048576 true State.reset) 0 = false := by
  have hs : ∀ n, rqSpilled (queued 0 (n + 1) true State.reset) 0 = true := fun n => by
    simp [rqSpilled, rqOf, queued, modSched, tget, tfind, List.replicate_succ]
  have h : ∀ n, 1048576 ≤ n + 1 → brickRoom (queued 0 (n + 1) true State.reset) 0 = false := fun n hn => by
    simp only [brickRoom, hs n, (queued_count (n + 1)).2, decide_eq_false (Nat.not_lt.mpr hn), Bool.not_true, Bool.and_false, Bool.or_false]
  exact h 1048575 (Nat.le_refl _)

/-- A continuation of a brick of this form. -/
def saved : Cont :=
  { words := brick1, w := [], pc := 5, st := 1, spc := 0, sst := 0, ecause := 0, prio := 0, tdl := 0, waitPrg := false }

/-- A brick, or a continuation, waits in the enabled queue 31; tile 11 alone is enabled. -/
def ready (c : Option Nat) : State :=
  modSched (fun u => { u with rq := [(31, [{ words := brick1, cont := c, spilled := false }])], cont := [(0, saved)] })
    (setEnt 0x8402 1 2 0x800 (setEnt 0x8410 32 4 0x1FFF0 State.reset))

theorem wit_DispatchStartsBricks : 2 ≤ (clocksAt 2 State.reset).dbg.fstate ∧ (∀ c ∈ [none, some 0],
    (ready c).dbg.fstate ≤ 1 ∧ (ready c).sched.tilePtr < 12 ∧ (∀ k, k < 12 → k ≠ 11 → bit (tileEn (ready c)) k = false) ∧
    pickThread (ready c) 11 = some 704 ∧ queueOrder (ready c) = List.range 31 ++ 31 :: [] ∧
    (∀ p ∈ List.range 31, queuePick (ready c) p 11 32 = none) ∧
    queuePick (ready c) 31 11 32 = some (0, { words := brick1, cont := c, spilled := false }) ∧ domState (ready c) (pairDomain 704) = 0) ∧
    bkLhv brick1 = false ∧ (tfind (ready (some 0)).sched.cont 0).isSome = true := by decide +kernel

/-- Thread 0 runs a brick whose budget is spent to `n`. -/
def spent (n : Nat) (f : Thread → Thread) : State :=
  running 0 (fun x => f { x with brick := some brick1, limit := 1, charge := n })

theorem wit_SchedulerEvents :
    ((∀ q, q < 32 → rqSpilled State.reset q = false) ∧ onchipCount (queued 31 1 true State.reset) < 16384 ∧
      rqSpilled (queued 31 1 true State.reset) (((queued 31 1 true State.reset).sched.refillPtr + 31) % 32) = true ∧
      (∀ j, j < 31 → rqSpilled (queued 31 1 true State.reset) (((queued 31 1 true State.reset).sched.refillPtr + j) % 32) = false)) ∧
    (∀ n ∈ [0, 1], (dlOf (modDl 3 (fun _ => [⟨65536 * n, ⟨brick1, none, true⟩⟩]) State.reset) 3) = [⟨65536 * n, ⟨brick1, none, true⟩⟩]) ∧
    reached 0 State.reset = true ∧
    ((thr (spent 1 id) 0).brick = some brick1 ∧ (thr (spent 1 id) 0).budgetTaken = false ∧ (thr (spent 1 id) 0).limit ≤ (thr (spent 1 id) 0).charge ∧
      stIH (thr (spent 1 id) 0).st = false ∧ uncommitted (thr (spent 1 id) 0) = false ∧ (thr (spent 1 id) 0).shadow = none ∧ (thr (spent 1 id) 0).hold = .none ∧
      (thr (spent 1 id) 0).state ≠ .idle ∧ isHalted (thr (spent 1 id) 0) = false ∧ (spent 1 id).dbg.fstate ≤ 1) ∧
    (thr (spent 0 id) 0).charge < (thr (spent 0 id) 0).limit ∧
    (thr (spent 0 id) 0).charge < budgetOf (spent 0 id) brick1 + cfg (spent 0 id) 0x8401 0x03 ∧
    budgetOf (spent 0 id) brick1 + cfg (spent 0 id) 0x8401 0x03 ≤ (thr (spent (2 ^ 40) id) 0).charge ∧
    (∀ n ∈ [0, 2 ^ 50], tfind (modSched (fun u => { u with drainAt := [(11, 0)] }) (atNs n State.reset)).sched.drainAt 11 = some 0 ∧
      (modSched (fun u => { u with drainAt := [(11, 0)] }) (atNs n State.reset)).clk.frozen = none ∧
      (decide (n = 0) = decide (fireAt (atNs n State.reset) < expiryAt 1 (0 + 1024 * cfg State.reset 0x8402 0x04) 0)) ∧
      (∀ t ∈ tileThreads 11, (thr (atNs n State.reset) t).brick = none)) := by decide +kernel

/-! ### Witnesses: time -/

/-- Sub-port 15 has the role `r`, is up, and its exchange is `y`. -/
def timed (r : Nat) (y : SubTime) (s : State) : State :=
  modFab (fun f => { f with sub := [(15, { oper := 2 })] }) (modClk (fun c => { c with sub := [(15, y)] }) (setEnt 0x2003 16 1 r s))

/-- Fabric time stands at the end of the first exchange interval. -/
def interval (s : State) : State := modClk (fun c => { c with ivlAt := 2048 }) (atNs 131072 s)

/-- A frame payload of 64 bytes: MSG, and TSEQ 7 at its place. -/
def timeMsg (m : Nat) : Bytes := [BitVec.ofNat 8 m, 0, 0, 7] ++ List.replicate 60 0

/-- A RESP of another grandmaster than this device. -/
def otherResp : Nat × Nat × Nat × Nat := (1, (Config.serial ^^^ 1).toNat, 3, 0)

theorem other_valid : validResp { resp := some otherResp } = some otherResp := by
  have h : otherResp.2.1 ≠ Config.serial.toNat := by
    intro h
    have h2 : Config.serial ^^^ 1 = Config.serial := BitVec.eq_of_toNat_eq h
    have h3 := congrArg (fun x => x.getLsbD 0) h2
    cases hb : Config.serial.getLsbD 0 <;> simp at h3
  have h1 : (0 : Nat) < 8 ∧ otherResp.2.1 ≠ Config.serial.toNat := ⟨by decide, h⟩
  show (if (0 : Nat) < 8 ∧ otherResp.2.1 ≠ Config.serial.toNat then some otherResp else none) = some otherResp
  rw [if_pos h1]

theorem wit_FabricTime_exchange :
    (timeRole (timed 0 {} State.reset) 15 ≠ 1 ∧ timeRole (timed 1 {} State.reset) 15 = 1 ∧ linkUp (timed 1 {} State.reset) 15 = true ∧
      atInterval (timed 1 {} State.reset) = false ∧ atInterval (interval (timed 1 {} State.reset)) = true ∧
      (timeSub (interval (timed 1 {} State.reset)) 15).reqIvl ≠ fireAt (interval (timed 1 {} State.reset)) / 131072) ∧
    (∀ m ∈ [1, 2], 64 ≤ (timeMsg m).length ∧ beAt (timeMsg m) 0 1 = m ∧ beAt (timeMsg m) 2 2 = 7) ∧
    (timeSub (timed 1 { lastReq := some (7, 0), answered := false } State.reset) 15).lastReq = some (7, 0) ∧
    (timeSub (timed 1 { lastReq := some (7, 0), answered := false } State.reset) 15).answered = false ∧ (7 : BitVec 16).toNat = 7 := by decide

theorem wit_FabricTime_interval :
    (0 < fireAt (atNs 131072 State.reset) / 131072 ∧ fireAt (atNs 131071 State.reset) / 131072 ≤ (atNs 131071 State.reset).clk.ivl) ∧
    (cfg (setEnt 0x2002 1 1 0xFE State.reset) 0x2002 0x01 < 0xFF ∧ candidates (setEnt 0x2002 1 1 0xFE State.reset) = []) ∧
    (cfg State.reset 0x2002 0x01 = 0xFF ∧ candidates State.reset = [] ∧
      (modClk (fun c => { c with state := 4 }) State.reset).clk.state = 4) := by decide

/-- With the grandmaster priority FFh and one valid parent, the device follows it. -/
theorem wit_FabricTime_parent : ∃ c, elected (timed 1 { resp := some otherResp } State.reset) (some c) = false ∧
    bestCand (candidates (timed 1 { resp := some otherResp } State.reset)) = some c ∧
    (timeSub (timed 1 { resp := some otherResp } State.reset) c.2.2.2.1).offset = none := by
  have h : candidates (timed 1 { resp := some otherResp } State.reset) = [(1, (Config.serial ^^^ 1).toNat, 3, 15, 0)] := by
    have hv : ∀ y : SubTime, y = { resp := some otherResp } → (validResp y).map (fun r => (r.1, r.2.1, r.2.2.1, 15, r.2.2.2)) =
        some (1, (Config.serial ^^^ 1).toNat, 3, 15, 0) := by
      rintro _ rfl; rw [other_valid]; rfl
    have hr : List.range 16 = List.range 15 ++ [15] := by decide
    rw [candidates, hr, List.filterMap_append]
    have h0 : ∀ sp ∈ List.range 15, timeSub (timed 1 { resp := some otherResp } State.reset) sp = {} := by
      intro sp hs
      have h1 : ∀ sp ∈ List.range 15, (tfind (timed 1 { resp := some otherResp } State.reset).clk.sub sp).isNone = true := by decide
      have h2 := Option.isNone_iff_eq_none.mp (h1 sp hs)
      rw [timeSub, tget, h2]; rfl
    rw [List.filterMap_eq_nil_iff.mpr (fun sp hs => by rw [h0 sp hs]; split <;> rfl)]
    have h15 : timeRole (timed 1 { resp := some otherResp } State.reset) 15 = 1 := by
      have : timeRole (timed 1 {} State.reset) 15 = 1 := by decide
      exact this
    simp only [List.filterMap_cons, List.filterMap_nil, h15, ne_eq, not_true_eq_false, if_false, List.nil_append]
    have := hv (timeSub (timed 1 { resp := some otherResp } State.reset) 15) rfl
    rw [this]
  refine ⟨(1, (Config.serial ^^^ 1).toNat, 3, 15, 0), ?_, ?_, rfl⟩
  · have h1 : cfg (timed 1 { resp := some otherResp } State.reset) 0x2002 0x01 = 0xFF := by
      have : cfg (timed 1 {} State.reset) 0x2002 0x01 = 0xFF := by decide
      exact this
    rw [elected, h1]; rfl
  · rw [h]; rfl

theorem wit_FabricTime_pins :
    ((modClk (fun c => { c with timeinLast := some 0 }) State.reset).clk.timeinLast = some 0 ∧ now State.reset < 0 + 500000000 ∧
      State.reset.clk.timeinLast = none) ∧
    (cfgB (setEnt 0x2002 2 1 1 State.reset) 0x2002 0x02 = true ∧ cfgB State.reset 0x2002 0x02 = false ∧
      secondOffset (atNs 0 State.reset).clk.ftc.toNat ≤ (cfg State.reset 0x2006 0x01 * 65536 : Nat) ∧
      (cfg State.reset 0x2006 0x01 * 65536 : Nat) < secondOffset (atNs 500000001 State.reset).clk.ftc.toNat ∧
      State.reset.led.restart = none) ∧
    (timeoutOn (modClk (fun c => { c with state := 4 }) (setEnt 0x2007 1 1 1 State.reset)) = true ∧ timeoutOn State.reset = false ∧
      now (atNs 99999999 State.reset) % 10 ^ 9 < 100000000 ∧ 100000000 ≤ now (atNs 100000000 State.reset) % 10 ^ 9) := by decide

/-- Sub-ports 14 and 15 hear one grandmaster, 15 by the longer path. -/
def twoPaths : State :=
  modClk (fun c => { c with ptp := [(14, { foreign := some { ds := [0, 1, 1, 1, 1, 1, 1, 1], heardAt := 0, ivl := 1 } }),
    (15, { foreign := some { ds := [0, 1, 1, 1, 1, 1, 2, 1], heardAt := 0, ivl := 1 } })] })
    (modFab (fun f => { f with sub := [(14, { oper := 2 }), (15, { oper := 2 })] }) (setEnt 0x2003 15 1 2 (timed 2 {} State.reset)))

/-- A passive port, a port that is a slave, and a clock identity that is not the device's. -/
theorem wit_FabricTime_roles : ptpRole twoPaths 15 = 2 ∧ ptpSlave twoPaths 14 = true ∧ ptpSlave twoPaths 15 = false ∧
    (∃ n ∈ [0, 1], n ≠ Config.serial.toNat) := by
  refine ⟨by decide, by decide, by decide, ?_⟩
  by_cases h : 0 = Config.serial.toNat
  · exact ⟨1, by decide, by omega⟩
  · exact ⟨0, by decide, h⟩

/-- A 1588 message of 64 bytes in domain 0 on the PTP timescale: type `ty`. -/
def ptpIn (ty : Nat) : Bytes := [BitVec.ofNat 8 ty, 2, 0, 64, 0, 0, 0, 8] ++ List.replicate 56 0

theorem wit_FabricTime_1588 :
    (timeRole (timed 2 {} State.reset) 15 = 2 ∧ linkUp (timed 2 {} State.reset) 15 = true ∧
      cfg (timed 2 {} State.reset) 0x2005 0x03 ≠ 3 ∧ cfg (timed 2 {} State.reset) 0x2005 0x01 = 0 ∧ cfg (timed 2 {} State.reset) 0x2005 0x02 ≠ 1) ∧
    (∀ ty ∈ [0, 1, 8, 0xB], 34 ≤ (ptpIn ty).length ∧ beAt (ptpIn ty) 1 1 % 16 = 2 ∧ beAt (ptpIn ty) 4 1 = 0 ∧
      ptpInSubset (ptpIn ty) = true ∧ beAt (ptpIn ty) 0 1 % 16 = ty ∧ beAt (ptpIn ty) 61 2 < 255) ∧ ptpInSubset (ptpIn 4) = false ∧
    cfg (setEnt 0x2005 2 1 1 (timed 2 {} State.reset)) 0x2005 0x02 = 1 ∧ (ptpOf (timed 2 {} State.reset) 15).foreign = none ∧
    now State.reset / roundUp (syncNs State.reset) 1048576 ≤ (ptpOf State.reset 15).lastIvl ∧
    (ptpOf State.reset 15).lastIvl < now (atNs 2000000000 State.reset) / roundUp (syncNs State.reset) 1048576 ∧
    ptpP2p (timed 2 {} State.reset) = false ∧ ptpSlave (timed 2 {} State.reset) 15 = false ∧
    ptpRole (timed 2 {} State.reset) 15 = 0 := by decide

/-! ### Witnesses: locks -/

/-- Lock 4095 is `x`; every master class has all rights in its group, with a lease of one DL0 period when `lease`. -/
def locked (x : Lock) (lease : Bool) : State :=
  modLock 4095 (fun _ => x) (setEnt 0x8801 64 4 (if lease then 0x1013F else 0x3F) State.reset)

theorem wit_Locks :
    (lockRight (setEnt 0x8801 64 4 0 State.reset) 63 0 ≠ 3 ∧ lockRight (locked {} true) 63 767 = 3 ∧ lockRight (locked {} true) 63 0xC000 = 3 ∧
      bit (groupCfg (locked {} true) 63) 8 = true ∧ bit (groupCfg (locked {} false) 63) 8 = false) ∧
    (∀ x ∈ [({} : Lock), { state := 1 }, { state := 2 }, { state := 1, owner := 5 }, { state := 1, owner := 767, waiters := List.replicate 8 (0xC000, 3) },
        { state := 1, owner := 767, waiters := [(0xC000, 3)] }], lockOf (locked x true) 4095 = x) ∧
    waitsAny (locked { state := 1, owner := 767, waiters := [(0xC000, 3)] } true) 0xC000 = true ∧
    waitsAny (locked { state := 1, owner := 767, waiters := [(0xC000, 3)] } true) 0xC001 = false ∧
    (∀ n ∈ [0, 65536], leasePaused (atNs n (locked { state := 1, owner := 767, deadline := 1 } true)) { state := 1, owner := 767, deadline := 1 } = false ∧
      (atNs n (locked { state := 1, owner := 767, deadline := 1 } true)).clk.frozen = none ∧
      decide (n = 0) = decide (fireAt (atNs n (locked { state := 1, owner := 767, deadline := 1 } true)) < expiryAt 1 1 0)) ∧
    leasePaused (setEnt 0x8800 2 1 1 (modThr 767 (fun x => { x with halted := true }) State.reset)) { state := 1, owner := 767, deadline := 1 } = true := by
  decide +kernel

/-- Thread `t` runs a brick of priority `p`. -/
def atPrio (t p : Nat) (s : State) : State :=
  modThr t (fun x => { x with state := .run, brick := some [BitVec.ofNat 64 (p * 16)] }) s

/-- Lock 200 is held by 0088h and the turn pointer of its group stands at 0090h (the worked example of chapter 11). -/
def tied : State :=
  modLock 200 (fun _ => { state := 1, owner := 0x88 }) (modLocks (fun u => { u with tp := [(3, 0x90)] })
    (setEnt 0x8801 4 4 0x3F (atPrio 0x2C2 9 (atPrio 0x95 6 (atPrio 0x141 6 (atPrio 0x83 6 (atPrio 0x88 4 State.reset)))))))

/-- Four requests of one CCLK queue as 02C2h, 0095h, 0141h, 0083h, and TP is then 0096h (the worked example of chapter 11). -/
theorem test_lock_turns :
    (let s := lockMeet [⟨1, 200, 0x83, 0⟩, ⟨1, 200, 0x2C2, 0⟩, ⟨1, 200, 0x141, 0⟩, ⟨1, 200, 0x95, 0⟩] tied
     (lockOf s 200).waiters = [(0x2C2, 9), (0x95, 6), (0x141, 6), (0x83, 6)] ∧ tget 0 s.locks.tp 3 = 0x96) := by decide +kernel

theorem wit_Locks_tie : (4095 : Fin 4096).val / 64 = 63 ∧ (4032 : Fin 4096).val / 64 = 63 ∧ (0xC000 : BitVec 16) ≠ 0x4000 ∧
    reqPrio State.reset 0xC000 15 = reqPrio State.reset 0x4000 15 := by decide

/-! ### Witnesses: frames, links, egress -/

/-- Sub-port 14 is `x`. -/
def onSub (x : SubPort) (s : State) : State := modFab (fun f => { f with sub := [(14, x)] }) s
/-- A link that is up, with LLR. -/
def upLlr : SubPort := { oper := 2, llr := true, lanes := 0xF }
/-- 60 bytes of a frame with no tag. -/
def body : Bytes := List.replicate 12 0 ++ [8, 0] ++ List.replicate 46 7
/-- The frame with its FCS, with it stomped, and with neither. -/
def frameOk : Bytes := body ++ natLE 4 (ethFcs body)
def frameStomped : Bytes := body ++ natLE 4 (ethFcs body ^^^ 0xFFFFFFFF)
def frameBad : Bytes := body ++ natLE 4 (ethFcs body ^^^ 1)

/-- CRC-32 of the nine digits (the check value of IEEE 802.3's CRC-32). -/
theorem test_ethernet_fcs : ethFcs [0x31, 0x32, 0x33, 0x34, 0x35, 0x36, 0x37, 0x38, 0x39] = 0xCBF43926 := by decide +kernel

theorem wit_Frames_receive :
    (linkUp State.reset 14 = false ∧ linkUp (onSub { oper := 2 } State.reset) 14 = true ∧ linkUp (onSub { oper := 3 } State.reset) 14 = true ∧
      clocked (onSub { oper := 2 } State.reset) = true ∧ clocked (clocksAt 2 State.reset) = false ∧
      mayEnter State.reset (frameBody frameOk) = false ∧ mayEnter (modDbg (fun d => { d with phase := 5 }) State.reset) (frameBody frameOk) = true ∧
      (subOf (onSub { oper := 2 } State.reset) 14).llr = false ∧ openPkt (onSub { oper := 2 } State.reset) 14 = none) ∧
    (∀ f ∈ [frameOk, frameStomped, frameBad], 64 ≤ f.length ∧ f.length ≤ 9216 ∧ beAt f 12 2 ≠ 0x8808 ∧ beAt f 12 2 ≠ 0x88B5 ∧
      tagsUnsupported (frameBody f) = false) ∧
    fcsGood frameOk = true ∧ fcsStomped frameOk = false ∧ fcsStomped frameStomped = true ∧ fcsGood frameBad = false ∧ fcsStomped frameBad = false ∧
    (frameOk.take 63).length < 64 ∧ fifoBytes State.reset 7 + frameOk.length ≤ 16384 ∧
    16384 < fifoBytes (modFab (fun f => { f with port := [(7, { fifo := List.replicate 5 (14, List.replicate 3300 0) })] }) State.reset) 7 +
      frameOk.length ∧
    ((subOf (onSub upLlr State.reset) 14).llr = true ∧ (subOf (onSub upLlr State.reset) 14).drainAt = none ∧
      (subOf (onSub upLlr State.reset) 14).replay = [] ∧ (1 : BitVec 16) ≠ (subOf (onSub upLlr State.reset) 14).rxExpect) := by
  decide +kernel

theorem wit_Frames_flow :
    (flowCtl (setEnt 0x3107 4 1 1 (onSub { oper := 2 } State.reset)) 14 = 1 ∧ flowCtl (setEnt 0x3107 4 1 0 State.reset) 14 ≠ 1) ∧
    (∀ n ∈ [0, 1], tfind (subOf (atNs n (onSub { oper := 2, paused := [(7, 65536)] } State.reset)) 14).paused 7 = some 65536 ∧
      decide (now80 (atNs n State.reset) < 65536) = decide (n = 0)) ∧
    ((subOf (onSub { upLlr with cbfc := true } State.reset) 14).cbfc = true ∧ (subOf (onSub { upLlr with cbfc := true } State.reset) 14).llr = true ∧
      creditDue (onSub { upLlr with cbfc := true } State.reset) 14 = true ∧
      creditDue (onSub { upLlr with cbfc := true, creditAt := some 0 } State.reset) 14 = false ∧
      (subOf (onSub upLlr State.reset) 14).cbfc = false) := by decide +kernel

/-- A packet that slice 0 sends, in the queue of class `c` of sub-port 14. -/
def outPkt : Pkt :=
  { sp := 16, bytes := body, complete := true, stomp := false, course := 0, engine := none, phase := 5, key := [], meta0 := 0,
    meta1 := 0, act := 0, tc := 7, out := 14, spilled := false, cut := false, fate := none, nhg := none }
def sending (c : Nat) (x : SubPort) : State :=
  modFab (fun f => { f with pkts := [(5, outPkt)], nextPkt := 6, queue := [(14 * 8 + c, [5])] }) (onSub x State.reset)

theorem wit_Frames_egress :
    (txFree State.reset 14 = false ∧ txFree (sending 0 upLlr) 14 = true ∧ (subOf (sending 0 upLlr) 14).tx = [] ∧ (subOf (sending 0 upLlr) 14).ctl = [] ∧
      (subOf (sending 0 { upLlr with ctl := [(0, body)] }) 14).ctl = (0, body) :: [] ∧ (subOf (sending 0 upLlr) 14).cbfc = false ∧
      (subOf (sending 0 { upLlr with cbfc := true }) 14).gotCredit = false) ∧
    (isStrict (setEnt 0x6417 8 1 1 (sending 7 upLlr)) 14 7 = true ∧ readyHead (setEnt 0x6417 8 1 1 (sending 7 upLlr)) 14 7 = some (5, outPkt)) ∧
    (readyHead (sending 0 upLlr) 14 0 = some (5, outPkt) ∧ isStrict (sending 0 upLlr) 14 0 = false ∧ pickStrict (sending 0 upLlr) 14 = none ∧
      (pickDrr (sending 0 upLlr) 14 17 (tget 0 (sending 0 upLlr).fab.drr 14) true (sending 0 upLlr).fab.deficit).1 = some 0) ∧
    ((subOf (sending 0 { upLlr with tx := [5], txSeq := [(5, 0)] }) 14).tx = 5 :: [] ∧ pktOf (sending 0 upLlr) 5 = some outPkt ∧
      outPkt.complete = true ∧ (tfind (subOf (sending 0 { upLlr with tx := [5], txSeq := [(5, 0)] }) 14).txSeq 5).isSome = true) := by
  decide +kernel

/-- A copy that link-level retry holds. -/
def copy0 (tries : Nat) : LlrCopy :=
  { seq := 5, bytes := body, tc := 0, pkt := none, item := none, stomp := false, sentAt := 0, tries := tries,
    len := 64, cost := 1, paid := true }
/-- A link with one frame not acknowledged. -/
def upKept : SubPort := { upLlr with txNext := 6, txAcked := 5, replay := [copy0 6] }

theorem wit_Retry_frames :
    (unsequenced State.reset 14 = none ∧ unsequenced (sending 0 { upLlr with tx := [5] }) 14 = some (5, outPkt) ∧
      replayBytes upLlr + copyLen outPkt ≤ replayCap State.reset 14 ∧ (upLlr.txNext - upLlr.txAcked).toNat < 8192 ∧
      8192 ≤ (({ upLlr with txNext := 8192 } : SubPort).txNext - ({ upLlr with txNext := 8192 } : SubPort).txAcked).toNat ∧
      replayCap State.reset 14 < replayBytes { upLlr with replay := List.replicate 65 { copy0 0 with len := 9216 } } + copyLen outPkt) ∧
    (subOf (onSub upKept State.reset) 14 = upKept ∧ upKept.replay ≠ [] ∧ upKept.replay.map (·.seq) = (List.range upKept.replay.length).map (fun i => upKept.txAcked + BitVec.ofNat 16 i) ∧
      (∀ c ∈ upKept.replay, mayReplay (onSub upKept State.reset) { upKept with gotCredit := false } c = true ∧ c.tries < 7) ∧
      ((6 : BitVec 16) - upKept.txAcked).toNat ≤ (upKept.txNext - upKept.txAcked).toNat ∧
      (upKept.txNext - upKept.txAcked).toNat < ((7 : BitVec 16) - upKept.txAcked).toNat ∧ upKept.drainAt = none) ∧
    (reached (dlUp 0 (0 + cfg (onSub upKept State.reset) 0x3107 7 * 64)) (onSub upKept State.reset) = false ∧
      reached (dlUp 0 (0 + cfg (onSub upKept State.reset) 0x3107 7 * 64)) (atNs (2 ^ 40) (onSub upKept State.reset)) = true) := by decide +kernel

theorem wit_Retry_links :
    (fullLanes State.reset 14 = 0xF ∧ fullLanes (setEnt 0x3107 2 1 1 State.reset) 15 = 0xC ∧ (0xC &&& fullLanes State.reset 14 : BitVec 4) = 0xC ∧
      (if portMode State.reset (14 / 2) = 0 then 2 else 1) ≤ popcnt (0xC : BitVec 4).toNat 4 ∧
      (subOf (onSub { upLlr with shedOn := true, ackWait := true, lockDue := true, ackDue := true } State.reset) 14).shedOn = true ∧
      inProgress (onSub upLlr State.reset) 14 = false ∧ inProgress (onSub { upLlr with tx := [5], txSeq := [(5, 0)] } State.reset) 14 = true) ∧
    ((subOf (onSub { oper := 1 } State.reset) 14).oper = 1 ∧ (0xF : BitVec 4) ≠ 0 ∧ (subOf State.reset 14).oper ≠ 1) ∧
    ((subOf State.reset 14).drainAt = none ∧ (subOf State.reset 14).downAt = none ∧ linkUp (onSub { downAt := some 0 } State.reset) 14 = false ∧
      (∀ n ∈ [0, 2 ^ 40], reached (dlUp 2 (0 + 10 * 1000000)) (atNs n (onSub { downAt := some 0 } State.reset)) = decide (n ≠ 0))) ∧
    (laneSub State.reset 7 3 = 14 ∧ laneSub (setEnt 0x3107 2 1 1 State.reset) 7 3 = 15 ∧
      (if portMode State.reset 7 = 0 then 2 else 1) ≤ popcnt (fullLanes State.reset 14 &&& ~~~((0 : BitVec 4) ||| BitVec.ofNat 4 (2 ^ 3))).toNat 4 ∧
      (8 : BitVec 4) &&& BitVec.ofNat 4 (2 ^ 3) ≠ 0 ∧
      (∀ n ∈ [0, 2 ^ 60], reached (expiryAt 2 (0 + cfg State.reset 0x3107 0x0A * 1048576) 0) (atNs n State.reset) = decide (n ≠ 0))) ∧
    (cfg State.reset 0x3107 0x0B < 1000 ∧ cfgB (setEnt 0x3107 0xC 1 1 State.reset) 0x3107 0x0C = true ∧ domState (inDom 67 2 State.reset) (60 + 7) = 2 ∧ domState State.reset 67 ≠ 2 ∧
      (inDom 67 2 State.reset).clk.frozen = none) := by decide +kernel

/-! ### Witnesses: classification and courses -/

/-- A packet of sub-port 14 in phase `ph`, held by engine 0. -/
def inPkt (ph : Nat) (meta0 : Nat) : Pkt :=
  { outPkt with sp := 14, engine := some 0, phase := ph, meta0 := BitVec.ofNat 64 meta0, tc := 0, out := 0 }
/-- Pipeline 7 has this packet, number 5, a program at ENTRY 0 for course 0, and `st` as its programs. -/
def parsingIt (p : Pkt) (st : Tab (BitVec 32)) (s : State) : State :=
  modCls (fun c => { c with entry := [(14, 0x1000)], prog := st })
    (modFab (fun f => { f with pkts := [(5, p)], nextPkt := 6, order := [(7, [5])] }) (onSub { oper := 2 } s))

theorem wit_Courses_entry :
    (clocked State.reset = true ∧ clocked (clocksAt 2 State.reset) = false ∧ bodyRoom State.reset 7 frameOk = true ∧
      bodyRoom (modFab (fun f => { f with pkts := [(5, { inPkt 0 0 with bytes := List.replicate 16380 0 })] }) State.reset) 7 frameOk = false ∧
      mayEnter State.reset frameOk = false ∧ mayEnter (modDbg (fun d => { d with phase := 5 }) State.reset) frameOk = true ∧
      lcfAddressed frameOk = false) ∧
    (freeEngine State.reset 7 = some 0 ∧ 0 ∉ busyEngines State.reset 7 ∧
      freeEngine (modFab (fun f => { f with pkts := (List.range 24).map (fun e => (e, { inPkt 0 0 with engine := some e })),
                                            order := [(7, List.range 24)] }) State.reset) 7 = none) ∧
    ((portSt (modFab (fun f => { f with port := [(7, { fifo := [(15, body)] })] }) State.reset) 7).fifo = (15, body) :: [] ∧
      (portSt State.reset 7).fifo = [] ∧ (frameOk.take 63).length < 64 ∧ 64 ≤ frameOk.length ∧ beAt frameOk 12 2 ≠ 0x8808 ∧
      tagsUnsupported frameOk = false ∧ linkUp (onSub { oper := 2 } State.reset) 14 = true ∧ openPkt (onSub { oper := 2 } State.reset) 14 = none) ∧
    bit (tget 0 (parsingIt (inPkt 0 0) [] State.reset).cls.entry (7 * 2 + activeCourse (parsingIt (inPkt 0 0) [] State.reset) % 2)).toNat 12 = true := by
  decide +kernel

/-- A program of 16 jumps to the next instruction; a store of zeros is a program that halts at once. -/
def jumps : Tab (BitVec 32) := (List.range 16).map (fun i => (7 * 4096 + i, 0x40010000))

theorem wit_Courses_parse :
    (parsing State.reset 7 0 = none ∧ (∀ st ∈ [[], jumps], parsing (parsingIt (inPkt 0 0) st State.reset) 7 0 = some (5, inPkt 0 0))) ∧
    (parsePkt (parsingIt (inPkt 0 0) [] State.reset) 7 (inPkt 0 0)).reason = 0 ∧
    (parsePkt (parsingIt (inPkt 0 0) jumps State.reset) 7 (inPkt 0 0)).reason = rsBudget ∧
    orderOf (parsingIt (inPkt 0 0) [] State.reset) 7 = 5 :: [] := by decide +kernel

/-- An entry that every key matches, visible to every course, at index 8191 of instance 3. -/
def matchAll (s : State) : State := modCls (fun c => { c with ent := [(3 * 8192 + 8191, { control := 1 })] }) s

theorem wit_Courses_search :
    (orderOf State.reset 7 = [] ∧ pktOf (parsingIt (inPkt 1 0) [] State.reset) 5 = some (inPkt 1 0) ∧ (inPkt 1 0).phase = 1 ∧ (inPkt 2 0).phase = 2 ∧
      (inPkt 2 0).complete = true ∧ (inPkt 1 0).parseReason = 0 ∧ fenced (parsingIt (inPkt 1 0) [] State.reset) (inPkt 1 0) = false ∧
      fenced (modCls (fun c => { c with fence := true }) (modFab (fun f => { f with
        pkts := f.pkts ++ [(6, { inPkt 1 0 with course := 1 })], order := [(7, [5, 6])] }) (parsingIt (inPkt 1 0) [] State.reset))) (inPkt 1 0) = true) ∧
    clsSearch State.reset 3 0 0 = none ∧ (clsSearch (matchAll State.reset) 3 0 0).map (·.1) = some 8191 ∧
    olderPending State.reset = false ∧ (modCls (fun c => { c with fence := true }) State.reset).cls.fence = true := by decide +kernel

/-- A commit that waits for its boundary, or for the older course. -/
def commit0 (w : Bool) : Commit := { time := none, acceptedAt := 0, fenced := true, seq := 0, waiting := w }

/-- A commit that is due, with the slot prepared. -/
def committing (w : Bool) : State := modCls (fun c => { c with slotCopied := true, commit := some (commit0 w) }) (atNs 128 State.reset)

theorem wit_Courses_commit :
    (State.reset.cls.commit = none ∧ State.reset.led.restart = none ∧ State.reset.cls.older = none ∧ State.reset.cls.slotCopied = false ∧
      State.reset.cls.sweep = false ∧ State.reset.cls.vals = [] ∧ State.reset.clk.frozen = none) ∧
    (∀ n ∈ [0, 65536], reached (commitBoundary { commit0 false with acceptedAt := 1 } (atNs n State.reset)) (atNs n State.reset) = decide (n ≠ 0)) ∧
    (∀ w ∈ [true, false], (nextDue (committing w)).map (fun e => decide (e.act = .commit)) = some true ∧ commitReady (committing w) = true ∧
      (committing w).cls.older = none ∧ (committing w).cls.commit = some (commit0 w)) ∧
    (nextDue (modCls (fun c => { c with older := some 0 }) (committing false))).map (fun e => decide (e.act = .commit)) = some true ∧
    (nextDue (modDbg (fun d => { d with swapAt := some (0, 0) }) (modCls (fun c => { c with commit := some { commit0 false with acceptedAt := 64 } })
      (atNs 128 (committing false))))).map (fun e => decide (e.act = .commit)) = some false ∧
    commitReady State.reset = false := by decide +kernel

/-! ### Witnesses: transit forwarding -/

/-- The packet of the witnesses as pipeline 7 forwards it: bridged, routed IPv4, or routed ZMT. -/
def fwdPkt (l3t : Nat) (z : Bool) (ttl : Nat) : Pkt :=
  { inPkt 3 (l3t * 2 ^ 33 + b2n z * 2 ^ 36 + 14 * 2 ^ 12) with
    bytes := List.replicate 12 0 ++ [8, 0] ++ List.replicate 8 7 ++ [BitVec.ofNat 8 ttl] ++ List.replicate 37 7, key := List.replicate 80 0 }
def forwarding (p : Pkt) : State := parsingIt p [] State.reset
/-- A learn table entry of VID 0 and MAC 0 for sub-port 15, and a route of length 1. -/
def learnt (s : State) : State :=
  modFwd (fun f => { f with lt := [(4 * ltBucket s 0 0, (0x1000000000000000, 0xF))] }) s

theorem wit_Transit_packets :
    (forwarding (inPkt 0 0)).fab.pkts.find? (fun e => decide (e.2.sp / 2 = 7) && decide (e.2.phase = 3)) = none ∧
    (∀ p ∈ [fwdPkt 0 false 9, fwdPkt 1 false 1, fwdPkt 1 false 2, fwdPkt 2 true 2],
      (forwarding p).fab.pkts.find? (fun e => decide (e.2.sp / 2 = 7) && decide (e.2.phase = 3)) = some (5, p) ∧
      pktOf (forwarding p) 5 = some p ∧ headerHere p = true ∧ p.complete = true) ∧
    ((fwdPkt 0 false 9).l3t = 0 ∧ (fwdPkt 1 false 1).l3t = 1 ∧ (fwdPkt 1 false 1).ttl ≤ 1 ∧ 2 ≤ (fwdPkt 1 false 2).ttl ∧ (fwdPkt 1 false 2).zmt = false ∧
      (fwdPkt 2 true 2).zmt = true ∧ headerHere { fwdPkt 1 false 2 with complete := false, bytes := List.replicate 33 0 } = false) := by
  decide +kernel

/-- An IPv4 route of length 32 that its filter and its length's table name. -/
def routed : State :=
  let s := modFwd (fun f => { f with lcfg := [(32, 0x200000)], filt := [(0, BitVec.ofNat 129 (2 ^ 32))] }) State.reset
  modFwd (fun f => { f with lpm := (bucketSlots (lpmBucket s 0 32 9)).take 1 |>.map (fun i => (i, { pfx := BitVec.ofNat 128 (maskPfx 0 9 32), w2 := 0x80007, v := true })) }) s

theorem wit_Transit_tables :
    (ltFind (forwarding (fwdPkt 0 false 9)) 0 0 = none ∧ (ltFind (learnt (forwarding (fwdPkt 0 false 9))) 0 0).isSome = true ∧
      ltSp (0x1000000000000000, 0xF) = 15 ∧ admitPlace (learnt (forwarding (fwdPkt 0 false 9))) 15 0 (fwdPkt 0 false 9) = 0) ∧
    ((lpmRoute 7 0 0 State.reset).1 = none ∧ (lpmRoute 7 0 0 (modFwd (fun f => { f with def4 := 0x4001 }) State.reset)).1 = some 1 ∧
      (lpmLookup routed 0 9).1.isSome = true ∧ (lpmLookup routed 0 9).2.1 = false) ∧
    (cfgB (setEnt 0x6507 1 1 1 State.reset) 0x6507 1 = true ∧ missFor State.reset 7 0 = false ∧ (missesOf State.reset 7).length < 256 ∧
      etFind State.reset 0 = none ∧ metaRoom State.reset .endpoints 0 = true ∧ metaPending State.reset .endpoints 9 7 = false ∧
      (modFwd (fun f => { f with misses := [(7, 9, [5])] }) State.reset).fwd.misses.find? (fun m => decide (m.1 = 7 ∧ m.2.1 = 9)) = some (7, 9, [5])) := by
  decide +kernel

/-- A bridged packet to a group address, with its entry static or not. -/
def toGroup (static : Bool) : State :=
  modFwd (fun f => { f with lt := [(4 * ltBucket State.reset 0 (2 ^ 40), (BitVec.ofNat 64 (2 ^ 60 + 2 ^ 40 + b2n static * 2 ^ 61), 0xF))] })
    (forwarding { fwdPkt 0 false 9 with bytes := 1 :: List.replicate 63 0 })

theorem wit_Transit_group : frameDa (1 :: List.replicate 63 (0 : Byte)) = 2 ^ 40 ∧ bit (2 ^ 40) 40 = true ∧
    (∀ b ∈ [true, false], (ltFind (toGroup b) 0 (2 ^ 40)).map (fun i => ltStatic (ltSlot (toGroup b) i)) = some b) := by decide +kernel

theorem wit_Transit_commands :
    (State.reset.fwd.learnQ = [] ∧ (bucketSlots (ltBucket State.reset 0 0)).find? (fun i => !ltV (ltSlot State.reset i)) =
      some (4 * ltBucket State.reset 0 0) ∧ ltStatic (0x1000000000000000, 0xF) = false) ∧
    (cfgB State.reset 0x6020 1 = decide (cfg State.reset 0x6020 1 ≠ 0) ∧ cfgB (setEnt 0x6020 1 1 0 State.reset) 0x6020 1 = false ∧
      cfgB (setEnt 0x6020 1 1 1 State.reset) 0x6020 1 = true ∧ State.reset.clk.frozen = none ∧
      now State.reset / 1048576 < State.reset.fwd.lastSweep + State.reset.fwd.ageTicks ∧
      State.reset.fwd.lastSweep + State.reset.fwd.ageTicks ≤ now (atNs 1048576 State.reset) / 1048576) ∧
    (∀ lt, fwdKeySlot State.reset lt 0 = none) ∧ (fwdKeySlot (learnt State.reset) true 0).isSome = true ∧
    (bucketSlots (etBucket State.reset 0)).find? (fun i => !etV (etSlot State.reset i)) = some (4 * etBucket State.reset 0) := by
  decide +kernel

/-! ### Witnesses: ZMT transport -/

/-- A ZMT frame over IPv4 of operation `op`, version `ver`, from endpoint 9, with `n` bytes of payload. -/
def zraw (ver op n : Nat) : Bytes :=
  List.replicate 12 0 ++ [8, 0, 0x45] ++ List.replicate 23 0 ++ natBE 2 (48 + n) ++ [0, 0] ++ natBE 1 (ver * 16 + op) ++ [0] ++ natBE 2 n ++
    natBE 4 9 ++ List.replicate 32 0 ++ List.replicate n 1
def zin (ver op n : Nat) : ZIn := { id := 1, bytes := zraw ver op n, hofs := 42, tc := 0 }
/-- Endpoint 9 has record 3 at slice 7. -/
def peer9 (p : Peer) (s : State) : State := modZmt (fun z => { z with peers := [(3, p)] }) s
def p9 : Peer := { ep := 9, slice := 7 }
def arriving (z : ZIn) (s : State) : State := modZmt (fun x => { x with inq := [(7, [z])] }) s

theorem wit_Targets_packets : inqOf State.reset 7 = [] ∧ (∀ z ∈ [zin 2 1 8], feedSlice 7 (arriving z State.reset) = arriving z State.reset) ∧
    (∀ z ∈ [zin 2 0 0, zin 2 15 0, zin 1 7 8, zin 2 11 64, zin 2 1 8, zin 2 8 16], inqOf (arriving z State.reset) 7 = z :: [] ∧
      42 ≤ z.hofs ∧ z.hofs + 40 ≤ z.bytes.length) ∧
    cfgB State.reset 0x7000 0x0A = false ∧
    ((zhdrParse (slice (zin 2 1 8).bytes 42 40)).op = opPut ∧ (zhdrParse (slice (zin 2 15 0).bytes 42 40)).op = 15 ∧
      (zhdrParse (slice (zin 1 7 8).bytes 42 40)).op = opReduce ∧ (zhdrParse (slice (zin 1 7 8).bytes 42 40)).ver ≤ 1 ∧
      (zhdrParse (slice (zin 2 11 64).bytes 42 40)).op = opTime) ∧
    (∀ z ∈ [zin 2 1 8, zin 2 8 16], peerIdx (peer9 p9 State.reset) (zhdrParse (slice z.bytes 42 40)).srcEp = some 3 ∧
      versionRefused State.reset (zhdrParse (slice z.bytes 42 40)) = false ∧
      plenOk { z with hdr := zhdrParse (slice z.bytes 42 40) } (zhdrParse (slice z.bytes 42 40)) = true) ∧
    opSequenced opAck = false ∧ p9.rxBase = BitVec.ofNat 32 (zhdrParse (slice (zin 2 1 8).bytes 42 40)).psn ∧ p9.rxBase ∉ p9.seen ∧
    waitsAt State.reset 9 0 = false ∧ (let z := zin 2 11 64; versionRefused State.reset (zhdrParse (slice z.bytes 42 40)) = false ∧
      plenOk z (zhdrParse (slice z.bytes 42 40)) = true) := by decide +kernel

/-- A packet from endpoint 9 for counter 2 that has passed its checks. -/
def zr (op sub mlen : Nat) (tofs : Nat) (b : Bytes) : ZIn :=
  { id := 1, bytes := [], hofs := 42, tc := 0, body := b,
    hdr := { op := op, sub := sub, mlen := mlen, tofs := tofs, srcEp := 9, ccid := 2, plen := b.length } }
/-- It waits at slice 7; window 5 holds 4,096 bytes of tile store 0 with every right; counter 2 expects 64 bytes. -/
def target (z : ZIn) (a : Nat) : State :=
  modZmt (fun x => { x with peers := [(3, p9)], ready := [(7, [z])], ctr := [(2, { state := 1, target := 64 })],
                            win := [(5, [BitVec.ofNat 64 (0x800F000000000000 + a), 4096, 0, 0])] }) State.reset

theorem wit_Targets_memory :
    (readyOp State.reset 7 opPut = none ∧ readyOp (target (zr opPut 0 8 0 []) 0) 7 opPut = some (zr opPut 0 8 0 []) ∧
      peerIdx (target (zr opPut 0 8 0 []) 0) 9 = some 3 ∧ peerIdx State.reset 9 = none) ∧
    (∀ o ∈ [0, 4088], winCheck (target (zr opPut 0 8 0 []) 0xE000000000) (5 * 2 ^ 48 + o) 8 0 rPut = 0) ∧
    winCheck (target (zr opPut 0 8 0 []) 0xE000000000) (5 * 2 ^ 48 + 4096) 8 0 rPut ≠ 0 ∧ winCheck State.reset 0 8 0 rPut ≠ 0 ∧
    (let s := target (zr opPut 0 8 (5 * 2 ^ 48) (List.replicate 8 1)) 0xE000000000
     ctrPending s 2 = 0 ∧ (ctrOf s 2).state = csArmed ∧ (ctrOf s 2).auto = false ∧ (ctrOf s 2).job = 0 ∧
      (ctrOf s 2).count + 8 < (ctrOf s 2).target ∧ rangeAcc s 8 true (winPasid s 5) 0xE000000000 8 = .ok ∧ isHost 0xE000000000 = false ∧
      bit 0 5 = false ∧ winAddr s (5 * 2 ^ 48) = 0xE000000000 ∧ winAcc s 8 false (5 * 2 ^ 48) 4096 0 rGet = .ok ∧
      poisonedIn s 0xE000000000 4096 = false ∧ winCheck s (5 * 2 ^ 48) 8 0 rAtom = 0) ∧
    (readyOp (target (zr opAtomic 6 8 0 []) 0) 7 opAtomic).isSome = true ∧ (readyOp (target (zr opAtomic 5 8 0 []) 0) 7 opAtomic).isSome = true := by
  decide +kernel

/-- A GET of 8 bytes whose response entry is PSN 0 of record 3. -/
def getting (z : ZIn) : State :=
  modZmt (fun x => { x with peers := [(3, { p9 with resp := [(0, ⟨6, 0, 8⟩)] })], ready := [(7, [z])],
                            msgs := [(6, { ep := 9, op := opGet, n := 8, laddr := 0xE000000000 })],
                            ctr := [(2, { state := 1, target := 64 })] }) State.reset
/-- Message 7 of endpoint 9 has an assembly entry. -/
def asm0 : Asm :=
  { ep := 9, msgId := 7, slice := 7, hdr := {}, src := 0, stage := none, pieces := [], dest := none, trunc := false }
def assembling (z : ZIn) : State :=
  modZmt (fun x => { x with asm := [(4, asm0)], ready := [(7, [z])], peers := [(3, p9)] }) State.reset

theorem wit_Targets_messages :
    ((peerOf (getting (zr opGetr 0 8 0 (List.replicate 8 1))) 3).bind (fun p => tfind p.resp 0) = some ⟨6, 0, 8⟩ ∧
      (zmsgOf (getting (zr opGetr 0 8 0 (List.replicate 8 1))) 6).isSome = true ∧
      (peerOf (target (zr opGetr 0 8 0 []) 0) 3).bind (fun p => tfind p.resp 0) = none) ∧
    ((asmFind (assembling { zr opSend 0 8 0 [] with hdr := { op := opSend, srcEp := 9, msgId := 7 } }) 9 7).map (·.1) = some 4 ∧
      asmFind State.reset 9 7 = none) ∧
    ((slotOf (withSlot 15 { armed := some (0, 2) } State.reset) 0 15).armed = some (0, 2) ∧
      ctrCheck (target (zr opReduce 0 8 0xF []) 0) 2 0 64 8 = 0) ∧
    (respPaced (target (zr opGet 0 8 0 []) 0) 3 8 = true ∧
      respPaced (modZmt (fun x => { x with peers := [(3, { p9 with rate := 1, bucket := 0 })] }) State.reset) 3 8 = false) ∧
    (readyOp (target (zr opAck 0 0 0 (List.replicate 16 0)) 0) 7 opAck).isSome = true ∧ (p9.txNext - (0 : BitVec 32)).toNat < 2 ^ 31 ∧
    (∀ op ∈ [opNack, opCredit, opMgmt, opFin, opReduce, opSend], (readyOp (target (zr op 0x11 0 0 []) 0) 7 op).isSome = true) := by decide +kernel

theorem placeResp_wit : ∃ s1, placeResp 7 (zr opGetr 0 8 0 (List.replicate 8 1)) { ep := 9, op := opGet, n := 8, laddr := 0xE000000000 } ⟨6, 0, 8⟩
    (List.replicate 8 1) (getting (zr opGetr 0 8 0 (List.replicate 8 1))) = .done s1 := ⟨_, rfl⟩

theorem wit_Targets_answers :
    (peerIdx State.reset (9 : BitVec 32).toNat = none ∧ peerIdx (peer9 p9 State.reset) (9 : BitVec 32).toNat = some 3 ∧ p9.ackAt = none) ∧
    (∀ n ∈ [0, 65536], reached (expiryAt 0 (0 + cfg State.reset 0x7100 7) 0) (atNs n (peer9 { p9 with ackAt := some 0 } State.reset)) = decide (n ≠ 0)) ∧
    (withheld (peer9 p9 State.reset) p9 = false ∧
      withheld (modCop 11 (fun u => { u with dep := [⟨0, 0, 0, [], 8, 7, 2, 9, 8, 0⟩] }) State.reset) p9 = true) ∧
    (p9.givenR - p9.toldR).toNat < 16 ∧ 16 ≤ ((16 : BitVec 32) - p9.toldR).toNat ∧
    (State.reset.mat.done.find? (fun d => decide (d.1 = 7)) = none ∧
      (modMat (fun m => { m with done := [(7, 0, none)] }) State.reset).mat.done.find? (fun d => decide (d.1 = 7)) = some (7, 0, none) ∧
      asmOf State.reset 0 = none ∧ rangeAcc State.reset (xasmId 4) false 0 0xE000000000 32 = .ok) := by decide +kernel

/-- No counter without ACT 2 is blocked, whatever slice makes its brick. -/
theorem wit_Senders_deadline (ts : Nat) : ctrBlocked State.reset ts 5 0 = false := by
  simp only [ctrBlocked, Bool.and_eq_false_iff]; exact .inl (by decide)

/-- A PUT of 5,000 bytes to endpoint 9 from tile store 0, or from nowhere. -/
def putting (a : Nat) (p : Peer) : State :=
  modZmt (fun x => { x with peers := [(3, p)], msgs := [(6, { ep := 9, op := opPut, n := 5000, laddr := a, id := 6 })] }) State.reset
/-- A packet in flight, sent `n` times. -/
def out0 (n : Nat) (due : Bool) : ZOut :=
  { psn := 0, msg := 6, hdr := {}, src := .lit [], tc := 0, first := 0, sends := n, armed := 0, dur := 16384, charge := 0, acked := false, due := due }

theorem wit_Senders_packets :
    (toSend State.reset 9 = [] ∧ toSend (putting 0xE000000000 p9) 9 ≠ [] ∧
      ((pickMsg (putting 0xE000000000 p9) p9 (toSend (putting 0xE000000000 p9) 9)).map (·.1) = some 6) ∧
      pickMsg (putting 0 p9) { p9 with txNext := 4096 } (toSend (putting 0 p9) 9) = none) ∧
    (srcAcc (putting 0xE000000000 p9) 6 (.mem 0xE000000000 4096 0) = .ok ∧ (∃ c, srcAcc (putting 0x2A00000000 p9) 6 (.mem 0x2A00000000 8 0) = .fail c) ∧
      mayPace State.reset p9 4182 = true ∧ mayPace State.reset { p9 with rate := 100, bucket := 0 } 4182 = false) ∧
    ((peerOf (peer9 { p9 with outs := [out0 16 true] } State.reset) 3).bind (fun p => p.outs.find? (fun o => decide (o.psn = 0))) = some (out0 16 true) ∧
      (∀ n ∈ [0, 2 ^ 60], reached (expiryAt (rtoList 16384) (0 + 16384) 0) (atNs n State.reset) = decide (n ≠ 0)) ∧
      givenUp (atNs (2 ^ 60) State.reset) (out0 16 true) = true ∧ givenUp (atNs (2 ^ 60) State.reset) (out0 15 true) = false) ∧
    (cfgB State.reset 0x7200 1 = true ∧ (∀ n ∈ [0, 65536], decide (now (atNs n State.reset) < 1 + 2) = decide (n = 0))) := by
  refine ⟨by decide +kernel, ⟨by decide +kernel, ⟨_, rfl⟩, by decide +kernel, by decide +kernel⟩, by decide +kernel, by decide +kernel⟩

/-- Class 1 has a budget of 100 and may run on tile 11, which is enabled. -/
def classed : State := setEnt 0x8402 1 2 0x800 (setEnt 0x8430 2 4 0xFFF0064 State.reset)

/-- The scheduler takes a fallback brick of class 1, and refuses one whose class has no budget, whatever the other words. -/
theorem wit_Senders_fallback (x y : Nat) (u v : W64) :
    (acceptUnitBrick (hwBrick classed 2 1 x y u v) classed).1 = 0 ∧ (acceptUnitBrick (hwBrick State.reset 2 1 x y u v) State.reset).1 ≠ 0 := by
  have h0 (s : State) : bkWord (hwBrick s 2 1 x y u v) 0 = bkWord (hwBrick s 2 1 0 0 0 0) 0 := rfl
  have hc : brickCheck classed (hwBrick classed 2 1 0 0 0 0) false = 0 ∧
      brickRoom classed (classRq classed (bkClass (hwBrick classed 2 1 0 0 0 0))) = true ∧
      brickCheck State.reset (hwBrick State.reset 2 1 0 0 0 0) false ≠ 0 := by decide +kernel
  have e (s : State) : brickCheck s (hwBrick s 2 1 x y u v) false = brickCheck s (hwBrick s 2 1 0 0 0 0) false := rfl
  refine ⟨?_, ?_⟩
  · simp only [acceptUnitBrick, acceptBrick, e, bkClass, h0] at hc ⊢
    simp only [hc.1, hc.2.1, ne_eq, not_true_eq_false, if_false, if_true]
  · simp only [acceptUnitBrick, acceptBrick, e]
    rw [if_pos hc.2.2]; exact hc.2.2

theorem wit_Senders_tables :
    ((ctrOf State.reset 1048575).state = csIdle ∧ (∀ n ∈ [0, 65536], reached (expiryAt 0 1 0) (atNs n State.reset) = decide (n ≠ 0))) ∧
    (zmsgOf State.reset 6 = none ∧ needsFallback State.reset { ep := 9, op := opPut } = false ∧
      needsFallback State.reset { ep := 9, op := opReduce, fin := true } = true) ∧
    (ctrOf State.reset 5).act ≠ 2 ∧ slotWork State.reset 11 15 = false ∧
    slotWork (running 0 (fun x => { x with cpx := [cpx 2 60] })) 0 (cpx 2 60).slot = true ∧
    (tsLegal 0 65535 = true ∧ tsLegal 0 65536 = false ∧ tsLegal 1 1048575 = true ∧ tsLegal 2 191 = true ∧ tsLegal 2 192 = false ∧ tsLegal 3 0 = false) ∧
    (actLegal State.reset 0 0 none = true ∧ actLegal State.reset 4 0 none = false) ∧
    (slotOf State.reset (191 / 16) (191 % 16)).arming = none := by decide +kernel

/-! ### Witnesses: the match engine and the cascade -/

/-- The engine holds the entries `es`. -/
def holds (es : Tab MEnt) (s : State) : State := modMat (fun m => { m with ent := es }) s
/-- A valid entry of the highest row of block 0, and one of the lowest. -/
def ment (p : BitVec 32) : MEnt := { v := true, prio := p, pay := 7 }
def two : State := holds [(0, ment 1), (4095, ment 1)] State.reset
/-- Area 768 asks for `w5` with the key 0, a mask of ones and the payload 7. -/
def asking (w5 : W64) (s : State) : State := modMat (fun m => { m with area := [(768, { w := [0, 0, 0xFFFFFFFFFFFFFFFF, 0xFFFFFFFFFFFFFFFF, 7, w5] })] }) s

theorem tget_listed (j : Nat) : ∀ es : Tab MEnt, (tget {} es j).v = true → ∃ e ∈ es, e.1 = j
  | [], h => by cases h
  | (a, b) :: t, h => by
    by_cases ha : a = j
    · exact ⟨(a, b), List.mem_cons_self, ha⟩
    · have h1 : tfind ((a, b) :: t) j = tfind t j := if_neg ha
      have h2 : (tget {} t j).v = true := by rw [tget, h1] at h; exact h
      obtain ⟨e, he, hj⟩ := tget_listed j t h2
      exact ⟨e, List.mem_cons_of_mem _ he, hj⟩

theorem match_only {s : State} {k : BitVec 128} {f : Nat → Option (BitVec 128)} {j : Nat} (hm : Matching s k f j) :
    ∃ e ∈ s.mat.ent, e.1 = j := tget_listed j _ hm.1

/-- A request area is busy or not; what searches find in an empty engine and in one with two entries. -/
theorem wit_MatchRequests_area :
    (mArea (modMat (fun m => { m with area := [(768, { busy := true })] }) State.reset) 768).busy = true ∧
    (mArea State.reset 768).busy = false ∧ State.reset.mat.renum = false ∧
    (∀ n ∈ [1, 2, 3, 4, 5, 6, 8], mCascaded State.reset (areaReq State.reset 768 (opWord n 0x3FF00)) = false) ∧
    mCascaded (modMat (fun m => { m with cstate := 2 }) (asking 0 State.reset))
      (areaReq (asking 0 State.reset) 768 (opWord 2 0)) = true := by decide +kernel

theorem wit_MatchRequests_search :
    (∀ k f j, ¬Matching State.reset k f j) ∧
    Wins two 0 arriveMask 0 ∧ MultOf two 0 arriveMask 0 true ∧ DupOf two 0 arriveMask 0 true := by
  have hm : ∀ j, j = 0 ∨ j = 4095 → Matching two 0 arriveMask j := by
    rintro j (rfl | rfl)
    · exact ⟨by decide +kernel, clsMask 0, by decide +kernel, by decide +kernel⟩
    · exact ⟨by decide +kernel, clsMask 0, by decide +kernel, by decide +kernel⟩
  have h2 : ∀ j, Matching two 0 arriveMask j → j = 0 ∨ j = 4095 := by
    intro j hj
    obtain ⟨e, he, rfl⟩ := match_only hj
    have he : e ∈ [(0, ment 1), (4095, ment 1)] := he
    simp only [List.mem_cons, List.not_mem_nil, or_false] at he
    rcases he with rfl | rfl
    · exact .inl rfl
    · exact .inr rfl
  refine ⟨fun k f j h => ?_, ⟨hm 0 (.inl rfl), fun j hj hne => ?_⟩, ⟨fun _ => ⟨4095, by decide, hm _ (.inr rfl)⟩, fun _ => rfl⟩,
    ⟨fun _ => ⟨4095, by decide, hm _ (.inr rfl), by decide +kernel⟩, fun _ => rfl⟩⟩
  · obtain ⟨e, he, _⟩ := match_only h; cases he
  · rcases h2 j hj with rfl | rfl
    · exact absurd rfl hne
    · exact .inr ⟨by decide +kernel, by decide⟩

/-- Rows for an insert of class 0: the lowest row of the block with most room; no block of class 7; a PRIO too far ahead. -/
theorem wit_MatchRequests_entries :
    mPlace (holds [(0, ment 1)] State.reset) 0 5 false = (0, 4096) ∧ (mPlace State.reset 7 5 false).1 ≠ 0 ∧ (mPlace State.reset 0 0x80000000 false).1 ≠ 0 ∧
    ((areaReq (asking (BitVec.ofNat 64 (4095 * 2 ^ 32)) two) 768 (opWord 3 0)).index = 4095 ∧
      (areaReq (asking (BitVec.ofNat 64 (4095 * 2 ^ 32)) two) 768 (opWord 3 0)).tcpos = ownPos two ∧ (mEnt two 4095).v = true ∧ (mEnt two 4095).pay = 7 ∧
      (areaReq (asking (BitVec.ofNat 64 (3 * 2 ^ 48)) two) 768 (opWord 8 0)).tcpos ≠ ownPos two) ∧
    ownHandle State.reset 63 0xC000 = none ∧ freeHandle State.reset = some 0 ∧
    ownHandle (modMat (fun m => { m with handle := [(16, ⟨0xC000, true, []⟩)] }) two) 16 0xC000 = none ∧
    (∀ l ∈ [[], [4095]], ownHandle (modMat (fun m => { m with handle := [(63, ⟨0xC000, false, l⟩)] }) two) 63 0xC000 = some ⟨0xC000, false, l⟩ ∧
      (areaReq (asking (BitVec.ofNat 64 (63 * 2 ^ 50)) two) 768 (opWord 4 0)).handle = 63 ∧
      (areaReq (asking (BitVec.ofNat 64 (63 * 2 ^ 50)) two) 768 (opWord 4 0)).master = 0xC000) ∧
    (areaReq State.reset 768 (opWord 6 0x40)).wc = 4 ∧ (areaReq State.reset 768 (opWord 6 0)).wc ≤ 3 := by decide +kernel

/-- An issued ARRIVE of slice 7, and one that slice 7 holds for peer 3. -/
def arr7 : MReq := { who := .slice 7, op := 7, pay := 9 }
def held7 (m : BitVec 32) (late : Bool) : HeldArr := { ts := 7, peer := 3, mseq := m, key := 0, record := 9, since := 0, late := late }

theorem wit_MatchSequencer :
    (State.reset.mat.arrq = [] ∧ (modMat (fun m => { m with arrq := [arr7] }) two).mat.arrq = arr7 :: [] ∧ arr7.who = .slice 7 ∧ arr7.op = 7 ∧
      mCascaded two arr7 = false ∧ (mPlace (modMat (fun m => { m with arrq := [] }) State.reset) 4 0 true).1 = 0) ∧
    (c4Free State.reset ≠ 0 ∧ expOf State.reset 7 3 = 0 ∧ (held7 0 false).mseq = 0 ∧ (held7 1 true).late = true ∧ (held7 1 false).mseq ≠ 0 ∧
      (modMat (fun m => { m with held := [held7 1 false] }) State.reset).mat.held = [held7 1 false] ∧
      c4Free (setEnt 0x8C01 1 6 0 State.reset) = 0) ∧
    (∀ n ∈ [0, 2 ^ 50], reached (expiryAt 2 (0 + 1048576 * cfg State.reset 0x8C01 2) 0) (atNs n State.reset) = decide (n ≠ 0)) ∧
    ((modMat (fun m => { m with renum := true }) two).mat.renum = true ∧ two.mat.ops = [] ∧ two.mat.wait = [] ∧ two.mat.ent.length + 196608 < 2 ^ 32) := by
  decide +kernel

/-- The device is member 0 of a cascade of four with member 3. -/
def joined (s : State) : State := modMat (fun m => { m with cstate := 3, present := 9, heard := [(3, 0)] }) s
def mem3 : CMember := ⟨3, 0xF, 0, 0, 0, 0, 0, 0⟩
/-- An operation in which members 0 and 3 have a match. -/
def cop (h : Bool) : COp :=
  { round := 1, pos := 0, ord := 0, req := arr7, searched := true, res := [(0, { hit := h, d := 5 }), (3, { hit := h, d := 5 })] }

theorem wit_CascadeRounds_members :
    (cfgB State.reset 0x8C02 1 = false ∧ cfgB (setEnt 0x8C02 1 1 1 State.reset) 0x8C02 1 = true ∧ State.reset.dbg.phase < 5 ∧
      5 ≤ (modDbg (fun d => { d with phase := 5 }) State.reset).dbg.phase) ∧
    (∀ s ∈ [setEnt 0x8C02 2 1 9 State.reset], ownPos s = 0 ∧ (∀ x ∈ [(⟨3, 9, 0, 0, 0, 0, 0, 0⟩ : CMember)], x.pos ≠ ownPos s ∧ x.mask = bf (cfg s 0x8C02 2) 0 4 ∧
      x.value.toNat = cfg s 0x8C02 3 ∧ x.sel.toNat = cfg s 0x8C02 4) ∧ mem3.mask ≠ bf (cfg s 0x8C02 2) 0 4) ∧
    (cascJoined State.reset = false ∧ cascJoined (joined State.reset) = true ∧ bit (joined State.reset).mat.present 3 = true ∧
      bit (joined State.reset).mat.present 1 = false ∧ tfind (joined State.reset).mat.heard 3 = some 0 ∧ tfind (joined State.reset).mat.heard 1 = none ∧
      (∀ n ∈ [0, 2 ^ 50], reached (expiryAt 1 (0 + 1024 * cfg State.reset 0x8C02 5) 0) (atNs n State.reset) = decide (n ≠ 0))) := by
  decide +kernel

theorem wit_CascadeRounds_rounds :
    ((joined State.reset).mat.ops = [] ∧ (joined State.reset).mat.out = [] ∧ 1 < (clocksAt 2 (joined State.reset)).dbg.fstate ∧
      presentList (modMat (fun m => { m with cstate := 3, present := 1 }) State.reset) = [ownPos State.reset]) ∧
    ((cascWinner (joined State.reset) (cop true)).map (·.1) = some 0 ∧ cascWinner (joined State.reset) (cop false) = none ∧
      consumes arr7 = true ∧ takesOseq arr7 = true ∧ (tfind (cop false).res 0).map (·.room) = some 0) ∧
    (joined State.reset).mat.round.toNat < (1 : BitVec 32).toNat ∧ clocked (joined State.reset) = true ∧ clocked (clocksAt 2 (joined State.reset)) = false ∧
    (joined State.reset).mat.ahead = [] ∧ tget 0 (joined State.reset).mat.heardRound 3 = 0 ∧
    heardOf (joined State.reset) 3 0 = true ∧ heardOf (joined State.reset) 3 1 = false ∧ heardOf (joined State.reset) 3 2 = false ∧
    mD State.reset State.reset.mat.oseq < 2 ^ 31 ∧ 2 ^ 31 ≤ mD (modMat (fun m => { m with base := 1 }) State.reset) State.reset.mat.oseq := by
  decide +kernel

/-- 12_match.md, R416: a frame that comes twice gives its records once; one a round early waits. -/
theorem test_cascade_twice :
    (let f := fun r s => match execCascadeFrameReceive 3 r [recOf arr7] [] true s with | .next t => t | _ => s
     let s1 := f 1 (joined State.reset)
     let s2 := f 1 s1
     let s3 := f 3 s2
     s1.mat.ops.length = 1 ∧ s2.mat.ops = s1.mat.ops ∧ s3.mat.ops.length = 2 ∧ tget 0 s3.mat.heardRound 3 = 1 ∧ s3.mat.ahead = [(3, 3)]) := by
  decide +kernel

/-! ### Witnesses: buffers -/

/-- Pool 63 of 64 buffers of 4,096 bytes at HBM address 1,000,000h, numbered from 128. -/
def pool63 (st : Nat) (fifo : List Nat) : Pool :=
  { cls := 2, gshift := 12, clrf := true, state := BitVec.ofNat 2 st, first := 128, count := 64, base := 0x1000000, fifo := fifo }
def withPool (x : Pool) (recs : Tab W64) : State := modBufs (fun b => { b with pool := [(63, x)], recs := recs }) State.reset

theorem wit_BufferPools_alloc :
    (chainAlloc [] 1 2 State.reset).isSome = true ∧
    (∀ st ∈ [0, 1, 2], (poolOf (withPool (pool63 st []) []) 63).state = BitVec.ofNat 2 st) ∧
    ((poolOf (withPool (pool63 1 [191]) []) 63).fifo = 191 :: [] ∧ (poolOf (withPool (pool63 1 []) []) 63).fifo = [] ∧
      poolHas (withPool (pool63 1 []) []) 63 = true ∧
      poolHas (withPool { pool63 1 [] with count := 1 } [(128, recNew 0 0)]) 63 = false) ∧
    ((thr (running 0 (fun x => { x with brick := some words0, hold := .unit (unitLd (0xF013800000 + 8 * 63)) })) 0).hold =
      .unit (unitLd (0xF013800000 + 8 * 63)) ∧ (unitLd (0xF013800000 + 8 * 63)).ea = 0xF013800000 + 8 * 63) := by decide +kernel

/-- Pool 0 with one chain of `n` bytes; with 393,216 cells in use it has no free cell. -/
def chained (n : Nat) : State := modBufs (fun b => { b with chain := [(0, { bytes := List.replicate n 0, ref := 0 })] }) State.reset

theorem chained_full (n : Nat) (h : 393216 ≤ (n + 255) / 256) : chainAlloc [] 0 0 (chained n) = none := by
  have h1 : 393216 ≤ poolAlloc (chained n) 0 := by
    show 393216 ≤ max 1 (((List.replicate n (0 : Byte)).length + 255) / 256) + 0 + _
    rw [List.length_replicate]; omega
  have h2 : 1 ≤ Chain.cells { bytes := [], ref := recNew 0 0 } := by decide
  unfold chainAlloc
  rw [if_neg (by omega)]

theorem wit_BufferPools_full : chainAlloc [] 0 0 (chained (256 * 393216)) = none := chained_full _ (by decide)

theorem wit_BufferPools_records :
    (∀ k ∈ [1, 2, 65535],
      bufAt (withPool (pool63 1 []) [(191, recSetRef k (recNew 0 0))]) 0x103FFFF = .buf 63 191 ∧
      bufRec (withPool (pool63 1 []) [(191, recSetRef k (recNew 0 0))]) (.buf 63 191) = recSetRef k (recNew 0 0) ∧
      recQuar (recSetRef k (recNew 0 0)) = false ∧ recAlloc (recSetRef k (recNew 0 0)) = true ∧ recSat (recSetRef k (recNew 0 0)) = false) ∧
    (recRef (recNew 0 0) ≤ 1 ∧ 2 ≤ recRef (recSetRef 2 (recNew 0 0)) ∧ recRef (recSetRef 65535 (recNew 0 0)) = 65535) ∧
    bufAt (withPool (pool63 1 []) []) 0x1040000 = .none ∧ recAlloc (bufRec (withPool (pool63 1 []) []) (.buf 63 128)) = false ∧
    recQuar 0x40000 = true ∧ recSat (0x20000 ||| recNew 0 0) = true ∧ (∃ c, bufAt State.reset 0xFF0000000000 = .cell c) := by
  refine ⟨?_, ?_, ?_, ?_, ?_, ?_, ⟨0, ?_⟩⟩ <;> decide +kernel

theorem wit_BufferPools_refill :
    32 < (pool63 1 (List.range 33)).fifo.length ∧ (pool63 1 (List.range 32)).fifo.length ≤ 32 ∧
    (poolOf (withPool { pool63 1 [] with wait := [(3, 7, 1, 2)] } []) 63).wait = [(3, 7, 1, 2)] ∧
    (∀ n ∈ [0, 2 ^ 50], reached (expiryAt 2 (0 + 2 ^ 20 * cfg State.reset 0x9020 1) 0) (atNs n (withPool (pool63 2 []) [])) = decide (n ≠ 0)) ∧
    (withPool (pool63 2 []) []).hbm.retire = [] ∧ poolRecs (withPool (pool63 2 []) []) 63 recAlloc = [] ∧
    poolRecs (withPool (pool63 2 []) [(191, recNew 0 0)]) 63 recAlloc = [191] ∧ recOcls (recNew 0 0) = 0 ∧
    (withPool (pool63 2 []) []).fab.pkts = [] := by decide +kernel

/-- No pseudo-channel has failed at reset; with every one failed, every record is lost. -/
theorem wit_BufferPools_failed :
    (∀ it a, stripeFailed State.reset it a = false) ∧
    stripeFailed (modHbm (fun h => { h with pc := (List.range 32).map (fun k => (k, { failed := true })) }) State.reset) .references 1528 = true := by
  refine ⟨fun it a => rfl, ?_⟩
  have h : ∀ x : Fin 32, (hbmPc (modHbm (fun h => { h with pc := (List.range 32).map (fun k => (k, { failed := true })) }) State.reset)
      (32 * 0 + x.val)).failed = true := by decide +kernel
  exact h ⟨Config.metaPlace _ _ % 32, Nat.mod_lt _ (by decide)⟩

/-! ### Witnesses: the HBM controllers -/

/-- Every stack is ACTIVE and pseudo-channel 127 is `x`. -/
def hbmOn (x : HbmPc) : State :=
  modHbm (fun h => { h with state := [(0, 2), (1, 2), (2, 2), (3, 2)], pc := [(127, x)] }) State.reset
/-- A request for the block at `a`. -/
def hreq (w : Bool) (a since : Nat) (issued : Bool) : HbmReq :=
  { tag := 1, block := a, place := hbmPlace 0 a, write := w, mask := BitVec.allOnes 64, data := List.replicate 64 0, tags := List.replicate 8 0, prio := 3, since := since,
    merged := false, forwarded := false, issued := issued }

theorem wit_Hbm_requests :
    (hbmServes State.reset 127 = false ∧ hbmServes (hbmOn {}) 127 = true ∧ (hbmPc (hbmOn { failed := true }) 127).failed = true ∧
      48 ≤ (hbmPc (hbmOn { wq := List.replicate 48 (hreq true 0 0 false) }) 127).wq.length ∧
      (hbmPc (hbmOn { wq := List.replicate 47 (hreq true 0 0 false) }) 127).wq.length < 48 ∧
      64 ≤ (hbmPc (hbmOn { rq := List.replicate 64 (hreq false 0 0 false) }) 127).rq.length ∧
      (hbmPc (hbmOn { rq := List.replicate 63 (hreq false 0 0 false) }) 127).rq.length < 64) ∧
    (queuedMask (hbmPc (hbmOn { wq := [hreq true 64 0 false] }) 127) 64 &&& 5 = 5 ∧ (5 : BitVec 64) ≠ 0 ∧
      queuedMask (hbmPc (hbmOn {}) 127) 64 &&& 5 ≠ 5) ∧
    (32 * (hbmPlace 0 0x29FFFFFFC0).stack + (hbmPlace 0 0x29FFFFFFC0).pc = 127 ∧ 0x29FFFFFFC0 = 64 * (2818572287 : Fin 2818572288).val) := by
  decide +kernel

theorem wit_Hbm_commands :
    (∀ x ∈ [({ refresh := [(63, 8)] } : HbmPc), { refresh := [(63, 8)], bank := [(63, { row := some 5 })] }],
      x.refresh.find? (fun e => decide (8 ≤ e.2)) = some (63, 8)) ∧
    (hbmChoose (hbmOn {}) 3 { refresh := [(63, 1)] } = none ∧ ({ refresh := [(63, 1)] } : HbmPc).refresh.find? (fun e => decide (8 ≤ e.2)) = none ∧
      ({ refresh := [(63, 1)] } : HbmPc).refresh.head? = some (63, 1)) ∧
    (hbmChoose (hbmOn {}) 3 { rq := [hreq false 0x29FFFFFFC0 0 false] } = some (hreq false 0x29FFFFFFC0 0 false, false) ∧
      hbmChoose (atNs (2 ^ 40) (hbmOn {})) 3 { rq := [hreq false 0x29FFFFFFC0 0 false] } = some (hreq false 0x29FFFFFFC0 0 false, true)) ∧
    (2 ≤ (({ row := some 5 } : HbmBank).predict 5) ∧ ¬2 ≤ (({ row := some 5, pred := 1 } : HbmBank).predict 5)) ∧
    (hreq true 0x29FFFFFFC0 0 false ∉ ({ wq := [hreq true 0x29FFFFFFC0 0 false] } : HbmPc).side ∧
      hbmChoose (hbmOn {}) 3 { side := [tagReq 3 0 false State.reset] } = some (tagReq 3 0 false State.reset, false)) ∧
    ([hreq false 64 0 true].find? (fun q => q.issued && tagHere {} q) = some (hreq false 64 0 true) ∧ (hreq false 64 0 true).kind ≠ 2 ∧
      (metaReq 3 .windows 7 false 5 State.reset).kind = 2 ∧ ([] : List HbmReq).find? (fun q => q.issued && tagHere {} q) = none ∧
      [hreq false 64 0 true].find? (fun q => q.issued && tagHere { side := [tagReq 0 (tagLine (hbmPlace 0 64)) false State.reset] } q) = none ∧
      64 % 64 = 0 ∧ hbmFailed State.reset 64 = false) := by decide +kernel

theorem wit_Hbm_upkeep :
    ((hbmBank (hbmPc (hbmOn { bank := [(63, { row := some 5 })] }) 127) 63).row = some 5 ∧
      (∀ n ∈ [0, 2 ^ 40], hclkPassed (atNs n State.reset) 0 (hbmCfg State.reset 3 1) = decide (n ≠ 0) ∧
        hclkPassed (atNs n State.reset) 0 (hbmCfg State.reset 3 2) = decide (n ≠ 0))) ∧
    (({ pd := true } : HbmPc).pd = true ∧ ({} : HbmPc).rq = [] ∧ ({} : HbmPc).wq = [] ∧ ({} : HbmPc).side = [] ∧ ({} : HbmPc).refresh = [] ∧ ({ tries := 2 } : HbmPc).tries < 3 ∧
      3 ≤ ({ tries := 3 } : HbmPc).tries) ∧
    ((∀ e ∈ State.reset.hbm.retire, e.2 ≠ 1) ∧ (modHbm (fun h => { h with retire := [(3, 1)] }) State.reset).hbm.retire.find?
        (fun e => decide (e.2 = 1)) = some (3, 1) ∧ (∀ e ∈ State.reset.bufs.pool, e.2.state ≠ 2) ∧ (∀ w ∈ State.reset.hbm.watch, w.1 ≠ 3) ∧
      (∃ e ∈ (withPool (pool63 2 []) []).bufs.pool, e.2.state = 2)) := by decide +kernel

/-- A channel whose 64 repairs are spent has no spare lane left. -/
theorem wit_Hbm_spares : spareLeft (modHbm (fun h => { h with repairs := List.replicate 64 0 }) State.reset) 0 = false := by
  simp [spareLeft, modHbm]

/-- 15_hbm.md, the worked example: the word at byte 784 of data row 9,320 of bank group 3, bank 2, SID 2 has its tag at byte 98
of row 22,669 of bank group 1. -/
theorem test_tag_place : tagBank (2 * 16 + 3 * 4 + 2) = 2 * 16 + 1 * 4 + 2 ∧ tagRow 9320 = 22669 ∧ tagByte 9320 784 = 98 := by decide

/-- Temperatures are read from the DL2 boundary on; the copy of the shorter read queue serves, on a tie stack 1 of 1 and 3. -/
theorem wit_Hbm_copies :
    (State.reset.clk.frozen = none ∧ tget 0 State.reset.hbm.tempAt 3 ≤ fireAt State.reset / 1048576 ∧
      fireAt (modHbm (fun h => { h with tempAt := [(3, 1)] }) State.reset) / 1048576 <
        tget 0 (modHbm (fun h => { h with tempAt := [(3, 1)] }) State.reset).hbm.tempAt 3) ∧
    MetaItem.windows.mirror = some (1, 3) ∧ tagHit State.reset (hbmPlace 0 0) = false := by decide +kernel

theorem wit_Hbm_both : metaCopies (hbmOn {}) .windows 0 = [1, 3] := by
  have h : ∀ x : Fin 32, ∀ k ∈ [1, 3], (hbmServes (hbmOn {}) (32 * k + x.val) && !(hbmPc (hbmOn {}) (32 * k + x.val)).failed) = true := by
    decide +kernel
  have e (k : Nat) (hk : k ∈ [1, 3]) :
      (hbmServes (hbmOn {}) (metaPc k .windows 0) && !(hbmPc (hbmOn {}) (metaPc k .windows 0)).failed) = true :=
    h ⟨Config.metaPlace _ 0 % 32, Nat.mod_lt _ (by decide)⟩ k hk
  exact List.filter_eq_self.mpr e

/-! ### Witnesses: the host -/

/-- Function 0 has quotas of ten queues, 16 vectors and four apertures, and every class of commands. -/
def quotas (s : State) : State :=
  setEnt 0x4400 1 2 10 (setEnt 0x4400 2 2 16 (setEnt 0x4400 3 2 4 (setEnt 0x4400 4 1 255 s)))
/-- Queue 4095 of function 0: ACTIVE, an admin queue, with completion queue 7. -/
def cmq0 : CmQ := { log2 := 4, cpq := 7, admin := true, state := 1 }
def cpq0 : CpQ := { log2 := 4, en := true, n := 2 }
/-- A command of queue 4095 with these words. -/
def hcmd (ws : List W64) : HCmd := { q := 4095, words := ws ++ List.replicate (8 - ws.length) 0, started := false, pos := 0, link := none }
def hostHas (c : HCmd) : State :=
  modHost (fun h => { h with cmq := [(4095, cmq0)], cpq := [(7, cpq0)], cmds := [(1, c)] }) (quotas State.reset)

theorem alone (ws : List W64) (h : cmdStatus (hostHas (hcmd ws)) (hcmd ws) = 0) : CmdAlone (hostHas (hcmd ws)) 4095 1 (hcmd ws) where
  only := rfl
  queue := rfl
  fresh := rfl
  active := rfl
  legal := h

/-- Every command of Table 16-6 alone in its queue, and a command that R529 refuses. -/
theorem wit_HostCommands :
    (∀ ws ∈ [[0], [1, 0, 0, 8], [2, 0x100000000], [2, 0x200000000], [2, 0x400000000], [2, 0x600000000], [2, 0x700000000], [3], [4], [5, 0x3000000],
        [5, 0x4000000], [6], [0x80, 5, 0x1000, 0xE0 + 4], [0x81, 4095], [0x82, 6, 0, 4], [0x83, 7], [0x84, 0x100], [0x85], [0x86, 0, 1, 0, 0x1000000]],
      cmdStatus (hostHas (hcmd ws)) (hcmd ws) = 0) ∧
    cmdStatus (hostHas (hcmd [0x7F])) (hcmd [0x7F]) ≠ 0 ∧ State.reset.host.cmds = [] ∧
    bf ((hcmd [2, 0x100000000]).word 4) 0 32 = 0 ∧ bf ((hcmd [2, 0x100000000, 0, 0, 1]).word 4) 0 32 ≠ 0 ∧
    peerIdx State.reset 5 = none ∧ (peerIdx (peer9 p9 State.reset) 9).isSome = true ∧ wantOpc 0 (hcmd [1]) = false ∧ wantOpc 1 (hcmd [1, 0, 0, 8]) = true ∧ (hcmd [2, 0x700000000]).zop = opReduce ∧ (hcmd [5, 0x4000000]).cop = 4 ∧
    itemLegal (cmdItem (hostHas (hcmd [1, 0, 0, 8])) 1 (hcmd [1, 0, 0, 8])).words = true ∧
    itemLegal (cmdItem (hostHas (hcmd [1])) 1 (hcmd [1])).words = false := by decide +kernel

theorem wit_HostCommands_queues :
    (let s := hostHas (hcmd [0x80, 5, 0x1000, 0xE0 + 4])
     (cmqOf s 5).state = 0 ∧ cmqsOf s 0 < quota s 0 1 ∧ (cpqOf s 7).en = true ∧ (cpqOf s 7).owner = 0 ∧ (cmqOf s 4095).state ≠ 0 ∧
      quota State.reset 0 1 ≤ cmqsOf State.reset 0 ∧ (cpqOf s 6).en = false ∧ cpqsOf s 0 < quota s 0 1 ∧ 0 < quota s 0 2 ∧
      (cpqOf s 7).dbm = false ∧ (cmqOf (modHost (fun h => { h with cmq := [(5, { state := 3 })] }) State.reset) 5).state = 3 ∧
      (∃ e ∈ s.host.cmq, e.2.state ≠ 0 ∧ e.2.cpq = 7) ∧ (∀ e ∈ s.host.cmq, e.2.state ≠ 0 → e.2.cpq ≠ 6)) ∧
    (let s := hostHas (hcmd [0x86, 0, 1, 0, 0x1000000])
     bf ((hcmd [0x86, 0, 1, 0, 0x1000000]).word 4) 0 25 ≤ 2 ^ 24 ∧ (aperOf s 0).ctl.getLsbD 0 = false ∧ apersOf s 0 < quota s 0 3 ∧
      quota State.reset 0 3 ≤ apersOf State.reset 0 ∧ bit ((hcmd [0x86, 0, 1, 0, 0x1000000]).word 2) 0 = true) ∧
    (ctrOf State.reset 5).state = csIdle ∧ actLegal State.reset 4 0 (some 0) = false ∧ actLegal State.reset 0 0 (some 0) = true ∧
    (modHost (fun h => { h with cmds := [(0, { hcmd [0] with q := 5 }), (1, hcmd [0x81, 5])] }) State.reset).host.cmds =
      [(0, { hcmd [0] with q := 5 }), (1, hcmd [0x81, 5])] := by decide +kernel

/-- Queue 4095 with one entry ready, posted inline or in the host's memory. -/
def readyQ (inl : Bool) : State :=
  modHost (fun h => { h with cmq := [(4095, { cmq0 with tail := 1, inline := if inl then [(0, List.replicate 64 0)] else [] })] })
    (modHost (fun h => { h with link := [(0, { up := true })] }) (modDbg (fun d => { d with phase := 5 }) (quotas State.reset)))

theorem wit_HostQueues_commands :
    (funcExists State.reset 255 = false ∧ funcExists State.reset 0 = true ∧ (cmqOf State.reset 4095).state ≠ 1 ∧ clocked State.reset = true ∧
      clocked (clocksAt 2 State.reset) = false) ∧
    (let x := cmqOf (readyQ false) 4095
     x.owner = 0 ∧ x.state = 1 ∧ 15 < x.size ∧ x.size ≤ 16 ∧ x.tail + 14 ≤ x.head + x.size ∧ x.tail + 1 ≤ x.head + x.size ∧
      x.head + x.size < ({ x with tail := 16 } : CmQ).tail + 1) ∧
    (pickQueue State.reset 0 = none ∧ pickQueue (readyQ true) 0 = some 4095 ∧ pickQueue (readyQ false) 0 = some 4095 ∧
      (readyQ false).host.cmds = [] ∧ tfind (cmqOf (readyQ true) 4095).inline 0 = some (List.replicate 64 0) ∧
      tfind (cmqOf (readyQ false) 4095).inline 0 = none ∧ fetchRun (cmqOf (readyQ false) 4095) = 1 ∧ xcmdId 4095 ∉ (readyQ false).host.denied ∧
      cmqPasid (readyQ false) (cmqOf (readyQ false) 4095) ≠ badPasid ∧
      (translate (readyQ false) { func := 0, pasid := none, addr := 0 } false).isSome = true ∧ (funcOf (readyQ false) 0).ats = false) ∧
    cmdStatus (readyQ false) { q := 4095, words := entryWords (zeros 64), started := false, pos := 0, link := none } = 0 := by decide +kernel

/-- A function whose registers enable its admin pair next, or whose pair is enabled. -/
theorem wit_HostQueues_admin : (funcOf State.reset 0).en = false ∧ (0x104 : W64).getLsbD 8 = true ∧ 1 ≤ bf (0x104 : W64).toNat 0 8 ∧
    bf (0x104 : W64).toNat 0 8 ≤ 12 ∧ (∀ n, (cmqOf State.reset n).state = 0 ∧ (cpqOf State.reset n).en = false) ∧
    (funcOf (modHost (fun h => { h with func := [(0, { en := true, pair := some (3, 3) })] }) State.reset) 0).pair = some (3, 3) :=
  ⟨by decide, by decide, by decide, by decide, fun _ => ⟨rfl, rfl⟩, by decide⟩

/-- Completion queue 7 has a completion to write; its first entry waits for a signal. -/
def posting7 (count : Nat) : State :=
  modHost (fun h => { h with cpq := [(7, { cpq0 with count := count, since := some 0, t := 1 })],
                             posts := [{ cpq := 7, words := [0, 0, 0, 0], led := some (0, 0) }] }) (quotas State.reset)

theorem wit_HostQueues_completions :
    (State.reset.host.posts.find? (fun c => decide (c.cpq = 7)) = none ∧ ((posting7 0).host.posts.find? (fun c => decide (c.cpq = 7))).isSome = true ∧
      (cpqOf (posting7 0) 7).en = true ∧ (cpqOf (posting7 0) 7).full = false ∧ (cpqOf (posting7 0) 7).dbm = false ∧
      (translate (posting7 0) { func := 0, pasid := none, addr := 0 } true).isSome = true ∧
      (cpqOf (posting7 0) 7).count + 1 < (cpqOf (posting7 0) 7).n ∧ (cpqOf (posting7 1) 7).n ≤ (cpqOf (posting7 1) 7).count + 1) ∧
    (∀ n ∈ [0, 65536], reached ((coalesceDue (cpqOf (posting7 1) 7)).getD 0) (atNs n (posting7 1)) = decide (n ≠ 0)) ∧
    (coalesceDue (cpqOf (posting7 1) 7)).isSome = true ∧ quota (posting7 0) 0 2 ≤ 16 ∧ 15 < quota (posting7 0) 0 2 ∧
    ((linkSt (readyQ false) (linkOf (readyQ false) 0)).cxl = false ∧
      (linkSt (modHost (fun h => { h with link := [(0, { up := true, cxl := true })] }) State.reset) (linkOf State.reset 0)).cxl = true) := by decide +kernel

/-- An item of 64 bytes from tile store 0 to tile store 1, in state `st` of engine 3. -/
def item0 (st : Nat) : DItem :=
  { words := [0xE000000000, 0xE000200000, 64, 0, 0, 0], prio := 3, pasid := 0, cmd := none, master := 0, state := st, engine := none, done := 0, fail := 0 }
def withItem (it : DItem) (s : State) : State := modHost (fun h => { h with items := [(1, it)] }) s

theorem wit_Dma_items :
    (itemLegal (dpostOf State.reset 768).w = false ∧ itemLegal (item0 0).words = true ∧ storeLoad State.reset < 8192 ∧ awake State.reset = false ∧
      awake (readyQ false) = true) ∧
    (pickItem (withItem (item0 0) State.reset) = some (1, item0 0) ∧ itemOf (withItem (item0 0) State.reset) 1 = some (item0 0) ∧
      (∀ e, e < 32 → engineLoad State.reset e < 16)) ∧
    ((item0 1).len = 64 ∧ (∀ x, x < 64 → itemAcc (withItem (item0 1) State.reset) (item0 1) x = .ok ∧
        (regionOf ((item0 1).src + x)).isStore = true ∧ (regionOf ((item0 1).dst + x)).isStore = true ∧ hbmFailed State.reset ((item0 1).dst + x) = false) ∧
      bit ((item0 1).w 4) 24 = false ∧ bit ((item0 1).w 4) 44 = false ∧ (item0 1).src + 64 ≤ (item0 1).dst) ∧
    itemAcc (window true State.reset) { item0 1 with words := [0x400000000000, 0xE000200000, 64, 0, 0, 0] } 0 = .fail 0x0B := by
  decide +kernel

theorem items_count (n : Nat) : storeLoad (modHost (fun h => { h with items := List.replicate n (0, item0 0) }) State.reset) = n := by
  show ((List.replicate n ((0 : Nat), item0 0)).filter (fun e => e.2.engine.isNone)).length = n
  rw [List.filter_replicate_of_pos rfl, List.length_replicate]

theorem wit_Dma_full : 8192 ≤ storeLoad (modHost (fun h => { h with items := List.replicate 8192 (0, item0 0) }) State.reset) :=
  Nat.le_of_eq (items_count _).symm

/-- A translation that item 1 waits for, asked for as a page since `pg`. -/
def xl0 (pg : Option Nat) : Xlate :=
  { func := 0, pasid := none, addr := 0x5000, wr := true, reqs := [.item 1], prgAt := pg, waiting := false }
def waitsFor (pg : Option Nat) : State :=
  modHost (fun h => { h with xl := [xl0 pg], items := [(1, item0 2)], func := [(0, { ats := true, pri := true, alloc := 1 })] }) State.reset

theorem wit_Dma_translation :
    (∀ pg ∈ [none, some 0], xlFind (waitsFor pg) 0 none 0x5000 true = some (xl0 pg) ∧ (waitsFor pg).host.xl = [xl0 pg]) ∧
    xlFind State.reset 0 none 0x5000 true = none ∧ (funcOf (waitsFor none) 0).pri = true ∧ (funcOf State.reset 0).pri = false ∧
    prgsOut (waitsFor none) 0 < (funcOf (waitsFor none) 0).alloc ∧
    (∀ n ∈ [0, 2 ^ 50], reached (expiryAt 2 (0 + 1000000 * cfg State.reset 0x4200 1) 0) (atNs n (waitsFor (some 0))) = decide (n ≠ 0)) ∧
    (itemAcc (modHost (fun h => { h with link := [(0, { up := true })] }) (window true State.reset))
      { item0 1 with words := [0x400000000000, 0xE000200000, 64, 0, 0, 0], pasid := noPasid } 0 = .miss { func := 0, pasid := none, addr := 0x1000 } false) ∧
    loadsUse State.reset 0 none 0 4096 = false ∧
    loadsUse (window true (running 0 (fun x => { x with posted := [{ postedTo3 false with ea := 0x400000000000, host := true }] }))) 0 none 0x1000 0x2000 = true := by
  decide +kernel

theorem wit_HostLinks :
    (funcExists State.reset 255 = false ∧ funcExists State.reset 128 = true) ∧
    (let s := modHost (fun h => { h with link := [(0, { up := true, width := 16 })] }) State.reset
     (linkSt s 0).up = true ∧ widthLegal s 0 8 = true ∧ 8 < (linkSt s 0).width ∧ widthLegal s 0 3 = false ∧ (linkSt s 1).up = false) ∧
    (widthLegal State.reset 0 16 = true ∧ 1 ≤ cfg State.reset 0x4100 3 ∧ bit (cfg State.reset 0x4100 2) 0 = false ∧ bifurcated State.reset 0 = false ∧
      bifurcated (setEnt 0x4100 1 1 3 State.reset) 1 = true ∧ bit (cfg (setEnt 0x4100 2 1 3 State.reset) 0x4100 2) 1 = true) ∧
    (State.reset.dbg.phase < 4 ∧ retryOpen State.reset 0 = false ∧
      retryOpen (atNs 100000000 (modHost (fun h => { h with link := [(0, { perstAt := some 0 })] }) State.reset)) 0 = true ∧ 4 ≤ (modDbg (fun d => { d with phase := 4 }) State.reset).dbg.phase ∧
      (modDbg (fun d => { d with phase := 4 }) State.reset).dbg.fstate ≠ 2 ∧ (clocksAt 2 State.reset).dbg.fstate = 2 ∧
      (∀ x ∈ State.reset.host.xl, x.func = 0 → x.waiting = false)) := by decide +kernel

/-! ### Witnesses: the object dictionary -/

/-- SHA-384 of "abc" (FIPS 180), HMAC-SHA-384 test case 2 of RFC 4231. -/
theorem test_sha384 : sha384 [0x61, 0x62, 0x63] = natBE 48
    0xcb00753f45a35e8bb5a03d699ac65007272c32ab0eded1631a8b605a43ff5bed8086072ba1e7cc2358baeca134c825a7 := by decide +kernel

theorem test_hmac384 : hmac384 [0x4a, 0x65, 0x66, 0x65] (ascii "what do ya want for nothing?") = natBE 48
    0xaf45d2e376484031617f78d2b58a6b1b9c7ef464f5a01b47e42ec3736322445e8e2240ca5e69e2c78b3239ecfab21649 := by decide +kernel

/-- Twice the base point of P-384 (NIST's point multiplication example, k = 2), and a key not on the curve. -/
theorem test_p384 : (ecAdd (some (p384Gx, p384Gy)) (some (p384Gx, p384Gy))).map (·.1) =
      some 0x08D999057BA3D2D969260045C55B97F089025959A6F434D651D207D19FB96E9E4FE0E86EBE0E64F85B96A9C75295DF61 ∧
    ecdsaVerify ([4] ++ natBE 48 p384Gx ++ natBE 48 (p384Gy + 1)) (zeros 48) (natBE 48 1 ++ natBE 48 1) = false := by decide +kernel

/-- A session of role `r`, open or challenged, whose last SEQ is 6. -/
def sess0 (r : Nat) (opn : Bool) : Sess :=
  { role := r, slot := 0, xport := 0, isOpen := opn, lastSeq := some 6, busy := false, hostNonce := zeros 32, devNonce := zeros 32,
    key := zeros 48, openedAt := 0, lastAct := 0, own := [], dbgResult := [] }
def withSess (e : Sess) : State := setEnt 0xB030 1 1 0x1F (modDict (fun d => { d with sess := [(5, e)] }) State.reset)
/-- A request of kind `k` in session 5 with SEQ 7, signed with the session's key. -/
def ask (k fl : Nat) (body : Bytes) : DHdr :=
  let h : DHdr := { hdr 0 [] with sid := 5, seq := 7, blen := BitVec.ofNat 16 body.length, flags := BitVec.ofNat 8 fl }
  { h with mac := dmsgMac (zeros 48) (reqHeader k h) body }

theorem xport0 (e : Sess) : xportOn (withSess e) 0 = true :=
  (show xportOn (setEnt 0xB030 1 1 0x1F State.reset) 0 = true by decide +kernel)

theorem askMac (k fl : Nat) (body : Bytes) : dmsgMac (zeros 48) (reqHeader k (ask k fl body)) body = (ask k fl body).mac := rfl

theorem admitted (r k fl : Nat) (body : Bytes) (hm : malformed (withSess (sess0 r true)) (ask k fl body) body = false) :
    Admitted (withSess (sess0 r true)) (ask k fl body) k body (sess0 r true) where
  running := rfl
  transport := xport0 _
  form := hm
  session := rfl
  opened := rfl
  mac := rfl
  idle := rfl
  fresh := fun q hq => by cases hq; exact (show 6 < (7 : BitVec 32).toNat by decide)

theorem wit_RequestsAreAnswered_admitted :
    Admitted (withSess (sess0 2 true)) (ask 4 0 (writeBody 0x8402 2 [1, 0])) 4 (writeBody 0x8402 2 [1, 0]) (sess0 2 true) ∧
    Admitted (withSess (sess0 1 true)) (ask 3 0 (readBody 0x5600 1)) 3 (readBody 0x5600 1) (sess0 1 true) :=
  ⟨admitted _ _ _ _ (by decide +kernel), admitted _ _ _ _ (by decide +kernel)⟩

theorem wit_RequestsAreAnswered_write :
    bit (ask 4 0 (writeBody 0x8402 2 [1, 0])).flags.toNat 1 = false ∧ jFull (withSess (sess0 2 true)) = false ∧
    writeStatus (withSess (sess0 2 true)) 2 0x8402 2 [1, 0] = stOk ∧ writeStatus (withSess (sess0 2 true)) 2 0x8402 2 [1] = stType ∧
    writeStatus (withSess (sess0 2 true)) 1 0x8402 2 [1, 0] ≠ stNoEntry ∧ (entFind 0x8402 2).isSome = true ∧ r42Access 2 0x8402 = false :=
  ⟨by decide +kernel, by decide +kernel, by decide +kernel, by decide +kernel, by decide +kernel, by decide +kernel, by decide +kernel⟩

theorem wit_RequestsAreAnswered_read :
    accessStatus 1 0x5600 1 false = stOk ∧ accessStatus 0 0x8402 2 false = stDenied ∧ r42Access 0 0x8402 = false :=
  ⟨by decide +kernel, by decide +kernel, by decide +kernel⟩

theorem wit_RequestsAreAnswered_info :
    (withSess (sess0 2 true)).led.restart = none ∧ xportOn (withSess (sess0 2 true)) 0 = true ∧
    malformed (withSess (sess0 2 true)) { hdr 0 [] with blen := 4 } (readBody 0x1000 8) = false :=
  ⟨by decide +kernel, by decide +kernel, by decide +kernel⟩

theorem wit_RequestsAreChecked :
    SessionRequest (.dictClose (ask 6 0 [])) (ask 6 0 []) 6 [] ∧ State.reset.dbg.resetReq = false ∧
    (modLed (fun l => { l with restart := some 0 }) State.reset).led.restart.isSome = true ∧
    xportOn (setEnt 0xB030 1 1 0 State.reset) 0 = false ∧ malformed State.reset (ask 6 0 [1]) [] = true ∧
    malformed (withSess (sess0 2 true)) (ask 6 0 []) [] = false ∧ (sessOf (withSess (sess0 2 true)) 5).map (·.isOpen) = some true ∧
    (sessOf (withSess (sess0 2 false)) 5).map (·.isOpen) = some false ∧
    dmsgMac (zeros 48) (reqHeader 6 { ask 6 0 [] with seq := 8 }) [] ≠ (ask 6 0 []).mac ∧
    dmsgMac (zeros 48) (reqHeader 6 (ask 6 0 [])) [] = (ask 6 0 []).mac ∧ 7 ≤ (ask 6 0 []).seq.toNat :=
  ⟨.close _, by decide +kernel, by decide +kernel, by decide +kernel, by decide +kernel, by decide +kernel, by decide +kernel, by decide +kernel,
   by decide +kernel, askMac _ _ _, by decide +kernel⟩

/-- Opens for role 2 with an installer key, and without; a claim of an unclaimed device. -/
theorem wit_SessionsOpenAndClose :
    (openStatus (modDict (fun d => { d with installerKey := some (zeros 48) }) State.reset) { hdr 0 [] with blen := 36 } ([2, 0, 0, 0] ++ zeros 32) = stOk ∧
      openStatus State.reset { hdr 0 [] with blen := 36 } ([2, 0, 0, 0] ++ zeros 32) = stDenied ∧
      malformed State.reset { hdr 0 [] with blen := 36 } ([2, 0, 0, 0] ++ zeros 32) = false ∧ jFull State.reset = false) ∧
    (roleKey (modDict (fun d => { d with installerKey := some (zeros 48) }) (withSess (sess0 2 false))) 2 0 = some (zeros 48) ∧
      malformed (withSess (sess0 2 false)) { hdr 0 [] with sid := 5, blen := 48 } (zeros 48) = false ∧ (sess0 2 false).isOpen = false) ∧
    Admitted (withSess (sess0 2 true)) (ask 6 0 []) 6 [] (sess0 2 true) ∧
    (malformed State.reset { hdr 0 [] with blen := 251 } (zeros 251) = false ∧ State.reset.dict.installerKey = none) ∧
    (∀ n ∈ [0, 2 ^ 50], decide (expiryAt 3 (0 + 8 * 1073741824) 0 ≤ fireAt (atNs n State.reset)) = decide (n ≠ 0) ∧
      decide (expiryAt 3 (0 + 300000000000) 0 ≤ fireAt (atNs n State.reset)) = decide (n ≠ 0)) ∧
    (64 ≤ (modDict (fun d => { d with jSram := List.replicate 64 [] }) State.reset).dict.jSram.length ∧ State.reset.clk.frozen = none) ∧
    spdmXport State.reset 7 = true ∧ (∀ x, x < 4 → xportOn (withSess (sess0 2 true)) x = true) :=
  ⟨by decide +kernel, by decide +kernel, admitted _ _ _ _ (by decide +kernel), by decide +kernel, by decide +kernel, by decide +kernel,
   by decide +kernel, by decide +kernel⟩

/-- A group that waits for time `t`. -/
def group0 (t : Bool) : PGroup := { hdr := ask 5 0 [], role := 2, entries := [(0x8402, 2)], atime := 0, acceptedAt := 0, timed := t }
def timed0 : TimedW := { seq := 3, sid := 5, role := 2, xport := 0, idx := 0x8402, sub := 2, val := [1, 0], atime := 1, acceptedAt := 0 }

/-- Session 5 has a timed write and a group that wait; the time is `n` ns. -/
def pends (n : Nat) : State :=
  atNs n (modDict (fun d => { d with timed := [timed0], groups := [group0 false] }) (withSess (sess0 2 true)))

theorem wit_TimedRequests :
    Admitted (withSess (sess0 2 true)) (ask 4 2 (timedBody 0x8402 2 0x10000 [1, 0])) 4 (timedBody 0x8402 2 0x10000 [1, 0]) (sess0 2 true) ∧
    (bit (ask 4 2 (timedBody 0x8402 2 0x10000 [1, 0])).flags.toNat 1 = true ∧
      timedWriteStatus (modClk (fun c => { c with state := 4 }) State.reset) 2 0x8402 2 1 [1, 0] = stOk ∧
      timedWriteStatus State.reset 2 0x8402 2 1 [1, 0] = stNoTime) ∧
    Admitted (withSess (sess0 2 true)) (ask 5 0 (groupBody false 0 [(0x8402, 2)])) 5 (groupBody false 0 [(0x8402, 2)]) (sess0 2 true) ∧
    (nextDue State.reset = none ∧ (nextDue (pends 65536)).map (·.act) = some (.write timed0) ∧ nextDue (pends 0) = none ∧
      jFull (pends 65536) = false ∧ timedLate 1 0 (pends 65536) = true ∧
      jFull (modDict (fun d => { d with jSram := List.replicate 8192 [] }) State.reset) = true) ∧
    ((nextDue (modDict (fun d => { d with timed := [] }) (pends 65536))).map (·.act) = some (.group (group0 false)) ∧
      (sessOf (pends 65536) (group0 false).hdr.sid.toNat).isSome = true ∧ (group0 false).hdr.xport ≠ 4) :=
  ⟨admitted _ _ _ _ (by decide +kernel), by decide +kernel, admitted _ _ _ _ (by decide +kernel), by decide +kernel, by decide +kernel⟩

/-- 02_fabric_time.md, R69: at one boundary the timed write goes before the group's capture, and the capture before the freeze. -/
theorem test_boundary_order :
    (dueActs (modDbg (fun d => { d with freezeDue := some 64 }) (pends 128))).map (·.act.cls) = [1, 2, 3] ∧
    ((nextDue (modDbg (fun d => { d with freezeDue := some 64 }) (pends 128))).map (·.act.cls)) = some 1 := by decide +kernel

/-! ### Witnesses: power and faults -/

/-- Domain `d` is `x`. -/
def domIs (d : Nat) (x : Dom) (s : State) : State := modPower (fun p => { p with dom := tset {} p.dom d x }) s
/-- The frozen interval is in force. -/
def frozen0 (s : State) : State := modClk (fun c => { c with frozen := some 0 }) s

theorem wit_PowerTransitions_wakes :
    (∀ d ∈ [0, 4, 79], ∀ k ∈ [1, 2, 3], d < 80 ∧ domState (inDom d k State.reset) d = k) ∧
    (State.reset.power.alarm = none ∧ State.reset.power.dmode ≠ 2 ∧
      ∀ n ∈ [0, 64], reached (timedBoundary 1 0) (atNs n (modPower (fun p => { p with alarm := some (1, 0) }) State.reset)) = decide (n ≠ 0)) ∧
    ((0x60 : BitVec 7).toNat = mgmtAddr State.reset ∧ (0x61 : BitVec 7).toNat ≠ mgmtAddr State.reset ∧ (0x80 : BitVec 8).toNat / 64 = 2 ∧
      (0xBF : BitVec 8).toNat / 64 = 2 ∧ (0x7F : BitVec 8).toNat / 64 ≠ 2 ∧ groupDomains State.reset 0x3F = none ∧
      groupDomains State.reset 1 = some [4, 3, 2, 1, 0] ∧ cfgB (setEnt 0xA030 1 1 0 State.reset) 0xA030 1 = false ∧
      cfgB (setEnt 0xA030 1 1 1 State.reset) 0xA030 1 = true ∧ (frozen0 State.reset).clk.frozen.isSome = true ∧ State.reset.clk.frozen = none) ∧
    (wakeBits (running 0 (fun x => { x with wctl := 31 })) 0 = 0 ∧
      ∀ k ∈ [0, 1, 2, 3, 4], (thr (inDom 0 k (holding 0 (.wake 1 0) (running 0 (fun x => { x with wctl := 31, timer := true })))) 0).hold = .wake 1 0 ∧
        wakeBits (inDom 0 k (holding 0 (.wake 1 0) (running 0 (fun x => { x with wctl := 31, timer := true })))) 0 ≠ 0 ∧
        domState (inDom 0 k (holding 0 (.wake 1 0) (running 0 (fun x => { x with wctl := 31, timer := true })))) (pairDomain 0) = k) := by
  decide +kernel

theorem wit_PowerTransitions_domains :
    (∀ k ∈ [0, 1], cfg (setEnt 0xA002 80 1 k State.reset) 0xA002 80 = k ∧ (domOf (setEnt 0xA002 80 1 k State.reset) 79).state = 0 ∧
      79 ∉ State.reset.power.queue) ∧
    (∀ x ∈ ([{ state := 1 }, { state := 5, goal := 1 }, { state := 5, goal := 2, phase := 4 }, { state := 4, phase := 1 },
        { state := 4, phase := 2 }] : List Dom), domOf (domIs 79 x State.reset) 79 = x) ∧
    (∀ n ∈ [2047, 2048], reached (0 + 2048) (atNs n State.reset) = decide (n ≠ 2047)) ∧
    (∀ n ∈ [4991, 4992], reached (0 + 4992) (atNs n State.reset) = decide (n ≠ 4991)) := by decide +kernel

/-- Domain 79 waits in NIGHT for its turn, LSTEP_N asserted since time 0. -/
def waitsTurn : State :=
  atNs 2048 (modPower (fun p => { p with queue := [79], lstep := some 0 }) (domIs 79 { state := 4, goal := 2, elig := some 0 } State.reset))

theorem wit_PowerTransitions_starts :
    (softStarts waitsTurn < cfg waitsTurn 0xA040 2 ∧ dlUp 0 waitsTurn.power.tokenAt ≤ fireAt waitsTurn ∧ 79 ∈ waitsTurn.power.queue) ∧
    tokenReady waitsTurn 79 = true ∧
    (cfg (setEnt 0xA040 2 1 0 State.reset) 0xA040 2 ≤ softStarts State.reset ∧
      fireAt State.reset < dlUp 0 (modPower (fun p => { p with tokenAt := 1 }) State.reset).power.tokenAt) ∧
    tokenReady (domIs 79 { state := 4, goal := 1 } State.reset) 79 = false := by
  refine ⟨by decide +kernel, ?_, by decide +kernel, rfl⟩
  have h : ∀ b : Bool, (b || (match waitsTurn.power.lstep with | some a => decide (a + 2048 ≤ now waitsTurn) | none => false)) = true := by
    decide +kernel
  have h1 : (decide ((domOf waitsTurn 79).state = 4) && decide ((domOf waitsTurn 79).phase = 0) && decide ((domOf waitsTurn 79).goal ≠ 1) &&
      (match (domOf waitsTurn 79).elig with | some e => reached e waitsTurn | none => false)) = true := by decide +kernel
  have h2 : (domainsRun waitsTurn && (if (domOf waitsTurn 79).state = 4 then depsDay waitsTurn 79 else
      decide ((domOf waitsTurn 79).goal = 1) || !usersUp waitsTurn 79)) = true := by decide +kernel
  have a : ∀ x y : Bool, x = true → y = true → (x && y) = true := by decide
  exact a _ _ h1 (a _ _ h2 (h _))

/-- The clocks are stopped in state `f` of a freeze, at time `n`, the ballast drawing 60 A. -/
def ballastAt (f n : Nat) : State :=
  modDbg (fun d => { d with fstate := f }) (modPower (fun p => { p with ballast := 60000, holdE := 60000 }) (atNs n (frozen0 State.reset)))

/-- Domain 79 alone has stages: `x`. -/
def staged (x : Dom) : State := modPower (fun p => { p with stages := [79] }) (domIs 79 x State.reset)

theorem wit_PowerTransitions_stages :
    (∀ x ∈ ([{ state := 4, phase := 3, left := 0 }, { state := 4, phase := 3, goal := 1, left := 0 }, { state := 5, goal := 1, phase := 3, left := 0 },
        { state := 5, goal := 3, phase := 3, left := 0 }] : List Dom), (staged x).power.stages = [79] ∧ (staged x).power.queue = [] ∧
      domOf (staged x) 79 = x ∧ x.left ≤ cfg (staged x) 0xA040 1 * 20 - 500 * softStarts (staged x) ∧ x.sleepReq = none) ∧
    cfg (staged { left := 10000000 }) 0xA040 1 * 20 - 500 * softStarts (staged { left := 10000000 }) < 10000000 ∧
    State.reset.clk.frozen = none ∧ State.reset.led.restart = none ∧ State.reset.power.queue = [] ∧ State.reset.power.stages = [] ∧
    (∀ x ∈ [(2, 2047), (2, 2048), (3, 2047), (3, 2048), (1, 0)], (ballastAt x.1 x.2).clk.frozen.isSome = true ∧ (ballastAt x.1 x.2).dbg.fstate = x.1 ∧
      decide (max ((ballastAt x.1 x.2).dbg.sAt + 64) ((ballastAt x.1 x.2).dbg.fAt + 2048) ≤ now (ballastAt x.1 x.2)) = decide (x.2 = 2048) ∧
      decide ((ballastAt x.1 x.2).dbg.relAt + 2048 ≤ now (ballastAt x.1 x.2)) = decide (x.2 = 2048)) := by
  decide +kernel

theorem test_ballast : (match exec .governorWindow (ballastAt 2 2048) with | .next s => s.power.ballast | _ => 0) =
    60000 - cfg State.reset 0xA040 1 * 20 := by decide +kernel

theorem wit_PowerTransitions_leaves :
    (∀ d ∈ [0, 4, 76, 79], ∀ g ∈ [2, 3], ∀ w ∈ [true, false],
      domOf (domIs d { state := 5, goal := g, phase := 4, rewake := w } State.reset) d = { state := 5, goal := g, phase := 4, rewake := w }) ∧
    (pairQuiet State.reset 0 = true ∧ pairQuiet (withSb [sbEnt 0x10 1 0xFF] State.reset) 0 = false) ∧
    (State.reset.power.dom.any (fun e => (decide (e.2.state = 4) && decide (e.2.phase ≠ 0)) || decide (e.2.state = 5)) = false ∧
      (domIs 79 { state := 5 } State.reset).power.dom.any
        (fun e => (decide (e.2.state = 4) && decide (e.2.phase ≠ 0)) || decide (e.2.state = 5)) = true) ∧
    (∀ n ∈ [2047, 2048], reached (dlUp 0 (0 + 2048)) (atNs n State.reset) = decide (n ≠ 2047)) ∧
    State.reset.power.lstep = none ∧ State.reset.power.m = 0 := by decide +kernel

/-- Ledger row 6 has one more accepted than it accounts for. -/
def unbal : State := modLed (fun l => { l with rows := tset {} l.rows 6 { acc := 1 } }) State.reset

theorem wit_FaultService :
    ((nextDue State.reset).map (·.act) ≠ some .check ∧ (nextDue (atNs 1048576 State.reset)).map (·.act) = some .check ∧
      (nextDue (atNs 1048576 unbal)).map (·.act) = some .check ∧
      (∀ r, 1 ≤ r → r ≤ 6 → (ledRow (atNs 1048576 State.reset) r).balanced = true) ∧ unbalanced (atNs 1048576 unbal) = [6] ∧
      (atNs 1048576 unbal).dict.alertLedger = false) ∧
    (tfind State.reset.led.selfTest 95 = none ∧
      (∀ n ∈ [39999, 40000],
        decide (40000 ≤ now (atNs n (modLed (fun l => { l with selfTest := [(95, 40000)] }) State.reset))) = decide (n ≠ 39999))) ∧
    (State.reset.led.restart = none ∧ (modLed (fun l => { l with restart := some 0 }) State.reset).led.restart = some 0) ∧
    (tfind State.reset.led.stallAt 95 = none ∧
      (∀ a, tfind (modLed (fun l => { l with stallAt := [(95, (0, a))] }) State.reset).led.stallAt 95 = some (0, a)) ∧
      (∀ n ∈ [0, 2 ^ 40], reached (stallExpiry State.reset 0) (atNs n State.reset) = decide (n ≠ 0)) ∧
      (thr State.reset (8 * 95)).stall = false ∧ (thr (running 760 (fun x => { x with stall := true })) (8 * 95)).stall = true) := by
  refine ⟨⟨by decide +kernel, by decide +kernel, by decide +kernel, fun r _ _ => rfl, by decide +kernel, rfl⟩, by decide +kernel, by decide +kernel,
    by decide +kernel⟩

/-! ### Witnesses: debug, midnight, Dawn -/

/-- Thread `t` is HALTED. -/
def haltedT (t : Nat) : State := modThr t (fun x => { x with halted := true }) State.reset
/-- Breakpoint 3 of thread 0's core names its instruction. -/
def broken (s : State) : State := modDbg (fun d => { d with bp := [(3, { index := 0, mask := 0xFF, en := true })] }) s

theorem wit_DebugUnit :
    DebugForm (.halt · 11 7 7) 0x01 11 7 7 [] dbgHalt ∧
    (dbgThread 11 7 7 = some 767 ∧ dbgThread 11 7 8 = none ∧ dbgThread 12 0 0 = none ∧ dbgThread 15 1 7 = some 775 ∧
      dbgAllowed State.reset true 11 = false ∧ dbgAllowed (modDbg (fun d => { d with scope := 0x800 }) State.reset) true 11 = true) ∧
    (isHalted (thr State.reset 767) = false ∧ isHalted (thr (haltedT 767) 767) = true) ∧
    ((modDbg (fun d => { d with nonce := some 5 }) State.reset).dbg.nonce = some 5 ∧ unlockBackoff State.reset = false ∧
      entVal (modDict (fun d => { d with vals := [(ekey 0xD020 0x01, zeros 48)] }) State.reset) 0xD020 0x01 ≠ [] ∧
      now State.reset ≤ cfg State.reset 0xD020 0x03 / 65536 ∧ cfg State.reset 0xD020 0x03 / 65536 < now (atNs 1 State.reset)) ∧
    ((∀ t ∈ [0, 767], (thr State.reset t).haltReq = false ∧
        (thr (modThr t (fun x => { x with haltReq := true }) State.reset) t).haltReq = true ∧
        (thr (modThr t (fun x => { x with haltReq := true }) State.reset) t).state = .idle) ∧
      (thr (running 0 (fun x => { x with haltReq := true })) 0).shadow = none ∧ eventDue (running 0 (fun x => { x with haltReq := true })) 0 = false ∧
      faultDue (thr (running 0 (fun x => { x with haltReq := true })) 0) = false ∧
      uncommitted (thr (running 0 (fun x => { x with haltReq := true })) 0) = false ∧ clocked State.reset = true) ∧
    (bpMatch (broken (running 0 id)) 0 = true ∧ bpMatch (running 0 id) 0 = false ∧ (thr (broken (running 0 id)) 0).state ≠ .idle ∧
      isHalted (thr (broken (running 0 id)) 0) = false ∧ eventDue (broken (running 0 id)) 0 = false ∧
      faultDue (thr (broken (running 0 id)) 0) = false) ∧
    ∀ b, (thr (running 0 (fun x => { x with wpHit := b })) 0).wpHit = b :=
  ⟨.halt _ _ _, by decide +kernel, by decide +kernel, by decide +kernel, by decide +kernel, by decide +kernel, by decide⟩

/-- A proof that the token key's holder gives for nonce `n`, and one that is none. -/
theorem wit_DebugUnit_proof (n : BitVec 256) :
    (∃ p, p = hmac384 (zeros 48) (ascii "ZYDT" ++ natLE 8 Config.serial.toNat ++ natLE 32 n.toNat)) ∧
    ∃ p, p ≠ unlockProof (zeros 48) n :=
  ⟨⟨_, rfl⟩, 0 :: unlockProof (zeros 48) n, fun h => by have := congrArg List.length h; simp at this⟩

/-- A freeze that waits for time 64, and one that is timed for it. -/
def freezing (cmd : Bool) (n : Nat) : State :=
  atNs n (modDbg (fun d => if cmd then { d with freezeDue := some 64 } else { d with freezeAt := some (64, 0) }) State.reset)

/-- A swap fell due at 64 ns, in the frozen interval. -/
def overdue : State := modDbg (fun d => { d with swapAt := some (64, 0) }) (atNs 2112 (clocksAt 3 State.reset))

theorem wit_FreezeAndThaw :
    (State.reset.dbg.fstate = 0 ∧ State.reset.dbg.freezeDue = none ∧ (clocksAt 2 State.reset).dbg.fstate ≠ 0) ∧
    (∀ c, freezeDueAt (freezing c 63) = none ∧ freezeDueAt (freezing c 64) = some (64, !c) ∧ (freezing c 64).power.lstep = none ∧
      (nextDue (freezing c 63)).map (·.act) = none ∧ (nextDue (freezing c 64)).map (·.act) = some (.freeze (!c)) ∧
      (freezing c 64).led.restart = none ∧ (freezing c 64).dbg.fstate = 0 ∧ (freezing c 64).dbg.freezeDue.isSome = c) ∧
    ((nextDue (modDbg (fun d => { d with fstate := 2 }) (freezing true 64))).map (·.act) = some (.freeze false)) ∧
    ((∀ k ∈ [1, 2, 3], (clocksAt k State.reset).dbg.fstate = k) ∧
      tget 0 (modHbm (fun h => { h with state := tset 0 h.state 3 2 }) (clocksAt 1 State.reset)).hbm.state 3 = 2) ∧
    (∀ b, (modDbg (fun d => { d with dumping := b }) (clocksAt 2 State.reset)).dbg.dumping = b ∧
      (modDbg (fun d => { d with dumping := b }) (clocksAt 2 State.reset)).dbg.fstate = 2) ∧
    (thawReady (clocksAt 2 State.reset) = false ∧
      (∀ n ∈ [63, 64], thawReady (atNs n (modDbg (fun d => { d with fstate := 2, thawAt := some (64, 0) }) State.reset)) = decide (n ≠ 63)) ∧
      domState State.reset (68 + 3) = 0 ∧ tget 0 (modHbm (fun h => { h with state := tset 0 h.state 3 3 }) State.reset).hbm.state 3 = 3) ∧
    (∀ n ∈ [2111, 2112], decide ((atNs n (clocksAt 3 State.reset)).dbg.relAt + 2048 + (atNs n (clocksAt 3 State.reset)).dbg.rampNs + 64 ≤
      fireAt (atNs n (clocksAt 3 State.reset))) = decide (n ≠ 2111)) ∧
    firstOverdue 2112 (endFreeze 2112 (atNs 2112 (clocksAt 3 State.reset))) = none ∧
    firstOverdue 2112 (endFreeze 2112 overdue) = some (64, some .swap) ∧
    firstOverdue 2112 (DueAct.swap.fire (endFreeze 2112 overdue)) = none ∧
    State.reset.power.held = [] := by decide +kernel

/-- The unit is in phase `k` of Dawn, power good. -/
def dawn (k : Nat) (bs : BitVec 2) : State := modDbg (fun d => { d with phase := k, bootSel := bs }) State.reset

theorem wit_DawnAndImages_phases :
    (∀ b, (modDbg (fun d => { d with pwrGood := b }) State.reset).dbg.pwrGood = b) ∧
    (∀ k ∈ [0, 1, 2, 3, 4], (dawn k 3).dbg.pwrGood = true ∧ (dawn k 3).dbg.phase = k ∧ (dawn k 3).dbg.bootSel = 3 ∧ (dawn k 0).dbg.bootSel ≠ 3) ∧
    ((tryImages (bootOrder (dawn 1 2)) (dawn 1 2)).1 = none ∧ (dawn 1 2).dbg.stuck = false ∧
      (dawn 1 2) = modDict (fun d => { d with vals := d.persist.foldl (fun t e => tput t e.1 e.2) d.vals }) (dawn 1 2)) ∧
    (dawn4Ready (dawn 4 0) = false ∧ dawn4Ready (modClk (fun c => { c with state := 4 })
      (modFab (fun f => { f with sub := (List.range 16).map (fun sp => (sp, { oper := 2 })) }) (dawn 4 0))) = true) ∧
    (∀ n ∈ [1999999999, 2000000000], decide ((dawn 4 0).dbg.phaseAt + 2000000000 ≤ now (atNs n (dawn 4 0))) = decide (n ≠ 1999999999)) := by
  decide +kernel

theorem wit_DawnAndImages_images :
    (State.reset.dbg.load = none ∧ (modDbg (fun d => { d with load := some 1 }) State.reset).dbg.load = some 1 ∧ State.reset.dbg.swapWait = none ∧
      (4 : Nat) ≠ 0) ∧
    (State.reset.dbg.swapAt = none ∧
      (∀ n ∈ [0, 65536], stewardReached 1 0 (atNs n (modDbg (fun d => { d with swapAt := some (1, 0) }) State.reset)) = decide (n ≠ 0)) ∧
      (∀ l ∈ [none, some 1], (nextDue (atNs 65536 (modDbg (fun d => { d with swapAt := some (1, 0), load := l }) State.reset))).map (·.act) = some .swap) ∧
      (modDbg (fun d => { d with swapAt := some (1, 0), load := some 1 }) State.reset).dbg.load.isSome = true) := by decide +kernel

/-! ### Witness: steps -/

/-- A state of the invariant whose front command answers a next state, and one with an empty queue. -/
theorem wit_StepTakesNothingBack : Inv State.reset ∧
    (∃ t, exec .freezeNEdge State.reset = .next t) ∧ (∃ t, step State.reset = .next t) ∧ State.reset.pending = [] ∧
    State.reset.clk.acc < 2 ^ 48 ∧ -(2 ^ 48 : Int) ≤ State.reset.clk.rate :=
  ⟨test_inv_reset, ⟨_, rfl⟩, ⟨_, rfl⟩, rfl, by decide, by decide⟩

end Sys2Proof.Tests
end

section
/-! PROOFS. Registers, branches and jumps, and the entry of a store (chapters 07 and 08). -/

namespace Sys2Proof.Machine

/-! ### Registers (R245) -/

/-- Settles O7: w0 is hard-wired, and a write to a register reaches that register alone. -/
theorem registerZeroIsHardWired : Obligations.RegisterZeroIsHardWired := by
  intro t r v s
  refine ⟨getReg_zero s t, getReg_zero _ t, fun hr => ?_, fun q hq => getReg_setReg_ne v s hq⟩
  rw [getReg_setReg_same, if_neg hr]

/-! ### Branches and jumps (R262) -/

/-- A branch that may issue goes on at its target or at the next index, and writes no register. -/
theorem branch_spec {t : Nat} {regs : List Nat} {s : State} (taken : Bool) (ofs : BitVec 18)
    (h : canIssue s t clsB (0 :: regs) = true) :
    (thr (branch t regs taken ofs s) t).pc = (if taken then (thr s t).pc + ofs.truncate 17 else (thr s t).pc + 1) ∧
      RegFrame t 0 s (branch t regs taken ofs s) := by
  unfold branch runIns
  rw [if_pos h]
  exact ⟨by rw [thr_retire_same]; rfl, issueRetire_frame _ _ _ _ _ _ _ _⟩

/-- An instruction that is a branch on the condition `b` branches when `b` says so. -/
theorem branches_of_exec {i : Instr} {t : Fin 776} {regs : List Nat} {taken : State → Prop} {ofs : BitVec 18}
    (b : State → Bool) (hexec : ∀ s, exec i s = .next (branch t.val regs (b s) ofs s)) (hb : ∀ s, b s = true ↔ taken s) :
    Branches i t regs taken ofs := by
  intro s h
  obtain ⟨hpc, hframe⟩ := branch_spec (b s) ofs h
  refine ⟨_, hexec s, fun ht => ?_, fun ht => ?_, hframe⟩
  · rw [hpc, if_pos ((hb s).2 ht)]
  · rw [hpc, if_neg (mt (hb s).1 ht)]

/-- A jump that may issue goes on at `pc`, and writes its link, the index `link`, to `rd` alone. -/
theorem jump_spec {t rd : Nat} {regs : List Nat} {s : State} (link pc : BitVec 17) (h : canIssue s t clsB (rd :: regs) = true) :
    ∃ s', runIns t clsB rd regs (fun s1 => retire t pc (setReg t rd (BitVec.ofNat 72 link.toNat) s1)) s = s' ∧
      (thr s' t).pc = pc ∧ getReg s' t rd = (if rd = 0 then 0 else link.zeroExtend 72) ∧ RegFrame t rd s s' := by
  unfold runIns
  rw [if_pos h, BitVec.ofNat_toNat]
  exact ⟨_, rfl, by rw [thr_retire_same], by rw [getReg_retire, getReg_setReg_same], regWrite_frame _ _ _ _ _ _ _ _⟩

theorem not_slt_iff_toInt_le (a b : W72) : (!a.slt b) = true ↔ b.toInt ≤ a.toInt := by
  rw [Bool.not_eq_true', ← Bool.not_eq_true, BitVec.slt_iff_toInt_lt, Int.not_lt]

theorem not_ult_iff_toNat_le (a b : W72) : (!a.ult b) = true ↔ b.toNat ≤ a.toNat := by
  rw [Bool.not_eq_true', ← Bool.not_eq_true, BitVec.ult_iff_lt, BitVec.lt_def, Nat.not_lt]

theorem toInt_imm5 (imm : BitVec 5) : (imm.signExtend 72).toInt = imm.toInt := BitVec.toInt_signExtend_of_le (by decide)

/-- The six compare-and-branch instructions of two registers. -/
theorem registerBranches (t : Fin 776) (ra rb : Fin 32) (ofs : BitVec 18) :
    Branches (.beq t ra rb ofs) t [ra.val, rb.val] (fun s => getReg s t.val ra.val = getReg s t.val rb.val) ofs ∧
    Branches (.bne t ra rb ofs) t [ra.val, rb.val] (fun s => getReg s t.val ra.val ≠ getReg s t.val rb.val) ofs ∧
    Branches (.blt t ra rb ofs) t [ra.val, rb.val]
      (fun s => (getReg s t.val ra.val).toInt < (getReg s t.val rb.val).toInt) ofs ∧
    Branches (.bge t ra rb ofs) t [ra.val, rb.val]
      (fun s => (getReg s t.val rb.val).toInt ≤ (getReg s t.val ra.val).toInt) ofs ∧
    Branches (.bltu t ra rb ofs) t [ra.val, rb.val]
      (fun s => (getReg s t.val ra.val).toNat < (getReg s t.val rb.val).toNat) ofs ∧
    Branches (.bgeu t ra rb ofs) t [ra.val, rb.val]
      (fun s => (getReg s t.val rb.val).toNat ≤ (getReg s t.val ra.val).toNat) ofs :=
  ⟨branches_of_exec _ (fun s => exec_beq s t ra rb ofs) fun _ => decide_eq_true_iff,
   branches_of_exec _ (fun s => exec_bne s t ra rb ofs) fun _ => decide_eq_true_iff,
   branches_of_exec _ (fun s => exec_blt s t ra rb ofs) fun _ => BitVec.slt_iff_toInt_lt,
   branches_of_exec _ (fun s => exec_bge s t ra rb ofs) fun _ => not_slt_iff_toInt_le _ _,
   branches_of_exec _ (fun s => exec_bltu s t ra rb ofs) fun _ => BitVec.ult_iff_lt,
   branches_of_exec _ (fun s => exec_bgeu s t ra rb ofs) fun _ => not_ult_iff_toNat_le _ _⟩

/-- The four compare-and-branch instructions of a register and an immediate. -/
theorem immediateBranches (t : Fin 776) (ra : Fin 32) (imm : BitVec 5) (ofs : BitVec 18) :
    Branches (.beqi t ra imm ofs) t [ra.val] (fun s => getReg s t.val ra.val = imm.signExtend 72) ofs ∧
    Branches (.bnei t ra imm ofs) t [ra.val] (fun s => getReg s t.val ra.val ≠ imm.signExtend 72) ofs ∧
    Branches (.blti t ra imm ofs) t [ra.val] (fun s => (getReg s t.val ra.val).toInt < imm.toInt) ofs ∧
    Branches (.bgei t ra imm ofs) t [ra.val] (fun s => imm.toInt ≤ (getReg s t.val ra.val).toInt) ofs := by
  rw [← toInt_imm5 imm]
  exact ⟨branches_of_exec _ (fun s => exec_beqi s t ra imm ofs) fun _ => decide_eq_true_iff,
    branches_of_exec _ (fun s => exec_bnei s t ra imm ofs) fun _ => decide_eq_true_iff,
    branches_of_exec _ (fun s => exec_blti s t ra imm ofs) fun _ => BitVec.slt_iff_toInt_lt,
    branches_of_exec _ (fun s => exec_bgei s t ra imm ofs) fun _ => not_slt_iff_toInt_le _ _⟩

/-- Settles O10: each branch is `branch` on its own condition, and a jump reads its target before it writes its link. -/
theorem branchTargets : Obligations.BranchTargets := by
  refine ⟨registerBranches, immediateBranches, ?jal, ?jalr⟩
  case jal =>
    intro t rd ofs s h
    obtain ⟨s', hs', hspec⟩ := jump_spec ((thr s t.val).pc + 1) ((thr s t.val).pc + ofs.truncate 17) h
    exact ⟨s', (exec_jal s t rd ofs).trans (congrArg _ hs'), hspec⟩
  case jalr =>
    intro t rd ra imm s h
    obtain ⟨s', hs', hspec⟩ := jump_spec ((thr s t.val).pc + 1) ((getReg s t.val ra.val + imm.signExtend 72).truncate 17) h
    exact ⟨s', (exec_jalr s t rd ra imm).trans (congrArg _ hs'), hspec⟩

/-! ### A store whose issue ends a mode shadow (R251, R429) -/

/-- A CRC instruction that its unit has accepted and the core has not committed. -/
def acceptedCrc : Cpx :=
  { unit := 0, fn := 0, rd := 5, ra := 6, rb := 7, a := 0, b := 0, a1 := 0, a2 := 0, a3 := 0, b1 := 0, lvl := 1, pc := 1, key := none }

/-- Thread 0 runs at S after a SETSR to U: of the two instructions of the shadow the first has retired, and the second, a
CRC, is accepted and not committed. Register 2 holds the first address of the tile store. -/
def shadowEnding : State :=
  modThr 0 (fun x => { x with w := [(2, 0xE000000000)], pc := 2, state := .run, shadow := some (1, 0, 0), cpx := [acceptedCrc] })
    State.reset

/-- The issue of the store commits the CRC, and the shadow ends: the entry is one of level U. -/
theorem shadowEnding_st8_level : exec (.st8 0 1 2 0) shadowEnding = .next (runStore 0x49 0 1 2 0 shadowEnding) ∧
    (coreSt (runStore 0x49 0 1 2 0 shadowEnding) 0).sb.map (·.lvl) = [0] :=
  ⟨exec_st8 shadowEnding 0 1 2 0, by decide⟩

theorem shadowEnding_premises :
    0xE000000000 = (getReg shadowEnding 0 2 + (0 : BitVec 18).signExtend 72).toNat % 2 ^ 48 ∧
    canIssue shadowEnding 0 clsM [1, 2] = true ∧ memFault shadowEnding 0 0x49 0xE000000000 = none ∧
    memMiss shadowEnding 0 0x49 0xE000000000 = none ∧
    (coreSt shadowEnding 0).sb.length + (memParts 0x49 0xE000000000).length ≤ 8 := by decide

/-- Refutes O14: the entry of a store carries the level (and PASID) that its thread has once the issue has committed the
coprocessor instruction before it (R429), which may end a mode shadow (R251); the statement asks for the level before. -/
theorem not_storesAndTheirBuffer : ¬ Obligations.StoresAndTheirBuffer := by
  intro h
  obtain ⟨⟨hst8, -⟩, -⟩ := h
  obtain ⟨hea, hissue, hfault, hmiss, hroom⟩ := shadowEnding_premises
  obtain ⟨hexec, hlevel⟩ := shadowEnding_st8_level
  obtain ⟨s', hs', hsb, -⟩ := hst8 0 1 2 0 shadowEnding 0xE000000000 hea hissue hfault hmiss hroom
  obtain rfl : runStore 0x49 0 1 2 0 shadowEnding = s' := by simpa using hexec.symm.trans hs'
  have hasked : ((coreSt shadowEnding 0).sb ++ dataEntries 1 shadowEnding 0 0xE000000000 (getReg shadowEnding 0 1)).map (·.lvl) = [1] := by
    decide
  have hlevels : [0] = [1] := hlevel.symm.trans ((congrArg (List.map (·.lvl)) hsb).trans hasked)
  exact absurd hlevels (by decide)

end Sys2Proof.Machine
end

section
/-! PROOFS. The tile event controller (chapter 09). -/

namespace Sys2Proof.Machine

/-! ### Single bits of fields and words -/

theorem bf_zero (x w : Nat) : bf x 0 w = x % 2 ^ w := by
  simp [bf]

theorem testBit_bitPut (x i : Nat) (b : Bool) (j : Nat) : (bitPut x i b).testBit j = if j = i then b else x.testBit j := by
  have hsplit : bitPut x i b = 2 ^ i * (2 * (x / 2 ^ (i + 1)) + b.toNat) + x % 2 ^ i := by
    have hbit : (if b = true then 1 else 0) % 2 ^ 1 = b.toNat := by cases b <;> rfl
    have htop : x / 2 ^ (i + 1) * 2 ^ (i + 1) = 2 ^ i * (2 * (x / 2 ^ (i + 1))) := by
      rw [Nat.pow_succ, Nat.mul_comm, Nat.mul_assoc]
    rw [bitPut, bput, hbit, htop, Nat.mul_add, Nat.mul_comm b.toNat]
    omega
  rw [hsplit, Nat.testBit_two_pow_mul_add _ (Nat.mod_lt x (Nat.two_pow_pos i))]
  rcases Nat.lt_trichotomy j i with h | rfl | h
  · simp [h, Nat.ne_of_lt h, Nat.testBit_mod_two_pow]
  · cases b <;> simp [Nat.testBit_zero]
  · obtain ⟨k, rfl⟩ : ∃ k, j = i + 1 + k := ⟨j - (i + 1), by omega⟩
    have hk : i + 1 + k - i = k + 1 := by omega
    have hhalf : (2 * (x / 2 ^ (i + 1)) + b.toNat) / 2 = x / 2 ^ (i + 1) := by
      have := b.toNat_lt; omega
    rw [if_neg (by omega), if_neg (by omega), hk, Nat.testBit_succ, hhalf, Nat.testBit_div_two_pow, Nat.add_comm k]

theorem getLsbD_ofNat_bitPut {w : Nat} (x : BitVec w) (i : Nat) (b : Bool) (j : Nat) :
    (BitVec.ofNat w (bitPut x.toNat i b)).getLsbD j = (decide (j < w) && if j = i then b else x.getLsbD j) := by
  rw [BitVec.getLsbD_ofNat, testBit_bitPut, BitVec.testBit_toNat]

theorem getLsbD_ofNat_two_pow (w i j : Nat) : (BitVec.ofNat w (2 ^ i)).getLsbD j = (decide (j < w) && decide (i = j)) := by
  rw [BitVec.getLsbD_ofNat, Nat.testBit_two_pow]

theorem ofNat_bitPut_true {w : Nat} (x : BitVec w) (i : Nat) :
    BitVec.ofNat w (bitPut x.toNat i true) = x ||| BitVec.ofNat w (2 ^ i) := by
  refine BitVec.eq_of_getLsbD_eq fun j hj => ?_
  rw [getLsbD_ofNat_bitPut, BitVec.getLsbD_or, getLsbD_ofNat_two_pow]
  by_cases h : j = i
  · simp [h, h ▸ hj]
  · simp [h, hj, Ne.symm h]

theorem ofNat_bitPut_false {w : Nat} (x : BitVec w) (i : Nat) :
    BitVec.ofNat w (bitPut x.toNat i false) = x &&& ~~~(BitVec.ofNat w (2 ^ i)) := by
  refine BitVec.eq_of_getLsbD_eq fun j hj => ?_
  rw [getLsbD_ofNat_bitPut, BitVec.getLsbD_and, BitVec.getLsbD_not, getLsbD_ofNat_two_pow]
  by_cases h : j = i
  · simp [h, h ▸ hj]
  · simp [h, hj, Ne.symm h]

section SumOfBits
variable (p : Nat → Prop) [DecidablePred p]

theorem sum_map_range_succ (f : Nat → Nat) (n : Nat) :
    ((List.range (n + 1)).map f).sum = ((List.range n).map f).sum + f n := by
  rw [List.range_succ, List.map_append, List.map_singleton, List.sum_append_nat, List.sum_singleton]

theorem sum_two_pow_lt (n : Nat) : ((List.range n).map (fun i => if p i then 2 ^ i else 0)).sum < 2 ^ n := by
  induction n with
  | zero => simp
  | succ n ih =>
    rw [sum_map_range_succ, Nat.pow_succ]
    split <;> omega

/-- A sum of distinct powers of two has the bits that were summed. -/
theorem testBit_sum_two_pow (n j : Nat) :
    ((List.range n).map (fun i => if p i then 2 ^ i else 0)).sum.testBit j = (decide (j < n) && decide (p j)) := by
  induction n with
  | zero => simp
  | succ n ih =>
    have hlt := sum_two_pow_lt p n
    have htop : (if p n then 2 ^ n else 0) = 2 ^ n * (decide (p n)).toNat := by by_cases h : p n <;> simp [h]
    rw [sum_map_range_succ, Nat.add_comm, htop, Nat.testBit_two_pow_mul_add _ hlt, ih]
    rcases Nat.lt_trichotomy j n with h | rfl | h
    · simp [h, Nat.lt_succ_of_lt h]
    · by_cases h : p j <;> simp [h]
    · have hpow : 2 ^ 1 ≤ 2 ^ (j - n) := Nat.pow_le_pow_right Nat.two_pos (by omega)
      have hbig : (decide (p n)).toNat < 2 ^ (j - n) := Nat.lt_of_lt_of_le (Bool.toNat_lt _) hpow
      rw [if_neg (by omega), Nat.testBit_lt_two_pow hbig]
      simp [show ¬ j < n + 1 by omega]

end SumOfBits

/-! ### Tiles and their groups -/

@[simp] theorem tileSt_modTile_same (t : Nat) (f : Tile → Tile) (s : State) : tileSt (modTile t f s) t = f (tileSt s t) := by
  simp [tileSt, modTile]

@[simp] theorem tileSt_bump (i j t : Nat) (s : State) : tileSt (bump i j s) t = tileSt s t := by
  simp [tileSt]

theorem tecGroup_congr {s s' : State} {t : Nat} (h : (tileSt s' t).grp = (tileSt s t).grp) (g : Nat) :
    tecGroup s' t g = tecGroup s t g := by
  simp [tecGroup, h]

@[simp] theorem tecGroup_bump (i j t g : Nat) (s : State) : tecGroup (bump i j s) t g = tecGroup s t g :=
  tecGroup_congr (by rw [tileSt_bump]) g

@[simp] theorem tecGroup_modGroup_same (t g : Nat) (f : TecGroup → TecGroup) (s : State) :
    tecGroup (modGroup t g f s) t g = f (tecGroup s t g) := by
  simp [tecGroup, modGroup]

theorem tecGroup_modGroup_ne {t g k : Nat} (f : TecGroup → TecGroup) (s : State) (h : k ≠ g) :
    tecGroup (modGroup t g f s) t k = tecGroup s t k := by
  simp only [tecGroup, modGroup, tileSt_modTile_same]
  exact tget_tmod_ne _ _ _ h

/-- All of a tile but its groups. -/
def Tile.noGroups (x : Tile) : Tile := { x with grp := [] }

/-- What reads none of a tile's groups agrees on tiles that differ in their groups alone. -/
theorem Tile.eq_of_noGroups {α : Type} (r : Tile → α) {x y : Tile} (h : x.noGroups = y.noGroups)
    (hr : ∀ z : Tile, r z.noGroups = r z) : r x = r y := by
  rw [← hr x, h, hr y]

@[simp] theorem noGroups_modGroup (t g : Nat) (f : TecGroup → TecGroup) (s : State) :
    (tileSt (modGroup t g f s) t).noGroups = (tileSt s t).noGroups := by
  simp [modGroup, Tile.noGroups]

@[simp] theorem gdis_modGroup (t g : Nat) (f : TecGroup → TecGroup) (s : State) :
    (tileSt (modGroup t g f s) t).gdis = (tileSt s t).gdis :=
  Tile.eq_of_noGroups Tile.gdis (noGroups_modGroup t g f s) fun _ => rfl

@[simp] theorem tecPend_modGroup (t g k : Nat) (f : TecGroup → TecGroup) (s : State) :
    tecPend (modGroup t g f s) t k = tecPend s t k :=
  congrArg (fun b : BitVec 256 => bf b.toNat (8 * k) 8)
    (Tile.eq_of_noGroups Tile.pend (noGroups_modGroup t g f s) fun _ => rfl)

/-! ### Delivering and counting (R330, R332) -/

/-- A group that has been offered delivery, under its tile's GDIS: it delivers if it qualifies. -/
def TecGroup.delivered (gdis : Bool) (x : TecGroup) : TecGroup :=
  { x with deliv := x.deliv || (!gdis && x.en && (decide (x.n.toNat ≤ x.count) || x.expired)) }

/-- A group that has counted one event at time `t`. -/
def TecGroup.counted (t : Nat) (x : TecGroup) : TecGroup :=
  { x with count := min 255 (x.count + 1), start := x.start <|> some t }

/-- A group that does not qualify, or has delivered already, is as it was. -/
theorem TecGroup.delivered_of_not {gdis : Bool} {x : TecGroup}
    (h : ¬ (x.en && !x.deliv && !gdis && (decide (x.n.toNat ≤ x.count) || x.expired)) = true) : x.delivered gdis = x := by
  obtain ⟨n, t, core, thr, en, count, deliv, start, expired⟩ := x
  cases deliv
  · simp only [Bool.not_eq_true] at h
    simp only [TecGroup.delivered, Bool.false_or, TecGroup.mk.injEq, true_and, and_true]
    rw [← h, Bool.not_false, Bool.and_true, Bool.and_comm en]
  · rfl

theorem tecGroup_tecDeliver_same (t g : Nat) (s : State) :
    tecGroup (tecDeliver t g s) t g = (tecGroup s t g).delivered (tileSt s t).gdis := by
  unfold tecDeliver
  dsimp only
  split
  case isTrue h =>
    simp only [Bool.and_eq_true, Bool.not_eq_true'] at h
    obtain ⟨⟨⟨hen, -⟩, hgdis⟩, hdue⟩ := h
    simp [TecGroup.delivered, hen, hgdis, hdue]
  case isFalse h => exact (TecGroup.delivered_of_not h).symm

theorem tecGroup_tecDeliver_ne {t g k : Nat} (s : State) (h : k ≠ g) : tecGroup (tecDeliver t g s) t k = tecGroup s t k := by
  unfold tecDeliver
  dsimp only
  split
  · rw [tecGroup_bump, tecGroup_modGroup_ne _ _ h]
  · rfl

@[simp] theorem noGroups_tecDeliver (t g : Nat) (s : State) :
    (tileSt (tecDeliver t g s) t).noGroups = (tileSt s t).noGroups := by
  unfold tecDeliver
  dsimp only
  split
  · rw [tileSt_bump, noGroups_modGroup]
  · rfl

@[simp] theorem gdis_tecDeliver (t g : Nat) (s : State) : (tileSt (tecDeliver t g s) t).gdis = (tileSt s t).gdis :=
  Tile.eq_of_noGroups Tile.gdis (noGroups_tecDeliver t g s) fun _ => rfl

theorem tecGroup_tecCount_same (t g : Nat) (s : State) :
    tecGroup (tecCount t g s) t g =
      if (tecGroup s t g).en then ((tecGroup s t g).counted (now s)).delivered (tileSt s t).gdis else tecGroup s t g := by
  unfold tecCount
  split
  · rw [tecGroup_tecDeliver_same, tecGroup_modGroup_same, gdis_modGroup]
    rfl
  · rfl

theorem tecGroup_tecCount_ne {t g k : Nat} (s : State) (h : k ≠ g) : tecGroup (tecCount t g s) t k = tecGroup s t k := by
  unfold tecCount
  split
  · rw [tecGroup_tecDeliver_ne _ h, tecGroup_modGroup_ne _ _ h]
  · rfl

@[simp] theorem noGroups_tecCount (t g : Nat) (s : State) : (tileSt (tecCount t g s) t).noGroups = (tileSt s t).noGroups := by
  unfold tecCount
  split
  · rw [noGroups_tecDeliver, noGroups_modGroup]
  · rfl

/-! ### ACTSET, ACTCLR and ACK (R331, R338) -/

theorem tecActive_true {t src : Nat} (s : State) (h : 32 ≤ src) (h' : src < 256) :
    tecActive t src true s = modTile t (fun x => { x with active := x.active ||| BitVec.ofNat 256 (2 ^ src) }) s := by
  simp only [tecActive, if_pos (And.intro h h'), ofNat_bitPut_true]

theorem tecActive_false {t src : Nat} (s : State) (h : 32 ≤ src) (h' : src < 256) :
    tecActive t src false s = modTile t (fun x => { x with active := x.active &&& ~~~(BitVec.ofNat 256 (2 ^ src)) }) s := by
  simp only [tecActive, if_pos (And.intro h h'), ofNat_bitPut_false]

theorem tecActive_low {t src : Nat} (b : Bool) (s : State) (h : src < 32) : tecActive t src b s = s :=
  if_neg fun hc => absurd hc.1 (by omega)

/-- A group whose DELIV, count and timer are clear. -/
def TecGroup.cleared (x : TecGroup) : TecGroup := { x with deliv := false, count := 0, start := none, expired := false }

theorem tecAck_eq (t g : Nat) (s : State) :
    tecAck t g s = if tecPend s t g ≠ 0 then tecCount t g (modGroup t g TecGroup.cleared s)
      else modGroup t g TecGroup.cleared s := by
  have h : tecPend (modGroup t g TecGroup.cleared s) t g = tecPend s t g := tecPend_modGroup ..
  rw [← h]
  rfl

theorem tecGroup_tecAck_ne {t g k : Nat} (s : State) (h : k ≠ g) : tecGroup (tecAck t g s) t k = tecGroup s t k := by
  rw [tecAck_eq]
  split
  · rw [tecGroup_tecCount_ne _ h, tecGroup_modGroup_ne _ _ h]
  · rw [tecGroup_modGroup_ne _ _ h]

/-- One event counted from the cleared group starts the timer, and delivers at once where N is at most 1. -/
theorem TecGroup.cleared_counted_delivered {x : TecGroup} (gdis : Bool) (t : Nat) (hen : x.en = true) :
    (x.cleared.counted t).delivered gdis =
      { x with count := 1, start := some t, expired := false, deliv := !gdis && decide (x.n.toNat ≤ 1) } := by
  simp [TecGroup.cleared, TecGroup.counted, TecGroup.delivered, hen]

theorem tecGroup_tecAck_same (t g : Nat) (s : State) :
    tecGroup (tecAck t g s) t g =
      if (tecGroup s t g).en && decide (tecPend s t g ≠ 0) then
        ((tecGroup s t g).cleared.counted (now s)).delivered (tileSt s t).gdis
      else (tecGroup s t g).cleared := by
  have hen : (tecGroup s t g).cleared.en = (tecGroup s t g).en := rfl
  have hnow : now (modGroup t g TecGroup.cleared s) = now s := rfl
  rw [tecAck_eq]
  by_cases hp : tecPend s t g ≠ 0
  · rw [if_pos hp, tecGroup_tecCount_same, tecGroup_modGroup_same, hen, hnow, gdis_modGroup, decide_eq_true hp, Bool.and_true]
  · rw [if_neg hp, tecGroup_modGroup_same, decide_eq_false hp, Bool.and_false, if_neg Bool.false_ne_true]

/-! ### The write-one-to-clear of PEND (R328) -/

/-- A source is held pending: it is in level mode and its input is high. -/
def Tile.levelHigh (x : Tile) (src : Nat) : Bool :=
  decide (src < 16) && decide (bf x.sense.toNat (2 * src) 2 = 0) && x.input.getLsbD src

/-- The bits of a W1C of group `g` that clear: those written, but for those kept. -/
theorem testBit_clearMask {keep : Nat} (hkeep : keep < 2 ^ 8) (bits g j : Nat) :
    ((bits % 256 &&& (255 - keep)) * 2 ^ (8 * g)).testBit j =
      (decide (j / 8 = g) && bits.testBit (j % 8) && !keep.testBit (j % 8)) := by
  have hwritten : ∀ i, (bits % 256).testBit i = (decide (i < 8) && bits.testBit i) := Nat.testBit_mod_two_pow bits 8
  have hfree : ∀ i, (255 - keep).testBit i = (decide (i < 8) && !keep.testBit i) := fun i => by
    rw [← Nat.testBit_two_pow_sub_succ hkeep i]
    congr 1
    omega
  rw [Nat.testBit_mul_two_pow, Nat.testBit_and, hwritten, hfree]
  by_cases hg : j / 8 = g
  · have hlow : j - 8 * g = j % 8 := by omega
    simp [hlow, hg, show 8 * g ≤ j by omega, Nat.mod_lt]
  · have hout : ¬ (8 * g ≤ j ∧ j - 8 * g < 8) := by omega
    rw [not_and] at hout
    by_cases hle : 8 * g ≤ j
    · simp [hg, hout hle]
    · simp [hg, hle]

theorem pend_tecPendClear (t g bits : Nat) (s : State) {j : Nat} (hj : j < 256) :
    (tileSt (tecPendClear t g bits s) t).pend.getLsbD j =
      ((tileSt s t).pend.getLsbD j && !(decide (j / 8 = g) && bits.testBit (j % 8) && !(tileSt s t).levelHigh j)) := by
  simp only [tecPendClear, tileSt_modTile_same, BitVec.getLsbD_and, BitVec.getLsbD_not, BitVec.getLsbD_ofNat, hj, decide_true,
    Bool.true_and]
  rw [testBit_clearMask (sum_two_pow_lt _ 8), testBit_sum_two_pow]
  by_cases hg : j / 8 = g
  · have hsrc : 8 * g + j % 8 = j := by omega
    simp [Tile.levelHigh, hsrc, Nat.mod_lt, Bool.and_assoc]
  · simp [hg]

theorem tecPendClear_else (t g bits : Nat) (s : State) :
    { tileSt (tecPendClear t g bits s) t with pend := 0 } = { tileSt s t with pend := 0 } := by
  simp [tecPendClear]

/-! ### CTRL (R332) -/

/-- The first `n` groups of a tile are offered delivery, in order. -/
def deliverFirst (t n : Nat) (s : State) : State := (List.range n).foldl (fun s g => tecDeliver t g s) s

theorem deliverFirst_succ (t n : Nat) (s : State) : deliverFirst t (n + 1) s = tecDeliver t n (deliverFirst t n s) := by
  simp [deliverFirst, List.range_succ]

@[simp] theorem gdis_deliverFirst (t n : Nat) (s : State) : (tileSt (deliverFirst t n s) t).gdis = (tileSt s t).gdis := by
  induction n with
  | zero => rfl
  | succ n ih => rw [deliverFirst_succ, gdis_tecDeliver, ih]

theorem tecGroup_deliverFirst (t n k : Nat) (s : State) :
    tecGroup (deliverFirst t n s) t k = if k < n then (tecGroup s t k).delivered (tileSt s t).gdis else tecGroup s t k := by
  induction n with
  | zero => rfl
  | succ n ih =>
    rw [deliverFirst_succ]
    by_cases hk : k = n
    · subst hk
      rw [tecGroup_tecDeliver_same, gdis_deliverFirst, ih, if_neg (Nat.lt_irrefl k), if_pos (Nat.lt_succ_self k)]
    · have hlt : k < n + 1 ↔ k < n := by omega
      simp only [tecGroup_tecDeliver_ne _ hk, ih, hlt]

/-- With GDIS set no group delivers. -/
theorem TecGroup.delivered_true (x : TecGroup) : x.delivered true = x := by
  simp [TecGroup.delivered]

theorem tecGroup_setGdis (t k : Nat) (b : Bool) (s : State) :
    tecGroup (modTile t (fun x => { x with gdis := b }) s) t k = tecGroup s t k :=
  tecGroup_congr (by rw [tileSt_modTile_same]) k

theorem tecCtrl_eq (t : Nat) (b : Bool) (s : State) :
    tecCtrl t b s = if b then modTile t (fun x => { x with gdis := b }) s
      else deliverFirst t 32 (modTile t (fun x => { x with gdis := b }) s) := rfl

theorem gdis_tecCtrl (t : Nat) (b : Bool) (s : State) : (tileSt (tecCtrl t b s) t).gdis = b := by
  rw [tecCtrl_eq]
  split
  · rw [tileSt_modTile_same]
  · rw [gdis_deliverFirst, tileSt_modTile_same]

theorem tecGroup_tecCtrl (t : Nat) (b : Bool) (s : State) {g : Nat} (hg : g < 32) :
    tecGroup (tecCtrl t b s) t g = (tecGroup s t g).delivered b := by
  rw [tecCtrl_eq]
  cases b
  case true => rw [if_pos rfl, tecGroup_setGdis, TecGroup.delivered_true]
  case false =>
    rw [if_neg Bool.false_ne_true, tecGroup_deliverFirst, if_pos hg, tecGroup_setGdis, tileSt_modTile_same]

/-! ### SWIN (R327, R328) -/

/-- A new level is an event, by the SENSE of its source: level and rising edge, falling edge, or both edges. -/
def inputHit (sense : Nat) (old lvl : Bool) : Bool :=
  if sense = 0 then lvl && !old else if sense = 1 then lvl && !old else if sense = 2 then old && !lvl else decide (lvl ≠ old)

/-- A tile, but for its groups, once source `src` has taken the level `lvl`. -/
def Tile.takeInput (src : Nat) (lvl : Bool) (x : Tile) : Tile :=
  { x with
    input := BitVec.ofNat 16 (bitPut x.input.toNat src lvl)
    pend := if inputHit (bf x.sense.toNat (2 * src) 2) (x.input.getLsbD src) lvl then x.pend ||| BitVec.ofNat 256 (2 ^ src)
      else x.pend }

/-- The tile's input takes the level, before its event is counted. -/
def setInput (t src : Nat) (lvl : Bool) (s : State) : State :=
  modTile t (fun x => { x with input := BitVec.ofNat 16 (bitPut x.input.toNat src lvl) }) s

theorem tecInput_eq (t src : Nat) (lvl : Bool) (s : State) :
    tecInput t src lvl s =
      if inputHit (bf (tileSt s t).sense.toNat (2 * src) 2) ((tileSt s t).input.getLsbD src) lvl then
        tecCount t (src / 8) (modTile t (fun x => { x with pend := x.pend ||| BitVec.ofNat 256 (2 ^ src) }) (setInput t src lvl s))
      else setInput t src lvl s := rfl

theorem noGroups_tecInput (t src : Nat) (lvl : Bool) (s : State) :
    (tileSt (tecInput t src lvl s) t).noGroups = ((tileSt s t).takeInput src lvl).noGroups := by
  rw [tecInput_eq, Tile.takeInput]
  split
  · rw [noGroups_tecCount, tileSt_modTile_same, setInput, tileSt_modTile_same]
  · rw [setInput, tileSt_modTile_same]

theorem input_tecInput (t src : Nat) (lvl : Bool) (s : State) {j : Nat} (hj : j < 16) :
    (tileSt (tecInput t src lvl s) t).input.getLsbD j = if j = src then lvl else (tileSt s t).input.getLsbD j := by
  rw [Tile.eq_of_noGroups Tile.input (noGroups_tecInput t src lvl s) fun _ => rfl]
  simp only [Tile.takeInput, getLsbD_ofNat_bitPut, hj, decide_true, Bool.true_and]

theorem swin_tecInput (t src : Nat) (lvl : Bool) (s : State) :
    (tileSt (tecInput t src lvl s) t).swin = (tileSt s t).swin := by
  rw [Tile.eq_of_noGroups Tile.swin (noGroups_tecInput t src lvl s) fun _ => rfl, Tile.takeInput]

theorem sense_tecInput (t src : Nat) (lvl : Bool) (s : State) :
    (tileSt (tecInput t src lvl s) t).sense = (tileSt s t).sense := by
  rw [Tile.eq_of_noGroups Tile.sense (noGroups_tecInput t src lvl s) fun _ => rfl, Tile.takeInput]

theorem pend_tecInput (t src : Nat) (lvl : Bool) (s : State) {j : Nat} (hj : j < 256) :
    (tileSt (tecInput t src lvl s) t).pend.getLsbD j = ((tileSt s t).pend.getLsbD j ||
      (decide (src = j) && inputHit (bf (tileSt s t).sense.toNat (2 * src) 2) ((tileSt s t).input.getLsbD src) lvl)) := by
  rw [Tile.eq_of_noGroups Tile.pend (noGroups_tecInput t src lvl s) fun _ => rfl, Tile.takeInput]
  split
  case isTrue h => rw [BitVec.getLsbD_or, getLsbD_ofNat_two_pow, h]; simp [hj]
  case isFalse h => simp [h]

/-- Sources 1 to `n` of a tile take their levels from the bits of `v`, in order. -/
def takeInputs (t v n : Nat) (s : State) : State :=
  (List.range n).foldl (fun s i => tecInput t (i + 1) (bit v (i + 1)) s) s

theorem takeInputs_succ (t v n : Nat) (s : State) :
    takeInputs t v (n + 1) s = tecInput t (n + 1) (bit v (n + 1)) (takeInputs t v n s) := by
  simp [takeInputs, List.range_succ]

theorem swin_takeInputs (t v n : Nat) (s : State) : (tileSt (takeInputs t v n s) t).swin = (tileSt s t).swin := by
  induction n with
  | zero => rfl
  | succ n ih => rw [takeInputs_succ, swin_tecInput, ih]

theorem sense_takeInputs (t v n : Nat) (s : State) : (tileSt (takeInputs t v n s) t).sense = (tileSt s t).sense := by
  induction n with
  | zero => rfl
  | succ n ih => rw [takeInputs_succ, sense_tecInput, ih]

theorem input_takeInputs (t v n : Nat) (s : State) {j : Nat} (hj : j < 16) :
    (tileSt (takeInputs t v n s) t).input.getLsbD j =
      if 1 ≤ j ∧ j ≤ n then bit v j else (tileSt s t).input.getLsbD j := by
  induction n with
  | zero => rw [if_neg (by omega)]; rfl
  | succ n ih =>
    rw [takeInputs_succ, input_tecInput t _ _ _ hj, ih]
    by_cases h : j = n + 1
    · simp [h]
    · have hle : j ≤ n + 1 ↔ j ≤ n := by omega
      simp only [if_neg h, hle]

/-- Each source from 1 to `n` meets its own old level: a source takes its level once. -/
theorem pend_takeInputs (t v n : Nat) (s : State) (hn : n < 16) {j : Nat} (hj : j < 256) :
    (tileSt (takeInputs t v n s) t).pend.getLsbD j = ((tileSt s t).pend.getLsbD j ||
      (decide (1 ≤ j ∧ j ≤ n) && inputHit (bf (tileSt s t).sense.toNat (2 * j) 2) ((tileSt s t).input.getLsbD j) (bit v j))) := by
  induction n with
  | zero =>
    rw [decide_eq_false (by omega), Bool.false_and, Bool.or_false]
    rfl
  | succ n ih =>
    rw [takeInputs_succ, pend_tecInput t _ _ _ hj, ih (by omega), sense_takeInputs, input_takeInputs t v n s hn,
      if_neg (by omega)]
    by_cases h : n + 1 = j
    · subst h
      have hbefore : ¬ (1 ≤ n + 1 ∧ n + 1 ≤ n) := by omega
      have hnow : 1 ≤ n + 1 ∧ n + 1 ≤ n + 1 := by omega
      rw [decide_eq_false hbefore, decide_eq_true hnow, decide_eq_true (Eq.refl (n + 1)), Bool.false_and, Bool.or_false]
    · have hle : j ≤ n + 1 ↔ j ≤ n := by omega
      simp [h, hle]

/-- A tile whose SWIN is written, before its inputs take their levels. -/
def setSwin (t v : Nat) (s : State) : State := modTile t (fun x => { x with swin := BitVec.ofNat 16 (v / 2 * 2) }) s

theorem tileSt_setSwin (t v : Nat) (s : State) :
    tileSt (setSwin t v s) t = { tileSt s t with swin := BitVec.ofNat 16 (v / 2 * 2) } :=
  tileSt_modTile_same ..

theorem tecSwin_eq (t v : Nat) (s : State) : tecSwin t v s = takeInputs t v 15 (setSwin t v s) := rfl

theorem swin_tecSwin (t v : Nat) (s : State) : (tileSt (tecSwin t v s) t).swin = BitVec.ofNat 16 (v / 2 * 2) := by
  rw [tecSwin_eq, swin_takeInputs, tileSt_setSwin]

theorem input_tecSwin (t v : Nat) (s : State) {j : Nat} (hj : j < 16) :
    (tileSt (tecSwin t v s) t).input.getLsbD j = if 1 ≤ j then bit v j else (tileSt s t).input.getLsbD j := by
  rw [tecSwin_eq, input_takeInputs t v 15 _ hj, tileSt_setSwin]
  simp only [show j ≤ 15 by omega, and_true]

theorem pend_tecSwin (t v : Nat) (s : State) {j : Nat} (h1 : 1 ≤ j) (hj : j < 16) :
    (tileSt (tecSwin t v s) t).pend.getLsbD j = ((tileSt s t).pend.getLsbD j ||
      inputHit (bf (tileSt s t).sense.toNat (2 * j) 2) ((tileSt s t).input.getLsbD j) (bit v j)) := by
  rw [tecSwin_eq, pend_takeInputs t v 15 _ (by decide) (by omega), tileSt_setSwin,
    decide_eq_true (show 1 ≤ j ∧ j ≤ 15 by omega), Bool.true_and]

/-! ### The group timer (R330) -/

section GroupTimer
variable {tile : Fin 12} {g : Fin 32} {s : State} {st : Nat}

theorem execTecGroupTimer_early (hstart : (tecGroup s tile.val g.val).start = some st)
    (hearly : fireAt s < expiryAt 0 (st + 64 * (tecGroup s tile.val g.val).t.toNat) st) :
    execTecGroupTimer tile g s = .next s := by
  have hnot : reached (expiryAt 0 (st + 64 * (tecGroup s tile.val g.val).t.toNat) st) s = false := by
    simp [reached, hearly]
  simp [execTecGroupTimer, hstart, hnot]

theorem execTecGroupTimer_due (hstart : (tecGroup s tile.val g.val).start = some st)
    (hen : (tecGroup s tile.val g.val).en = true) (hdeliv : (tecGroup s tile.val g.val).deliv = false)
    (hexp : (tecGroup s tile.val g.val).expired = false) (ht : (tecGroup s tile.val g.val).t ≠ 0) (hfrozen : s.clk.frozen = none)
    (hdue : expiryAt 0 (st + 64 * (tecGroup s tile.val g.val).t.toNat) st ≤ fireAt s) :
    execTecGroupTimer tile g s =
      .next (tecDeliver tile.val g.val (modGroup tile.val g.val (fun x => { x with expired := true }) s)) := by
  have hreached : reached (expiryAt 0 (st + 64 * (tecGroup s tile.val g.val).t.toNat) st) s = true := by
    simp [reached, hfrozen, hdue]
  simp only [execTecGroupTimer, hstart, hen, hdeliv, hexp, decide_eq_true ht, hreached, Bool.not_false, Bool.and_self, if_true]

/-- An enabled group whose timer has expired delivers unless its tile disables delivery. -/
theorem TecGroup.expired_delivered {x : TecGroup} (gdis : Bool) (hen : x.en = true) (hdeliv : x.deliv = false) :
    TecGroup.delivered gdis { x with expired := true } = { x with expired := true, deliv := !gdis } := by
  simp [TecGroup.delivered, hen, hdeliv]

end GroupTimer

/-! ### The writes of a tile event controller -/

section TecRegisters
variable (tile : Fin 12) (s : State)

theorem actsetActclr_spec (v : W64) :
    (32 ≤ v.toNat % 256 →
      exec (.tecActset tile v) s = .next (modTile tile.val (fun x => { x with
        active := x.active ||| BitVec.ofNat 256 (2 ^ (v.toNat % 256)) }) s) ∧
      exec (.tecActclr tile v) s = .next (modTile tile.val (fun x => { x with
        active := x.active &&& ~~~(BitVec.ofNat 256 (2 ^ (v.toNat % 256))) }) s)) ∧
    (v.toNat % 256 < 32 → exec (.tecActset tile v) s = .next s ∧ exec (.tecActclr tile v) s = .next s) := by
  have hsrc : bf v.toNat 0 8 = v.toNat % 256 := bf_zero _ 8
  have hlt : v.toNat % 256 < 256 := Nat.mod_lt _ (by decide)
  simp only [exec_tecActset, exec_tecActclr, execTecActset, execTecActclr, hsrc]
  constructor
  · intro h
    exact ⟨congrArg _ (tecActive_true s h hlt), congrArg _ (tecActive_false s h hlt)⟩
  · intro h
    exact ⟨congrArg _ (tecActive_low true s h), congrArg _ (tecActive_low false s h)⟩

theorem ack_spec (v : W64) (g : Nat) (x : TecGroup) (again : Bool) (hg : g = v.toNat % 32) (hx : x = tecGroup s tile.val g)
    (hagain : again = (x.en && decide (bf (tileSt s tile.val).pend.toNat (8 * g) 8 ≠ 0))) :
    ∃ s', exec (.tecAck tile v) s = .next s' ∧ (∀ k, k ≠ g → tecGroup s' tile.val k = tecGroup s tile.val k) ∧
      tecGroup s' tile.val g = { x with
        count := again.toNat, start := (if again then some (now s) else none), expired := false,
        deliv := again && !(tileSt s tile.val).gdis && decide (x.n.toNat ≤ 1) } := by
  have hfield : bf v.toNat 0 5 = g := (bf_zero _ 5).trans hg.symm
  have hgroup := tecGroup_tecAck_same tile.val g s
  rw [← hx, tecPend, ← hagain] at hgroup
  refine ⟨tecAck tile.val g s, by rw [exec_tecAck, execTecAck, hfield], fun k hk => tecGroup_tecAck_ne s hk, hgroup.trans ?_⟩
  cases again
  case false => rfl
  case true =>
    have hen : x.en = true := (Bool.and_eq_true_iff.mp hagain.symm).1
    exact TecGroup.cleared_counted_delivered _ _ hen

theorem swinWrite_spec (v : W64) :
    ∃ s', exec (.tecSwinWrite tile v) s = .next s' ∧ (tileSt s' tile.val).swin = BitVec.ofNat 16 (v.toNat / 2 * 2) ∧
      (∀ j, 1 ≤ j → j < 16 → (tileSt s' tile.val).input.getLsbD j = v.getLsbD j) ∧
      (tileSt s' tile.val).input.getLsbD 0 = (tileSt s tile.val).input.getLsbD 0 ∧
      (∀ j, 1 ≤ j → j < 16 → (tileSt s tile.val).pend.getLsbD j = true → (tileSt s' tile.val).pend.getLsbD j = true) ∧
      (∀ j, 1 ≤ j → j < 16 → bf (tileSt s tile.val).sense.toNat (2 * j) 2 = 1 → (tileSt s tile.val).input.getLsbD j = false →
        v.getLsbD j = true → (tileSt s' tile.val).pend.getLsbD j = true) := by
  have hbit : ∀ j, bit v.toNat j = v.getLsbD j := fun j => BitVec.testBit_toNat v
  refine ⟨tecSwin tile.val v.toNat s, exec_tecSwinWrite s tile v, swin_tecSwin .., fun j h1 hj => ?_, ?_, fun j h1 hj hp => ?_,
    fun j h1 hj hsense hold hnew => ?_⟩
  · rw [input_tecSwin _ _ _ hj, if_pos h1, hbit]
  · exact input_tecSwin _ _ _ (by decide)
  · rw [pend_tecSwin _ _ _ h1 hj, hp, Bool.true_or]
  · rw [pend_tecSwin _ _ _ h1 hj, hsense, hold, hbit, hnew]
    exact Bool.or_true _

end TecRegisters

/-- Settles O31: each register write by its own lemmas, and the group timer once its expiry has come. -/
theorem tecRegisters : Obligations.TecRegisters := by
  intro tile s
  refine ⟨actsetActclr_spec tile s, ack_spec tile s, ?pendClear, ?ctrl, swinWrite_spec tile s, ?stray, ?timer⟩
  case pendClear =>
    exact fun g v => ⟨_, exec_tecPendClear s tile g v, tecPendClear_else .., fun j hj => pend_tecPendClear tile.val g.val v.toNat s hj⟩
  case ctrl =>
    intro v
    refine ⟨_, exec_tecCtrlWrite s tile v, gdis_tecCtrl .., fun g hg x hx => ?_⟩
    subst hx
    exact tecGroup_tecCtrl tile.val _ s hg
  case stray =>
    have hstray : ((tileSt s tile.val).stray.zeroExtend 64).toNat = (tileSt s tile.val).stray.toNat :=
      BitVec.toNat_setWidth_of_le (by decide)
    rw [exec_tecStrayRead, execTecStrayRead, tecStray, hstray]
  case timer =>
    rintro g st x rfl hstart hen hdeliv hexp ht hfrozen
    refine ⟨execTecGroupTimer_early hstart, fun hdue => ⟨_, execTecGroupTimer_due hstart hen hdeliv hexp ht hfrozen hdue, ?_⟩⟩
    rw [tecGroup_tecDeliver_same, tecGroup_modGroup_same, gdis_modGroup, TecGroup.expired_delivered _ hen hdeliv]

end Sys2Proof.Machine
end
